-- ==== Sys2Proof/Word.lean ====
section
/-!
DEFINITION. Bit-vector abbreviations and the finite-map type the model stores sparse tables in.
-/
namespace Sys2Proof

/-- A byte, the smallest addressable unit of HBM and of every wire structure (R10). -/
abbrev Byte := BitVec 8
/-- A 16-bit field. -/
abbrev W16 := BitVec 16
/-- A 32-bit field. -/
abbrev W32 := BitVec 32
/-- A 64-bit word, the unit every layout table of the spec is given in. -/
abbrev W64 := BitVec 64

/-- A sparse table from keys to values, keys strictly rising. -/
abbrev SMap := List (Nat × Nat)

end Sys2Proof
end

