-- ==== Sys2Proof/Syntax.lean ====
section
/-!
DEFINITION. The commands of the HN4812: one constructor of `Instr` for each row of spec/opcode_table.json, with the operands the spec's
layout tables and events give it. Reserved body bits are ignored on receipt (R11) and so are no operand; reserved header bits are, because R246 checks them.
-/
namespace Sys2Proof

/-- Jinetia header, Table 8-1 (R245), less the opcode, which the command gives. -/
structure Hdr where
  version : BitVec 4
  completion : Bool
  device : Bool
  /-- The three reserved fields of word 0 and word 1, high bits first: 10 + 8 + 16 bits. -/
  reserved : BitVec 34
  status : BitVec 8
  partition : BitVec 8
  tenant : W16
  epoch : W16
  tag : W32
  handle : W64
  bodyLen : W32
  /-- CRC-32C over header bytes 0 to 27. -/
  check : W32
  deriving DecidableEq, Repr

/-- A received message: its header, the queue pair that carried it and its transport length in bytes (R244, R246). -/
structure Rx where
  qp : Nat
  length : Nat
  hdr : Hdr
  deriving DecidableEq, Repr

/-- A node's or peer's completion of a device-initiated request, named by the tag it copies (R247). -/
structure Reply where
  qp : Nat
  tag : W32
  status : BitVec 8
  deriving DecidableEq, Repr

/-- Table 8-4 (R250). -/
structure RegisterBody where
  role : BitVec 4
  join : Bool
  switchable : Bool
  classic : Bool
  allTenants : Bool
  variantCount : BitVec 8
  payloadFormats : W16
  deliveredFormats : W16
  prefillRate : W32
  decodeCapacity : W16
  regionAddr : W64
  regionKey : W32
  regionLen : W32
  joinNode : W16
  joinKey : W32
  ident : W64
  variants : List W16
  deriving DecidableEq, Repr

/-- Table 8-5 (R252). -/
structure HeartbeatBody where
  queued : W32
  active : W16
  warmCount : BitVec 4
  warm : List W16
  deriving DecidableEq, Repr

/-- Table 8-6 (R255); `tokens` are those that follow inline. -/
structure AdmitBody where
  variant : W16
  layers : BitVec 8
  kvHeads : BitVec 6
  group : BitVec 4
  fmt : BitVec 4
  winPolicy : Bool
  window : BitVec 13
  svc : BitVec 2
  byRef : Bool
  noLookup : Bool
  headMask : W64
  posBase : BitVec 23
  posLimit : BitVec 23
  declared : BitVec 23
  tokenCount : BitVec 23
  tokenAddr : W64
  tokenKey : W32
  tokenLen : W32
  context : List W64
  tokens : List W32
  deriving DecidableEq, Repr

/-- Table 8-8 (R259). -/
structure HandoffBody where
  target : W16
  classic : Bool
  pendCount : BitVec 5
  leaseGen : W16
  pending : List W32
  deriving DecidableEq, Repr

/-- Table 8-9 (R260); the action is the command's, except that RELEASE_SECURE must carry action 1. -/
structure ReleaseBody where
  action : BitVec 2
  pendCount : BitVec 5
  leaseGen : W16
  pending : List W32
  deriving DecidableEq, Repr

/-- Table 5-9 (R175). -/
structure LookupBody where
  variant : W16
  tokenCount : BitVec 23
  byRef : Bool
  privateChain : Bool
  publicChain : Bool
  headMask : W64
  tokenAddr : W64
  tokenKey : W32
  tokenLen : W32
  tokens : List W32
  deriving DecidableEq, Repr

/-- Table 5-10, PUBLISH (R176). -/
structure PublishBody where
  length : BitVec 23
  cls : BitVec 2
  deriving DecidableEq, Repr

/-- Table 4-1 (R116); `payload` is the inline payload in transmission order. -/
structure AppendBody where
  firstLayer : BitVec 8
  layerCount : BitVec 8
  firstPos : BitVec 23
  posCount : BitVec 13
  fmt : BitVec 4
  byRef : Bool
  ledgerPresent : Bool
  headMask : W64
  payloadAddr : W64
  payloadKey : W32
  payloadLen : W32
  payload : List Byte
  deriving DecidableEq, Repr

/-- Table 3-2 (R81). -/
structure RowBody where
  handle : W64
  queryPos : BitVec 23
  keyLimit : BitVec 23
  tolClass : BitVec 2
  kerfAllowed : Bool
  refreshFallback : Bool
  inlineKv : Bool
  winPolicy : Bool
  group : BitVec 4
  headMask : W64
  window : BitVec 13
  deriving DecidableEq, Repr

/-- Table 3-1 (R80); rows − 1 is `rowCount`, and `payload` the inline query payload. -/
structure AttendBody where
  layer : W16
  rowCount : BitVec 10
  qFmt : BitVec 4
  oFmt : BitVec 4
  oMode : BitVec 2
  qByRef : Bool
  oByRef : Bool
  noFusion : Bool
  scale : W32
  qLen : W32
  qAddr : W64
  qKey : W32
  oKey : W32
  oAddr : W64
  oAvail : W32
  rows : List RowBody
  payload : List Byte
  deriving DecidableEq, Repr

/-- Table 4-3 (R141), less the action, which the command gives. -/
structure StageBody where
  firstLayer : BitVec 8
  layerCount : BitVec 8
  early : Bool
  globalField : BitVec 2
  firstPos : BitVec 23
  endPos : BitVec 23
  headMask : W64
  deriving DecidableEq, Repr

/-- Table 4-4 (R143). -/
structure DeliverBody where
  firstLayer : BitVec 8
  layerCount : BitVec 8
  depth : BitVec 4
  kerfAllowed : Bool
  firstPos : BitVec 23
  posLimit : BitVec 23
  headMask : W64
  regionAddr : W64
  regionKey : W32
  regionLen : W32
  deriving DecidableEq, Repr

/-- An RDMA WRITE into the mailbox window (R389): its transport form, its immediate, and the message it carries. -/
structure MailboxWrite where
  qp : Nat
  addr : W64
  key : W32
  packets : Nat
  length : Nat
  imm : W32
  hdr : Hdr
  body : List Byte
  deriving DecidableEq, Repr

/-- Table 8-14 (R268), less the kind, which the command gives. -/
structure LedgerBody where
  handle : W64
  firstPos : BitVec 23
  geometry : AdmitBody
  admitter : W64
  holder : W64
  context : List W64
  tokens : List W32
  deriving DecidableEq, Repr

/-- One line of a Relay page list (Table 8-15). -/
structure RelayPage where
  layer : BitVec 8
  head : BitVec 6
  index : BitVec 16
  ref : W32
  deriving DecidableEq, Repr

/-- A Relay page image (R201) as it lies in the relay window, with the verdict of its AES-256-GCM tag (R273, log 5). -/
structure RelayImage where
  tagOk : Bool
  fmt : BitVec 4
  coded : Bool
  valid : BitVec 7
  keyTable : W64
  valueTable : W64
  content : List Byte
  deriving DecidableEq, Repr

/-- Table 8-15 (R273), less the kind. `images` are those the sender has written (kinds 0 and 3). -/
structure RelayBody where
  pageCount : BitVec 16
  handle : W64
  firstPos : BitVec 23
  endPos : BitVec 23
  winOffset : W32
  winLen : W32
  pages : List RelayPage
  images : List RelayImage
  deriving DecidableEq, Repr

/-- PEER_PROBE body (R272). -/
structure ProbeBody where
  variant : W16
  tokenCount : BitVec 23
  headMask : W64
  tenant : W16
  tokens : List W32
  deriving DecidableEq, Repr

/-- A Communication Management REQ (R280) with the private data of Table 9-3 (R281). -/
structure CmReq where
  lp : Nat
  gidIndex : Nat
  srcGid : Nat
  vlan : Nat
  mtu : Nat
  partition : BitVec 8
  mode : BitVec 2
  slotSize : BitVec 4
  slotCount : BitVec 4
  shareRing : BitVec 24
  ringAddr : W64
  ringKey : W32
  ringLen : W32
  deriving DecidableEq, Repr

/-- A write into a command ring (R282): immediate, length, and the slots' first address as a slot number. -/
structure RingWrite where
  qp : Nat
  slot : Nat
  length : Nat
  imm : W32
  bytes : List Byte
  deriving DecidableEq, Repr

/-- How a device RDMA READ ended (R288): data after every ICRC check, or a remote access error. -/
inductive ReadResult where
  | data (bytes : List Byte)
  | accessError
  deriving DecidableEq, Repr

/-- Remote transport answer on a queue pair (R302). -/
inductive AckKind where
  | ack (packets : Nat)
  | nakSequence
  | nakAccess
  deriving DecidableEq, Repr

/-- Why a received frame was dropped by its check (R303). -/
inductive FrameCheck where
  | fcs
  | icrc
  deriving DecidableEq, Repr

/-- An unsupported frame (R279); global PAUSE is counted and ignored. -/
inductive UnsupportedFrame where
  | globalPause
  | other
  deriving DecidableEq, Repr

/-- Verdict of the integrity check of an HBM read (R96, R378). -/
inductive HbmVerdict where
  | clean
  | correctable
  | uncorrectable
  deriving DecidableEq, Repr

/-- The read of a flash page as far as its own die goes (R226): passed at step n of Table 7-7 with a corrected-bit count (0 is the
first read, 8 is parity reconstruction), or every step failed. -/
inductive FlashVerdict where
  | pass (step : Nat) (corrected : Nat)
  | unreadable
  deriving DecidableEq, Repr

/-- Management request envelope (R352, R353): the session it names, its frame counter, its request number, and whether the frame decrypts. -/
structure Mgmt where
  session : W32
  counter : Nat
  request : Nat
  opens : Bool
  deriving DecidableEq, Repr

/-- One item of a REQUEST (Table 11-7). -/
structure Item where
  index : W16
  sub : BitVec 8
  length : W16
  last : Bool
  offset : W32
  value : List Byte
  deriving DecidableEq, Repr

/-- A coded fault record as its source fills it, words 0 to 2 of Table 12-1 (R361). -/
structure SourceRecord where
  source : BitVec 12
  kind : BitVec 8
  partition : BitVec 6
  partitionValid : Bool
  tenant : W16
  tenantValid : Bool
  detail : W16
  address : BitVec 48
  localCount : W64
  deriving DecidableEq, Repr

/-- What makes a record reach the collector: a block detects an error now, or the oldest record of an island's fault queue arrives (R365). -/
inductive FaultArrival where
  | detected (island : Nat) (r : SourceRecord)
  | queued (island : Nat)
  deriving DecidableEq, Repr

/-- A severe signal pair (Table 12-4, R367). -/
inductive SeverePair where
  | lockstep
  | clockLoss (island : Nat)
  | rail (number : Nat)
  | thermalTrip (sensor : Nat)
  | handshake (waiter : Nat) (stop : Option Nat)
  deriving DecidableEq, Repr

/-- Outcome of each boot step that can fail (R404, R405, R212, R434): stacks, ports and NAND as the board shows them. -/
structure BootReport where
  romOk : Bool
  areaOk : Bool
  pufOk : Bool
  activeImageOk : Bool
  otherImageOk : Bool
  failedStacks : List Nat
  nandOk : Bool
  failedPorts : List Nat
  rootValid : List Nat
  mfgEn : Bool
  deriving DecidableEq, Repr

/-- The reading of one thermal sensor in tenths of a degree Celsius (R430, R431). -/
structure ThermalReading where
  sensor : Nat
  deciC : Int
  deriving DecidableEq, Repr

/-- What TELEMETRY_REFRESH reads (R382): power in W and the temperatures as binary32, and the energy in J since the last reading. -/
structure Telemetry where
  power : W32
  powerMilliW : Nat
  energyJ : Nat
  dieTemps : List W32
  stackTemp : W32
  deriving DecidableEq, Repr

/-- How a firmware switch's steps 1, 4 and 5 end (R409, R410). -/
structure SwitchReport where
  verified : Bool
  loaded : Bool
  measured : Bool
  durationMs : Nat
  deriving DecidableEq, Repr

/-- Tenant key record, Table 10-11 (R328), as it opens under the session's key. -/
structure KeyRecord where
  slot : Nat
  opens : Bool
  tenant : W16
  keyId : W32
  key : List Byte
  deriving DecidableEq, Repr

/-- The commands. Each cites the rule its row of the table names. -/
inductive Instr where
  /-- R250 -/
  | register (m : Rx) (b : RegisterBody)
  /-- R252 -/
  | heartbeat (m : Rx) (b : HeartbeatBody)
  /-- R254, bit 63 clear -/
  | deregister (m : Rx)
  /-- R254, bit 63 set -/
  | deregisterReturnLeases (m : Rx)
  /-- R256 -/
  | admitTurn (m : Rx) (b : AdmitBody)
  /-- R258 -/
  | placeCompletion (r : Reply)
  /-- R258 -/
  | acceptTimeout (handle : W64)
  /-- R262 -/
  | placementWaitExpiry (handle : W64)
  /-- R259 -/
  | handoff (m : Rx) (b : HandoffBody)
  /-- R260, action 0 -/
  | releaseEndTurn (m : Rx) (b : ReleaseBody)
  /-- R260, action 1 -/
  | releaseFree (m : Rx) (b : ReleaseBody)
  /-- R260 -/
  | releaseSecure (m : Rx) (b : ReleaseBody)
  /-- R133 -/
  | drainComplete (handle : W64)
  /-- R175 -/
  | lookup (m : Rx) (b : LookupBody)
  /-- R173 -/
  | publish (m : Rx) (b : PublishBody)
  /-- R174 -/
  | unpublish (m : Rx) (first : BitVec 23)
  /-- R120 -/
  | append (m : Rx) (b : AppendBody)
  /-- R125 -/
  | refreshAppend (m : Rx) (b : AppendBody)
  /-- R122 -/
  | appendCompletion (id : Nat)
  /-- R126 -/
  | frameFreedForAppend (id : Nat)
  /-- R126 -/
  | appendHoldExpiry (id : Nat)
  /-- R85 -/
  | attend (m : Rx) (b : AttendBody)
  /-- R112 -/
  | tileIssue (tile : Nat)
  /-- R107 -/
  | fuseWaitExpiry (tile : Nat)
  /-- R101 -/
  | tileCompute (tile : Nat) (verdict : HbmVerdict)
  /-- R102 -/
  | scarfMerge (partial_ : Nat)
  /-- R86 -/
  | attendCompletion (id : Nat)
  /-- R141, action 0 -/
  | stage (m : Rx) (b : StageBody)
  /-- R142, action 1 -/
  | stageAndPin (m : Rx) (b : StageBody)
  /-- R141, action 2 -/
  | clearPinned (m : Rx) (b : StageBody)
  /-- R136 -/
  | stagingDone (id : Nat)
  /-- R138 -/
  | stageTimeout (id : Nat)
  /-- R143 -/
  | deliver (m : Rx) (b : DeliverBody)
  /-- R145 -/
  | deliverLayerWrite (id : Nat)
  /-- R146 -/
  | progress (m : Rx) (tag : W32) (count : W16)
  /-- R147 -/
  | deliveryIdleTimeout (id : Nat)
  /-- R147 -/
  | deliverCompletion (id : Nat)
  /-- R390 -/
  | mailboxWrite (w : MailboxWrite)
  /-- R389 -/
  | mailboxDoorbell (w : MailboxWrite)
  /-- R391 -/
  | mailboxReceiverCompletion (r : Reply)
  /-- R391 -/
  | mailboxDeliveryTimeout (partition : Nat) (box : Nat)
  /-- R391 -/
  | mailboxOperatorTake (g : Mgmt)
  /-- R393 -/
  | operatorMailboxSend (g : Mgmt) (body : List Byte)
  /-- R265 -/
  | roleAdviceCompletion (r : Reply)
  /-- R265 -/
  | adviceEvaluation (partition : Nat)
  /-- R265 -/
  | adviceHoldEnd (partition : Nat) (node : Nat)
  /-- R253 -/
  | leaseTimeout (node : Nat)
  /-- R268 -/
  | ledgerSyncCreate (m : Rx) (b : LedgerBody)
  /-- R268 -/
  | ledgerSyncTokens (m : Rx) (b : LedgerBody)
  /-- R268 -/
  | ledgerSyncCut (m : Rx) (b : LedgerBody)
  /-- R268 -/
  | ledgerSyncFree (m : Rx) (b : LedgerBody)
  /-- R269 -/
  | ledgerSyncReadmit (m : Rx) (b : LedgerBody)
  /-- R268; the completion carries the mirrored position -/
  | ledgerSyncCompletion (r : Reply) (mirrored : BitVec 23)
  /-- R48 -/
  | ledgerMirrorTimeout (handle : W64)
  /-- R274, kind 0 -/
  | relayStore (m : Rx) (b : RelayBody)
  /-- R274, kind 1 -/
  | relayFetchAndMove (m : Rx) (b : RelayBody)
  /-- R274, kind 2 -/
  | relayFetchCopy (m : Rx) (b : RelayBody)
  /-- R274, kind 3 -/
  | relayMirror (m : Rx) (b : RelayBody)
  /-- R274; references of kind 0, or images of kinds 1 and 2 -/
  | relayCompletion (r : Reply) (refs : List W32) (images : List RelayImage)
  /-- R272 -/
  | relayTimeout (id : Nat)
  /-- R272 -/
  | peerProbe (m : Rx) (b : ProbeBody)
  /-- R272 -/
  | peerProbeCompletion (r : Reply) (matched : BitVec 23) (holder : W64)
  /-- R267 -/
  | peerTimeout (node : Nat)
  /-- R274 -/
  | migrationStart (g : Mgmt)
  /-- R280 -/
  | cmReq (r : CmReq)
  /-- R286 -/
  | cmDisconnect (qp : Nat)
  /-- R282 -/
  | ringMessageWrite (w : RingWrite)
  /-- R283 -/
  | ringConsumerUpdate (qp : Nat) (value : W64)
  /-- R284 -/
  | completionRingWrite (ring : Nat)
  /-- R285 -/
  | sendReceived (qp : Nat) (length : Nat)
  /-- R285 -/
  | rnrNakReceived (qp : Nat)
  /-- R287 -/
  | nodeReadOrWriteRefused (qp : Nat) (isRead : Bool)
  /-- R288 -/
  | rdmaReadComplete (id : Nat) (result : ReadResult)
  /-- R302 -/
  | ackReceived (qp : Nat) (kind : AckKind)
  /-- R302 -/
  | ackTimeout (qp : Nat)
  /-- R299 -/
  | cePacketReceived (qp : Nat)
  /-- R300 -/
  | cnpReceived (qp : Nat)
  /-- R300 -/
  | rateIncreaseEvent (qp : Nat)
  /-- R300 -/
  | alphaTimerExpiry (qp : Nat)
  /-- R301 -/
  | pfcFrameReceived (lp : Nat) (pause : BitVec 8) (enable : BitVec 8)
  /-- R301 -/
  | ingressBufferThreshold (lp : Nat) (share : Nat)
  /-- R301 -/
  | pauseWatchdog (lp : Nat) (priority : Nat)
  /-- R303 -/
  | frameCheckDrop (lp : Nat) (check : FrameCheck)
  /-- R279 -/
  | unsupportedFrameDrop (lp : Nat) (frame : UnsupportedFrame)
  /-- R294 -/
  | egressFrameSend (lp : Nat)
  /-- R292 -/
  | shaperWindowBoundary (die : Nat)
  /-- R29 -/
  | periodBoundary (island : Nat)
  /-- R21 -/
  | clockRelockDone (island : Nat)
  /-- R27 -/
  | trussHandshakeTimeout (waiter : Nat) (stop : Option Nat)
  /-- R68 -/
  | pageMove (id : Nat)
  /-- R69 -/
  | shootdownComplete (id : Nat)
  /-- R73 -/
  | ageScanVisit (handle : W64)
  /-- R52 -/
  | extentEvacuation (extent : Nat)
  /-- R58 -/
  | headTableGrowth (handle : W64)
  /-- R195 -/
  | tableBuild (partition : Nat)
  /-- R196 -/
  | tableSetInstalled (partition : Nat)
  /-- R165 -/
  | mortiseInsertion (id : Nat)
  /-- R172 -/
  | secondLevelSearchDone (id : Nat)
  /-- R168 -/
  | mortiseCompaction (bank : Nat)
  /-- R177 -/
  | mortisePatrol (bank : Nat) (index : Nat) (parityOk : Bool)
  /-- R157 -/
  | bankModeRequest (g : Mgmt) (mode : Byte)
  /-- R157 -/
  | modeMoveComplete
  /-- R216 -/
  | flashProgramConfirm (island : Nat) (superblock : Nat) (row : Nat)
  /-- R216 -/
  | rowPadTimeout (island : Nat) (superblock : Nat) (row : Nat)
  /-- R226 -/
  | flashReadComplete (id : Nat) (verdict : FlashVerdict)
  /-- R235 -/
  | flashEraseFailure (island : Nat) (superblock : Nat) (member : Nat)
  /-- R236 -/
  | flashProgramFailure (island : Nat) (superblock : Nat) (slot : Nat)
  /-- R237 -/
  | gcTargetFailure (island : Nat) (superblock : Nat) (member : Nat)
  /-- R232 -/
  | garbageCollection (island : Nat) (tlc : Bool)
  /-- R234 -/
  | victimErase (island : Nat) (superblock : Nat)
  /-- R228 -/
  | journalFlush (island : Nat)
  /-- R228 -/
  | checkpoint (island : Nat)
  /-- R227 -/
  | flashPatrolRead (island : Nat) (superblock : Nat) (slot : Nat) (verdict : FlashVerdict)
  /-- R241 -/
  | secureReleaseComplete (handle : W64)
  /-- R242 -/
  | dieTemperatureSample (island : Nat) (temps : List Int)
  /-- R378 -/
  | hbmPatrolRead (channel : Nat) (unit : Nat) (verdict : HbmVerdict)
  /-- R340 -/
  | commit (g : Mgmt) (byOperation : Bool) (value : Byte)
  /-- R310 -/
  | drainLimitExpiry
  /-- R310 -/
  | epochDrainEnd
  /-- R313 -/
  | sliceDrainDone (slice : Nat)
  /-- R313 -/
  | zeroingDone (slice : Nat)
  /-- R340 -/
  | discardShadow (g : Mgmt) (value : Byte)
  /-- R342 -/
  | shadowReservation (g : Mgmt) (value : Byte)
  /-- R342 -/
  | reservationLimitExpiry
  /-- R357 -/
  | timeOfDayWrite (g : Mgmt) (value : W64)
  /-- R344 -/
  | applyMgmtConfiguration (g : Mgmt) (value : Byte)
  /-- R278 -/
  | linkReset (g : Mgmt) (value : Byte)
  /-- R345 -/
  | credentialWrite (g : Mgmt) (item : Item)
  /-- R345 -/
  | serviceRoleDisable (g : Mgmt)
  /-- R79 -/
  | sequenceWindowSelect (g : Mgmt) (handle : W64)
  /-- R385 -/
  | meterTenantSelect (g : Mgmt) (tenant : W16)
  /-- R326 -/
  | operatorReportRead (g : Mgmt)
  /-- R376 -/
  | fenceUnit (g : Mgmt) (value : Byte)
  /-- R377; `passes` is the unit's return test -/
  | returnUnit (g : Mgmt) (value : Byte) (passes : Bool)
  /-- R370 -/
  | clearFirstError (g : Mgmt) (value : Byte)
  /-- R403 -/
  | deviceReset (g : Mgmt) (request : W32) (boot : BootReport)
  /-- R403 -/
  | dieReset (g : Mgmt) (request : W32) (boot : BootReport)
  /-- R403 -/
  | clusterReset (g : Mgmt) (request : W32)
  /-- R403 -/
  | partitionReset (g : Mgmt) (request : W32)
  /-- R403 -/
  | portReset (g : Mgmt) (request : W32)
  /-- R406 -/
  | orderlyShutdown (g : Mgmt) (value : Byte)
  /-- R406 -/
  | shutdownRequestTimeout
  /-- R408 -/
  | imageSegmentWrite (g : Mgmt) (item : Item)
  /-- R408; the verdicts of the signature and configuration checks, and the version the image carries -/
  | imageVerify (g : Mgmt) (value : Byte) (signed : Bool) (configOk : Bool) (version : W64)
  /-- R409 -/
  | firmwareSwitch (g : Mgmt) (value : Byte) (report : SwitchReport)
  /-- R409 -/
  | firmwareHoldLimitExpiry
  /-- R398 -/
  | clusterHoldOff (g : Mgmt) (value : Byte)
  /-- R399 -/
  | powerCapStep
  /-- R396 -/
  | clusterGate (cluster : Nat)
  /-- R396 -/
  | clusterWake (cluster : Nat)
  /-- R350 -/
  | mgmtHello (handshake : W64) (slot : Byte) (nonce : List Byte) (ek : List Byte) (address : Nat)
  /-- R350; `sigOk` is the ML-DSA-65 verdict over H2 -/
  | mgmtFinish (handshake : W64) (sigOk : Bool)
  /-- R352 -/
  | mgmtClose (g : Mgmt)
  /-- R353 -/
  | mgmtRead (g : Mgmt) (items : List Item)
  /-- R336 -/
  | mgmtWrite (g : Mgmt) (items : List Item)
  /-- R353 -/
  | mgmtBlockRead (g : Mgmt) (item : Item) (lastSub : Byte)
  /-- R350 -/
  | mgmtHandshakeTimeout (handshake : W64)
  /-- R352 -/
  | mgmtSessionIdleTimeout (slot : Nat)
  /-- R352 -/
  | sessionCloseCommand (g : Mgmt) (value : Byte)
  /-- R348 -/
  | slotLockoutEnd (slot : Nat)
  /-- R327, kind 0 -/
  | attestHelloTenantKeys (slot : Nat) (partition : Byte) (nonce : List Byte) (ek : List Byte)
  /-- R327, kind 1 -/
  | attestHelloPeerPairing (slot : Nat) (partition : Byte) (nonce : List Byte) (ek : List Byte)
  /-- R327, kind 2 -/
  | attestHelloReportOnly (slot : Nat) (partition : Byte) (nonce : List Byte)
  /-- R329; whether the frame opens, and the verdict of the signature and transcript; for kind 1 the identity hash of the report -/
  | attestFinish (slot : Nat) (opens : Bool) (sigOk : Bool) (identityHash : List Byte)
  /-- R330 -/
  | startPairing (g : Mgmt) (value : Byte)
  /-- R329 -/
  | pairingDeviceReceived (slot : Nat) (sigOk : Bool) (identityHash : List Byte)
  /-- R328, operation 1 -/
  | tenantKeyRelease (k : KeyRecord)
  /-- R325, operation 2 -/
  | tenantKeyErase (k : KeyRecord)
  /-- R328, operation 3 -/
  | tenantKeyQuery (k : KeyRecord)
  /-- R327 -/
  | attestClose (slot : Nat)
  /-- R327 -/
  | attestSessionIdleTimeout (slot : Nat)
  /-- R330 -/
  | peerLinkRekey (peer : Nat)
  /-- R355 -/
  | i3cWrite (index : W16) (sub : Byte) (offset : Option W16) (last : Bool) (value : List Byte) (boot : BootReport)
  /-- R355 -/
  | i3cRead (index : W16) (sub : Byte) (offset : Option W16)
  /-- R355 -/
  | i3cAddressAssignment (address : BitVec 7)
  /-- R368 -/
  | faultRecord (a : FaultArrival)
  /-- R365 -/
  | faultQueueDropReport (island : Nat)
  /-- R367; `broken` when the pair reads (0, 0) or (1, 1) for 64 cycles -/
  | severeSignal (pair : SeverePair) (broken : Bool)
  /-- R371 -/
  | faultAliveToggle
  /-- R380 -/
  | throttleNChange (level : Bool)
  /-- R380 -/
  | vrFaultNChange (level : Bool)
  /-- R380 -/
  | resetNChange (level : Bool) (boot : BootReport)
  /-- R380 -/
  | inputStuck (input : Nat)
  /-- R380 -/
  | inputChatterEnd (input : Nat)
  /-- R381 -/
  | safeLevelExit (cause : Nat)
  /-- R420; the millivolts each die's speed monitors call for -/
  | avsRefresh (die : Nat) (millivolts : Nat)
  /-- R422 -/
  | avsTimeout (die : Nat)
  /-- R431 -/
  | thermalSample (r : ThermalReading)
  /-- R382 -/
  | telemetryRefresh (t : Telemetry)
  /-- R333 -/
  | congestionLevelUpdate
  /-- R385 -/
  | meterSave
  /-- R403 -/
  | linkTrained (port : Nat)
  /-- R280 -/
  | cmRtu (qp : Nat)
  /-- R302 -/
  | ackCoalescingTimeout (qp : Nat)
  /-- R344 -/
  | arpOrNeighbourSolicitation (isArp : Bool) (target : Nat)
  /-- R424 -/
  | vddAuxLoss
  /-- R267 -/
  | peerHeartbeatSend
  deriving DecidableEq, Repr

end Sys2Proof
end

