-- ==== Sys2Proof/Config.lean ====
section
/-!
DEFINITION. The free values: what the spec leaves to chance, to an implementation, or to an external standard it only names.
Every constant here is opaque: no proof can see a value of it.
-/
namespace Sys2Proof.Config

/-- The n-th free value a run meets: a random draw (R437, R251, R314), a rounding the spec does not fix (R103), any value it leaves open.
Applied to the counter `Dev.freeCount` (log 1). -/
opaque freeValue : Nat → W64

/-- Hash positions 0 to 2 of a handle in a superblock's 4,096-bit handle filter (R241); the spec gives no hash (log 2). -/
opaque filterHash : Nat → Nat → BitVec 12

/-- The identity seed that the SRAM PUF regenerates (R323, Table 10-7) (log 3). -/
opaque identitySeed : List Byte

/-- ML-DSA-65 public key of a key-generation seed, 1,952 bytes (R323): an external standard, left uninterpreted (log 3). -/
opaque mldsaPublicKey : List Byte → List Byte

/-- ML-DSA-65 signature of a message under a key-generation seed, 3,309 bytes (R326, R350) (log 3). -/
opaque mldsaSign : List Byte → List Byte → List Byte

/-- ML-KEM-768 ciphertext under an encapsulation key with the given randomness, 1,088 bytes (R327, R350) (log 3). -/
opaque mlkemCiphertext : List Byte → List Byte → List Byte

/-- ML-KEM-768 shared secret of the same encapsulation, 32 bytes (R327, R350) (log 3). -/
opaque mlkemSecret : List Byte → List Byte → List Byte

/-- Measurement of a firmware or Woeno image as loaded (R326): images are outside the spec (log 3). -/
opaque imageMeasurement : Nat → Nat → List Byte

/-- The 16-byte AES-256-GCM tag of a Relay page image under the peer link key (R273) (log 3). -/
opaque gcmTag : List Byte → Nat → Nat → List Byte → List Byte

/-- AES-256-GCM ciphertext and tag of a plaintext under a session key and its frame counter (R327) (log 3). -/
opaque gcmSeal : List Byte → Nat → List Byte → List Byte

/-- ML-KEM-768 encapsulation key of a key-generation seed, 1,184 bytes (R330) (log 3). -/
opaque mlkemPublicKey : List Byte → List Byte

/-- The active set in ascending object index and subindex, as Table 10-8 has it hashed; the order of window items is not given (R326, log 62). -/
opaque serialiseMap : List (Nat × Nat) → List Byte

/-- The 128-bit KMAC256 page MAC under a tenant's flash MAC key (R321) (log 3). -/
opaque kmacTag : List Byte → List Byte → BitVec 128

/-- AES-256-XTS encryption under a 64-byte key pair with a 128-bit tweak (R320, R321): an external standard, left uninterpreted (log 3). -/
opaque xts : List Byte → Nat → List Byte → List Byte

/-- XTS key pair and integrity key of an HBM key generation, drawn at random and never seen outside the key registers (R314, R320, R323) (log 3). -/
opaque hbmKeys : Nat → List Byte × List Byte

/-- First 64 bits of KMAC256 under an integrity key over an address and a ciphertext (R320) (log 3). -/
opaque kmacUnit : List Byte → Nat → List Byte → W64

/-- The device flash key, drawn at first formatting (Table 10-7) (log 3). -/
opaque deviceFlashKey : List Byte

/-- Bucket hash of the fine map, which the spec does not give (R221) (log 149). -/
opaque fineHash : Nat → W64

/-- The endorsement certificate of the flash boot area (0x1002.02), which the spec does not give (log 3). -/
opaque endorsement : List Byte

/-- The management port MAC address (0x1200.01), six bytes "from the flash boot area" (log 3). -/
opaque macAddress : Nat

/-- Boot ROM version (0x1000.07) and the firmware versions by half, which the spec does not give (log 3). -/
opaque romVersion : Nat

/-- Object values that the Woeno image of a firmware version holds, by object key (R358, R409): images are outside the spec (log 3). -/
opaque woenoValues : Nat → List (Nat × Nat)

/-- Version of the Woeno image that goes with a firmware version (0x1000.09) (log 3). -/
opaque woenoVersion : Nat → Nat

/-- The NAND profile's threshold and ladder entries (0x3005.04, 0x3006): "profile" values of the Woeno image (log 4). -/
opaque nandProfile : Nat → Nat → W64

end Sys2Proof.Config
end

