-- ==== Sys2Proof/Machine/StateTypes.lean ====
section
/-!
DEFINITION. The parts of the machine's state, one structure per unit of the spec. Every field cites the rule that names it.
Counts, indexes and positions are `Nat`; what the spec lays out as bits is packed by Machine/Layout.lean.
-/
namespace Sys2Proof.Machine

/-- Ordering code (R3, R5): fixed for a device, kept by every step. -/
inductive Part where
  | al
  | as_
  deriving DecidableEq, Repr

/-- Status codes of Table 8-3 (R248). -/
inductive Status where
  | ok | retryLater | capacity | pageExhausted | staleEpoch | notOwner | accessDenied | domainOff | fenced | integrity
  | mediaExhausted | tolerance | lost | malformed | policed | attestPending | commitBusy | truncated
  deriving DecidableEq, Repr

/-- Dictionary statuses of Table 11-3 (R343). -/
inductive DStatus where
  | ok | retryLater | accessDenied | domainOff | malformed | attestPending | commitBusy | noObject | noSubindex | notWritable
  | notReadable | length | outOfRange | commitRefused | shadowReserved | segment | lastAdministrator | busy
  deriving DecidableEq, Repr

/-- Where the device stands in its life (R372, R401, R404, R405, R406). -/
inductive Phase where
  | heldInReset   -- RESET_N active (R380)
  | bootStopped   -- boot stopped at step 2, 3 or 4: reached only over I3C (R405)
  | awaitingImage -- both halves failed: the boot ROM serves four indices (R405)
  | running
  | shutDown      -- data path idle until a reset (R406)
  | fatal         -- FAULT_ALIVE stopped (R372)
  deriving DecidableEq, Repr

/-- Device-wide life and boot state. -/
structure Dev where
  /-- R3, 0x1000.05. -/
  part : Part
  /-- R404, R372, R406. -/
  phase : Phase
  /-- 0x7830.01 (R404). -/
  bootStep : Nat
  /-- 0x7830.02 (R405). -/
  failedStep : Nat
  /-- 0x7830.03. -/
  bootSource : Nat
  /-- 0x7830.04, ms. -/
  bootDuration : Nat
  /-- 0x7820.02, Table 13-3 form. -/
  lastReset : Nat
  /-- 0x7820.03 (R400): a port or partition reset that has begun and not ended. -/
  resetInProgress : Nat
  /-- 0x7820.06. -/
  deviceResets : Nat
  /-- 0x6050.01 (R429). -/
  manufacturing : Bool
  /-- An orderly shutdown has been asked for (R406), and when, in elapsed µs. -/
  shutdownAt : Option Nat
  /-- MODEL'S OWN: how many free values the run has met (log 1). -/
  freeCount : Nat
  /-- MODEL'S OWN: the next identifier of an in-flight record (log 6). -/
  nextId : Nat
  /-- The device's own request tags (R245). -/
  nextTag : Nat
  deriving DecidableEq, Repr

/-- Management-island time (R357). -/
structure Clock where
  /-- Elapsed µs since power-on: timeouts and intervals count on it (R357). -/
  us : Nat
  /-- Time of day in ms, 0x1010.01. -/
  tod : Nat
  /-- 0x1010.02. -/
  written : Bool
  /-- 0x1010.04. -/
  writes : Nat
  /-- The value saved in the flash root records (R357). -/
  saved : Nat
  deriving DecidableEq, Repr

/-- The object dictionary's values (R335 to R342, R358). A table's key packs index, subindex and window item (Machine/Objects.lean). -/
structure Objs where
  /-- Active set of `RWS` objects: the composition map in force (R340). -/
  active : SMap
  /-- The active set before the last commit: what requests of the previous live epoch were admitted under (R115, R148, R310). -/
  prev : SMap
  /-- Shadow set (R340). -/
  shadow : SMap
  /-- `RW` objects (R336). -/
  rw : SMap
  /-- Counters behind `RO` objects. -/
  counters : SMap
  /-- Shadow reservation: session slot and its end in elapsed µs (R342). -/
  reservation : Option (Nat × Nat)
  /-- `OCTETS` values behind selectors that are wider than a number need be: public salts by partition (R150). -/
  salts : List (Nat × List Byte)
  /-- Public salts written and not yet committed (R178). -/
  saltsNext : List (Nat × List Byte)
  deriving DecidableEq, Repr

/-- What a budget table was computed from (R31): the active set and the partition that holds each slice's entitlement (R30). -/
structure TableSrc where
  map : SMap
  owners : List (Option Nat)
  deriving DecidableEq, Repr

/-- One class of one row at one resource of an island (R31 to R37, 0x2018). -/
structure Use where
  res : Nat
  row : Nat
  cls : Nat
  used : Nat
  borrowed : Nat
  lent : Nat
  debt : Nat
  lastUsed : Nat
  lastBorrowed : Nat
  lastLent : Nat
  exhausted : Nat
  /-- Program die-time issued in this period (R233). -/
  programs : Nat
  /-- Work waited under R36 in this period. -/
  waited : Bool
  deriving DecidableEq, Repr

/-- Island states of Table 10's `state` field (R42). -/
inductive IslandState where
  | absent | running | gated | fenced | resetting | clockChanging
  deriving DecidableEq, Repr

/-- An island (R20 to R23, R42). -/
structure Island where
  num : Nat
  st : IslandState
  /-- Present clock, kHz (0x2001.02). -/
  clk : Nat
  /-- A clock change in progress: the target, kHz (R21). -/
  relock : Option Nat
  /-- Fastest clock, kHz, its core rail has been set for and read back at (R421). -/
  railFor : Nat
  /-- A rise that waits for its core rail, kHz (R421). -/
  wish : Option Nat
  /-- The PLL has relocked and the next period boundary has not come: budgets are not yet resumed (R21). -/
  paused : Bool
  /-- Period count (0x2001.06). -/
  periods : Nat
  /-- 0x2001.07. -/
  lockLosses : Nat
  /-- Active budget table (R40). -/
  table : TableSrc
  /-- Shadow budget table, swapped in at the next period boundary (R40). -/
  shadowTable : Option TableSrc
  uses : List Use
  /-- Limit of Table 14-10 in force on the clock, kHz (R431). -/
  thermalCap : Option Nat
  /-- Last step of the thermal cap down and up, elapsed µs (R431). -/
  lastStepUs : Nat
  /-- Throttle r of a flash island in 1/65,535 (R233, 0x3009.07). -/
  throttle : Nat
  deriving DecidableEq, Repr

/-- Slice states (0x6013). -/
inductive SliceState where
  | absent | unassigned | assigned | draining | zeroing
  deriving DecidableEq, Repr

/-- A slice (R305, R306, R311, R313). -/
structure Slice where
  num : Nat
  st : SliceState
  /-- Partition in effect (0x6014). -/
  owner : Option Nat
  /-- While draining or zeroing: the partition it joins, or none. -/
  joins : Option Nat
  /-- Zeroed for a partition reset (R403). -/
  forReset : Bool
  deriving DecidableEq, Repr

/-- Epochs and slices (R309 to R314). -/
structure Epochs where
  active : Nat
  prev : Option Nat
  /-- When the last commit was accepted, elapsed µs (R310). -/
  commitUs : Nat
  /-- 0x6000.06, time of day. -/
  lastCommitMs : Nat
  accepted : Nat
  refuseReason : Nat
  refuseDetail : Nat
  aborted : Nat
  slices : List Slice
  /-- Partition of each slice under the previous map: the placement lists of the previous epoch (R88). -/
  prevOwners : List (Option Nat)
  /-- Clusters that have come back since the last commit: they serve no row of the previous epoch (R377). -/
  returned : List Nat
  /-- HBM key generation in force: per partition, for the device region under 64, and under 128 + c for a channel c given its own at its return (R314, R323,
  R377): an identifier of the random draw. -/
  hbmKeys : SMap
  /-- Partitions given up after a fence of die 1 (R375). -/
  givenUp : List Nat
  deriving DecidableEq, Repr

/-- Tiers (R55). -/
inductive Tier where
  | absent | hbm | flash | peer
  deriving DecidableEq, Repr

/-- Page entry and shadow word (R55, R56, Tables 2-5 and 2-6) of one page, with the place the walker finds them (R57). -/
structure Page where
  layer : Nat
  head : Nat
  index : Nat
  tier : Tier
  fmt : Nat
  gen : Nat
  packed : Bool
  dirty : Bool
  pinned : Bool
  glob : Bool
  lost : Bool
  valid : Nat
  frame : Nat
  /-- Shadow word [63:56]: 255 is the move lock. -/
  pins : Nat
  /-- Shadow word [43:0]; none is 0xFFF_FFFF_FFFF. -/
  copy : Option Nat
  /-- HBM frames the page holds when unpacked. -/
  frames : List Nat
  /-- Coded or Kerf image length in bytes when packed or KERF4 (R50, R192). -/
  imageLen : Nat
  /-- Time of day at which packing and Kerf encoding were last tried (R192, R208). -/
  packTried : Nat
  kerfTried : Nat
  /-- When the previous flash copy was freed, elapsed µs (R220). -/
  copyFreed : Option Nat
  deriving DecidableEq, Repr

/-- Descriptor states (Table 2-3); a free slot has no record. -/
inductive SeqState where
  | live | retained | ledgerLost
  deriving DecidableEq, Repr

/-- Turn phases (R255, Table 8-7). -/
inductive TurnPhase where
  | prefill | decode
  deriving DecidableEq, Repr

/-- Lease states (R262, Table 8-10); FREE is the absence of the record. -/
inductive Lease where
  | idle
  | choosing (ph : TurnPhase)
  | offered (ph : TurnPhase) (node : Nat) (tag : Nat)
  | held (ph : TurnPhase)
  | draining (toDecode : Bool)
  | freeing
  deriving DecidableEq, Repr

/-- A request that still awaits its completion: where the completion goes and what it copies (R247). -/
structure Req where
  qp : Nat
  opcode : Nat
  tag : Nat
  partition : Nat
  tenant : Nat
  handle : Nat
  /-- Bytes the message and its payload moved, for metering (R384). -/
  bytes : Nat
  deriving DecidableEq, Repr

/-- Turn record (chapter 8, "Turns and leases"; R255, R261, R263). -/
structure Turn where
  admitter : Nat
  admitterIdent : Nat
  context : List W64
  svc : Nat
  refused : List Nat
  /-- End of the placement wait, elapsed µs (R256). -/
  waitUntil : Nat
  /-- End of the accept timeout of the offer that stands (R258). -/
  acceptUntil : Nat
  pending : List W32
  target : Option Nat
  classic : Bool
  replaced : Bool
  /-- One past the last prompt token (Table 8-7). -/
  endPos : Nat
  admitReq : Option Req
  handoffReq : Option Req
  releaseReq : Option Req
  matched : Nat
  transit : Nat
  prefixCopied : Bool
  home : Nat
  /-- Token-region space the offer took: node, offset, bytes (R258). -/
  region : Option (Nat × Nat × Nat)
  /-- Handle on the failed device after re-admission, and whether a decode placement follows its prefill (R269). -/
  oldHandle : Nat
  thenDecode : Bool
  deriving DecidableEq, Repr

/-- The tables of a sequence (R47, R53, R54, R58): the descriptor, the layer table, the ledger directory, the head table of a layer, and the page-entry block
`b` of a layer and head. -/
inductive TabKind where
  | descriptor
  | layers
  | ledgerDir
  | heads (l : Nat)
  | block (l k b : Nat)
  deriving DecidableEq, Repr

/-- A table in HBM: `bytes` bytes from `offset` in the first of its frames on; `per` is a head table's blocks per head (R54, R58). -/
structure Tab where
  kind : TabKind
  frames : List Nat
  offset : Nat
  bytes : Nat
  per : Nat
  deriving DecidableEq, Repr

/-- A live or retained sequence: descriptor (R53, Table 2-3), ledger (R47), frontiers, pages, lease and turn. -/
structure Seq where
  part : Nat
  tenant : Nat
  gen : Nat
  slot : Nat
  variant : Nat
  layers : Nat
  kvHeads : Nat
  group : Nat
  fmt : Nat
  st : SeqState
  truncated : Bool
  unmirrored : Bool
  winPolicy : Bool
  window : Nat
  globalPages : Nat
  sealedPos : Nat
  capacity : Nat
  posBase : Nat
  posLimit : Nat
  headMask : Nat
  /-- Lease holder; none while the device holds (word 5). -/
  holder : Option Nat
  leaseGen : Nat
  epoch : Nat
  /-- Handle of the linked sequence, 0 when none. -/
  link : Nat
  linkLen : Nat
  linkDepth : Nat
  linkers : Nat
  lastTouch : Nat
  /-- When the age scanner last visited it, ms (R73). -/
  scanned : Option Nat
  /-- Token identifiers from position 0 (R47). -/
  ledger : List W32
  /-- Positions the partner has acknowledged (R48, R124). -/
  acked : Nat
  /-- Tokens up to here sealed by timeout without acknowledgement (R48). -/
  timedOut : Nat
  /-- Write frontier where it differs from `frontierBase`; key layer × 64 + head. -/
  frontiers : SMap
  frontierBase : Nat
  pages : List Page
  ledgerFrames : List Nat
  tableFrames : List Nat
  /-- The tables that exist and where they lie (R53, R54, R58). -/
  tabs : List Tab
  lease : Lease
  turn : Turn
  /-- Last private fingerprint, chain record (R164): block index and value. -/
  chain : Option (Nat × Nat)
  /-- Requests that queue for the sequence to take the active epoch, in order (R249). -/
  epochQueue : List Instr
  /-- Fixed frames counted against R257. -/
  fixedFrames : Nat
  /-- Home cluster kept while a request is in flight (R397). -/
  home : Option Nat
  deriving DecidableEq, Repr

/-- A packed extent of 2 MiB (R50, R52): 128 frames from `base`; `runs` lists its live granule runs (offset, length). -/
structure Extent where
  id : Nat
  part : Nat
  base : Nat
  runs : List (Nat × Nat)
  deriving DecidableEq, Repr

/-- Key of one page: the sequence that owns it, layer, head, page index. -/
structure PageKey where
  handle : Nat
  layer : Nat
  head : Nat
  index : Nat
  deriving DecidableEq, Repr

/-- A shootdown in flight (R69): the pages whose translation it names, and what may be reallocated when it completes: frames, granule runs of packed extents
(first granule and count), tables, flash copies (first logical page number and count), and coded locations by packer generation (R198). -/
structure Shootdown where
  id : Nat
  part : Nat
  pages : List PageKey
  frames : List Nat
  runs : List (Nat × Nat)
  tabs : List Tab
  lpns : List (Nat × Nat)
  gens : List Nat
  deriving DecidableEq, Repr

/-- HBM: contents, allocation and repair. -/
structure Hbm where
  /-- Contents by device physical byte address; an unlisted byte reads 0 (R313, log 8). -/
  mem : List Host.Cell
  /-- Allocated frames, rising: channel × 126,976 + frame in the channel (R50, R51). -/
  used : List Nat
  extents : List Extent
  /-- Frames the reserve line lacks, per partition (R129). -/
  reserveTaken : SMap
  shootdowns : List Shootdown
  /-- Spare lanes used per channel (R375, 0x7101.04). -/
  lanesUsed : SMap
  /-- Stacks whose refresh interval is halved (R431). -/
  refreshHalved : List Nat
  /-- Units patrol scrub has read in this pass, per channel (R378). -/
  patrolSeen : SMap
  deriving DecidableEq, Repr

/-- A translation of a look-aside buffer (R65): the sequence, layer, head and page index a tile named, the page whose entry pair they resolve to, and the
page entry last seen there. -/
structure Xlat where
  named : PageKey
  page : PageKey
  seen : W64
  deriving DecidableEq, Repr

/-- Granules of one frame that a buffer holds, tagged with the partition of the frame (R307). The bytes are those of HBM (log 142). -/
structure CacheRun where
  part : Nat
  base : Nat
  count : Nat
  deriving DecidableEq, Repr

/-- The buffers of a cluster (R14, R16, R17, R65, R307), each newest first. -/
structure ClusterCache where
  cluster : Nat
  /-- Look-aside buffers of its cores, at most 256 translations a core (Table 1-1). -/
  lookaside : List (Nat × Xlat)
  /-- Walker cache: at most 2,048 lines of 64 bytes, by partition and line address. -/
  walker : List (Nat × Nat)
  /-- Cluster buffer: granules by slice, at most 4 MiB in each slice's quarter (R307). -/
  quarters : List (Nat × CacheRun)
  /-- The cluster's 4 MiB part of its die's page cache. -/
  pages : List CacheRun
  deriving DecidableEq, Repr

/-- MODEL'S OWN: the exact attention over the keys a partial has taken in, from which R113 bounds its error: the greatest exact score in units of 2^-480, bounds
of Σ exp(score − top) and of that sum over each value element in units of 2^-160, S and V of R113 (log 41). -/
structure Exact where
  top : Int
  l : Int × Int
  o : List (Int × Int)
  span : Nat
  mag : Nat
  deriving DecidableEq, Repr

/-- A running partial of one query head (R101): m, l and o as binary32; `empty` is m = −∞, `nan` is R104; with R113's t and D of its longest path. -/
structure QPartial where
  empty : Bool
  nan : Bool
  m : W32
  l : W32
  o : List W32
  tiles : Nat
  depth : Nat
  exact : Exact
  deriving DecidableEq, Repr

/-- An accumulator of the Scarf merge (R90, R102). Level 0 core, 1 cluster, 2 home cluster. -/
structure Accum where
  id : Nat
  att : Nat
  row : Nat
  head : Nat
  level : Nat
  unit : Nat
  /-- Inputs still to arrive: tiles at level 0, partials above. -/
  expected : Nat
  vals : List QPartial
  deriving DecidableEq, Repr

/-- Why a tile is not running (R72, R107, R66, R36). -/
inductive TileState where
  | fuseWait
  | ready
  | staged (id : Nat)
  | relayed (id : Nat)
  | issued (group : Nat)
  deriving DecidableEq, Repr

/-- A tile of the scoreboard (R106, R107). `inline_` marks the inline key-value position (R101). -/
structure Tile where
  id : Nat
  att : Nat
  row : Nat
  layer : Nat
  head : Nat
  page : PageKey
  core : Nat
  inline_ : Bool
  fusible : Bool
  st : TileState
  deriving DecidableEq, Repr

/-- A page copy in a core buffer and the tiles reading it (R106). -/
structure Group where
  id : Nat
  core : Nat
  page : PageKey
  members : List Nat
  /-- Every member so far, for the fused flag and the fuse group limit. -/
  served : Nat
  rows : List (Nat × Nat)
  tenants : List Nat
  deriving DecidableEq, Repr

/-- One row of an ATTEND in flight (R85, R92). -/
structure Row where
  body : RowBody
  status : Option Status
  /-- Effective limit e of R92. -/
  limit : Nat
  window : Nat
  winPolicy : Bool
  empty : Bool
  clipped : Bool
  clamped : Bool
  nonFinite : Bool
  refresh : Bool
  kerfUsed : Bool
  fused : Bool
  position : Nat
  homeCluster : Nat
  deriving DecidableEq, Repr

/-- An ATTEND in flight. -/
structure Attend where
  id : Nat
  req : Req
  body : AttendBody
  /-- Epoch its header carries; a row runs under its sequence's (R249). -/
  epoch : Nat
  node : Nat
  rows : List Row
  /-- The query payload once it is at hand (R83). -/
  queries : List Byte
  ready : Bool
  /-- The next row to dispatch: rows before it have been checked and placed (R85, R107, R108). -/
  next : Nat
  deriving DecidableEq, Repr

/-- Where an accepted APPEND stands (R122, R126). -/
inductive AppendPhase where
  | reading          -- payload being read (R118)
  | growth           -- waits for head-table growth (R58)
  | holding          -- step 3 of R126
  | staging (id : Nat) -- a target page is being staged (R122)
  | scattering       -- frames at hand; elements are being written
  deriving DecidableEq, Repr

/-- An APPEND accepted and not completed (R120 to R123). -/
structure Append where
  id : Nat
  req : Req
  body : AppendBody
  refresh : Bool
  handle : Nat
  epoch : Nat
  node : Nat
  phase : AppendPhase
  payload : List Byte
  /-- Its layout holds by what its header and its length tell (R117, R118). -/
  shape : Bool
  /-- The payload is at hand (R118). -/
  ready : Bool
  /-- It was accepted for a truncated sequence (R132). -/
  bare : Bool
  /-- Its last element is at the memory; what it still waits for is a lock, a tile, a charge or an earlier ledger entry (R109, R122, R36). -/
  done : Bool
  /-- Frames taken for its new pages, one group for a page, and for tables (R126). -/
  got : List (List Nat)
  tabs : List Nat
  /-- New pages and table frames it needs. -/
  wants : List PageKey
  tabNeed : Nat
  acceptedUs : Nat
  holdUs : Nat
  heldIn3 : Bool
  fromReserve : Nat
  recycled : Bool
  newPages : Nat
  deriving DecidableEq, Repr

/-- What a staging serves, in the order of R137. -/
inductive StageKind where
  | tile | resume | ahead | request
  deriving DecidableEq, Repr

/-- A staging in flight (R136). `relay` marks a relay-in instead of a flash read (R274). -/
structure Staging where
  id : Nat
  page : PageKey
  kind : StageKind
  frames : List Nat
  /-- Granule address it will have; none while it waits for frames. -/
  place : Option Nat
  relay : Bool
  /-- The flash copy has been read and accepted (R224). -/
  verified : Bool
  image : List Byte
  /-- Its page has come; what its transition still waits for is a lock or a charge (R36, R68). -/
  due : Bool
  startUs : Nat
  pin : Bool
  deriving DecidableEq, Repr

/-- A STAGE whose completion waits for its stagings (R142). -/
structure StageReq where
  id : Nat
  req : Req
  epoch : Nat
  handle : Nat
  waits : List Nat
  pin : Bool
  staged : Nat
  inHbm : Nat
  lostPos : Option Nat
  /-- Position of each page still on flash, for pinning at the end. -/
  pages : List PageKey
  startUs : Nat
  early : Bool
  ended : Option Status
  deriving DecidableEq, Repr

/-- An active DELIVER (R143 to R147). -/
structure Delivery where
  id : Nat
  req : Req
  body : DeliverBody
  handle : Nat
  epoch : Nat
  node : Nat
  limit : Nat
  /-- Layers written so far. -/
  layer : Nat
  consumed : Nat
  /-- Since when it waits for PROGRESS, elapsed µs. -/
  waitSince : Option Nat
  stageSince : Option Nat
  ended : Option (Status × Nat)
  deriving DecidableEq, Repr

/-- A move that is due under R68. -/
inductive MoveKind where
  | pack
  | demote (cls : Nat)     -- to flash, charged to the class (R128)
  | writeBack
  | kerf
  | archive
  | drain                  -- out of a draining slice (R312)
  deriving DecidableEq, Repr

/-- A candidate of R68. -/
structure Move where
  id : Nat
  page : PageKey
  kind : MoveKind
  /-- Logical page number and data slot (island, superblock, slot) its batch gave it (R220). -/
  lpn : Option Nat
  place : Option (Nat × Nat × Nat)
  /-- Its image is at hand: an HBM page always, a flash page once it has been read, and encoded for a Kerf move (R208). -/
  ready : Bool
  image : List Byte
  /-- Its programs have been issued and await confirmation (R216). -/
  begun : Bool
  deriving DecidableEq, Repr

/-- The attention, append, staging and delivery work in flight. -/
structure Work where
  attends : List Attend
  tiles : List Tile
  groups : List Group
  accums : List Accum
  appends : List Append
  stagings : List Staging
  stageReqs : List StageReq
  deliveries : List Delivery
  moves : List Move
  deriving DecidableEq, Repr

/-- A Mortise array entry (R151, Table 5-2): a valid one is listed at its slot. Care mask and parity follow from the other fields (R153, Machine/Mort.lean).
`moving` marks the destination copy of a shift step (R165); no command ends within a shift. -/
structure Entry where
  stamp : Nat
  fp : Nat
  variant : Nat
  tenant : Nat
  part : Nat
  published : Bool
  fold : Nat
  priority : Nat
  payload : Nat
  moving : Bool
  deriving DecidableEq, Repr

/-- One bank: occupied slots by index, rising (R155, R159). -/
structure Bank where
  num : Nat
  slots : List (Nat × Entry)
  deriving DecidableEq, Repr

/-- A prefix node (R154, Table 5-3); its location is where the entry stands whose payload names it. -/
structure PrefixNode where
  part : Nat
  index : Nat
  holder : Nat
  block : Nat
  cls : Nat
  published : Bool
  second : Bool
  publishers : Nat
  hits : Nat
  lastHit : Nat
  deriving DecidableEq, Repr

/-- A second-level slot (R171, Table 5-8). -/
structure SecondSlot where
  part : Nat
  bucket : Nat
  slot : Nat
  entry : Entry
  deriving DecidableEq, Repr

/-- A publication record (R173). -/
structure PubRecord where
  part : Nat
  tenant : Nat
  fp : Nat
  deriving DecidableEq, Repr

/-- An automatic insertion: it waits for its charge and its bank group, or is issued and not yet searchable (R164, R165, R167, R169). -/
structure Insertion where
  id : Nat
  issued : Bool
  entry : Entry
  block : Nat
  cls : Nat
  holder : Nat
  deriving DecidableEq, Repr

/-- What a lookup is for (R160, R175, R272). -/
inductive LookupFor where
  | admission (handle : Nat)
  | lookup (req : Req)
  | probe (req : Req)
  deriving DecidableEq, Repr

/-- One hit of a lookup: the array entry used and its chain. -/
structure Hit where
  block : Nat
  pub : Bool
  second : Bool
  entry : Entry
  deriving DecidableEq, Repr

/-- Where a lookup stands: array searches to issue, second-level searches to issue, their answers awaited, or verification (R160, R169). -/
inductive LookupPhase where
  | searching
  | secondDue
  | secondRuns
  | ending
  deriving DecidableEq, Repr

/-- A PUBLISH under way (R173, R176): public fingerprints of its blocks and the next block to publish. -/
structure PubJob where
  id : Nat
  req : Req
  handle : Nat
  cls : Nat
  fps : List Nat
  next : Nat
  deriving DecidableEq, Repr

/-- A lookup in progress (R160): blocks searched, fingerprints so far, hits so far. -/
structure Lookup where
  id : Nat
  for_ : LookupFor
  phase : LookupPhase
  part : Nat
  tenant : Nat
  variant : Nat
  headMask : Nat
  kvHeads : Nat
  tokens : List W32
  doPriv : Bool
  doPub : Bool
  block : Nat
  fpPriv : Nat
  fpPub : Nat
  hits : List Hit
  /-- Second-level searches the block still waits for: private, public. -/
  waitPriv : Bool
  waitPub : Bool
  hitPriv : Option Hit
  hitPub : Option Hit
  usedSecond : Bool
  deriving DecidableEq, Repr

/-- The Mortise array island. -/
structure Mortise where
  banks : List Bank
  /-- 0x2401.02. -/
  mode : Nat
  /-- Target of mode moves under way (R157). -/
  target : Option Nat
  /-- Array cycles counted up to the last change of the island's clock, and when that was, elapsed µs (R170). -/
  cycles : Nat
  cyclesUs : Nat
  nodes : List PrefixNode
  second : List SecondSlot
  records : List PubRecord
  insertions : List Insertion
  lookups : List Lookup
  jobs : List PubJob
  deriving DecidableEq, Repr

/-- A table slot of a partition's packer (R194 to R196). -/
structure TableSlot where
  tables : List Nat
  /-- Order of installation. -/
  installed : Nat
  deriving DecidableEq, Repr

/-- The packer state of a partition (R193 to R197). -/
structure Packer where
  part : Nat
  newest : Nat
  slots : List TableSlot
  /-- Symbol counts: table index × 16 + symbol. -/
  acc : SMap
  accPages : Nat
  /-- Pages it had gathered when a build was last tried (R197). -/
  accTried : Nat
  /-- A built set being written to the islands: its slot and tables (R196). -/
  pending : Option (Nat × List Nat)
  installs : Nat
  deriving DecidableEq, Repr

/-- Why a flash page was programmed: what its confirmation does (R216, R68). -/
inductive ProgramFor where
  | writeBack (page : PageKey)
  | demote (page : PageKey)
  | kerf (page : PageKey)
  | archive (page : PageKey)
  | relocate (fromSb : Nat) (fromSlot : Nat)
  | relocateUnit (fromSb : Nat) (fromSlot : Nat)
  | consolidate (page : PageKey)   -- fine pages rewritten into a coarse unit (R222)
  | none_
  deriving DecidableEq, Repr

/-- Page tag kinds (Table 7-5). -/
inductive TagKind where
  | data | pad | journal | checkpoint | root
  deriving DecidableEq, Repr

/-- A data slot that has been programmed (R215, R216, R223), with its tag and its image. -/
structure FlashPage where
  island : Nat
  sb : Nat
  slot : Nat
  kind : TagKind
  lpn : Nat
  part : Nat
  tenant : Nat
  wseq : Nat
  wtime : Nat
  wtemp : Int
  /-- When it was programmed, elapsed µs (R216). -/
  progUs : Nat
  /-- Root key of the tenant its cipher and MAC keys were derived from (R223, R321, R325). -/
  key : List Byte
  confirmed : Bool
  valid : Bool
  why : ProgramFor
  fmt : Nat
  packed : Bool
  gen : Nat
  count : Nat
  bytes : List Byte
  deriving DecidableEq, Repr

/-- Superblock states (chapter 7, "Logical pages and the maps"). -/
inductive SbState where
  | free | open_ | closed | draining | retired
  deriving DecidableEq, Repr

/-- Write streams (chapter 7, "Free space"). -/
inductive Stream where
  | coarse | fine | gc | archive | journal
  deriving DecidableEq, Repr

/-- A superblock that is not in its formatted state (log 10): number is stripe group × 32,768 + member index. -/
structure Superblock where
  island : Nat
  num : Nat
  st : SbState
  tlc : Bool
  /-- Live members: channel within the island and member block, in ascending channel order (R215). -/
  members : List (Nat × Nat)
  /-- Members left out at opening because their die was out of reach (R215, R217). -/
  out : List (Nat × Nat)
  stream : Stream
  /-- Next data slot. -/
  point : Nat
  /-- Order of closing (R232). -/
  closedAt : Nat
  /-- 4,096-bit handle filter (R241). -/
  filter : Nat
  /-- Marked for a secure release (R241). -/
  marked : Bool
  /-- Rows whose parity is programmed. -/
  parityRows : List Nat
  /-- Member whose program failed; its block is retired when the superblock is erased (R236). -/
  failed : Option Nat
  deriving DecidableEq, Repr

/-- Coarse map entry (R221, Table 7-3). -/
structure CoarseEntry where
  unit : Nat
  split : Bool
  tlc : Bool
  sb : Nat
  start : Nat
  wseq : Nat
  /-- Logical pages of the unit still allocated. -/
  live : List Nat
  deriving DecidableEq, Repr

/-- Fine map entry (R221, Table 7-4). -/
structure FineEntry where
  lpn : Nat
  sb : Nat
  slot : Nat
  wseq : Nat
  deriving DecidableEq, Repr

/-- What a flash read is for. -/
inductive ReadFor where
  | staging (id : Nat)
  | restore (page : PageKey)   -- a clean frame that failed its check (R96)
  | kerf (page : PageKey)
  | archive (page : PageKey)
  deriving DecidableEq, Repr

/-- A flash read of `n` logical pages, waiting for its turn and its charge or issued (R137, R213, R226). -/
structure FlashRead where
  id : Nat
  lpn : Nat
  n : Nat
  part : Nat
  cls : Nat
  why : ReadFor
  issued : Bool
  /-- Threshold table entry its first read uses (R225). -/
  offsets : Nat
  deriving DecidableEq, Repr

/-- A map update that awaits its journal record (R228, R229): kind, LPN, superblock, slot, write sequence. -/
structure JournalRec where
  kind : Nat
  lpn : Nat
  sb : Nat
  slot : Nat
  wseq : Nat
  deriving DecidableEq, Repr

/-- One flash island's translation layer (0 for island 15, 1 for island 33). -/
structure FlashIsland where
  num : Nat
  /-- 0x3009.02 (R239, R212). -/
  readOnly : Bool
  disabled : Bool
  /-- Last write sequence used (R223). -/
  wseq : Nat
  /-- Journal (R228, R229). -/
  pendingJournal : List JournalRec
  lastFlushUs : Nat
  journalSeq : Nat
  updates : Nat
  checkpointSeq : Nat
  checkpointRunning : Bool
  /-- Root record written (R228, R434). -/
  rooted : Bool
  closings : Nat
  /-- Superblocks the pools have lost to dismantling (R235). -/
  lostSbs : Nat
  /-- Sampled die temperatures (R242). -/
  temps : List Int
  /-- Hottest-die seconds per 5 °C bin (R242), and as last saved. -/
  tempSeconds : SMap
  /-- Elapsed µs of the last temperature sample. -/
  sampledUs : Nat
  tempSaved : SMap
  deriving DecidableEq, Repr

/-- A RELEASE_SECURE that waits for its erasures (R241). -/
structure SecureRelease where
  handle : Nat
  req : Req
  marked : List (Nat × Nat)
  startUs : Nat
  sealedPos : Nat
  deriving DecidableEq, Repr

/-- The flash tier. -/
structure Flash where
  islands : List FlashIsland
  /-- NAND geometry of the board (R212, 0x3000): channels populated, dies per channel, pSLC pages per member block, member blocks per die. -/
  channels : Nat
  diesPerChannel : Nat
  pagesPerBlock : Nat
  blocksPerDie : Nat
  dataRate : Nat
  /-- Fine map capacity in effect: 0x3002.02 as of the last power-on. -/
  fineCap : Nat
  /-- Nominal times of the NAND profile, ns (0x300A.01 to .06) and ratings. -/
  times : List Nat
  ratingPslc : Nat
  ratingTlc : Nat
  sbs : List Superblock
  pages : List FlashPage
  coarse : List CoarseEntry
  fine : List FineEntry
  /-- Next map unit and fine page of each island, and the island of the last allocation (R219). -/
  nextUnit : List Nat
  nextFine : List Nat
  lastIsland : Nat
  /-- Dies that returned stale, with their blocks erased since (R218): die number, block keys. -/
  stale : List (Nat × List Nat)
  reads : List FlashRead
  /-- Program–erase cycles beyond formatting: key (island, group, channel, block) packed; pSLC and TLC apart (R214). -/
  wearPslc : SMap
  wearTlc : SMap
  /-- Retired blocks (R235). Blocks are named by island, group, channel and number, packed. -/
  retired : List Nat
  /-- Spares of first formatting that are in use, and blocks that have become spares since (R235). -/
  spareTaken : List Nat
  spareAdded : List Nat
  secure : List SecureRelease
  /-- Last device flash key is wrapped in the boot area (R434). -/
  keyWrapped : Bool
  /-- Valid pages still to read in this patrol pass are those not yet listed here (R227): island, superblock, slot. -/
  patrolSeen : List (Nat × Nat × Nat)
  /-- Pages programmed and pages copied by garbage collection in the last hour: elapsed µs, programmed, copied (0x3004.09). -/
  writeLog : List (Nat × Nat × Nat)
  deriving DecidableEq, Repr

/-- A registered node or peer (R250 to R253, R263, R264). -/
structure Node where
  num : Nat
  part : Nat
  role : Nat
  switchable : Bool
  classic : Bool
  allTenants : Bool
  tenant : Nat
  variants : List Nat
  payloadFormats : Nat
  deliveredFormats : Nat
  prefillRate : Nat
  decodeCapacity : Nat
  regionAddr : Nat
  regionKey : Nat
  regionLen : Nat
  /-- Token-region space taken: offset and bytes (R258). -/
  regionUsed : List (Nat × Nat)
  joinKey : Nat
  ident : Nat
  regQp : Nat
  queued : Nat
  active : Nat
  warm : List Nat
  /-- Placements accepted since the last HEARTBEAT: tokens, sequences (R264). -/
  placedTokens : Nat
  placedSeqs : Nat
  lastUs : Nat
  /-- Last HEARTBEAT, elapsed µs (R267). -/
  beatUs : Nat
  /-- 0x4004.0A, time of day. -/
  lastMs : Nat
  accepted : Nat
  refused : Nat
  deriving DecidableEq, Repr

/-- Role advice of a partition (R265). -/
structure Advice where
  part : Nat
  up : Nat
  down : Nat
  /-- Outstanding: node, advised role, tag, end of the hold in elapsed µs. -/
  out : Option (Nat × Nat × Nat × Nat)
  /-- Nodes that declined, until when. -/
  declined : List (Nat × Nat)
  /-- Elapsed µs of the last evaluation. -/
  at_ : Nat
  deriving DecidableEq, Repr

/-- A page attached to a mirror record (R274 kind 3). -/
structure MirrorPage where
  page : RelayPage
  image : RelayImage
  deriving DecidableEq, Repr

/-- A mirror record this device keeps as partner (R268). -/
structure Mirror where
  part : Nat
  peer : Nat
  peerIdent : Nat
  handle : Nat
  body : LedgerBody
  tokens : List W32
  pages : List MirrorPage
  deriving DecidableEq, Repr

/-- A page this device stores for a peer (R274 kind 0). -/
structure PeerPage where
  ref : Nat
  part : Nat
  peer : Nat
  frames : List Nat
  image : RelayImage
  /-- Queue pair and packet count whose acknowledgement frees it, once its image has been written back (R274). -/
  freeAt : Option (Nat × Nat)
  deriving DecidableEq, Repr

/-- A LEDGER_SYNC this device has sent (R268). -/
inductive SyncKind where
  | create | tokens | cut | free | readmit
  deriving DecidableEq, Repr

/-- A Relay this device has begun (R274). -/
structure RelayTx where
  id : Nat
  kind : Nat
  peer : Nat
  part : Nat
  tenant : Nat
  pages : List PageKey
  /-- Kind 1: the staging each page serves. -/
  stagings : List Nat
  /-- Kind 2: the admission that waits for the copy, the holder at home and the length. -/
  forSeq : Nat
  length : Nat
  /-- Window space its images take (R273). -/
  offset : Nat
  bytes : Nat
  deadlineUs : Nat
  deriving DecidableEq, Repr

/-- What an outstanding device request is (R247). -/
inductive AskKind where
  | place (handle : Nat)
  | advice (part : Nat)
  | sync (kind : SyncKind) (handle : Nat) (upTo : Nat)
  | relay (id : Nat)
  | probe (handle : Nat)
  | mailbox (part : Nat) (box : Nat)
  | heartbeat
  deriving DecidableEq, Repr

/-- A device-initiated request that awaits its completion, by tag. -/
structure Ask where
  tag : Nat
  node : Nat
  kind : AskKind
  untilUs : Nat
  deriving DecidableEq, Repr

/-- A peer known to have failed (R267, R270). -/
structure GonePeer where
  part : Nat
  ident : Nat
  /-- It has been answered `FENCED` since (R270). -/
  fenced : Bool
  deriving DecidableEq, Repr

/-- The broker. -/
structure Broker where
  nodes : List Node
  /-- Numbers freed and when, elapsed µs (R250). -/
  freed : List (Nat × Nat)
  advices : List Advice
  mirrors : List Mirror
  peerPages : List PeerPage
  asks : List Ask
  relays : List RelayTx
  gone : List GonePeer
  nextRef : Nat
  /-- Elapsed µs of the last HEARTBEAT to the peers (R267). -/
  peerBeat : Nat
  deriving DecidableEq, Repr

/-- Queue pair states (0x5040.02). -/
inductive QpState where
  | connecting | connected | error
  deriving DecidableEq, Repr

/-- A queue pair (R280, R285, R286, R300, R302). -/
structure Qp where
  num : Nat
  st : QpState
  part : Nat
  lp : Nat
  mode : Nat
  node : Option Nat
  mtu : Nat
  srcGid : Nat
  /-- VLAN of the GID it connected through, 0 untagged (0x5004.04). -/
  vlan : Nat
  pcp : Nat
  dscp : Nat
  cmdRing : Option Nat
  compRing : Option Nat
  /-- Packets sent and not acknowledged, oldest first, as (frame bytes) (R302). -/
  unacked : List Nat
  /-- Packets sent and packets acknowledged so far (R274, R302). -/
  sentCount : Nat
  ackedCount : Nat
  retries : Nat
  rnrRetries : Nat
  /-- Packets received and not acknowledged, and when the last came (R302). -/
  rxUnacked : Nat
  rxLastUs : Nat
  /-- Limiter: R_c, R_t in bit/s, α in 1/65,536, i; tokens in bytes × 2^24 (R290, R300). -/
  rc : Nat
  rt : Nat
  alpha : Nat
  incr : Nat
  tokens : Int
  passed : Bool
  bytesSince : Nat
  /-- When a CNP was last sent (R299). -/
  cnpUs : Option Nat
  /-- RDMA READs outstanding (R288). -/
  readsOut : Nat
  lastUs : Nat
  /-- Since when the oldest unacknowledged packet waits, and the starts of the K and T_i timers, elapsed µs (R300, R302). -/
  ackUs : Nat
  alphaUs : Nat
  incrUs : Nat
  /-- The node has answered with an RNR NAK, and later completions wait (R285). -/
  rnrHold : Bool
  /-- Values of 0x5030 and 0x5031 when it connected, by index × 256 + subindex (R304). -/
  prm : SMap
  deriving DecidableEq, Repr

/-- A Jinetia message of the device (R245): fields of the header and the body words, then data bytes. -/
structure Msg where
  opcode : Nat
  completion : Bool
  device : Bool
  status : Status
  partition : Nat
  tenant : Nat
  epoch : Nat
  tag : Nat
  handle : Nat
  words : List W64
  data : List Byte
  deriving DecidableEq, Repr

/-- What a ring is (R280). -/
inductive RingKind where
  | command | completion
  deriving DecidableEq, Repr

/-- A ring (R282 to R284). -/
structure Ring where
  num : Nat
  kind : RingKind
  part : Nat
  srcGid : Nat
  qps : List Nat
  slotSize : Nat
  slots : Nat
  producer : Nat
  /-- Slots written and not consumed. -/
  busy : List Nat
  /-- Messages in the ring in arrival order: first slot, slot count, bytes. -/
  waiting : List (Nat × Nat × List Byte)
  consumed : Nat
  addr : Nat
  key : Nat
  length : Nat
  /-- Bytes written so far and the greatest consumer count (R283, R284). -/
  written : Nat
  consumer : Nat
  /-- Completion entries held for want of room: queue pair, RELAY kind of the service, message (R284). -/
  held : List (Nat × Nat × Msg)
  deriving DecidableEq, Repr

/-- What leaves a logical port (R279, R287 to R289). -/
inductive Wire where
  | message (qp : Nat) (m : Msg)
  | ringEntry (qp : Nat) (ring : Nat) (offset : Nat) (descriptor : List W64) (m : Option Msg)
  | write (qp : Nat) (addr : Nat) (key : Nat) (imm : Option Nat) (bytes : List Byte)
  | read (qp : Nat) (addr : Nat) (key : Nat) (length : Nat)
  | ack (qp : Nat)
  | nakInvalid (qp : Nat)
  | nakAccess (qp : Nat) (msn : Nat)
  | rnrNak (qp : Nat) (timerUs : Nat)
  | cnp (qp : Nat)
  | cmRep (qp : Nat) (words : List W64)
  | cmRej (lp : Nat)
  | cmDrep (qp : Nat)
  | pfc (lp : Nat) (priorities : Nat) (xoff : Bool)
  | resend (qp : Nat) (bytes : Nat)
  deriving DecidableEq, Repr

/-- Markings of a frame as far as R298 gives them: PCP, DSCP, and the ECN codepoint of a data frame. -/
structure Marks where
  pcp : Nat
  dscp : Nat
  ecn : Option Nat
  deriving DecidableEq, Repr

/-- A message waiting for egress (R289, R294): its frames still to send, by size L. -/
structure Egress where
  id : Nat
  lp : Nat
  qp : Nat
  service : Nat
  cls : Nat
  part : Nat
  tenant : Nat
  frames : List Nat
  begun : Bool
  wire : Wire
  /-- Reference of the peer page that is freed once this write is acknowledged (R274). -/
  frees : Option Nat
  deriving DecidableEq, Repr

/-- A shaper or policer bucket (R290, R292): tokens × 2^24. -/
structure Bucket where
  tokens : Int
  atStart : Int
  passed : Bool
  deriving DecidableEq, Repr

/-- A subscriber entry (R291); `overflow` is the partition's overflow entry. -/
structure Subscriber where
  die : Nat
  lp : Nat
  service : Nat
  part : Nat
  tenant : Nat
  overflow : Bool
  bucket : Bucket
  deficit : Int
  /-- Queue pair served last, for the round-robin of R294. -/
  lastQp : Nat
  deriving DecidableEq, Repr

/-- A policer entry (R291, R296). -/
structure Policer where
  die : Nat
  part : Nat
  tenant : Nat
  overflow : Bool
  bytes : Int
  msgs : Int
  deriving DecidableEq, Repr

/-- A logical port (R277, R301, 0x5002). -/
structure LogicalPort where
  num : Nat
  /-- 0x5002.02. -/
  link : Nat
  /-- Priorities paused by received PFC, and since when (R301). -/
  paused : SMap
  /-- Priorities on which PFC is ignored (R301). -/
  ignored : List Nat
  /-- Bytes of the ingress buffer the port holds; XOFF sent (R301). -/
  share : Nat
  xoff : Bool
  /-- Control queue: never shaped nor charged (R289). -/
  control : List Wire
  port : Bucket
  services : List Bucket
  svcDeficit : List Int
  /-- Services in the order the deficit round-robin of R294 visits them next. -/
  svcOrder : List Nat
  deriving DecidableEq, Repr

/-- A device RDMA READ in flight and the message it holds (R288). -/
structure DevRead where
  id : Nat
  qp : Nat
  island : Nat
  why : Instr
  /-- The in-flight record the read belongs to. -/
  owner : Nat
  /-- Sent, or waiting for one of the 16 places of its queue pair or the 1,024 of its island (R288). -/
  issued : Bool
  service : Nat
  cls : Nat
  tenant : Nat
  addr : Nat
  key : Nat
  len : Nat
  deriving DecidableEq, Repr

/-- The network islands. -/
structure Net where
  qps : List Qp
  rings : List Ring
  lps : List LogicalPort
  /-- Port modes in effect, ports 0 to 3 (0x5001.03). -/
  modes : List Nat
  egress : List Egress
  subs : List Subscriber
  policers : List Policer
  reads : List DevRead
  /-- Bytes of the receive pool in use per partition (R285). -/
  pool : SMap
  /-- Shaper parameters in force at each network island: the active set as of its last period boundary (R295). -/
  params : List SMap
  /-- What has left the ports, oldest first, with its logical port and markings: the device's side of every exchange (R298, log 7). -/
  sent : List (Nat × Option Marks × Wire)
  deriving DecidableEq, Repr

/-- A tenant root key (R324, R328). -/
structure TenantKey where
  part : Nat
  tenant : Nat
  keyId : Nat
  key : List Byte
  releasedMs : Nat
  /-- An erase has begun and waits for the tenant's sequences to be freed (R325, Table 10-11). -/
  erasing : Bool
  deriving DecidableEq, Repr

/-- Attestation session states (0x6040.04). -/
inductive AttState where
  | closed | awaitFinish | open_ | failed
  deriving DecidableEq, Repr

/-- An attestation session slot (R327). -/
structure AttSession where
  num : Nat
  st : AttState
  kind : Nat
  part : Nat
  h1 : List Byte
  h2 : List Byte
  keyIn : List Byte
  keyOut : List Byte
  /-- Counters per direction (R327). -/
  inCount : Nat
  outCount : Nat
  lastUs : Nat
  out : List Byte
  /-- This device started the pairing (R330). -/
  started : Bool
  deriving DecidableEq, Repr

/-- A peer link (R330, 0x6070.03), by peer slot 0 to 63. -/
structure PeerLink where
  peer : Nat
  st : Nat
  key : List Byte
  generation : Nat
  counter : Nat
  sinceUs : Nat
  deriving DecidableEq, Repr

/-- Keys, attestation and access. -/
structure Sec where
  keys : List TenantKey
  /-- Tenants whose derived keys are cached, most recent first (R324). -/
  cache : List (Nat × Nat)
  sessions : List AttSession
  links : List PeerLink
  /-- Nonce written to 0x6041.01. -/
  nonce : List Byte
  deriving DecidableEq, Repr

/-- A credential slot (R345, 0x1210). -/
structure Cred where
  num : Nat
  key : List Byte
  role : Nat
  enabled : Bool
  label : List Byte
  lastAuth : Nat
  failures : Nat
  lockedUntil : Nat
  /-- End of the lockout in elapsed µs, and recent failures (R348). -/
  lockUs : Option Nat
  recent : List Nat
  deriving DecidableEq, Repr

/-- One record of a REPLY (Table 11-7). -/
structure Record where
  status : DStatus
  sub : Nat
  type : Nat
  data : List Byte
  deriving DecidableEq, Repr

/-- A REPLY body (Table 11-7). -/
structure ReplyBody where
  status : DStatus
  records : List Record
  epoch : Nat
  request : Nat
  time : Nat
  deriving DecidableEq, Repr

/-- Selectors, held value and segment buffer of a session or of the I3C link (R337, R339, R355). -/
structure Access where
  sel : SMap
  held : Option (Nat × List Byte)
  seg : Option (Nat × List Byte)
  /-- Snapshots taken at a selector write: sequence window (R79) and meter window (R385). -/
  seqSnap : Option Seq
  meterSnap : SMap
  deriving DecidableEq, Repr

/-- An open management session (R350 to R354). -/
structure Session where
  slot : Nat
  id : Nat
  cred : Nat
  role : Nat
  address : Nat
  openedMs : Nat
  openedUs : Nat
  lastUs : Nat
  inCounter : Nat
  outCounter : Nat
  requests : Nat
  replies : List (Nat × ReplyBody)
  acc : Access
  lastCommit : DStatus
  /-- Keys of the client's and the device's direction, 32 bytes each (Table 11-6). -/
  keys : List Byte
  deriving DecidableEq, Repr

/-- A handshake in progress (R350). -/
structure Handshake where
  id : Nat
  slot : Nat
  hello : List Byte
  device : List Byte
  h2 : List Byte
  keys : List Byte
  address : Nat
  startUs : Nat
  deriving DecidableEq, Repr

/-- What the management port, the I3C link and the attestation relay have been sent. -/
inductive MgmtOut where
  | device (handshake : Nat) (bytes : List Byte)
  | done (handshake : Nat) (session : Nat) (status : DStatus) (role : Nat) (idle : Nat)
  | error (handshake : Nat) (status : DStatus) (answers : Nat) (retryS : Nat)
  | reply (session : Nat) (counter : Nat) (body : ReplyBody)
  | close (session : Nat)
  | arp (isArp : Bool) (target : Nat)
  | i3cData (status : DStatus) (data : List Byte)
  | i3cInterrupt (byte : Nat)
  deriving DecidableEq, Repr

/-- Management port, credentials, sessions, I3C. -/
structure MgmtPort where
  creds : List Cred
  sessions : List Session
  handshakes : List Handshake
  nextSession : Nat
  /-- Port configuration applied (R344): the values of 0x1200.02 to .0B in force. -/
  applied : SMap
  /-- I3C dynamic address (0x1220.02). -/
  i3cAddr : Nat
  i3c : Access
  /-- Fault summary and throttling as the in-band interrupts last told them (R356). -/
  seenSummary : Nat
  seenThrottled : Bool
  out : List MgmtOut
  deriving DecidableEq, Repr

/-- A fault record as kept (R361, Table 12-1). -/
structure FaultRec where
  src : SourceRecord
  seqno : Nat
  cls : Nat
  escalated : Bool
  time : Nat
  deriving DecidableEq, Repr

/-- Events kept for escalation of one source and kind (R368), newest first. -/
structure EventLog where
  source : Nat
  kind : Nat
  counts : List Nat
  deriving DecidableEq, Repr

/-- A fenced unit (R374), by source code. -/
structure Fence where
  source : Nat
  /-- 0x7100.04, time of day. -/
  since : Nat
  deriving DecidableEq, Repr

/-- The fault queue of an island (R365) and what R364 has held back. -/
structure FaultQueue where
  island : Nat
  recs : List SourceRecord
  dropped : Nat
  /-- Class-0 kinds sent in this period and events counted since: source, kind, period, count (R364). -/
  quiet : List (Nat × Nat × Nat × Nat)
  deriving DecidableEq, Repr

/-- An external input (R380, Table 12-7). -/
structure Input where
  /-- The deglitched level: true is active. -/
  active : Bool
  since : Nat
  stuck : Bool
  chatter : Bool
  /-- Times of recent level changes, elapsed µs. -/
  changes : List Nat
  assertions : Nat
  /-- Kind to record at the next boot for a stuck or chattering RESET_N (Table 12-7). -/
  owed : Option Nat
  deriving DecidableEq, Repr

/-- The fault collector. -/
structure Faults where
  seqno : Nat
  history : List FaultRec
  firstError : Option FaultRec
  severeCount : Nat
  events : List EventLog
  fences : List Fence
  queues : List FaultQueue
  /-- `FAULT_ALIVE` level, and 0 held, 1 toggling, 2 stopped (0x7000.03). -/
  aliveLevel : Bool
  alive : Nat
  bootFault : Bool
  inputs : List Input
  /-- Lane groups of the Truss bridge failed (R28). -/
  laneGroups : Nat
  deriving DecidableEq, Repr

/-- A mailbox (R388 to R394). -/
structure Mailbox where
  part : Nat
  num : Nat
  full : Bool
  delivering : Bool
  kind : Nat
  fromOperator : Bool
  sender : Nat
  senderReq : Option Req
  hdr : Option Hdr
  body : List Byte
  /-- Receiver under the binding it was written under (R388). -/
  ident : Nat
  untilUs : Nat
  deriving DecidableEq, Repr

/-- Power levels, causes and clusters (R396 to R399, R420 to R422, R431) (log 83). -/
structure Power where
  /-- Causes of the safe level (0x7810.03): input, VR, rail monitor, AVSBus fault. -/
  throttleN : Bool
  vrFault : Bool
  railTrip : Bool
  railUntil : Nat
  avsFault : List Nat
  avsOkSince : Nat
  /-- Since when each input has been inactive without chatter (R381). -/
  throttleOff : Nat
  vrOff : Nat
  /-- The power cap's limit on the cluster clocks, kHz (R399). -/
  capKHz : Nat
  lastCapUs : Nat
  heldOff : List Nat
  /-- Since when each cluster has been idle, elapsed µs; none while it holds work (R396). -/
  idleSince : List (Option Nat)
  /-- Clusters that are being woken, and since when (R396). -/
  waking : List (Nat × Nat)
  gatings : SMap
  wakes : SMap
  /-- Core rail voltages, mV, and when set (R420). -/
  railMv : List Nat
  railSetUs : List Nat
  /-- Sensor readings, tenths of °C: dies 0 and 1, stacks 0 to 11. -/
  sensors : List Int
  /-- Sensors whose minimum-clock row of Table 14-10 holds, and since when each has read below its exit (R431). -/
  hot : List (Nat × Option Nat)
  telemetry : Telemetry
  energyJ : Nat
  thermal : Bool
  /-- Congestion level and when it was recomputed (R333). -/
  congestion : Nat
  congestionUs : Nat
  /-- Throttled since the last recomputation; periods with waiting work, and periods, since then. -/
  throttledSince : Bool
  waitedPeriods : Nat
  totalPeriods : Nat
  deriving DecidableEq, Repr

/-- Firmware halves and switch (R407 to R410). -/
structure Firmware where
  active : Nat
  versions : List Nat
  pending : Nat
  pendingVersion : Nat
  image : List Byte
  /-- The hold of a switch: its start in elapsed µs and how its steps end. -/
  hold : Option (Nat × SwitchReport)
  lastMs : Nat
  /-- Object values of the Woeno image in each half; those of the active half are taken at a device reset (R358, R409). -/
  halves : List SMap
  deriving DecidableEq, Repr

/-- Metering (R383 to R385): key ((partition × 65,536) + tenant) × 128 + field of 0x8010, and loss reasons from 64 on. -/
structure Meters where
  live : SMap
  saved : SMap
  lastSave : Nat
  /-- (partition, tenant) pairs with a record. -/
  pairs : List (Nat × Nat)
  deriving DecidableEq, Repr

end Sys2Proof.Machine
end

