-- ==== Sys2Proof/Machine/State.lean ====
section
/-!
DEFINITION. The machine's state, the reasons a step can stop, and the state after reset: an HN4812-AL that has just booted without a fault on the
bring-up board of chapter 15 (R404, R434), with a Woeno image that assigns no slice (log 11).
-/
namespace Sys2Proof.Machine

/-- Reasons the machine stops. The spec gives every command an effect and names no state in which the block halts a command, so there is none. -/
inductive Fault where
  deriving DecidableEq, Repr

/-- Reasons a command has no meaning. -/
inductive Refusal where
  /-- Raised by an arm of `exec` whose command has no meaning yet; safe: nothing can be proved of it. -/
  | notModelled (mnemonic : String)
  deriving DecidableEq, Repr

/-- The block's whole state: one component per unit, and the commands that wait. -/
structure State where
  dev : Dev
  clock : Clock
  objs : Objs
  islands : List Island
  epochs : Epochs
  seqs : List Seq
  /-- Generation of each sequence slot used since the last device reset; key partition × 2^20 + slot (R437). -/
  slotGens : SMap
  hbm : Hbm
  /-- Buffers of clusters 0 to 15. -/
  caches : List ClusterCache
  work : Work
  mortise : Mortise
  packers : List Packer
  flash : Flash
  broker : Broker
  net : Net
  sec : Sec
  mgmt : MgmtPort
  faults : Faults
  mailboxes : List Mailbox
  power : Power
  fw : Firmware
  meters : Meters
  /-- Commands that wait, first in, first out. -/
  pending : List Instr
  deriving DecidableEq, Repr

namespace Reset

/-- Top clock of Table 1-5, kHz, by island number. -/
def topClock (n : Nat) : Nat :=
  if n < 8 then 2500000 else if n < 14 then 2000000 else if n = 14 then 1600000 else if n = 15 then 1000000
  else if n = 16 then 1200000 else if n = 17 then 1250000 else if n < 26 then 2500000 else if n < 32 then 2000000
  else if n = 32 then 1600000 else 1000000

/-- Whether the configuration holds die 1 (R4). -/
def unitPresent (p : Part) (die : Nat) : Bool := die == 0 || p == Part.al

/-- An island after a device reset: running at its top clock, period count 0 (R42, R43). -/
def island (p : Part) (n : Nat) : Island :=
  { num := n, st := if n < 18 || p == .al then .running else .absent, clk := topClock n, relock := none, railFor := topClock n, wish := none, paused := false, periods := 0, lockLosses := 0
    table := { map := [], owners := List.replicate 64 none }, shadowTable := none, uses := [], thermalCap := none
    lastStepUs := 0, throttle := 65535 }

/-- A slice under a map that assigns none (R309, 0x6013). -/
def slice (p : Part) (n : Nat) : Slice :=
  { num := n, st := if n < 32 || p == .al then .unassigned else .absent, owner := none, joins := none, forReset := false }

/-- A flash island just formatted: nothing written, no journal record waiting, every sensor at 25.0 °C (R209, R434, log 11). -/
def flashIsland (n : Nat) : FlashIsland :=
  { num := n, readOnly := false, disabled := false, wseq := 0, pendingJournal := [], lastFlushUs := 0, journalSeq := 0, updates := 0
    checkpointSeq := 0, checkpointRunning := false, rooted := true, closings := 0, lostSbs := 0, temps := List.replicate 512 250
    tempSeconds := [], sampledUs := 0, tempSaved := [] }

/-- A logical port: up and idle, every bucket full (R277, R290). -/
def logicalPort (n : Nat) (inUse : Bool) : LogicalPort :=
  { num := n, link := if inUse then 2 else 4, paused := [], ignored := [], share := 0, xoff := false, control := []
    port := { tokens := 65536 * 2 ^ 24, atStart := 65536 * 2 ^ 24, passed := false }
    services := List.replicate 6 { tokens := 65536 * 2 ^ 24, atStart := 65536 * 2 ^ 24, passed := false }
    svcDeficit := List.replicate 6 0, svcOrder := [0, 1, 2, 3, 4, 5] }

/-- A cluster's buffers, empty. -/
def cache (c : Nat) : ClusterCache := { cluster := c, lookaside := [], walker := [], quarters := [], pages := [] }

def input : Input := { active := false, since := 0, stuck := false, chatter := false, changes := [], assertions := 0, owed := none }

def access : Access := { sel := [], held := none, seg := none, seqSnap := none, meterSnap := [] }

def cred (n : Nat) : Cred :=
  { num := n, key := [], role := 1, enabled := false, label := [], lastAuth := 0, failures := 0, lockedUntil := 0, lockUs := none, recent := [] }

def attSession (n : Nat) : AttSession :=
  { num := n, st := .closed, kind := 0, part := 0, h1 := [], h2 := [], keyIn := [], keyOut := [], inCount := 0, outCount := 0, lastUs := 0
    out := [], started := false }

def telemetry : Telemetry := { power := 0, powerMilliW := 0, energyJ := 0, dieTemps := [0, 0], stackTemp := 0 }

def dev : Dev :=
  { part := .al, phase := .running, bootStep := 10, failedStep := 0, bootSource := 0, bootDuration := 1210, lastReset := 0, resetInProgress := 0
    deviceResets := 0, manufacturing := false, shutdownAt := none, freeCount := 0, nextId := 1, nextTag := 1 }

def hbm : Hbm :=
  { mem := [], used := [], extents := [], reserveTaken := [], shootdowns := [], lanesUsed := [], refreshHalved := [], patrolSeen := [] }

def flash : Flash :=
  { islands := [flashIsland 15, flashIsland 33], channels := 0xFFFFFFFF, diesPerChannel := 32, pagesPerBlock := 1024, blocksPerDie := 5440
    dataRate := 3600, fineCap := 16777216, times := [30000, 180000, 60000, 1800000, 3000000, 6000000], ratingPslc := 50000, ratingTlc := 3000
    sbs := [], pages := [], coarse := [], fine := [], nextUnit := [0, 0], nextFine := [0, 0], lastIsland := 1, stale := [], reads := [], wearPslc := [], wearTlc := []
    retired := [], spareTaken := [], spareAdded := [], secure := [], keyWrapped := true, patrolSeen := [], writeLog := [] }

def power : Power :=
  { throttleN := false, vrFault := false, railTrip := false, railUntil := 0, avsFault := [], avsOkSince := 0, throttleOff := 0, vrOff := 0
    capKHz := 2500000, lastCapUs := 0, heldOff := [], idleSince := List.replicate 16 (some 0), waking := [], gatings := [], wakes := [], railMv := [800, 800]
    railSetUs := [0, 0], sensors := List.replicate 14 250, hot := [], telemetry := telemetry, energyJ := 0, thermal := false, congestion := 0
    congestionUs := 0, throttledSince := false, waitedPeriods := 0, totalPeriods := 0 }

end Reset

open Reset in
/-- The machine right after reset: every field at the value the spec states for a device that has booted, and every other at the value log 11 names. -/
def State.reset : State :=
  { dev := Reset.dev
    clock := { us := 0, tod := 0, written := false, writes := 0, saved := 0 }
    objs := { active := [], prev := [], shadow := [], rw := [], counters := [], reservation := none
              salts := [], saltsNext := [] }
    islands := (List.range 34).map (island .al)
    epochs := { active := 1, prev := none, commitUs := 0, lastCommitMs := 0, accepted := 0, refuseReason := 0, refuseDetail := 0, aborted := 0
                slices := (List.range 64).map (slice .al), prevOwners := List.replicate 64 none, returned := [], hbmKeys := [(64, 0)], givenUp := [] }
    seqs := []
    slotGens := []
    hbm := Reset.hbm
    caches := (List.range 16).map cache
    work := { attends := [], tiles := [], groups := [], accums := [], appends := [], stagings := [], stageReqs := [], deliveries := [], moves := [] }
    mortise := { banks := [], mode := 2, target := none, cycles := 0, cyclesUs := 0, nodes := [], second := [], records := [], insertions := [], lookups := [], jobs := [] }
    packers := []
    flash := Reset.flash
    broker := { nodes := [], freed := [], advices := [], mirrors := [], peerPages := [], asks := [], relays := [], gone := [], nextRef := 1, peerBeat := 0 }
    net := { qps := [], rings := [], lps := (List.range 16).map fun n => logicalPort n (n % 4 == 0), modes := [0, 0, 0, 0], egress := [], subs := []
             policers := [], reads := [], pool := [], params := [[], []], sent := [] }
    sec := { keys := [], cache := [], sessions := (List.range 8).map attSession, links := [], nonce := [] }
    mgmt := { creds := (List.range 8).map cred, sessions := [], handshakes := [], nextSession := 1, applied := [], i3cAddr := 0, i3c := access, seenSummary := 0, seenThrottled := false
              out := [] }
    faults := { seqno := 0, history := [], firstError := none, severeCount := 0, events := [], fences := [], queues := [], aliveLevel := false
                alive := 1, bootFault := false, inputs := [input, input, input], laneGroups := 0 }
    mailboxes := []
    power := Reset.power
    fw := { active := 0, versions := [0, 0], pending := 0, pendingVersion := 0, image := [], hold := none, lastMs := 0, halves := [[], []] }
    meters := { live := [], saved := [], lastSave := 0, pairs := [] }
    pending := [] }

end Sys2Proof.Machine
end

