-- ==== Sys2Proof/Machine/Objects.lean ====
section
/-!
DEFINITION. The object dictionary's rows, as the object tables of the spec give them (R335, R360): one row for each line of those tables.
Defaults that differ from subindex to subindex or item to item, and ranges that depend on another value, stand in Machine/Ops.lean (specialDefault) and Machine/Writes.lean (inRange).
-/
namespace Sys2Proof.Machine

/-- Access codes of Table 11-2 (R336). -/
inductive Acc where
  | ro | rw | rws | wo | const
  deriving DecidableEq, Repr

/-- A line of an object table: first index and how many indices, first subindex and how many, type code of Table 11-1, length in bytes, access,
default, least and greatest value, values allowed outside that range, name. -/
structure ObjRow where
  ix : Nat
  span : Nat
  sub : Nat
  subs : Nat
  ty : Nat
  len : Nat
  acc : Acc
  dflt : Nat
  lo : Nat
  hi : Nat
  also : List Nat
  name : String
  deriving DecidableEq, Repr

/-- Table of 1-11, R43. -/
def rowsOrganisationA : List ObjRow := [
  ⟨0x2000, 1, 0x00, 1, 1, 1, .const, 34, 0, 255, [], "Island count"⟩,
  ⟨0x2000, 1, 0x01, 34, 3, 4, .ro, 0, 0, 4294967295, [], "Island descriptor, islands 0–33"⟩,
  ⟨0x2001, 1, 0x01, 1, 1, 1, .rw, 0, 0, 33, [], "Clock window: island selector"⟩,
  ⟨0x2001, 1, 0x02, 1, 3, 4, .ro, 0, 0, 4294967295, [], "Present clock"⟩,
  ⟨0x2001, 1, 0x03, 1, 3, 4, .const, 0, 0, 4294967295, [], "Top clock"⟩,
  ⟨0x2001, 1, 0x04, 1, 3, 4, .const, 0, 0, 4294967295, [], "Minimum clock"⟩,
  ⟨0x2001, 1, 0x05, 1, 3, 4, .rw, 0, 0, 4294967295, [], "Clock cap"⟩,
  ⟨0x2001, 1, 0x06, 1, 4, 8, .ro, 0, 0, 18446744073709551615, [], "Period count"⟩,
  ⟨0x2001, 1, 0x07, 1, 3, 4, .ro, 0, 0, 4294967295, [], "PLL lock losses"⟩,
  ⟨0x2002, 1, 0x00, 1, 2, 2, .const, 4096, 0, 65535, [], "Period length"⟩,
  ⟨0x2003, 1, 0x00, 1, 7, 1, .rws, 1, 0, 1, [], "Lending enable"⟩,
  ⟨0x2010, 1, 0x01, 1, 1, 1, .rw, 0, 0, 63, [], "Share window: partition selector"⟩,
  ⟨0x2010, 1, 0x02, 8, 3, 4, .rws, 36045, 0, 65536, [], "Guaranteed share g, classes 0–7"⟩,
  ⟨0x2010, 1, 0x0A, 8, 3, 4, .rws, 65536, 0, 1048576, [], "Ceiling h, classes 0–7"⟩,
  ⟨0x2011, 1, 0x01, 1, 1, 1, .rw, 0, 0, 64, [], "Entitlement window: partition selector"⟩,
  ⟨0x2011, 1, 0x02, 1, 1, 1, .rw, 0, 0, 33, [], "Island selector"⟩,
  ⟨0x2011, 1, 0x03, 1, 1, 1, .rw, 0, 0, 31, [], "Resource selector"⟩,
  ⟨0x2011, 1, 0x04, 1, 3, 4, .ro, 0, 0, 4294967295, [], "Entitlement in effect"⟩,
  ⟨0x2011, 1, 0x05, 1, 3, 4, .rws, 0, 0, 65536, [], "Entitlement override"⟩,
  ⟨0x2012, 1, 0x01, 6, 3, 4, .rws, 1024, 0, 32768, [], "Device share D, island kinds 0–5"⟩,
  ⟨0x2013, 1, 0x01, 1, 1, 1, .rw, 0, 0, 5, [], "Device class window: island kind selector"⟩,
  ⟨0x2013, 1, 0x02, 8, 3, 4, .rws, 0, 0, 4294967295, [], "Device-row share, classes 0–7"⟩,
  ⟨0x2018, 1, 0x01, 1, 1, 1, .rw, 0, 0, 64, [], "Budget status window: partition selector"⟩,
  ⟨0x2018, 1, 0x02, 1, 1, 1, .rw, 0, 0, 33, [], "Island selector"⟩,
  ⟨0x2018, 1, 0x03, 1, 1, 1, .rw, 0, 0, 31, [], "Resource selector"⟩,
  ⟨0x2018, 1, 0x04, 1, 1, 1, .rw, 0, 0, 7, [], "Class selector"⟩,
  ⟨0x2018, 1, 0x05, 1, 3, 4, .ro, 0, 0, 4294967295, [], "Budget B"⟩,
  ⟨0x2018, 1, 0x06, 1, 3, 4, .ro, 0, 0, 4294967295, [], "Ceiling H"⟩,
  ⟨0x2018, 1, 0x07, 1, 3, 4, .ro, 0, 0, 4294967295, [], "Used"⟩,
  ⟨0x2018, 1, 0x08, 1, 3, 4, .ro, 0, 0, 4294967295, [], "Borrowed"⟩,
  ⟨0x2018, 1, 0x09, 1, 3, 4, .ro, 0, 0, 4294967295, [], "Lent"⟩,
  ⟨0x2018, 1, 0x0A, 1, 3, 4, .ro, 0, 0, 4294967295, [], "Debt"⟩,
  ⟨0x2018, 1, 0x0B, 1, 4, 8, .ro, 0, 0, 18446744073709551615, [], "Exhausted periods"⟩,
  ⟨0x2020, 1, 0x01, 1, 1, 1, .ro, 64, 0, 64, [], "Truss bridge lane groups active"⟩,
  ⟨0x2020, 1, 0x02, 1, 1, 1, .ro, 0, 0, 2, [], "Lane groups spared"⟩,
  ⟨0x2020, 1, 0x03, 1, 4, 8, .ro, 0, 0, 18446744073709551615, [], "Bridge bytes, die 0 to die 1"⟩,
  ⟨0x2020, 1, 0x04, 1, 4, 8, .ro, 0, 0, 18446744073709551615, [], "Bridge bytes, die 1 to die 0"⟩,
  ⟨0x2021, 1, 0x01, 1, 1, 1, .rw, 0, 0, 33, [], "Truss window: island selector"⟩,
  ⟨0x2021, 1, 0x02, 1, 4, 8, .ro, 0, 0, 18446744073709551615, [], "Stop bytes in"⟩,
  ⟨0x2021, 1, 0x03, 1, 4, 8, .ro, 0, 0, 18446744073709551615, [], "Stop bytes out"⟩]

/-- Table of 1-11, R43. -/
def rowsOrganisationB : List ObjRow := [
  ⟨0x2021, 1, 0x04, 1, 4, 8, .ro, 0, 0, 18446744073709551615, [], "Backpressure cycles"⟩,
  ⟨0x2021, 1, 0x05, 1, 3, 4, .ro, 0, 0, 4294967295, [], "Handshake timeouts"⟩,
  ⟨0x2022, 1, 0x00, 1, 3, 4, .rw, 4096, 1024, 65536, [], "Handshake timeout"⟩]

/-- Table of 2-11, R79. -/
def rowsStateA : List ObjRow := [
  ⟨0x2100, 1, 0x00, 1, 3, 4, .const, 1048576, 0, 4294967295, [], "Maximum live and retained sequences"⟩,
  ⟨0x2101, 1, 0x01, 1, 1, 1, .rw, 0, 0, 63, [], "Partition window: partition selector"⟩,
  ⟨0x2101, 1, 0x02, 1, 3, 4, .rws, 16384, 0, 1048576, [], "Slot limit"⟩,
  ⟨0x2101, 1, 0x03, 1, 3, 4, .ro, 0, 0, 4294967295, [], "Live sequences"⟩,
  ⟨0x2101, 1, 0x04, 1, 3, 4, .ro, 0, 0, 4294967295, [], "Retained sequences"⟩,
  ⟨0x2101, 1, 0x05, 1, 3, 4, .rw, 1000, 0, 4294967295, [], "Write-back age"⟩,
  ⟨0x2101, 1, 0x06, 1, 3, 4, .rw, 2000, 0, 4294967295, [], "Pack age"⟩,
  ⟨0x2101, 1, 0x07, 1, 3, 4, .rw, 30000, 0, 4294967295, [], "Flash age"⟩,
  ⟨0x2101, 1, 0x08, 1, 3, 4, .rw, 0, 0, 4294967295, [], "Kerf age"⟩,
  ⟨0x2101, 1, 0x09, 1, 3, 4, .rw, 0, 0, 4294967295, [], "Archive age"⟩,
  ⟨0x2101, 1, 0x0A, 1, 3, 4, .rw, 1000, 100, 60000, [], "Scan interval"⟩,
  ⟨0x2101, 1, 0x0B, 1, 3, 4, .rw, 2000, 100, 100000, [], "Ledger mirror timeout"⟩,
  ⟨0x2101, 1, 0x0C, 1, 1, 1, .rw, 50, 10, 90, [], "Extent evacuation threshold"⟩,
  ⟨0x2101, 1, 0x0D, 1, 3, 4, .rw, 8192, 0, 65536, [], "Pinned frame limit"⟩,
  ⟨0x2101, 1, 0x0E, 1, 3, 4, .ro, 0, 0, 4294967295, [], "HBM frames in use"⟩,
  ⟨0x2101, 1, 0x0F, 1, 3, 4, .ro, 0, 0, 4294967295, [], "Free granules in packed extents"⟩,
  ⟨0x2102, 1, 0x01, 1, 4, 8, .rw, 0, 0, 18446744073709551615, [], "Sequence window: handle selector"⟩,
  ⟨0x2102, 1, 0x02, 1, 1, 1, .ro, 0, 0, 255, [], "State"⟩,
  ⟨0x2102, 1, 0x03, 1, 1, 1, .ro, 0, 0, 255, [], "Flags"⟩,
  ⟨0x2102, 1, 0x04, 1, 3, 4, .ro, 0, 0, 4294967295, [], "Sealed position"⟩,
  ⟨0x2102, 1, 0x05, 1, 2, 2, .ro, 0, 0, 65535, [], "Capacity"⟩,
  ⟨0x2102, 1, 0x06, 1, 2, 2, .ro, 65535, 0, 4095, [], "Lease holder"⟩,
  ⟨0x2102, 1, 0x07, 1, 2, 2, .ro, 0, 0, 65535, [], "Lease generation"⟩,
  ⟨0x2102, 1, 0x08, 1, 4, 8, .ro, 0, 0, 18446744073709551615, [], "Link"⟩,
  ⟨0x2102, 1, 0x09, 1, 3, 4, .ro, 0, 0, 4294967295, [], "Link length"⟩,
  ⟨0x2102, 1, 0x0A, 1, 3, 4, .ro, 0, 0, 4294967295, [], "Linkers"⟩,
  ⟨0x2102, 1, 0x0B, 1, 3, 4, .ro, 0, 0, 4294967295, [], "Pages in HBM"⟩,
  ⟨0x2102, 1, 0x0C, 1, 3, 4, .ro, 0, 0, 4294967295, [], "Pages on flash"⟩,
  ⟨0x2102, 1, 0x0D, 1, 3, 4, .ro, 0, 0, 4294967295, [], "Pages on peers"⟩,
  ⟨0x2102, 1, 0x0E, 1, 3, 4, .ro, 0, 0, 4294967295, [], "Pages lost"⟩,
  ⟨0x2102, 1, 0x0F, 1, 4, 8, .ro, 0, 0, 18446744073709551615, [], "Last touch"⟩,
  ⟨0x2103, 1, 0x01, 1, 1, 1, .rw, 0, 0, 15, [], "Walker window: cluster selector"⟩,
  ⟨0x2103, 1, 0x02, 1, 4, 8, .ro, 0, 0, 18446744073709551615, [], "Walker lookups"⟩,
  ⟨0x2103, 1, 0x03, 1, 4, 8, .ro, 0, 0, 18446744073709551615, [], "Walker cache hits"⟩,
  ⟨0x2103, 1, 0x04, 1, 4, 8, .ro, 0, 0, 18446744073709551615, [], "Look-aside hits, sum of cores"⟩,
  ⟨0x2103, 1, 0x05, 1, 4, 8, .ro, 0, 0, 18446744073709551615, [], "Look-aside misses, sum of cores"⟩,
  ⟨0x2103, 1, 0x06, 1, 4, 8, .ro, 0, 0, 18446744073709551615, [], "Pin lock waits"⟩,
  ⟨0x2103, 1, 0x07, 1, 4, 8, .ro, 0, 0, 18446744073709551615, [], "Pin saturation waits"⟩,
  ⟨0x2103, 1, 0x08, 1, 4, 8, .ro, 0, 0, 18446744073709551615, [], "Speculative refetches"⟩,
  ⟨0x2103, 1, 0x09, 1, 4, 8, .ro, 0, 0, 18446744073709551615, [], "Shootdowns received"⟩]

/-- Table of 2-11, R79. -/
def rowsStateB : List ObjRow := [
  ⟨0x2104, 1, 0x01, 11, 4, 8, .ro, 0, 0, 18446744073709551615, [], "Pages lost, reasons 1–11"⟩,
  ⟨0x2104, 1, 0x0C, 1, 4, 8, .ro, 0, 0, 18446744073709551615, [], "Moves"⟩,
  ⟨0x2104, 1, 0x0D, 1, 4, 8, .ro, 0, 0, 18446744073709551615, [], "Move candidates skipped"⟩,
  ⟨0x2104, 1, 0x0E, 1, 4, 8, .ro, 0, 0, 18446744073709551615, [], "Clean-frame restores"⟩,
  ⟨0x2105, 1, 0x00, 1, 1, 1, .const, 4, 0, 255, [], "Link depth maximum"⟩]

/-- Table of R115. -/
def rowsAttendA : List ObjRow := [
  ⟨0x2200, 1, 0x00, 1, 2, 2, .const, 1024, 0, 65535, [], "Rows per ATTEND, maximum"⟩,
  ⟨0x2200, 1, 0x01, 1, 2, 2, .const, 8192, 0, 65535, [], "Scoreboard entries per cluster"⟩,
  ⟨0x2200, 1, 0x02, 1, 3, 4, .const, 262144, 0, 4294967295, [], "Cluster split threshold"⟩,
  ⟨0x2200, 1, 0x03, 1, 2, 2, .const, 512, 0, 65535, [], "Cluster segment"⟩,
  ⟨0x2201, 1, 0x01, 1, 1, 1, .rw, 0, 0, 63, [], "Partition window: partition selector"⟩,
  ⟨0x2201, 1, 0x02, 1, 2, 2, .rws, 256, 64, 4096, [], "Core block B_c"⟩,
  ⟨0x2201, 1, 0x05, 1, 3, 4, .rws, 1048576, 262144, 4194304, [], "Die split threshold"⟩,
  ⟨0x2201, 1, 0x06, 1, 2, 2, .rws, 512, 0, 4096, [], "Fuse wait"⟩,
  ⟨0x2201, 1, 0x07, 1, 1, 1, .rws, 32, 1, 64, [], "Fuse group limit"⟩,
  ⟨0x2201, 1, 0x08, 1, 3, 4, .rws, 65536, 4096, 1048576, [], "Inline query limit"⟩,
  ⟨0x2201, 1, 0x09, 1, 3, 4, .rws, 65536, 4096, 1048576, [], "Output inline limit"⟩,
  ⟨0x2201, 1, 0x0A, 1, 7, 1, .rws, 1, 0, 1, [], "Refresh fallback enable"⟩,
  ⟨0x2202, 1, 0x01, 1, 1, 1, .rw, 0, 0, 15, [], "Cluster window: cluster selector"⟩,
  ⟨0x2202, 1, 0x02, 1, 4, 8, .ro, 0, 0, 18446744073709551615, [], "Tiles issued"⟩,
  ⟨0x2202, 1, 0x03, 1, 4, 8, .ro, 0, 0, 18446744073709551615, [], "Pages fetched"⟩,
  ⟨0x2202, 1, 0x04, 1, 4, 8, .ro, 0, 0, 18446744073709551615, [], "Pages skipped, causal or limit"⟩,
  ⟨0x2202, 1, 0x05, 1, 4, 8, .ro, 0, 0, 18446744073709551615, [], "Pages skipped, sparse pattern"⟩,
  ⟨0x2202, 1, 0x06, 1, 4, 8, .ro, 0, 0, 18446744073709551615, [], "Fused page reads"⟩,
  ⟨0x2202, 1, 0x07, 1, 4, 8, .ro, 0, 0, 18446744073709551615, [], "Tiles served by fused reads"⟩,
  ⟨0x2202, 1, 0x08, 1, 4, 8, .ro, 0, 0, 18446744073709551615, [], "Fuse wait expiries"⟩,
  ⟨0x2202, 1, 0x09, 1, 4, 8, .ro, 0, 0, 18446744073709551615, [], "Rows completed"⟩,
  ⟨0x2202, 1, 0x0A, 1, 4, 8, .ro, 0, 0, 18446744073709551615, [], "Rows empty"⟩,
  ⟨0x2202, 1, 0x0B, 1, 4, 8, .ro, 0, 0, 18446744073709551615, [], "Rows clipped"⟩,
  ⟨0x2202, 1, 0x0C, 1, 4, 8, .ro, 0, 0, 18446744073709551615, [], "Rows LOST"⟩,
  ⟨0x2202, 1, 0x0D, 1, 4, 8, .ro, 0, 0, 18446744073709551615, [], "Rows TOLERANCE"⟩,
  ⟨0x2202, 1, 0x0E, 1, 4, 8, .ro, 0, 0, 18446744073709551615, [], "Tiles held for staging or relay-in"⟩,
  ⟨0x2202, 1, 0x0F, 1, 4, 8, .ro, 0, 0, 18446744073709551615, [], "Fetches repeated after integrity failure"⟩,
  ⟨0x2202, 1, 0x10, 1, 4, 8, .ro, 0, 0, 18446744073709551615, [], "Merges"⟩,
  ⟨0x2202, 1, 0x11, 1, 4, 8, .ro, 0, 0, 18446744073709551615, [], "Tiles cancelled"⟩,
  ⟨0x2202, 1, 0x12, 1, 2, 2, .ro, 0, 0, 65535, [], "Scoreboard occupancy, peak"⟩,
  ⟨0x2202, 1, 0x13, 1, 4, 8, .ro, 0, 0, 18446744073709551615, [], "Scatter writes held by pins"⟩]

/-- Table of R148. -/
def rowsAppendA : List ObjRow := [
  ⟨0x2300, 1, 0x00, 1, 2, 2, .const, 8192, 0, 65535, [], "Positions per APPEND, maximum"⟩,
  ⟨0x2300, 1, 0x01, 1, 1, 1, .const, 128, 0, 255, [], "Reserve line divisor"⟩,
  ⟨0x2301, 1, 0x01, 1, 1, 1, .rw, 0, 0, 63, [], "Partition window: partition selector"⟩,
  ⟨0x2301, 1, 0x02, 1, 3, 4, .rws, 200, 0, 10000, [], "Append hold limit"⟩,
  ⟨0x2301, 1, 0x03, 1, 3, 4, .rws, 65536, 4096, 1048576, [], "Append inline limit"⟩,
  ⟨0x2301, 1, 0x05, 1, 3, 4, .rws, 1000, 0, 4294967295, [], "Reclaim age"⟩,
  ⟨0x2301, 1, 0x06, 1, 1, 1, .rws, 4, 0, 16, [], "Layer-ahead depth k"⟩,
  ⟨0x2301, 1, 0x07, 1, 3, 4, .rws, 100, 1, 10000, [], "Stage timeout"⟩,
  ⟨0x2301, 1, 0x09, 1, 7, 1, .rws, 1, 0, 1, [], "Layer-ahead wrap"⟩,
  ⟨0x2301, 1, 0x0A, 1, 7, 1, .rws, 1, 0, 1, [], "Resume staging enable"⟩,
  ⟨0x2301, 1, 0x0B, 1, 3, 4, .rws, 50, 1, 10000, [], "Delivery idle limit"⟩,
  ⟨0x2302, 1, 0x01, 1, 1, 1, .rw, 0, 0, 63, [], "Status window: partition selector"⟩,
  ⟨0x2302, 1, 0x02, 1, 3, 4, .ro, 0, 0, 4294967295, [], "Reserve line size"⟩,
  ⟨0x2302, 1, 0x03, 1, 3, 4, .ro, 0, 0, 4294967295, [], "Reserve frames available"⟩,
  ⟨0x2302, 1, 0x04, 1, 4, 8, .ro, 0, 0, 18446744073709551615, [], "APPEND completed"⟩,
  ⟨0x2302, 1, 0x05, 1, 4, 8, .ro, 0, 0, 18446744073709551615, [], "APPEND held in step 3"⟩,
  ⟨0x2302, 1, 0x06, 1, 4, 8, .ro, 0, 0, 18446744073709551615, [], "APPEND served from reserve"⟩,
  ⟨0x2302, 1, 0x07, 1, 4, 8, .ro, 0, 0, 18446744073709551615, [], "Pages recycled, step 5"⟩,
  ⟨0x2302, 1, 0x08, 1, 4, 8, .ro, 0, 0, 18446744073709551615, [], "PAGE_EXHAUSTED returned"⟩,
  ⟨0x2302, 1, 0x09, 1, 3, 4, .ro, 0, 0, 4294967295, [], "Sequences truncated now"⟩,
  ⟨0x2302, 1, 0x0A, 1, 4, 8, .ro, 0, 0, 18446744073709551615, [], "Frames reclaimed clean, step 2"⟩,
  ⟨0x2302, 1, 0x0B, 1, 4, 8, .ro, 0, 0, 18446744073709551615, [], "Pages demoted or dropped, step 3"⟩,
  ⟨0x2302, 1, 0x0C, 1, 3, 4, .ro, 0, 0, 4294967295, [], "Longest hold"⟩,
  ⟨0x2302, 1, 0x0D, 1, 4, 8, .ro, 0, 0, 18446744073709551615, [], "Refresh pages written"⟩,
  ⟨0x2302, 1, 0x0E, 1, 4, 8, .ro, 0, 0, 18446744073709551615, [], "Pages staged"⟩,
  ⟨0x2302, 1, 0x0F, 1, 4, 8, .ro, 0, 0, 18446744073709551615, [], "Staging timeouts"⟩,
  ⟨0x2302, 1, 0x10, 1, 4, 8, .ro, 0, 0, 18446744073709551615, [], "Pages delivered"⟩,
  ⟨0x2302, 1, 0x11, 1, 4, 8, .ro, 0, 0, 18446744073709551615, [], "Delivery waits on PROGRESS"⟩]

/-- Table of R178. -/
def rowsMortiseA : List ObjRow := [
  ⟨0x2400, 1, 0x00, 1, 3, 4, .const, 262144, 0, 4294967295, [], "Array entries"⟩,
  ⟨0x2400, 1, 0x01, 1, 1, 1, .const, 64, 0, 255, [], "Banks"⟩,
  ⟨0x2400, 1, 0x02, 1, 1, 1, .const, 36, 0, 255, [], "Parallel hash chains"⟩,
  ⟨0x2401, 1, 0x01, 1, 1, 1, .rw, 2, 0, 2, [], "Bank mode requested"⟩,
  ⟨0x2401, 1, 0x02, 1, 1, 1, .ro, 2, 0, 2, [], "Bank mode in effect"⟩,
  ⟨0x2401, 1, 0x03, 1, 3, 4, .ro, 0, 0, 4294967295, [], "Entries awaiting mode move"⟩,
  ⟨0x2401, 1, 0x04, 1, 3, 4, .const, 67108864, 0, 4294967295, [], "Recency tick"⟩,
  ⟨0x2401, 1, 0x05, 1, 2, 2, .rw, 60, 10, 3600, [], "Patrol interval"⟩,
  ⟨0x2402, 1, 0x01, 1, 1, 1, .rw, 0, 0, 63, [], "Partition window: partition selector"⟩,
  ⟨0x2402, 1, 0x02, 1, 9, 32, .wo, 0, 0, 0, [], "Public salt"⟩,
  ⟨0x2402, 1, 0x03, 1, 7, 1, .ro, 0, 0, 1, [], "Public salt set"⟩,
  ⟨0x2402, 1, 0x04, 1, 7, 1, .rws, 1, 0, 1, [], "Automatic insertion"⟩,
  ⟨0x2402, 1, 0x05, 1, 3, 4, .rws, 16384, 0, 65536, [], "Insertion limit"⟩,
  ⟨0x2402, 1, 0x06, 1, 1, 1, .rws, 1, 0, 1, [], "Default retention class"⟩,
  ⟨0x2402, 1, 0x07, 1, 3, 4, .rws, 16384, 0, 262144, [], "Class-3 entry limit"⟩,
  ⟨0x2402, 1, 0x08, 1, 3, 4, .rws, 65536, 4096, 1048576, [0], "Second-level buckets B"⟩,
  ⟨0x2402, 1, 0x09, 1, 3, 4, .rws, 262144, 0, 4194304, [], "Publication record capacity"⟩,
  ⟨0x2402, 1, 0x0A, 1, 3, 4, .rws, 65536, 4096, 1048576, [], "LOOKUP inline limit"⟩,
  ⟨0x2402, 1, 0x0B, 1, 3, 4, .ro, 0, 0, 4294967295, [], "Entries in array"⟩,
  ⟨0x2402, 1, 0x0C, 1, 3, 4, .ro, 0, 0, 4294967295, [], "Entries in second level"⟩,
  ⟨0x2402, 1, 0x0D, 1, 3, 4, .ro, 0, 0, 4294967295, [], "Publication records"⟩,
  ⟨0x2403, 1, 0x01, 1, 1, 1, .rw, 0, 0, 63, [], "Statistics window: partition selector"⟩,
  ⟨0x2403, 1, 0x02, 1, 4, 8, .ro, 0, 0, 18446744073709551615, [], "Array searches"⟩,
  ⟨0x2403, 1, 0x03, 1, 4, 8, .ro, 0, 0, 18446744073709551615, [], "Array hits"⟩,
  ⟨0x2403, 1, 0x04, 1, 4, 8, .ro, 0, 0, 18446744073709551615, [], "Second-level searches"⟩,
  ⟨0x2403, 1, 0x05, 1, 4, 8, .ro, 0, 0, 18446744073709551615, [], "Second-level hits"⟩,
  ⟨0x2403, 1, 0x06, 1, 4, 8, .ro, 0, 0, 18446744073709551615, [], "Verification mismatches"⟩,
  ⟨0x2403, 1, 0x07, 1, 4, 8, .ro, 0, 0, 18446744073709551615, [], "Insertions"⟩,
  ⟨0x2403, 1, 0x08, 1, 4, 8, .ro, 0, 0, 18446744073709551615, [], "Deletions"⟩,
  ⟨0x2403, 1, 0x09, 1, 4, 8, .ro, 0, 0, 18446744073709551615, [], "Evictions to second level"⟩,
  ⟨0x2403, 1, 0x0A, 1, 4, 8, .ro, 0, 0, 18446744073709551615, [], "Second-level drops"⟩,
  ⟨0x2403, 1, 0x0B, 1, 4, 8, .ro, 0, 0, 18446744073709551615, [], "Searches with TIE"⟩,
  ⟨0x2403, 1, 0x0C, 1, 4, 8, .ro, 0, 0, 18446744073709551615, [], "Stale prefix nodes"⟩,
  ⟨0x2403, 1, 0x0D, 1, 4, 8, .ro, 0, 0, 18446744073709551615, [], "Public hits without record"⟩,
  ⟨0x2403, 1, 0x0E, 1, 4, 8, .ro, 0, 0, 18446744073709551615, [], "Promotions"⟩,
  ⟨0x2403, 1, 0x0F, 1, 4, 8, .ro, 0, 0, 18446744073709551615, [], "Positions matched"⟩,
  ⟨0x2404, 1, 0x01, 1, 1, 1, .rw, 0, 0, 63, [], "Entry window: bank selector"⟩,
  ⟨0x2404, 1, 0x02, 1, 2, 2, .rw, 0, 0, 4095, [], "Index selector"⟩,
  ⟨0x2404, 1, 0x03, 1, 9, 22, .ro, 0, 0, 0, [], "Key"⟩,
  ⟨0x2404, 1, 0x04, 1, 9, 22, .ro, 0, 0, 0, [], "Care mask"⟩]

/-- Table of R178. -/
def rowsMortiseB : List ObjRow := [
  ⟨0x2404, 1, 0x05, 1, 2, 2, .ro, 0, 0, 65535, [], "Priority"⟩,
  ⟨0x2404, 1, 0x06, 1, 3, 4, .ro, 0, 0, 4294967295, [], "Payload"⟩,
  ⟨0x2404, 1, 0x07, 1, 1, 1, .ro, 0, 0, 255, [], "Entry state"⟩,
  ⟨0x2404, 1, 0x08, 1, 2, 2, .ro, 0, 0, 65535, [], "Recency stamp"⟩,
  ⟨0x2405, 1, 0x01, 1, 1, 1, .rw, 0, 0, 63, [], "Bank window: bank selector"⟩,
  ⟨0x2405, 1, 0x02, 1, 2, 2, .ro, 0, 0, 65535, [], "Bank occupancy"⟩,
  ⟨0x2405, 1, 0x03, 1, 4, 8, .ro, 0, 0, 18446744073709551615, [], "Parity deletions"⟩,
  ⟨0x2405, 1, 0x04, 1, 4, 8, .ro, 0, 0, 18446744073709551615, [], "Fenced banks"⟩,
  ⟨0x2405, 1, 0x05, 1, 4, 8, .ro, 0, 0, 18446744073709551615, [], "Searches, device-wide"⟩]

/-- Table of R211. -/
def rowsFormatsA : List ObjRow := [
  ⟨0x2500, 1, 0x00, 1, 1, 1, .const, 12, 0, 11, [], "Format codes defined"⟩,
  ⟨0x2500, 1, 0x01, 1, 2, 2, .const, 254, 0, 65535, [], "Packable formats"⟩,
  ⟨0x2500, 1, 0x02, 1, 9, 8, .const, 2459886132485929915, 0, 18446744073709551615, [], "Built-in code table"⟩,
  ⟨0x2500, 1, 0x03, 1, 1, 1, .const, 64, 0, 255, [], "Expander queue depth"⟩,
  ⟨0x2500, 1, 0x04, 1, 1, 1, .const, 73, 0, 255, [], "Expander floor"⟩,
  ⟨0x2500, 1, 0x05, 1, 2, 2, .const, 9216, 0, 65535, [], "Kerf page size"⟩,
  ⟨0x2500, 1, 0x06, 4, 8, 4, .const, 0, 0, 4294967295, [], "Tolerance thresholds τ_0 to τ_3"⟩,
  ⟨0x2501, 1, 0x01, 1, 1, 1, .rw, 0, 0, 63, [], "Packer window: partition selector"⟩,
  ⟨0x2501, 1, 0x02, 1, 7, 1, .rws, 1, 0, 1, [], "Packing enable"⟩,
  ⟨0x2501, 1, 0x03, 1, 3, 4, .rws, 4096, 256, 1048576, [0], "Table build count"⟩,
  ⟨0x2501, 1, 0x04, 1, 1, 1, .ro, 0, 0, 3, [], "Newest generation"⟩,
  ⟨0x2501, 1, 0x05, 4, 3, 4, .ro, 0, 0, 4294967295, [], "Reference counts, slots 0–3"⟩,
  ⟨0x2501, 1, 0x09, 1, 4, 8, .ro, 0, 0, 18446744073709551615, [], "Table builds"⟩,
  ⟨0x2501, 1, 0x0A, 1, 4, 8, .ro, 0, 0, 18446744073709551615, [], "Builds deferred"⟩,
  ⟨0x2501, 1, 0x0B, 1, 4, 8, .ro, 0, 0, 18446744073709551615, [], "Pages packed"⟩,
  ⟨0x2501, 1, 0x0C, 1, 4, 8, .ro, 0, 0, 18446744073709551615, [], "Pages left unpacked"⟩,
  ⟨0x2501, 1, 0x0D, 1, 4, 8, .ro, 0, 0, 18446744073709551615, [], "Blocks stored raw"⟩,
  ⟨0x2501, 1, 0x0E, 1, 4, 8, .ro, 0, 0, 18446744073709551615, [], "Unpacked bytes of packed pages"⟩,
  ⟨0x2501, 1, 0x0F, 1, 4, 8, .ro, 0, 0, 18446744073709551615, [], "Image bytes of packed pages"⟩,
  ⟨0x2502, 1, 0x01, 1, 1, 1, .rw, 0, 0, 63, [], "Kerf window: partition selector"⟩,
  ⟨0x2502, 1, 0x02, 1, 7, 1, .rws, 0, 0, 1, [], "Kerf enable"⟩,
  ⟨0x2502, 1, 0x03, 1, 1, 1, .rws, 2, 0, 3, [], "Kerf acceptance class"⟩,
  ⟨0x2502, 1, 0x04, 1, 1, 1, .rws, 8, 2, 64, [], "Outlier ratio"⟩,
  ⟨0x2502, 1, 0x05, 1, 4, 8, .ro, 0, 0, 18446744073709551615, [], "Pages encoded"⟩,
  ⟨0x2502, 1, 0x06, 1, 4, 8, .ro, 0, 0, 18446744073709551615, [], "Pages refused by class"⟩,
  ⟨0x2502, 1, 0x07, 1, 4, 8, .ro, 0, 0, 18446744073709551615, [], "Pages refused, non-finite"⟩,
  ⟨0x2502, 1, 0x08, 1, 4, 8, .ro, 0, 0, 18446744073709551615, [], "Outlier channels recorded"⟩,
  ⟨0x2502, 1, 0x09, 1, 8, 4, .ro, 0, 0, 4294967295, [], "Largest κ / A"⟩,
  ⟨0x2503, 1, 0x01, 1, 1, 1, .rw, 0, 0, 63, [], "Table window: partition selector"⟩,
  ⟨0x2503, 1, 0x02, 1, 1, 1, .rw, 0, 0, 3, [], "Slot selector"⟩,
  ⟨0x2503, 1, 0x03, 1, 1, 1, .rw, 2, 2, 15, [], "Table index selector"⟩,
  ⟨0x2503, 1, 0x04, 1, 9, 8, .ro, 0, 0, 18446744073709551615, [], "Code lengths"⟩,
  ⟨0x2504, 1, 0x01, 1, 1, 1, .rw, 0, 0, 127, [], "Expander window: core selector"⟩,
  ⟨0x2504, 1, 0x02, 1, 4, 8, .ro, 0, 0, 18446744073709551615, [], "Coded blocks expanded"⟩,
  ⟨0x2504, 1, 0x03, 1, 4, 8, .ro, 0, 0, 18446744073709551615, [], "Raw blocks expanded"⟩,
  ⟨0x2504, 1, 0x04, 1, 4, 8, .ro, 0, 0, 18446744073709551615, [], "Bytes passed unchanged"⟩,
  ⟨0x2504, 1, 0x05, 1, 4, 8, .ro, 0, 0, 18446744073709551615, [], "Stall cycles"⟩,
  ⟨0x2505, 1, 0x01, 1, 1, 1, .rw, 0, 0, 3, [], "Relay coding window: port selector"⟩,
  ⟨0x2505, 1, 0x02, 1, 2, 2, .rw, 64, 1, 1024, [], "Packer queue threshold"⟩,
  ⟨0x2505, 1, 0x03, 1, 2, 2, .ro, 0, 0, 65535, [], "Packer queue depth"⟩]

/-- Table of R211. -/
def rowsFormatsB : List ObjRow := [
  ⟨0x2505, 1, 0x04, 1, 4, 8, .ro, 0, 0, 18446744073709551615, [], "Pages coded for the wire"⟩,
  ⟨0x2505, 1, 0x05, 1, 4, 8, .ro, 0, 0, 18446744073709551615, [], "Pages sent unpacked above threshold"⟩,
  ⟨0x2505, 1, 0x06, 1, 4, 8, .ro, 0, 0, 18446744073709551615, [], "Stored images sent"⟩]

/-- Table of R243. -/
def rowsFlashA : List ObjRow := [
  ⟨0x3000, 1, 0x00, 1, 1, 1, .const, 2, 0, 255, [], "Flash islands"⟩,
  ⟨0x3000, 1, 0x01, 1, 3, 4, .ro, 0, 0, 4294967295, [], "Channels populated"⟩,
  ⟨0x3000, 1, 0x02, 1, 1, 1, .ro, 0, 1, 32, [], "Dies per channel"⟩,
  ⟨0x3000, 1, 0x03, 1, 2, 2, .ro, 0, 0, 65535, [], "pSLC pages per member block"⟩,
  ⟨0x3000, 1, 0x04, 1, 2, 2, .ro, 0, 0, 65535, [], "Member blocks per die"⟩,
  ⟨0x3000, 1, 0x05, 1, 2, 2, .ro, 0, 0, 65535, [], "Data rate in effect"⟩,
  ⟨0x3000, 1, 0x06, 1, 2, 2, .rw, 3600, 800, 3600, [], "Data rate cap"⟩,
  ⟨0x3001, 1, 0x01, 1, 4, 8, .ro, 0, 0, 18446744073709551615, [], "Raw pSLC capacity"⟩,
  ⟨0x3001, 1, 0x02, 1, 2, 2, .rws, 4588, 0, 16384, [], "Over-provisioning"⟩,
  ⟨0x3001, 1, 0x03, 1, 4, 8, .ro, 0, 0, 18446744073709551615, [], "Exported capacity"⟩,
  ⟨0x3001, 1, 0x04, 1, 2, 2, .rws, 0, 0, 49152, [], "Archive fraction"⟩,
  ⟨0x3001, 1, 0x05, 1, 4, 8, .ro, 0, 0, 18446744073709551615, [], "Logical pages in use"⟩,
  ⟨0x3001, 1, 0x06, 1, 2, 2, .ro, 0, 0, 65535, [], "Spare blocks per die"⟩,
  ⟨0x3002, 1, 0x01, 1, 3, 4, .ro, 0, 0, 4294967295, [], "Coarse units in use"⟩,
  ⟨0x3002, 1, 0x02, 1, 3, 4, .rw, 16777216, 1048576, 67108864, [], "Fine map capacity"⟩,
  ⟨0x3002, 1, 0x03, 1, 3, 4, .rws, 10000, 0, 3600000, [], "Hot age"⟩,
  ⟨0x3002, 1, 0x04, 1, 3, 4, .ro, 0, 0, 4294967295, [], "Fine entries in use"⟩,
  ⟨0x3002, 1, 0x05, 1, 4, 8, .ro, 0, 0, 18446744073709551615, [], "Units split"⟩,
  ⟨0x3002, 1, 0x06, 1, 4, 8, .ro, 0, 0, 18446744073709551615, [], "Consolidations"⟩,
  ⟨0x3002, 1, 0x07, 1, 3, 4, .ro, 0, 0, 4294967295, [], "Device region for maps"⟩,
  ⟨0x3003, 1, 0x01, 1, 3, 4, .const, 8192, 0, 4294967295, [], "Journal triggers"⟩,
  ⟨0x3003, 1, 0x02, 1, 3, 4, .rw, 1048576, 65536, 16777216, [], "Checkpoint interval"⟩,
  ⟨0x3003, 1, 0x03, 1, 4, 8, .ro, 0, 0, 18446744073709551615, [], "Journal flushes"⟩,
  ⟨0x3003, 1, 0x04, 1, 2, 2, .rw, 1000, 100, 10000, [], "Row pad timeout"⟩,
  ⟨0x3003, 1, 0x05, 1, 4, 8, .ro, 0, 0, 18446744073709551615, [], "Pad pages written"⟩,
  ⟨0x3003, 1, 0x06, 1, 3, 4, .ro, 0, 0, 4294967295, [], "Last rebuild duration"⟩,
  ⟨0x3003, 1, 0x07, 1, 3, 4, .ro, 0, 0, 4294967295, [], "Pages adopted by tag scan"⟩,
  ⟨0x3003, 1, 0x08, 1, 3, 4, .ro, 0, 0, 4294967295, [], "Pages discarded unconfirmed"⟩,
  ⟨0x3004, 1, 0x01, 3, 3, 4, .rws, 1024, 16, 4294967295, [], "pSLC watermarks h, l, c"⟩,
  ⟨0x3004, 1, 0x04, 3, 3, 4, .rws, 64, 4, 4294967295, [], "TLC watermarks h, l, c"⟩,
  ⟨0x3004, 1, 0x07, 1, 4, 8, .ro, 0, 0, 18446744073709551615, [], "Garbage collection victims"⟩,
  ⟨0x3004, 1, 0x08, 1, 4, 8, .ro, 0, 0, 18446744073709551615, [], "Pages copied"⟩,
  ⟨0x3004, 1, 0x09, 1, 8, 4, .ro, 1, 0, 4294967295, [], "Garbage collection amplification"⟩,
  ⟨0x3004, 1, 0x0A, 1, 4, 8, .ro, 0, 0, 18446744073709551615, [], "Throttled periods"⟩,
  ⟨0x3005, 1, 0x01, 1, 1, 1, .rw, 0, 0, 1, [], "Threshold window: mode"⟩,
  ⟨0x3005, 1, 0x02, 1, 1, 1, .rw, 0, 0, 7, [], "Age bin"⟩,
  ⟨0x3005, 1, 0x03, 1, 1, 1, .rw, 0, 0, 7, [], "Temperature bin"⟩,
  ⟨0x3005, 1, 0x04, 1, 4, 8, .rw, 0, 0, 18446744073709551615, [], "Entry"⟩,
  ⟨0x3006, 1, 0x01, 1, 1, 1, .rw, 0, 0, 1, [], "Ladder window: mode"⟩,
  ⟨0x3006, 1, 0x02, 6, 4, 8, .rw, 0, 0, 18446744073709551615, [], "Ladder entries 1–6"⟩]

/-- Table of R243. -/
def rowsFlashB : List ObjRow := [
  ⟨0x3007, 1, 0x01, 1, 1, 1, .rw, 0, 0, 63, [], "Partition window: partition selector"⟩,
  ⟨0x3007, 1, 0x02, 1, 4, 8, .ro, 0, 0, 18446744073709551615, [], "Quota"⟩,
  ⟨0x3007, 1, 0x03, 1, 4, 8, .ro, 0, 0, 18446744073709551615, [], "Quota used"⟩,
  ⟨0x3007, 1, 0x04, 1, 7, 1, .ro, 0, 0, 1, [], "Quota exhausted"⟩,
  ⟨0x3007, 1, 0x05, 1, 4, 8, .ro, 0, 0, 18446744073709551615, [], "Pages dropped, reason 4"⟩,
  ⟨0x3007, 1, 0x06, 1, 4, 8, .ro, 0, 0, 18446744073709551615, [], "Pages dropped, reason 5"⟩,
  ⟨0x3007, 1, 0x07, 1, 4, 8, .ro, 0, 0, 18446744073709551615, [], "Archive writes refused"⟩,
  ⟨0x3008, 1, 0x01, 1, 2, 2, .ro, 0, 0, 65535, [], "Secure releases in progress"⟩,
  ⟨0x3008, 1, 0x02, 1, 4, 8, .ro, 0, 0, 18446744073709551615, [], "Superblocks erased for secure release"⟩,
  ⟨0x3008, 1, 0x03, 1, 3, 4, .ro, 0, 0, 4294967295, [], "Longest secure release"⟩,
  ⟨0x3009, 1, 0x01, 1, 1, 1, .rw, 0, 0, 1, [], "Island window: island selector"⟩,
  ⟨0x3009, 1, 0x02, 1, 1, 1, .ro, 0, 0, 255, [], "Island state"⟩,
  ⟨0x3009, 1, 0x03, 1, 3, 4, .ro, 0, 0, 4294967295, [], "Free superblocks, pSLC"⟩,
  ⟨0x3009, 1, 0x04, 1, 3, 4, .ro, 0, 0, 4294967295, [], "Free superblocks, TLC"⟩,
  ⟨0x3009, 1, 0x05, 1, 3, 4, .ro, 0, 0, 4294967295, [], "Narrowed superblocks"⟩,
  ⟨0x3009, 1, 0x06, 1, 4, 8, .ro, 0, 0, 18446744073709551615, [], "Write sequence"⟩,
  ⟨0x3009, 1, 0x07, 1, 2, 2, .ro, 65535, 0, 65535, [], "Present throttle r"⟩,
  ⟨0x300A, 1, 0x01, 6, 3, 4, .ro, 0, 0, 4294967295, [], "Nominal times: pSLC read, pSLC program, TLC read, TLC wordline program, pSLC erase, TLC erase"⟩,
  ⟨0x3100, 1, 0x01, 1, 3, 4, .ro, 0, 0, 4294967295, [], "Spare blocks remaining"⟩,
  ⟨0x3100, 1, 0x02, 1, 2, 2, .ro, 0, 0, 65535, [], "Fewest spares on one die"⟩,
  ⟨0x3100, 1, 0x03, 1, 3, 4, .ro, 0, 0, 4294967295, [], "pSLC cycles, average"⟩,
  ⟨0x3100, 1, 0x04, 1, 3, 4, .ro, 0, 0, 4294967295, [], "pSLC cycles, maximum"⟩,
  ⟨0x3100, 1, 0x05, 1, 3, 4, .ro, 0, 0, 4294967295, [], "pSLC rating"⟩,
  ⟨0x3100, 1, 0x06, 1, 3, 4, .ro, 0, 0, 4294967295, [], "TLC cycles, average"⟩,
  ⟨0x3100, 1, 0x07, 1, 3, 4, .ro, 0, 0, 4294967295, [], "TLC cycles, maximum"⟩,
  ⟨0x3100, 1, 0x08, 1, 3, 4, .ro, 0, 0, 4294967295, [], "TLC rating"⟩,
  ⟨0x3100, 1, 0x09, 1, 3, 4, .ro, 0, 0, 4294967295, [], "Wear used, maximum"⟩,
  ⟨0x3100, 1, 0x0A, 1, 4, 8, .ro, 0, 0, 18446744073709551615, [], "Uncorrectable pages"⟩,
  ⟨0x3100, 1, 0x0B, 1, 3, 4, .ro, 0, 0, 4294967295, [], "Blocks retired on erase"⟩,
  ⟨0x3100, 1, 0x0C, 1, 3, 4, .ro, 0, 0, 4294967295, [], "Blocks retired on program"⟩,
  ⟨0x3100, 1, 0x0D, 1, 4, 8, .ro, 0, 0, 18446744073709551615, [], "Parity reconstructions"⟩,
  ⟨0x3100, 1, 0x0E, 1, 3, 4, .ro, 0, 0, 4294967295, [], "Dies fenced, channels fenced"⟩,
  ⟨0x3100, 1, 0x0F, 1, 2, 2, .rw, 168, 24, 720, [], "Patrol interval"⟩,
  ⟨0x3100, 1, 0x10, 1, 1, 1, .rw, 48, 8, 200, [], "Refresh threshold"⟩,
  ⟨0x3100, 1, 0x11, 1, 4, 8, .ro, 0, 0, 18446744073709551615, [], "Last patrol pass completed"⟩,
  ⟨0x3100, 1, 0x12, 1, 4, 8, .ro, 0, 0, 18446744073709551615, [], "Pages refreshed"⟩,
  ⟨0x3101, 1, 0x01, 1, 2, 2, .rw, 0, 0, 1023, [], "Die window: die selector"⟩,
  ⟨0x3101, 1, 0x02, 1, 1, 1, .ro, 0, 0, 255, [], "Die state"⟩,
  ⟨0x3101, 1, 0x03, 1, 2, 2, .ro, 0, 0, 65535, [], "Spares"⟩,
  ⟨0x3101, 1, 0x04, 1, 2, 2, .ro, 0, 0, 65535, [], "Retired blocks"⟩]

/-- Table of R243. -/
def rowsFlashC : List ObjRow := [
  ⟨0x3101, 1, 0x05, 1, 3, 4, .ro, 0, 0, 4294967295, [], "Wear used, maximum"⟩,
  ⟨0x3101, 1, 0x06, 1, 5, 4, .ro, 0, 0, 4294967295, [], "Temperature now"⟩,
  ⟨0x3102, 1, 0x01, 1, 1, 1, .rw, 0, 0, 15, [], "Histogram window: bin selector"⟩,
  ⟨0x3102, 1, 0x02, 1, 4, 8, .ro, 0, 8, 15, [], "Count"⟩,
  ⟨0x3103, 1, 0x01, 1, 1, 1, .rw, 0, 0, 21, [], "Temperature window: bin selector"⟩,
  ⟨0x3103, 1, 0x02, 1, 3, 4, .ro, 0, 0, 4294967295, [], "Hours in bin"⟩]

/-- Table of R276. -/
def rowsBrokerA : List ObjRow := [
  ⟨0x4000, 1, 0x00, 1, 2, 2, .const, 4096, 0, 65535, [], "Registered nodes, maximum"⟩,
  ⟨0x4000, 1, 0x01, 1, 3, 4, .const, 1048576, 0, 4294967295, [], "Body length, maximum"⟩,
  ⟨0x4000, 1, 0x02, 1, 1, 1, .const, 1, 0, 255, [], "Jinetia version"⟩,
  ⟨0x4001, 1, 0x01, 1, 3, 4, .rw, 50, 5, 10000, [], "Lease timeout"⟩,
  ⟨0x4001, 1, 0x02, 1, 3, 4, .rw, 10, 1, 4294967295, [], "Heartbeat interval"⟩,
  ⟨0x4001, 1, 0x03, 1, 3, 4, .rw, 1000, 10, 60000, [], "Placement wait"⟩,
  ⟨0x4001, 1, 0x04, 1, 3, 4, .rw, 20, 1, 1000, [], "Accept timeout"⟩,
  ⟨0x4001, 1, 0x05, 1, 3, 4, .rw, 65536, 4096, 1048576, [], "ADMIT inline limit"⟩,
  ⟨0x4001, 1, 0x06, 1, 3, 4, .rw, 8192, 0, 65536, [], "PLACE inline limit"⟩,
  ⟨0x4002, 1, 0x01, 1, 1, 1, .rw, 0, 0, 63, [], "Partition window: partition selector"⟩,
  ⟨0x4002, 1, 0x02, 1, 3, 4, .rws, 50000, 0, 4294967295, [], "w_cold"⟩,
  ⟨0x4002, 1, 0x03, 1, 3, 4, .rws, 20, 0, 4294967295, [], "w_die"⟩,
  ⟨0x4002, 1, 0x04, 1, 3, 4, .rws, 100000, 0, 4294967295, [], "w_occ"⟩,
  ⟨0x4002, 1, 0x05, 1, 3, 4, .rws, 32768, 1024, 65536, [], "Fixed-state fraction φ"⟩,
  ⟨0x4002, 1, 0x06, 1, 7, 1, .rws, 1, 0, 1, [], "Page mirroring permitted"⟩,
  ⟨0x4002, 1, 0x07, 1, 2, 2, .rws, 65535, 0, 65535, [], "Partner"⟩,
  ⟨0x4002, 1, 0x08, 1, 7, 1, .rws, 0, 0, 1, [], "Prefix probing"⟩,
  ⟨0x4002, 1, 0x09, 1, 3, 4, .rws, 1024, 64, 4194304, [], "Probe minimum"⟩,
  ⟨0x4002, 1, 0x0A, 1, 3, 4, .rws, 100, 1, 10000, [], "Relay timeout"⟩,
  ⟨0x4002, 1, 0x0B, 1, 7, 1, .rws, 0, 0, 1, [], "All-tenant registration permitted"⟩,
  ⟨0x4003, 1, 0x01, 1, 1, 1, .rw, 0, 0, 63, [], "Advice window: partition selector"⟩,
  ⟨0x4003, 1, 0x02, 1, 3, 4, .rws, 1000, 100, 60000, [], "Advice interval"⟩,
  ⟨0x4003, 1, 0x03, 1, 3, 4, .rws, 200, 1, 10000, [], "Target prefill backlog T_b"⟩,
  ⟨0x4003, 1, 0x04, 1, 2, 2, .rws, 512, 0, 65535, [], "Threshold x_h"⟩,
  ⟨0x4003, 1, 0x05, 1, 1, 1, .rws, 3, 1, 100, [], "Consecutive evaluations c"⟩,
  ⟨0x4003, 1, 0x06, 1, 3, 4, .rws, 10000, 1000, 600000, [], "Advice hold"⟩,
  ⟨0x4003, 1, 0x07, 1, 2, 2, .rws, 1, 0, 4096, [], "Minimum prompt nodes"⟩,
  ⟨0x4003, 1, 0x08, 1, 2, 2, .rws, 1, 0, 4096, [], "Minimum generation nodes"⟩,
  ⟨0x4003, 1, 0x09, 1, 7, 1, .rws, 1, 0, 1, [], "Role advice enable"⟩,
  ⟨0x4004, 1, 0x01, 1, 2, 2, .rw, 0, 0, 4095, [], "Node window: node selector"⟩,
  ⟨0x4004, 1, 0x02, 1, 1, 1, .ro, 0, 0, 255, [], "Node state"⟩,
  ⟨0x4004, 1, 0x03, 1, 1, 1, .ro, 0, 0, 255, [], "Role"⟩,
  ⟨0x4004, 1, 0x04, 1, 1, 1, .ro, 0, 0, 63, [], "Partition"⟩,
  ⟨0x4004, 1, 0x05, 1, 4, 8, .ro, 0, 0, 18446744073709551615, [], "Node identifier"⟩,
  ⟨0x4004, 1, 0x06, 1, 2, 2, .ro, 0, 0, 65535, [], "Queue pairs"⟩,
  ⟨0x4004, 1, 0x07, 1, 2, 2, .ro, 0, 0, 65535, [], "Leases held"⟩,
  ⟨0x4004, 1, 0x08, 1, 3, 4, .ro, 0, 0, 4294967295, [], "Queued prefill tokens"⟩,
  ⟨0x4004, 1, 0x09, 1, 2, 2, .ro, 0, 0, 65535, [], "Active decode sequences"⟩,
  ⟨0x4004, 1, 0x0A, 1, 4, 8, .ro, 0, 0, 18446744073709551615, [], "Last message"⟩,
  ⟨0x4004, 1, 0x0B, 1, 4, 8, .ro, 0, 0, 18446744073709551615, [], "Placements accepted"⟩]

/-- Table of R276. -/
def rowsBrokerB : List ObjRow := [
  ⟨0x4004, 1, 0x0C, 1, 4, 8, .ro, 0, 0, 18446744073709551615, [], "Placements refused"⟩,
  ⟨0x4005, 1, 0x01, 1, 3, 4, .rw, 200, 20, 10000, [], "Peer timeout"⟩,
  ⟨0x4005, 1, 0x02, 1, 4, 8, .rw, 0, 0, 18446744073709551615, [], "Own node identifier"⟩,
  ⟨0x4005, 1, 0x03, 1, 3, 4, .rw, 67108864, 16777216, 1073741824, [], "Relay window per peer"⟩,
  ⟨0x4005, 1, 0x04, 1, 1, 1, .const, 64, 0, 255, [], "Ring points per device"⟩,
  ⟨0x4006, 1, 0x01, 1, 1, 1, .rw, 0, 0, 63, [], "Counter window: partition selector"⟩,
  ⟨0x4006, 1, 0x02, 1, 4, 8, .ro, 0, 0, 18446744073709551615, [], "Admissions"⟩,
  ⟨0x4006, 1, 0x03, 1, 4, 8, .ro, 0, 0, 18446744073709551615, [], "Admissions refused, CAPACITY"⟩,
  ⟨0x4006, 1, 0x04, 1, 4, 8, .ro, 0, 0, 18446744073709551615, [], "Admissions refused, placement"⟩,
  ⟨0x4006, 1, 0x05, 1, 4, 8, .ro, 0, 0, 18446744073709551615, [], "Hand-offs"⟩,
  ⟨0x4006, 1, 0x06, 1, 4, 8, .ro, 0, 0, 18446744073709551615, [], "Nodes declared gone"⟩,
  ⟨0x4006, 1, 0x07, 1, 4, 8, .ro, 0, 0, 18446744073709551615, [], "Sequences freed under R270"⟩,
  ⟨0x4006, 1, 0x08, 1, 4, 8, .ro, 0, 0, 18446744073709551615, [], "Sequences re-admitted here"⟩,
  ⟨0x4006, 1, 0x09, 1, 4, 8, .ro, 0, 0, 18446744073709551615, [], "Role advice sent"⟩,
  ⟨0x4006, 1, 0x0A, 1, 4, 8, .ro, 0, 0, 18446744073709551615, [], "Header check failures"⟩,
  ⟨0x4006, 1, 0x0B, 1, 4, 8, .ro, 0, 0, 18446744073709551615, [], "STALE_EPOCH returned"⟩,
  ⟨0x4006, 1, 0x0C, 1, 4, 8, .ro, 0, 0, 18446744073709551615, [], "Prefix copies from home"⟩,
  ⟨0x4007, 1, 0x01, 1, 4, 8, .rw, 0, 0, 18446744073709551615, [], "Migration: handle"⟩,
  ⟨0x4007, 1, 0x02, 1, 2, 2, .rw, 65535, 0, 65535, [], "Migration: peer"⟩,
  ⟨0x4007, 1, 0x03, 1, 7, 1, .wo, 0, 0, 1, [], "Migration: start"⟩,
  ⟨0x4007, 1, 0x04, 1, 4, 8, .ro, 0, 0, 18446744073709551615, [], "Migration: pages moved"⟩]

/-- Table of R304. -/
def rowsFabricA : List ObjRow := [
  ⟨0x5000, 1, 0x00, 1, 1, 1, .const, 16, 0, 255, [], "Logical ports"⟩,
  ⟨0x5000, 1, 0x01, 1, 2, 2, .const, 16384, 0, 65535, [], "Queue pairs"⟩,
  ⟨0x5000, 1, 0x02, 1, 2, 2, .const, 8192, 0, 65535, [], "Rings"⟩,
  ⟨0x5000, 1, 0x03, 1, 2, 2, .const, 16384, 0, 65535, [], "Subscriber entries per network island"⟩,
  ⟨0x5000, 1, 0x04, 1, 2, 2, .const, 16384, 0, 65535, [], "Policer entries per network island"⟩,
  ⟨0x5000, 1, 0x05, 1, 1, 1, .const, 16, 0, 255, [], "Outstanding RDMA READ per queue pair"⟩,
  ⟨0x5001, 1, 0x01, 1, 1, 1, .rw, 0, 0, 3, [], "Port window: port selector"⟩,
  ⟨0x5001, 1, 0x02, 1, 1, 1, .rw, 0, 0, 2, [], "Port mode requested"⟩,
  ⟨0x5001, 1, 0x03, 1, 1, 1, .ro, 0, 0, 2, [], "Port mode in effect"⟩,
  ⟨0x5001, 1, 0x04, 1, 7, 1, .wo, 0, 0, 1, [], "Link reset"⟩,
  ⟨0x5002, 1, 0x01, 1, 1, 1, .rw, 0, 0, 15, [], "Logical port window: selector"⟩,
  ⟨0x5002, 1, 0x02, 1, 1, 1, .ro, 0, 0, 255, [], "Link state"⟩,
  ⟨0x5002, 1, 0x03, 1, 3, 4, .rws, 0, 1, 4294967295, [], "Port shaper rate"⟩,
  ⟨0x5002, 1, 0x04, 1, 3, 4, .rws, 65536, 4096, 1048576, [], "Port shaper depth"⟩,
  ⟨0x5002, 1, 0x05, 1, 2, 2, .rw, 4096, 1, 0, [1024, 2048, 4096], "Path MTU maximum"⟩,
  ⟨0x5002, 1, 0x06, 1, 3, 4, .rw, 2097152, 0, 4294967295, [], "XOFF threshold"⟩,
  ⟨0x5002, 1, 0x07, 1, 3, 4, .rw, 1048576, 0, 4294967295, [], "XON threshold"⟩,
  ⟨0x5002, 1, 0x08, 1, 4, 8, .ro, 0, 0, 18446744073709551615, [], "Bytes sent"⟩,
  ⟨0x5002, 1, 0x09, 1, 4, 8, .ro, 0, 0, 18446744073709551615, [], "Bytes received"⟩,
  ⟨0x5002, 1, 0x0A, 1, 4, 8, .ro, 0, 0, 18446744073709551615, [], "FCS errors"⟩,
  ⟨0x5002, 1, 0x0B, 1, 4, 8, .ro, 0, 0, 18446744073709551615, [], "ICRC errors"⟩,
  ⟨0x5002, 1, 0x0C, 1, 4, 8, .ro, 0, 0, 18446744073709551615, [], "FEC codewords corrected"⟩,
  ⟨0x5002, 1, 0x0D, 1, 4, 8, .ro, 0, 0, 18446744073709551615, [], "Unsupported frames dropped"⟩,
  ⟨0x5002, 1, 0x0E, 1, 4, 8, .ro, 0, 0, 18446744073709551615, [], "FEC codewords uncorrected"⟩,
  ⟨0x5002, 1, 0x0F, 1, 4, 8, .ro, 0, 0, 18446744073709551615, [], "PFC frames received"⟩,
  ⟨0x5002, 1, 0x10, 1, 4, 8, .ro, 0, 0, 18446744073709551615, [], "PFC frames sent"⟩,
  ⟨0x5002, 1, 0x11, 1, 3, 4, .ro, 0, 0, 4294967295, [], "Pause watchdog events"⟩,
  ⟨0x5002, 1, 0x12, 1, 4, 8, .ro, 0, 0, 18446744073709551615, [], "CNPs sent"⟩,
  ⟨0x5002, 1, 0x13, 1, 4, 8, .ro, 0, 0, 18446744073709551615, [], "CNPs received"⟩,
  ⟨0x5003, 1, 0x01, 1, 1, 1, .rw, 0, 0, 63, [], "Partition window: partition selector"⟩,
  ⟨0x5003, 1, 0x02, 1, 3, 4, .rws, 4194304, 1048576, 67108864, [], "Receive pool"⟩,
  ⟨0x5003, 1, 0x03, 1, 1, 1, .rw, 3, 0, 7, [], "Data PCP"⟩,
  ⟨0x5003, 1, 0x04, 1, 1, 1, .rw, 26, 0, 63, [], "Data DSCP"⟩,
  ⟨0x5003, 1, 0x05, 1, 2, 2, .ro, 0, 0, 65535, [], "Queue pairs in use"⟩,
  ⟨0x5003, 1, 0x06, 1, 2, 2, .ro, 0, 0, 65535, [], "Rings in use"⟩,
  ⟨0x5003, 1, 0x07, 1, 4, 8, .ro, 0, 0, 18446744073709551615, [], "Frames through overflow subscribers"⟩,
  ⟨0x5003, 1, 0x08, 1, 4, 8, .ro, 0, 0, 18446744073709551615, [], "Messages through overflow policers"⟩,
  ⟨0x5004, 1, 0x01, 1, 1, 1, .rw, 0, 0, 15, [], "GID window: logical port selector"⟩,
  ⟨0x5004, 1, 0x02, 1, 1, 1, .rw, 0, 0, 15, [], "GID index"⟩,
  ⟨0x5004, 1, 0x03, 1, 9, 16, .rw, 0, 0, 0, [], "GID"⟩]

/-- Table of R304. -/
def rowsFabricB : List ObjRow := [
  ⟨0x5004, 1, 0x04, 1, 2, 2, .rw, 0, 0, 4094, [], "VLAN"⟩,
  ⟨0x5010, 1, 0x01, 1, 1, 1, .rw, 48, 0, 63, [], "CNP DSCP"⟩,
  ⟨0x5010, 1, 0x02, 1, 1, 1, .rw, 6, 0, 7, [], "CNP PCP"⟩,
  ⟨0x5010, 1, 0x03, 1, 1, 1, .rw, 2, 0, 2, [], "ECN codepoint sent"⟩,
  ⟨0x5010, 1, 0x04, 1, 1, 1, .rw, 8, 0, 255, [], "Lossless priorities"⟩,
  ⟨0x5010, 1, 0x05, 1, 3, 4, .rw, 100, 10, 10000, [], "Pause watchdog"⟩,
  ⟨0x5020, 1, 0x01, 1, 2, 2, .rws, 256, 64, 4096, [], "Window length L_w"⟩,
  ⟨0x5021, 1, 0x01, 1, 1, 1, .rw, 0, 0, 15, [], "Service window: logical port selector"⟩,
  ⟨0x5021, 1, 0x02, 1, 1, 1, .rw, 0, 0, 5, [], "Service selector"⟩,
  ⟨0x5021, 1, 0x03, 1, 3, 4, .rws, 0, 0, 4294967295, [], "Service rate"⟩,
  ⟨0x5021, 1, 0x04, 1, 3, 4, .rws, 65536, 4096, 1048576, [], "Service depth"⟩,
  ⟨0x5021, 1, 0x05, 1, 1, 1, .rws, 0, 0, 3, [], "Level"⟩,
  ⟨0x5021, 1, 0x06, 1, 1, 1, .rws, 0, 1, 64, [], "Weight"⟩,
  ⟨0x5021, 1, 0x07, 1, 5, 4, .ro, 0, 0, 4294967295, [], "Tokens"⟩,
  ⟨0x5022, 1, 0x01, 1, 1, 1, .rw, 0, 0, 255, [], "Profile window: profile selector"⟩,
  ⟨0x5022, 1, 0x02, 1, 1, 1, .rw, 0, 0, 5, [], "Service selector"⟩,
  ⟨0x5022, 1, 0x03, 1, 3, 4, .rws, 0, 0, 800000, [], "Subscriber rate"⟩,
  ⟨0x5022, 1, 0x04, 1, 3, 4, .rws, 16384, 64, 1048576, [], "Subscriber depth"⟩,
  ⟨0x5022, 1, 0x05, 1, 1, 1, .rws, 1, 1, 64, [], "Subscriber weight"⟩,
  ⟨0x5022, 1, 0x06, 1, 3, 4, .rws, 0, 0, 800000, [], "Policer byte rate"⟩,
  ⟨0x5022, 1, 0x07, 1, 3, 4, .rws, 1048576, 4096, 16777216, [], "Policer byte burst"⟩,
  ⟨0x5022, 1, 0x08, 1, 3, 4, .rws, 0, 0, 100000000, [], "Policer message rate"⟩,
  ⟨0x5022, 1, 0x09, 1, 2, 2, .rws, 1024, 1, 65535, [], "Policer message burst"⟩,
  ⟨0x5022, 1, 0x0A, 1, 1, 1, .rws, 0, 0, 1, [], "Policer action"⟩,
  ⟨0x5023, 1, 0x01, 1, 1, 1, .rw, 0, 0, 63, [], "Tenant profile window: partition selector"⟩,
  ⟨0x5023, 1, 0x02, 1, 2, 2, .rw, 0, 0, 65535, [], "Tenant selector"⟩,
  ⟨0x5023, 1, 0x03, 1, 1, 1, .rws, 0, 0, 255, [], "Profile"⟩,
  ⟨0x5030, 1, 0x01, 1, 1, 1, .rw, 10, 8, 20, [], "ACK timeout code t"⟩,
  ⟨0x5030, 1, 0x02, 1, 1, 1, .rw, 7, 1, 7, [], "Retry count"⟩,
  ⟨0x5030, 1, 0x03, 1, 1, 1, .rw, 7, 1, 7, [], "RNR retry count"⟩,
  ⟨0x5030, 1, 0x04, 1, 2, 2, .rw, 320, 10, 10000, [], "RNR NAK timer advertised"⟩,
  ⟨0x5030, 1, 0x05, 1, 1, 1, .rw, 16, 1, 64, [], "ACK coalescing"⟩,
  ⟨0x5030, 1, 0x06, 1, 2, 2, .rw, 50, 1, 1000, [], "CNP interval"⟩,
  ⟨0x5031, 1, 0x01, 1, 2, 2, .rw, 256, 1, 65535, [], "g"⟩,
  ⟨0x5031, 1, 0x02, 1, 2, 2, .rw, 55, 1, 10000, [], "α timer K"⟩,
  ⟨0x5031, 1, 0x03, 1, 2, 2, .rw, 300, 1, 10000, [], "Rate increase timer T_i"⟩,
  ⟨0x5031, 1, 0x04, 1, 3, 4, .rw, 10485760, 65536, 1073741824, [], "Byte counter B"⟩,
  ⟨0x5031, 1, 0x05, 1, 1, 1, .rw, 5, 1, 32, [], "Fast recovery steps F"⟩,
  ⟨0x5031, 1, 0x06, 1, 3, 4, .rw, 40, 1, 100000, [], "Additive increase R_AI"⟩,
  ⟨0x5031, 1, 0x07, 1, 3, 4, .rw, 400, 1, 100000, [], "Hyper increase R_HI"⟩]

/-- Table of R304. -/
def rowsFabricC : List ObjRow := [
  ⟨0x5031, 1, 0x08, 1, 3, 4, .rw, 100, 1, 10000, [], "Minimum rate R_min"⟩,
  ⟨0x5040, 1, 0x01, 1, 2, 2, .rw, 0, 0, 16383, [], "Queue pair window: selector"⟩,
  ⟨0x5040, 1, 0x02, 1, 1, 1, .ro, 0, 0, 255, [], "Queue pair state"⟩,
  ⟨0x5040, 1, 0x03, 1, 1, 1, .ro, 0, 0, 63, [], "Partition"⟩,
  ⟨0x5040, 1, 0x04, 1, 1, 1, .ro, 0, 0, 15, [], "Logical port"⟩,
  ⟨0x5040, 1, 0x05, 1, 1, 1, .ro, 0, 0, 255, [], "Mode"⟩,
  ⟨0x5040, 1, 0x06, 1, 2, 2, .ro, 65535, 0, 65535, [], "Node"⟩,
  ⟨0x5040, 1, 0x07, 1, 2, 2, .ro, 0, 0, 65535, [], "Path MTU"⟩,
  ⟨0x5040, 1, 0x08, 1, 3, 4, .ro, 0, 0, 4294967295, [], "Current rate R_c"⟩,
  ⟨0x5040, 1, 0x09, 1, 4, 8, .ro, 0, 0, 18446744073709551615, [], "Retransmissions"⟩,
  ⟨0x5040, 1, 0x0A, 1, 4, 8, .ro, 0, 0, 18446744073709551615, [], "CNPs received"⟩,
  ⟨0x5100, 1, 0x01, 1, 1, 1, .rw, 0, 0, 63, [], "Tenant traffic window: partition selector"⟩,
  ⟨0x5100, 1, 0x02, 1, 2, 2, .rw, 0, 0, 65535, [], "Tenant selector"⟩,
  ⟨0x5100, 1, 0x03, 6, 4, 8, .ro, 0, 0, 18446744073709551615, [], "Bytes sent, services 0–5"⟩,
  ⟨0x5100, 1, 0x09, 1, 4, 8, .ro, 0, 0, 18446744073709551615, [], "Bytes received"⟩,
  ⟨0x5100, 1, 0x0A, 1, 4, 8, .ro, 0, 0, 18446744073709551615, [], "Messages refused POLICED"⟩,
  ⟨0x5100, 1, 0x0B, 1, 4, 8, .ro, 0, 0, 18446744073709551615, [], "Messages discarded by policy"⟩]

/-- Table of 10-14, R334. -/
def rowsSecurityA : List ObjRow := [
  ⟨0x6000, 1, 0x00, 1, 1, 1, .const, 64, 0, 255, [], "Slices"⟩,
  ⟨0x6000, 1, 0x01, 1, 2, 2, .ro, 1, 1, 65535, [], "Active epoch"⟩,
  ⟨0x6000, 1, 0x02, 1, 7, 1, .ro, 0, 0, 1, [], "Previous epoch live"⟩,
  ⟨0x6000, 1, 0x03, 1, 2, 2, .ro, 0, 0, 65535, [], "Previous epoch"⟩,
  ⟨0x6000, 1, 0x04, 1, 3, 4, .ro, 0, 0, 4294967295, [], "Requests under the previous epoch"⟩,
  ⟨0x6000, 1, 0x05, 1, 3, 4, .rw, 5000, 100, 60000, [], "Drain limit"⟩,
  ⟨0x6000, 1, 0x06, 1, 4, 8, .ro, 0, 0, 18446744073709551615, [], "Last commit"⟩,
  ⟨0x6000, 1, 0x07, 1, 4, 8, .ro, 0, 0, 18446744073709551615, [], "Commits accepted"⟩,
  ⟨0x6000, 1, 0x08, 1, 1, 1, .ro, 0, 0, 255, [], "Last refusal reason"⟩,
  ⟨0x6000, 1, 0x09, 1, 3, 4, .ro, 0, 0, 4294967295, [], "Last refusal detail"⟩,
  ⟨0x6000, 1, 0x0A, 1, 4, 8, .ro, 0, 0, 18446744073709551615, [], "Work aborted at drain limit"⟩,
  ⟨0x6010, 1, 0x01, 64, 1, 1, .rws, 255, 0, 63, [255], "Slice assignment, slices 0–63"⟩,
  ⟨0x6011, 1, 0x01, 64, 3, 4, .rws, 1024, 0, 65536, [], "Die-time share, slices 0–63"⟩,
  ⟨0x6012, 1, 0x01, 64, 4, 8, .rws, 0, 0, 18446744073709551615, [], "Flash quota, slices 0–63"⟩,
  ⟨0x6013, 1, 0x01, 64, 1, 1, .ro, 0, 0, 255, [], "Slice state, slices 0–63"⟩,
  ⟨0x6014, 1, 0x01, 64, 1, 1, .ro, 255, 0, 63, [], "Partition in effect, slices 0–63"⟩,
  ⟨0x6020, 1, 0x01, 1, 1, 1, .rw, 0, 0, 17, [], "Access window: target selector"⟩,
  ⟨0x6020, 1, 0x02, 1, 2, 2, .rw, 0, 0, 4095, [], "Master selector"⟩,
  ⟨0x6020, 1, 0x03, 1, 4, 8, .ro, 0, 0, 18446744073709551615, [], "Entry word 0"⟩,
  ⟨0x6020, 1, 0x04, 1, 4, 8, .ro, 0, 0, 18446744073709551615, [], "Entry word 1"⟩,
  ⟨0x6020, 1, 0x05, 1, 4, 8, .ro, 0, 0, 18446744073709551615, [], "Violations at target"⟩,
  ⟨0x6030, 1, 0x00, 1, 2, 2, .const, 1024, 0, 65535, [], "Key cache entries"⟩,
  ⟨0x6030, 1, 0x01, 1, 2, 2, .ro, 0, 0, 65535, [], "Key cache entries in use"⟩,
  ⟨0x6030, 1, 0x02, 1, 4, 8, .ro, 0, 0, 18446744073709551615, [], "Key cache misses"⟩,
  ⟨0x6030, 1, 0x03, 1, 3, 4, .ro, 0, 0, 4294967295, [], "Wrapped tenant keys"⟩,
  ⟨0x6031, 1, 0x01, 1, 1, 1, .rw, 0, 0, 63, [], "Tenant key window: partition selector"⟩,
  ⟨0x6031, 1, 0x02, 1, 2, 2, .rw, 0, 0, 65535, [], "Tenant selector"⟩,
  ⟨0x6031, 1, 0x03, 1, 1, 1, .ro, 0, 0, 255, [], "Key state"⟩,
  ⟨0x6031, 1, 0x04, 1, 3, 4, .ro, 0, 0, 4294967295, [], "Key identifier in force"⟩,
  ⟨0x6031, 1, 0x05, 1, 4, 8, .ro, 0, 0, 18446744073709551615, [], "Released at"⟩,
  ⟨0x6040, 1, 0x01, 1, 1, 1, .rw, 0, 0, 7, [], "Session window: slot selector"⟩,
  ⟨0x6040, 1, 0x02, 1, 9, 8192, .wo, 0, 0, 0, [], "Message in"⟩,
  ⟨0x6040, 1, 0x03, 1, 9, 8192, .ro, 0, 0, 0, [], "Message out"⟩,
  ⟨0x6040, 1, 0x04, 1, 1, 1, .ro, 0, 0, 255, [], "Session state"⟩,
  ⟨0x6040, 1, 0x05, 1, 1, 1, .ro, 0, 0, 63, [], "Session partition"⟩,
  ⟨0x6040, 1, 0x06, 1, 7, 1, .wo, 0, 0, 1, [], "Start pairing"⟩,
  ⟨0x6040, 1, 0x07, 1, 2, 2, .rw, 60, 10, 600, [], "Session idle limit"⟩,
  ⟨0x6040, 1, 0x08, 1, 4, 8, .ro, 0, 0, 18446744073709551615, [], "Sessions failed"⟩,
  ⟨0x6041, 1, 0x01, 1, 9, 32, .wo, 0, 0, 0, [], "Report nonce"⟩,
  ⟨0x6041, 1, 0x02, 1, 1, 1, .rw, 0, 0, 63, [], "Report partition selector"⟩]

/-- Table of 10-14, R334. -/
def rowsSecurityB : List ObjRow := [
  ⟨0x6041, 1, 0x03, 1, 9, 4720, .ro, 0, 0, 0, [], "Operator report"⟩,
  ⟨0x6050, 1, 0x01, 1, 7, 1, .ro, 0, 0, 1, [], "Manufacturing mode"⟩,
  ⟨0x6051, 1, 0x01, 1, 1, 1, .rw, 0, 0, 64, [], "Inspection window: partition selector"⟩,
  ⟨0x6051, 1, 0x02, 1, 4, 8, .rw, 0, 0, 18446744073709551615, [], "Granule address"⟩,
  ⟨0x6051, 1, 0x03, 1, 9, 1024, .ro, 0, 0, 0, [], "Granule data"⟩,
  ⟨0x6052, 1, 0x01, 1, 7, 1, .rw, 0, 0, 1, [], "Page-content trace enable"⟩,
  ⟨0x6052, 1, 0x02, 1, 1, 1, .wo, 0, 0, 127, [], "Core scan request"⟩,
  ⟨0x6060, 1, 0x01, 1, 1, 1, .ro, 0, 0, 3, [], "Device congestion level"⟩,
  ⟨0x6060, 1, 0x02, 1, 2, 2, .const, 10, 0, 65535, [], "Congestion update interval"⟩,
  ⟨0x6070, 1, 0x01, 1, 1, 1, .rw, 0, 0, 63, [], "Peer window: peer selector"⟩,
  ⟨0x6070, 1, 0x02, 1, 9, 64, .rw, 0, 0, 0, [], "Allowed identity hash"⟩,
  ⟨0x6070, 1, 0x03, 1, 1, 1, .ro, 0, 0, 255, [], "Link state"⟩,
  ⟨0x6070, 1, 0x04, 1, 4, 8, .ro, 0, 0, 18446744073709551615, [], "Link rekeys"⟩,
  ⟨0x6400, 64, 0x01, 1, 1, 1, .ro, 0, 0, 255, [], "Partition state"⟩,
  ⟨0x6400, 64, 0x02, 1, 1, 1, .rws, 0, 0, 1, [], "Security mode"⟩,
  ⟨0x6400, 64, 0x03, 1, 7, 1, .rws, 0, 0, 1, [], "Closed"⟩,
  ⟨0x6400, 64, 0x04, 1, 4, 8, .ro, 0, 0, 18446744073709551615, [], "Slices in effect"⟩,
  ⟨0x6400, 64, 0x05, 1, 3, 4, .rws, 0, 0, 4294967295, [], "Node block"⟩,
  ⟨0x6400, 64, 0x06, 1, 9, 1952, .rws, 0, 0, 0, [], "Key authority public key"⟩,
  ⟨0x6400, 64, 0x07, 1, 9, 64, .ro, 0, 0, 0, [], "Key authority hash"⟩,
  ⟨0x6400, 64, 0x10, 16, 3, 4, .rws, 0, 0, 65536, [], "Port share, logical ports 0–15"⟩,
  ⟨0x6400, 64, 0x20, 16, 2, 2, .rws, 0, 0, 65535, [], "GID grant, logical ports 0–15"⟩,
  ⟨0x6400, 64, 0x30, 1, 4, 8, .ro, 0, 0, 18446744073709551615, [], "Flash quota in effect"⟩,
  ⟨0x6400, 64, 0x31, 1, 3, 4, .ro, 0, 0, 4294967295, [], "Tenant keys released"⟩,
  ⟨0x6400, 64, 0x32, 1, 4, 8, .ro, 0, 0, 18446744073709551615, [], "Access violations"⟩]

/-- Table of 11-9, R359. -/
def rowsDictionaryA : List ObjRow := [
  ⟨0x1000, 1, 0x01, 1, 10, 16, .const, 0, 0, 0, [], "Vendor"⟩,
  ⟨0x1000, 1, 0x02, 1, 10, 16, .const, 0, 0, 0, [], "Part"⟩,
  ⟨0x1000, 1, 0x03, 1, 10, 16, .const, 0, 0, 0, [], "Ordering code"⟩,
  ⟨0x1000, 1, 0x04, 1, 10, 4, .const, 0, 0, 4294967295, [], "Stepping"⟩,
  ⟨0x1000, 1, 0x05, 1, 1, 1, .const, 0, 0, 255, [], "Configuration"⟩,
  ⟨0x1000, 1, 0x06, 1, 9, 64, .ro, 0, 0, 0, [], "Identity key hash"⟩,
  ⟨0x1000, 1, 0x07, 1, 4, 8, .const, 0, 0, 18446744073709551615, [], "Boot ROM version"⟩,
  ⟨0x1000, 1, 0x08, 1, 4, 8, .ro, 0, 0, 18446744073709551615, [], "Running firmware version"⟩,
  ⟨0x1000, 1, 0x09, 1, 4, 8, .ro, 0, 0, 18446744073709551615, [], "Woeno image version"⟩,
  ⟨0x1001, 1, 0x00, 1, 9, 1952, .ro, 0, 0, 0, [], "Identity public key"⟩,
  ⟨0x1002, 1, 0x01, 1, 2, 2, .ro, 0, 0, 65535, [], "Endorsement certificate length"⟩,
  ⟨0x1002, 1, 0x02, 1, 9, 8192, .ro, 0, 0, 0, [], "Endorsement certificate"⟩,
  ⟨0x1010, 1, 0x01, 1, 4, 8, .rw, 0, 0, 18446744073709551615, [], "Time of day"⟩,
  ⟨0x1010, 1, 0x02, 1, 7, 1, .ro, 0, 0, 1, [], "Time written since power-on"⟩,
  ⟨0x1010, 1, 0x03, 1, 4, 8, .ro, 0, 0, 18446744073709551615, [], "Elapsed since power-on"⟩,
  ⟨0x1010, 1, 0x04, 1, 3, 4, .ro, 0, 0, 4294967295, [], "Time writes accepted"⟩,
  ⟨0x1100, 1, 0x01, 1, 7, 1, .wo, 0, 0, 1, [], "Commit"⟩,
  ⟨0x1100, 1, 0x02, 1, 7, 1, .wo, 0, 0, 1, [], "Discard shadow"⟩,
  ⟨0x1100, 1, 0x03, 1, 3, 4, .ro, 0, 0, 4294967295, [], "Shadow differences"⟩,
  ⟨0x1100, 1, 0x04, 1, 1, 1, .rw, 255, 0, 7, [255], "Shadow reservation"⟩,
  ⟨0x1100, 1, 0x05, 1, 1, 1, .ro, 0, 0, 255, [], "Last commit status"⟩,
  ⟨0x1100, 1, 0x06, 1, 7, 1, .ro, 0, 0, 1, [], "Commit in progress"⟩,
  ⟨0x1101, 1, 0x01, 1, 2, 2, .rw, 4096, 0, 65535, [], "Directory window: index selector"⟩,
  ⟨0x1101, 1, 0x02, 1, 1, 1, .rw, 0, 0, 255, [], "Subindex selector"⟩,
  ⟨0x1101, 1, 0x03, 1, 1, 1, .ro, 0, 0, 255, [], "Presence"⟩,
  ⟨0x1101, 1, 0x04, 1, 1, 1, .ro, 0, 0, 255, [], "Type"⟩,
  ⟨0x1101, 1, 0x05, 1, 1, 1, .ro, 0, 0, 255, [], "Access"⟩,
  ⟨0x1101, 1, 0x06, 1, 2, 2, .ro, 0, 0, 65535, [], "Length"⟩,
  ⟨0x1101, 1, 0x07, 1, 10, 48, .ro, 0, 0, 0, [], "Name"⟩,
  ⟨0x1101, 1, 0x08, 1, 2, 2, .ro, 0, 0, 65535, [], "Next index"⟩,
  ⟨0x1102, 1, 0x01, 1, 4, 8, .ro, 0, 0, 18446744073709551615, [], "Requests executed"⟩,
  ⟨0x1102, 1, 0x02, 1, 4, 8, .ro, 0, 0, 18446744073709551615, [], "Items refused"⟩,
  ⟨0x1102, 1, 0x03, 1, 4, 8, .ro, 0, 0, 18446744073709551615, [], "Frames dropped"⟩,
  ⟨0x1200, 1, 0x01, 1, 9, 6, .ro, 0, 0, 281474976710655, [], "MAC address"⟩,
  ⟨0x1200, 1, 0x02, 1, 1, 1, .rw, 0, 0, 2, [], "Link mode"⟩,
  ⟨0x1200, 1, 0x03, 1, 1, 1, .ro, 0, 0, 255, [], "Link state"⟩,
  ⟨0x1200, 1, 0x04, 1, 2, 2, .rw, 0, 0, 4094, [], "VLAN"⟩,
  ⟨0x1200, 1, 0x05, 1, 9, 4, .rw, 0, 0, 4294967295, [], "IPv4 address"⟩,
  ⟨0x1200, 1, 0x06, 1, 1, 1, .rw, 24, 1, 32, [], "IPv4 prefix length"⟩,
  ⟨0x1200, 1, 0x07, 1, 9, 4, .rw, 0, 0, 4294967295, [], "IPv4 gateway"⟩]

/-- Table of 11-9, R359. -/
def rowsDictionaryB : List ObjRow := [
  ⟨0x1200, 1, 0x08, 1, 9, 16, .rw, 0, 0, 0, [], "IPv6 address"⟩,
  ⟨0x1200, 1, 0x09, 1, 1, 1, .rw, 64, 1, 128, [], "IPv6 prefix length"⟩,
  ⟨0x1200, 1, 0x0A, 1, 9, 16, .rw, 0, 0, 0, [], "IPv6 gateway"⟩,
  ⟨0x1200, 1, 0x0B, 1, 2, 2, .rw, 4880, 1024, 65535, [], "UDP port"⟩,
  ⟨0x1200, 1, 0x0C, 1, 4, 8, .ro, 0, 0, 18446744073709551615, [], "Frames received"⟩,
  ⟨0x1200, 1, 0x0D, 1, 7, 1, .wo, 0, 0, 1, [], "Apply configuration"⟩,
  ⟨0x1200, 1, 0x0E, 1, 4, 8, .ro, 0, 0, 18446744073709551615, [], "Frames dropped, other protocols"⟩,
  ⟨0x1201, 1, 0x01, 1, 2, 2, .rw, 300, 10, 3600, [], "Session idle limit"⟩,
  ⟨0x1201, 1, 0x02, 1, 2, 2, .rw, 5000, 500, 60000, [], "Handshake timeout"⟩,
  ⟨0x1201, 1, 0x03, 1, 1, 1, .rw, 5, 1, 64, [], "Failures before lockout"⟩,
  ⟨0x1201, 1, 0x04, 1, 2, 2, .rw, 60, 1, 3600, [], "Lockout time"⟩,
  ⟨0x1201, 1, 0x05, 1, 1, 1, .const, 8, 0, 255, [], "Sessions, maximum"⟩,
  ⟨0x1201, 1, 0x06, 1, 2, 2, .rw, 600, 10, 3600, [], "Reservation limit"⟩,
  ⟨0x1202, 1, 0x01, 1, 7, 1, .rw, 0, 0, 1, [], "Service role enable"⟩,
  ⟨0x1210, 1, 0x01, 1, 1, 1, .rw, 0, 0, 7, [], "Credential window: slot selector"⟩,
  ⟨0x1210, 1, 0x02, 1, 9, 1952, .rw, 0, 0, 0, [], "Public key"⟩,
  ⟨0x1210, 1, 0x03, 1, 1, 1, .rw, 1, 0, 2, [], "Role"⟩,
  ⟨0x1210, 1, 0x04, 1, 7, 1, .rw, 0, 0, 1, [], "Enabled"⟩,
  ⟨0x1210, 1, 0x05, 1, 10, 32, .rw, 0, 0, 0, [], "Label"⟩,
  ⟨0x1210, 1, 0x06, 1, 9, 64, .ro, 0, 0, 0, [], "Key hash"⟩,
  ⟨0x1210, 1, 0x07, 1, 4, 8, .ro, 0, 0, 18446744073709551615, [], "Last authentication"⟩,
  ⟨0x1210, 1, 0x08, 1, 3, 4, .ro, 0, 0, 4294967295, [], "Failures"⟩,
  ⟨0x1210, 1, 0x09, 1, 4, 8, .ro, 0, 0, 18446744073709551615, [], "Locked until"⟩,
  ⟨0x1211, 1, 0x01, 1, 1, 1, .rw, 0, 0, 7, [], "Session window: slot selector"⟩,
  ⟨0x1211, 1, 0x02, 1, 1, 1, .ro, 0, 0, 255, [], "Session state"⟩,
  ⟨0x1211, 1, 0x03, 1, 1, 1, .ro, 255, 0, 7, [], "Credential slot"⟩,
  ⟨0x1211, 1, 0x04, 1, 1, 1, .ro, 255, 0, 255, [], "Role"⟩,
  ⟨0x1211, 1, 0x05, 1, 9, 16, .ro, 0, 0, 0, [], "Client address"⟩,
  ⟨0x1211, 1, 0x06, 1, 4, 8, .ro, 0, 0, 18446744073709551615, [], "Opened"⟩,
  ⟨0x1211, 1, 0x07, 1, 4, 8, .ro, 0, 0, 18446744073709551615, [], "Requests"⟩,
  ⟨0x1211, 1, 0x08, 1, 7, 1, .wo, 0, 0, 1, [], "Close"⟩,
  ⟨0x1220, 1, 0x01, 1, 1, 1, .const, 44, 0, 255, [], "I3C static address"⟩,
  ⟨0x1220, 1, 0x02, 1, 1, 1, .ro, 0, 0, 255, [], "I3C dynamic address"⟩,
  ⟨0x1220, 1, 0x03, 1, 4, 8, .ro, 0, 0, 18446744073709551615, [], "I3C transfers"⟩,
  ⟨0x1220, 1, 0x04, 1, 7, 1, .rw, 0, 0, 1, [], "In-band interrupts enable"⟩,
  ⟨0x1220, 1, 0x05, 1, 4, 8, .ro, 0, 0, 18446744073709551615, [], "I3C errors"⟩]

/-- Table of R386, R387. -/
def rowsFaultsA : List ObjRow := [
  ⟨0x7000, 1, 0x01, 1, 3, 4, .ro, 0, 0, 4294967295, [], "Fault summary"⟩,
  ⟨0x7000, 1, 0x02, 1, 4, 8, .ro, 0, 0, 18446744073709551615, [], "Last sequence number"⟩,
  ⟨0x7000, 1, 0x03, 1, 1, 1, .ro, 0, 0, 255, [], "Alive state"⟩,
  ⟨0x7010, 1, 0x01, 1, 1, 1, .rw, 0, 0, 63, [], "History window: entry selector"⟩,
  ⟨0x7010, 1, 0x02, 1, 9, 40, .ro, 0, 0, 0, [], "History entry"⟩,
  ⟨0x7010, 1, 0x03, 1, 9, 40, .ro, 0, 0, 0, [], "First-error record"⟩,
  ⟨0x7010, 1, 0x04, 1, 4, 8, .ro, 0, 0, 18446744073709551615, [], "Records since power-on"⟩,
  ⟨0x7010, 1, 0x05, 1, 7, 1, .wo, 0, 0, 1, [], "Clear first error"⟩,
  ⟨0x7010, 1, 0x06, 1, 4, 8, .ro, 0, 0, 18446744073709551615, [], "Records dropped"⟩,
  ⟨0x7020, 1, 0x01, 1, 1, 1, .rw, 1, 1, 97, [], "Kind window: kind selector"⟩,
  ⟨0x7020, 1, 0x02, 1, 1, 1, .rw, 0, 0, 3, [], "Class"⟩,
  ⟨0x7020, 1, 0x03, 1, 1, 1, .rw, 0, 0, 255, [], "Escalation N"⟩,
  ⟨0x7020, 1, 0x04, 1, 3, 4, .rw, 0, 1, 4294967295, [], "Escalation window"⟩,
  ⟨0x7020, 1, 0x05, 1, 4, 8, .ro, 0, 0, 18446744073709551615, [], "Events counted"⟩,
  ⟨0x7030, 1, 0x01, 1, 2, 2, .rw, 0, 0, 65535, [], "Source window: source selector"⟩,
  ⟨0x7030, 1, 0x02, 1, 1, 1, .ro, 0, 0, 255, [], "Source state"⟩,
  ⟨0x7030, 1, 0x03, 1, 4, 8, .ro, 0, 0, 18446744073709551615, [], "Events"⟩,
  ⟨0x7030, 1, 0x04, 1, 3, 4, .ro, 0, 0, 4294967295, [], "Escalations"⟩,
  ⟨0x7040, 1, 0x01, 1, 1, 1, .ro, 0, 0, 255, [], "Guarantee conditions unmet"⟩,
  ⟨0x7050, 1, 0x01, 1, 1, 1, .rw, 0, 0, 2, [], "Input window: input selector"⟩,
  ⟨0x7050, 1, 0x02, 1, 1, 1, .ro, 0, 0, 255, [], "Input state"⟩,
  ⟨0x7050, 1, 0x03, 1, 3, 4, .rw, 60000, 100, 600000, [], "Stuck limit"⟩,
  ⟨0x7050, 1, 0x04, 1, 4, 8, .ro, 0, 0, 18446744073709551615, [], "Assertions"⟩,
  ⟨0x7060, 1, 0x01, 1, 2, 2, .rw, 24, 1, 168, [], "HBM patrol interval"⟩,
  ⟨0x7060, 1, 0x02, 1, 4, 8, .ro, 0, 0, 18446744073709551615, [], "Last HBM patrol pass completed"⟩,
  ⟨0x7060, 1, 0x03, 1, 4, 8, .ro, 0, 0, 18446744073709551615, [], "HBM units rewritten"⟩,
  ⟨0x7100, 1, 0x01, 1, 2, 2, .rw, 0, 0, 65535, [], "Fence window: source selector"⟩,
  ⟨0x7100, 1, 0x02, 1, 7, 1, .wo, 0, 0, 1, [], "Fence"⟩,
  ⟨0x7100, 1, 0x03, 1, 7, 1, .wo, 0, 0, 1, [], "Return"⟩,
  ⟨0x7100, 1, 0x04, 1, 4, 8, .ro, 0, 0, 18446744073709551615, [], "Fenced since"⟩,
  ⟨0x7101, 1, 0x01, 1, 9, 16, .ro, 0, 0, 0, [], "Fenced cores"⟩,
  ⟨0x7101, 1, 0x02, 1, 9, 48, .ro, 0, 0, 0, [], "Fenced HBM channels"⟩,
  ⟨0x7101, 1, 0x03, 1, 9, 128, .ro, 0, 0, 0, [], "Fenced flash dies"⟩,
  ⟨0x7101, 1, 0x04, 1, 1, 1, .ro, 4, 0, 255, [], "HBM spare lanes remaining, minimum over channels"⟩,
  ⟨0x8000, 1, 0x01, 1, 8, 4, .ro, 0, 0, 4294967295, [], "Package power"⟩,
  ⟨0x8000, 1, 0x02, 2, 8, 4, .ro, 0, 0, 4294967295, [], "Junction temperature, dies 0–1"⟩,
  ⟨0x8000, 1, 0x04, 1, 8, 4, .ro, 0, 0, 4294967295, [], "Hottest HBM stack"⟩,
  ⟨0x8000, 1, 0x05, 1, 1, 1, .ro, 0, 0, 255, [], "Throttle state"⟩,
  ⟨0x8000, 1, 0x06, 1, 4, 8, .ro, 0, 0, 18446744073709551615, [], "Energy since power-on"⟩,
  ⟨0x8001, 1, 0x01, 1, 3, 4, .rw, 2200, 0, 4294967295, [], "e_mx"⟩]

/-- Table of R386, R387. -/
def rowsFaultsB : List ObjRow := [
  ⟨0x8001, 1, 0x02, 1, 3, 4, .rw, 1250, 0, 4294967295, [], "e_hbm"⟩,
  ⟨0x8001, 1, 0x03, 1, 3, 4, .rw, 3600000, 0, 4294967295, [], "e_fl"⟩,
  ⟨0x8001, 1, 0x04, 1, 3, 4, .rw, 75, 0, 4294967295, [], "e_net"⟩,
  ⟨0x8001, 1, 0x05, 1, 3, 4, .rw, 200, 0, 4294967295, [], "e_walk"⟩,
  ⟨0x8010, 1, 0x01, 1, 1, 1, .rw, 0, 0, 63, [], "Meter window: partition selector"⟩,
  ⟨0x8010, 1, 0x02, 1, 2, 2, .rw, 0, 0, 65535, [], "Tenant selector"⟩,
  ⟨0x8010, 1, 0x03, 1, 4, 8, .ro, 0, 0, 18446744073709551615, [], "Rows completed"⟩,
  ⟨0x8010, 1, 0x04, 1, 4, 8, .ro, 0, 0, 18446744073709551615, [], "Positions attended"⟩,
  ⟨0x8010, 1, 0x05, 1, 4, 8, .ro, 0, 0, 18446744073709551615, [], "Positions appended"⟩,
  ⟨0x8010, 1, 0x06, 1, 4, 8, .ro, 0, 0, 18446744073709551615, [], "Pages read in HBM"⟩,
  ⟨0x8010, 1, 0x07, 1, 4, 8, .ro, 0, 0, 18446744073709551615, [], "Pages missed"⟩,
  ⟨0x8010, 1, 0x08, 1, 4, 8, .ro, 0, 0, 18446744073709551615, [], "Pages staged"⟩,
  ⟨0x8010, 1, 0x09, 1, 4, 8, .ro, 0, 0, 18446744073709551615, [], "Pages lost"⟩,
  ⟨0x8010, 1, 0x0A, 8, 4, 8, .ro, 0, 0, 18446744073709551615, [], "Bytes moved, classes 0–7"⟩,
  ⟨0x8010, 1, 0x12, 1, 4, 8, .ro, 0, 0, 18446744073709551615, [], "Energy"⟩,
  ⟨0x8010, 1, 0x13, 1, 4, 8, .ro, 0, 0, 18446744073709551615, [], "Reserve-drawn events"⟩,
  ⟨0x8010, 1, 0x14, 1, 4, 8, .ro, 0, 0, 18446744073709551615, [], "Admissions"⟩,
  ⟨0x8010, 1, 0x15, 1, 4, 8, .ro, 0, 0, 18446744073709551615, [], "Positions matched"⟩,
  ⟨0x8010, 1, 0x16, 1, 4, 8, .ro, 0, 0, 18446744073709551615, [], "Placements accepted"⟩,
  ⟨0x8010, 1, 0x17, 1, 4, 8, .ro, 0, 0, 18446744073709551615, [], "Placements refused"⟩,
  ⟨0x8010, 1, 0x18, 1, 4, 8, .ro, 0, 0, 18446744073709551615, [], "Hand-offs"⟩,
  ⟨0x8010, 1, 0x19, 1, 4, 8, .ro, 0, 0, 18446744073709551615, [], "Turns ended OK"⟩,
  ⟨0x8010, 1, 0x1A, 1, 4, 8, .ro, 0, 0, 18446744073709551615, [], "Turns ended RETRY_LATER"⟩,
  ⟨0x8010, 1, 0x1B, 1, 4, 8, .ro, 0, 0, 18446744073709551615, [], "Re-admissions"⟩,
  ⟨0x8010, 1, 0x1C, 4, 4, 8, .ro, 0, 0, 18446744073709551615, [], "Relay bytes, kinds 0–3"⟩,
  ⟨0x8010, 1, 0x20, 1, 4, 8, .ro, 0, 0, 18446744073709551615, [], "Fault records"⟩,
  ⟨0x8010, 1, 0x21, 1, 4, 8, .ro, 0, 0, 18446744073709551615, [], "Rows returning LOST"⟩,
  ⟨0x8010, 1, 0x22, 1, 4, 8, .ro, 0, 0, 18446744073709551615, [], "Rows returning TOLERANCE"⟩,
  ⟨0x8010, 1, 0x23, 1, 4, 8, .ro, 0, 0, 18446744073709551615, [], "Last save"⟩,
  ⟨0x8011, 1, 0x01, 1, 1, 1, .rw, 1, 1, 11, [], "Loss window: reason selector"⟩,
  ⟨0x8011, 1, 0x02, 1, 4, 8, .ro, 0, 0, 18446744073709551615, [], "Pages lost for the reason"⟩]

/-- Table of R412. -/
def rowsMailboxA : List ObjRow := [
  ⟨0x7800, 1, 0x00, 1, 1, 1, .const, 64, 0, 255, [], "Mailboxes per partition"⟩,
  ⟨0x7800, 1, 0x01, 1, 1, 1, .const, 16, 0, 255, [], "Management mailboxes"⟩,
  ⟨0x7800, 1, 0x02, 1, 2, 2, .const, 256, 0, 65535, [], "Mailbox size"⟩,
  ⟨0x7800, 1, 0x03, 1, 3, 4, .const, 19778, 0, 4294967295, [], "Mailbox remote key"⟩,
  ⟨0x7800, 1, 0x04, 1, 4, 8, .const, 5567012089383354368, 0, 18446744073709551615, [], "Mailbox base address"⟩,
  ⟨0x7800, 1, 0x05, 1, 3, 4, .rw, 100, 1, 10000, [], "Delivery timeout"⟩,
  ⟨0x7801, 1, 0x01, 1, 1, 1, .rw, 0, 0, 64, [], "Binding window: partition selector"⟩,
  ⟨0x7801, 1, 0x02, 1, 1, 1, .rw, 0, 0, 63, [], "Mailbox selector"⟩,
  ⟨0x7801, 1, 0x03, 1, 1, 1, .rws, 0, 0, 2, [], "Receiver kind"⟩,
  ⟨0x7801, 1, 0x04, 1, 4, 8, .rws, 0, 0, 18446744073709551615, [], "Receiver node identifier"⟩,
  ⟨0x7801, 1, 0x05, 1, 4, 8, .rws, 0, 0, 18446744073709551615, [], "Writer partitions"⟩,
  ⟨0x7802, 1, 0x01, 1, 1, 1, .rw, 0, 0, 64, [], "Mailbox window: partition selector"⟩,
  ⟨0x7802, 1, 0x02, 1, 1, 1, .rw, 0, 0, 63, [], "Mailbox selector"⟩,
  ⟨0x7802, 1, 0x03, 1, 4, 8, .ro, 0, 0, 18446744073709551615, [], "Status"⟩,
  ⟨0x7802, 1, 0x04, 1, 9, 256, .ro, 0, 0, 0, [], "Message"⟩,
  ⟨0x7802, 1, 0x05, 1, 4, 8, .ro, 0, 0, 18446744073709551615, [], "Messages taken"⟩,
  ⟨0x7802, 1, 0x06, 1, 4, 8, .ro, 0, 0, 18446744073709551615, [], "Writes refused, DOMAIN_OFF"⟩,
  ⟨0x7802, 1, 0x07, 1, 4, 8, .ro, 0, 0, 18446744073709551615, [], "Writes refused, full"⟩,
  ⟨0x7803, 1, 0x01, 1, 1, 1, .rw, 0, 0, 63, [], "Send window: partition selector"⟩,
  ⟨0x7803, 1, 0x02, 1, 1, 1, .rw, 0, 0, 63, [], "Mailbox selector"⟩,
  ⟨0x7803, 1, 0x03, 1, 2, 2, .rw, 0, 0, 65535, [], "Tenant"⟩,
  ⟨0x7803, 1, 0x04, 1, 9, 224, .wo, 0, 0, 0, [], "Body"⟩,
  ⟨0x7810, 1, 0x01, 1, 1, 1, .ro, 0, 0, 255, [], "Power level"⟩,
  ⟨0x7810, 1, 0x02, 1, 2, 2, .rw, 0, 300, 1400, [0], "Package power cap"⟩,
  ⟨0x7810, 1, 0x03, 1, 1, 1, .ro, 0, 0, 255, [], "Safe level causes"⟩,
  ⟨0x7811, 1, 0x01, 1, 1, 1, .rw, 0, 0, 63, [], "Gating window: partition selector"⟩,
  ⟨0x7811, 1, 0x02, 1, 7, 1, .rws, 0, 0, 1, [], "Gating permitted"⟩,
  ⟨0x7811, 1, 0x03, 1, 3, 4, .rws, 10, 1, 60000, [], "Gate idle time"⟩,
  ⟨0x7811, 1, 0x04, 1, 1, 1, .rws, 1, 1, 16, [], "Minimum running clusters"⟩,
  ⟨0x7811, 1, 0x05, 1, 2, 2, .rws, 4096, 256, 8192, [], "Wake threshold"⟩,
  ⟨0x7812, 1, 0x01, 1, 1, 1, .rw, 0, 0, 15, [], "Cluster window: cluster selector"⟩,
  ⟨0x7812, 1, 0x02, 1, 1, 1, .ro, 0, 0, 255, [], "Cluster power state"⟩,
  ⟨0x7812, 1, 0x03, 1, 7, 1, .rw, 0, 0, 1, [], "Hold off"⟩,
  ⟨0x7812, 1, 0x04, 1, 4, 8, .ro, 0, 0, 18446744073709551615, [], "Gatings"⟩,
  ⟨0x7812, 1, 0x05, 1, 4, 8, .ro, 0, 0, 18446744073709551615, [], "Wakes"⟩,
  ⟨0x7812, 1, 0x06, 1, 3, 4, .ro, 0, 0, 4294967295, [], "Last wake latency"⟩,
  ⟨0x7820, 1, 0x01, 1, 3, 4, .wo, 0, 0, 4294967295, [], "Reset request"⟩,
  ⟨0x7820, 1, 0x02, 1, 3, 4, .ro, 0, 0, 4294967295, [], "Last reset"⟩,
  ⟨0x7820, 1, 0x03, 1, 3, 4, .ro, 0, 0, 4294967295, [], "Reset in progress"⟩,
  ⟨0x7820, 1, 0x04, 1, 7, 1, .wo, 0, 0, 1, [], "Orderly shutdown"⟩]

/-- Table of R412. -/
def rowsMailboxB : List ObjRow := [
  ⟨0x7820, 1, 0x05, 1, 7, 1, .ro, 0, 0, 1, [], "Shutdown complete"⟩,
  ⟨0x7820, 1, 0x06, 1, 3, 4, .ro, 0, 0, 4294967295, [], "Device resets"⟩,
  ⟨0x7830, 1, 0x01, 1, 1, 1, .ro, 0, 1, 10, [], "Boot step"⟩,
  ⟨0x7830, 1, 0x02, 1, 1, 1, .ro, 0, 0, 255, [], "Failed step"⟩,
  ⟨0x7830, 1, 0x03, 1, 1, 1, .ro, 0, 0, 255, [], "Boot source"⟩,
  ⟨0x7830, 1, 0x04, 1, 3, 4, .ro, 0, 0, 4294967295, [], "Boot duration"⟩,
  ⟨0x7840, 1, 0x01, 1, 1, 1, .ro, 0, 0, 255, [], "Active half"⟩,
  ⟨0x7840, 1, 0x02, 1, 1, 1, .ro, 0, 0, 255, [], "Pending image state"⟩,
  ⟨0x7840, 1, 0x03, 1, 4, 8, .ro, 0, 0, 18446744073709551615, [], "Pending version"⟩,
  ⟨0x7840, 1, 0x04, 1, 9, 67108864, .wo, 0, 0, 0, [], "Image segment"⟩,
  ⟨0x7840, 1, 0x05, 1, 7, 1, .wo, 0, 0, 1, [], "Verify"⟩,
  ⟨0x7840, 1, 0x06, 1, 7, 1, .wo, 0, 0, 1, [], "Switch"⟩,
  ⟨0x7840, 1, 0x07, 1, 3, 4, .rw, 500, 10, 1000, [], "Hold limit"⟩,
  ⟨0x7840, 1, 0x08, 1, 3, 4, .ro, 0, 0, 4294967295, [], "Last switch duration"⟩,
  ⟨0x7840, 1, 0x09, 1, 3, 4, .const, 67108864, 0, 4294967295, [], "Image size maximum"⟩]

/-- Every row. -/
def objRows : List ObjRow :=
  rowsOrganisationA ++ rowsOrganisationB ++ rowsStateA ++ rowsStateB ++ rowsAttendA ++ rowsAppendA ++ rowsMortiseA ++ rowsMortiseB ++ rowsFormatsA ++ rowsFormatsB ++ rowsFlashA ++ rowsFlashB ++ rowsFlashC ++ rowsBrokerA ++ rowsBrokerB ++ rowsFabricA ++ rowsFabricB ++ rowsFabricC ++ rowsSecurityA ++ rowsSecurityB ++ rowsDictionaryA ++ rowsDictionaryB ++ rowsFaultsA ++ rowsFaultsB ++ rowsMailboxA ++ rowsMailboxB

/-- The row that defines subindex `sub` of index `ix`. -/
def objRow (ix sub : Nat) : Option ObjRow :=
  objRows.find? fun r => r.ix ≤ ix && ix < r.ix + r.span && r.sub ≤ sub && sub < r.sub + r.subs

/-- Whether an index is listed (R360). -/
def objIndex (ix : Nat) : Bool := objRows.any fun r => r.ix ≤ ix && ix < r.ix + r.span

/-- Highest subindex of an index (R335). -/
def topSub (ix : Nat) : Nat :=
  (objRows.filter fun r => r.ix ≤ ix && ix < r.ix + r.span).foldl (fun m r => max m (r.sub + r.subs - 1)) 0

/-- Lowest defined index above `ix`, 0xFFFF when none (0x1101.08). -/
def nextIndex (ix : Nat) : Nat :=
  objRows.foldl (fun m r => if r.ix + r.span ≤ ix + 1 then m else min m (max r.ix (ix + 1))) 0xFFFF

/-- Selector subindices of a window index (R337). Those of 0x3005, 0x3006, 0x5004.02 and 0x6051.02 are not named selector (log 13). -/
def selectorsOf (ix : Nat) : List Nat :=
  if [0x1210, 0x1211, 0x2001, 0x2010, 0x2013, 0x2021, 0x2101, 0x2102, 0x2103, 0x2201, 0x2202, 0x2301, 0x2302, 0x2402, 0x2403, 0x2405, 0x2501, 0x2502, 0x2504, 0x2505, 0x3006, 0x3007, 0x3009, 0x3101, 0x3102, 0x3103, 0x4002, 0x4003, 0x4004, 0x4006, 0x5001, 0x5002, 0x5003, 0x5040, 0x6040, 0x6070, 0x7010, 0x7020, 0x7030, 0x7050, 0x7100, 0x7811, 0x7812, 0x8011].contains ix then [1]
  else if [0x1101, 0x2404, 0x5004, 0x5021, 0x5022, 0x5023, 0x5100, 0x6020, 0x6031, 0x6051, 0x7801, 0x7802, 0x7803, 0x8010].contains ix then [1, 2]
  else if [0x2011, 0x2503, 0x3005].contains ix then [1, 2, 3]
  else if [0x2018].contains ix then [1, 2, 3, 4]
  else if [0x6041].contains ix then [2]
  else []

end Sys2Proof.Machine
end

