-- ==== Sys2Proof/Machine/Ops.lean ====
section
/-!
DEFINITION. Named operations every family uses: sparse tables, one modifier per component of State, time, identifiers, free values,
settings and counters of the object dictionary, and HBM's bytes.
-/
namespace Sys2Proof.Machine

/-- Value at a key of a sparse table, `d` where it lists none. -/
def sget (m : SMap) (k d : Nat) : Nat :=
  match m with
  | [] => d
  | (a, v) :: r => if a = k then v else sget r k d

/-- A sparse table with the value at one key replaced, keys kept rising. -/
def sset (m : SMap) (k v : Nat) : SMap :=
  match m with
  | [] => [(k, v)]
  | (a, w) :: r => if k < a then (k, v) :: (a, w) :: r else if k = a then (k, v) :: r else (a, w) :: sset r k v

/-- Adds to the value at a key. -/
def sadd (m : SMap) (k n : Nat) : SMap := sset m k (sget m k 0 + n)

/-- Takes from the value at a key, not below 0. -/
def ssub (m : SMap) (k n : Nat) : SMap := sset m k (sget m k 0 - n)

/-- A sparse table without one key. -/
def sdel (m : SMap) (k : Nat) : SMap := m.filter fun x => x.1 != k

/-- A rising list with one number put in. -/
def insNat (l : List Nat) (k : Nat) : List Nat :=
  match l with
  | [] => [k]
  | a :: r => if k < a then k :: a :: r else if k = a then a :: r else a :: insNat r k

/-- Applies `f` to the elements `p` selects. -/
def mapIf {α : Type} (p : α → Bool) (f : α → α) (l : List α) : List α := l.map fun x => if p x then f x else x

/-- Replaces one element by position. -/
def setAt {α : Type} (l : List α) (n : Nat) (x : α) : List α := l.set n x

/-- Sum of a function over a list. -/
def sumOf {α : Type} (f : α → Nat) (l : List α) : Nat := l.foldl (fun a x => a + f x) 0

/-- Rounds up a division. -/
def cdiv (a b : Nat) : Nat := (a + b - 1) / b

/-- Runs `f` for each element in order. -/
def State.each {α : Type} (s : State) (l : List α) (f : State → α → State) : State := l.foldl f s

/-- Replaces component `dev` by a function of it. -/
def State.onDev (s : State) (f : Dev → Dev) : State := { s with dev := f s.dev }
/-- Replaces component `clock` by a function of it. -/
def State.onClock (s : State) (f : Clock → Clock) : State := { s with clock := f s.clock }
/-- Replaces component `objs` by a function of it. -/
def State.onObjs (s : State) (f : Objs → Objs) : State := { s with objs := f s.objs }
/-- Replaces component `islands` by a function of it. -/
def State.onIslands (s : State) (f : List Island → List Island) : State := { s with islands := f s.islands }
/-- Replaces component `epochs` by a function of it. -/
def State.onEpochs (s : State) (f : Epochs → Epochs) : State := { s with epochs := f s.epochs }
/-- Replaces component `seqs` by a function of it. -/
def State.onSeqs (s : State) (f : List Seq → List Seq) : State := { s with seqs := f s.seqs }
/-- Replaces component `slotGens` by a function of it. -/
def State.onSlotGens (s : State) (f : SMap → SMap) : State := { s with slotGens := f s.slotGens }
/-- Replaces component `hbm` by a function of it. -/
def State.onHbm (s : State) (f : Hbm → Hbm) : State := { s with hbm := f s.hbm }
/-- Replaces component `caches` by a function of it. -/
def State.onCaches (s : State) (f : List ClusterCache → List ClusterCache) : State := { s with caches := f s.caches }
/-- Replaces component `work` by a function of it. -/
def State.onWork (s : State) (f : Work → Work) : State := { s with work := f s.work }
/-- Replaces component `mortise` by a function of it. -/
def State.onMortise (s : State) (f : Mortise → Mortise) : State := { s with mortise := f s.mortise }
/-- Replaces component `packers` by a function of it. -/
def State.onPackers (s : State) (f : List Packer → List Packer) : State := { s with packers := f s.packers }
/-- Replaces component `flash` by a function of it. -/
def State.onFlash (s : State) (f : Flash → Flash) : State := { s with flash := f s.flash }
/-- Replaces component `broker` by a function of it. -/
def State.onBroker (s : State) (f : Broker → Broker) : State := { s with broker := f s.broker }
/-- Replaces component `net` by a function of it. -/
def State.onNet (s : State) (f : Net → Net) : State := { s with net := f s.net }
/-- Replaces component `sec` by a function of it. -/
def State.onSec (s : State) (f : Sec → Sec) : State := { s with sec := f s.sec }
/-- Replaces component `mgmt` by a function of it. -/
def State.onMgmt (s : State) (f : MgmtPort → MgmtPort) : State := { s with mgmt := f s.mgmt }
/-- Replaces component `faults` by a function of it. -/
def State.onFaults (s : State) (f : Faults → Faults) : State := { s with faults := f s.faults }
/-- Replaces component `mailboxes` by a function of it. -/
def State.onMailboxes (s : State) (f : List Mailbox → List Mailbox) : State := { s with mailboxes := f s.mailboxes }
/-- Replaces component `power` by a function of it. -/
def State.onPower (s : State) (f : Power → Power) : State := { s with power := f s.power }
/-- Replaces component `fw` by a function of it. -/
def State.onFw (s : State) (f : Firmware → Firmware) : State := { s with fw := f s.fw }
/-- Replaces component `meters` by a function of it. -/
def State.onMeters (s : State) (f : Meters → Meters) : State := { s with meters := f s.meters }

/-- Elapsed microseconds (R357): what timeouts and limits count. -/
abbrev State.us (s : State) : Nat := s.clock.us

/-- Time of day in ms (R357): what stamps carry. -/
abbrev State.ms (s : State) : Nat := s.clock.tod

/-- One microsecond passes (R357; log 12): the elapsed counter always, the time of day at each whole millisecond. -/
def State.tick (s : State) : State :=
  s.onClock fun c => { c with us := c.us + 1, tod := if (c.us + 1) % 1000 = 0 then c.tod + 1 else c.tod }

/-- Whether a deadline in elapsed µs has come (log 79). -/
def State.due (s : State) (t : Nat) : Bool := t ≤ s.clock.us

/-- Whether the device serves its data path: booted, not shut down, not fatal (R372, R404, R406). -/
def State.serving (s : State) : Bool := s.dev.phase == .running

/-- Whether the management firmware runs (R356, R405, R406). A fatal fault ends the data path, the links and `FAULT_ALIVE`, not management (R372, log 70). -/
def State.managed (s : State) : Bool := s.dev.phase == .running || s.dev.phase == .shutDown || s.dev.phase == .fatal

/-- The next free value and the state that has met it (log 1). -/
def State.free (s : State) : W64 × State := (Config.freeValue s.dev.freeCount, s.onDev fun d => { d with freeCount := d.freeCount + 1 })

/-- The next in-flight identifier (log 6). -/
def State.fresh (s : State) : Nat × State := (s.dev.nextId, s.onDev fun d => { d with nextId := d.nextId + 1 })

/-- The next tag of a device-initiated request (R245). -/
def State.freshTag (s : State) : Nat × State := (s.dev.nextTag % 2 ^ 32, s.onDev fun d => { d with nextTag := d.nextTag + 1 })

/-- Random bytes, as free values (R437, R350, R327), most significant byte of each draw first. -/
def State.randomBytes (s : State) : Nat → List Byte × State
  | 0 => ([], s)
  | n + 1 => ((Config.freeValue s.dev.freeCount).setWidth 8 :: ((s.free).2.randomBytes n).1, ((s.free).2.randomBytes n).2)

/-! ### Objects -/

/-- Key of an object's value: the item its window's selectors name, index and subindex. -/
def okey (ix sub item : Nat) : Nat := item * 2 ^ 24 + ix * 256 + sub

/-- Default of Table 9-5's level and weight by service. -/
def serviceLevel (svc : Nat) : Nat := [1, 2, 2, 3, 3, 0].getD svc 3
def serviceWeight (svc : Nat) : Nat := [1, 4, 4, 2, 1, 1].getD svc 1

/-- Default class of a fault kind (Table 12-3); a kind the table does not list is reserved and reads class 1 (log 14). -/
def defaultClass (k : Nat) : Nat :=
  if [0x01, 0x03, 0x06, 0x10, 0x12, 0x13, 0x14, 0x20, 0x21, 0x22, 0x40, 0x41].contains k then 0
  else if [0x07, 0x08, 0x15, 0x16, 0x23, 0x35, 0x36, 0x50, 0x51, 0x52, 0x54, 0x55, 0x5A, 0x60].contains k then 2
  else if k = 0x53 then 3 else 1

/-- Default escalation count N of a fault kind (Table 12-3), 0 where the table has a dash; two are wider than 0x7020.03 (log 15). -/
def defaultN (k : Nat) : Nat :=
  if k = 0x01 then 64 else if k = 0x03 then 1024 else if k = 0x20 then 4096 else if [0x04, 0x05].contains k then 4
  else if [0x02, 0x50].contains k then 2 else if [0x11, 0x17, 0x40].contains k then 16 else if k = 0x24 then 8
  else if [0x07, 0x08, 0x15, 0x16, 0x23, 0x35, 0x36, 0x51, 0x52, 0x54, 0x55, 0x5A, 0x60].contains k then 1 else 0

/-- Default escalation window of a fault kind in periods (Table 12-3). -/
def defaultWindow (k : Nat) : Nat :=
  if [0x01, 0x02, 0x20].contains k then 1000000 else if [0x03, 0x04, 0x05].contains k then 10000000
  else if [0x11, 0x17, 0x24, 0x40, 0x50].contains k then 100000000 else 1

/-- Default of a value that its table gives per subindex or per item (R43, R304, R334, R386). -/
def specialDefault (p : Part) (lineRate quota ix sub item : Nat) : Option Nat :=
  if ix = 0x2001 && sub = 5 then some (Reset.topClock item)
  else if ix = 0x2010 && sub ≤ 9 then [36045, 9830, 9830, 3277, 0, 0, 3277, 1311][sub - 2]?
  else if ix = 0x2010 then [65536, 65536, 65536, 65536, 0, 0, 65536, 65536][sub - 10]?
  else if ix = 0x2012 then [1024, 1024, 328, 6554, 8192, 656][sub - 1]?
  else if ix = 0x2013 && 2 ≤ sub then
    ([[0, 0, 0, 0, 0, 0, 0, 65536], [0, 0, 0, 0, 0, 61440, 0, 4096], [0, 0, 0, 0, 0, 0, 0, 65536], [0, 0, 0, 0, 49152, 13107, 0, 3277],
      [0, 0, 0, 0, 0, 0, 0, 65536], [0, 0, 0, 0, 0, 3277, 0, 62259]].getD item [])[sub - 2]?
  else if ix = 0x3004 then [1024, 512, 128, 64, 32, 8][sub - 1]?
  else if ix = 0x3005 && sub = 4 then some (Config.nandProfile item 0).toNat
  else if ix = 0x3006 && 2 ≤ sub then some (Config.nandProfile item (sub - 1)).toNat
  else if ix = 0x5002 && sub = 3 then some lineRate
  else if ix = 0x5021 && sub = 3 then some (if item % 65536 = 5 then 8000 else 0)
  else if ix = 0x5021 && sub = 5 then some (serviceLevel (item % 65536))
  else if ix = 0x5021 && sub = 6 then some (serviceWeight (item % 65536))
  else if ix = 0x6011 then some (if p == .al then 1024 else 2048)
  else if ix = 0x6012 then some quota
  else if ix = 0x7020 && sub = 2 then some (defaultClass item)
  else if ix = 0x7020 && sub = 3 then some (defaultN item)
  else if ix = 0x7020 && sub = 4 then some (defaultWindow item)
  else if ix = 0x7050 && sub = 3 then [60000, 1000, 10000][item]?
  else none

/-- Line rate of a logical port in Mb/s (Table 9-1), by its port's mode in effect. -/
def State.lineRate (s : State) (lp : Nat) : Nat := [800000, 400000, 200000].getD (s.net.modes.getD (lp / 4) 0) 0

/-- Spare blocks per die set aside at first formatting (0x3001.06). -/
def sparesPerDie (f : Flash) : Nat := cdiv f.blocksPerDie 64

/-- Superblocks of one island before any is lost: one per die number and member index outside the spares (R215, R231). -/
def superblocksPerIsland (f : Flash) : Nat := f.diesPerChannel * (f.blocksPerDie - sparesPerDie f)

/-- Islands of the configuration that drive flash (0x3000.00). -/
def flashIslandCount (p : Part) : Nat := if p == .al then 2 else 1

/-- Exported capacity (0x3001.03) in logical pages: data slots of all superblocks, less over-provisioning, less h superblocks per pool. -/
def exportedCapacity (p : Part) (f : Flash) (op h : Nat) : Nat :=
  flashIslandCount p * (superblocksPerIsland f * (f.pagesPerBlock * 15) - superblocksPerIsland f * (f.pagesPerBlock * 15) * op / 65536
    - h * (f.pagesPerBlock * 15))

/-- Slices of the configuration (0x6000.00). -/
def sliceCount (p : Part) : Nat := if p == .al then 64 else 32

/-- Flash quota of each slice at first formatting (0x6012, R434). -/
def formattedQuota (p : Part) (f : Flash) : Nat := exportedCapacity p f 4588 1024 / sliceCount p

/-- Default of an object's value, from its table (R335). -/
def State.dflt (s : State) (ix sub item : Nat) : Nat :=
  match specialDefault s.dev.part (s.lineRate (item % 65536)) (formattedQuota s.dev.part s.flash) ix sub item with
  | some v => v
  | none => ((objRow ix sub).map (·.dflt)).getD 0

/-- Value in a map of the composition map's form, its default where the map lists none. -/
def State.inMap (s : State) (m : SMap) (ix sub item : Nat) : Nat := sget m (okey ix sub item) (s.dflt ix sub item)

/-- Value in force of an `RWS` object (R340). -/
def State.act (s : State) (ix sub item : Nat) : Nat := s.inMap s.objs.active ix sub item

/-- Value of an `RWS` object for what was admitted under an epoch: the previous map's for the previous live epoch, else the one in force (R115, R148). -/
def State.actAt (s : State) (epoch ix sub item : Nat) : Nat :=
  s.inMap (if s.epochs.prev = some epoch then s.objs.prev else s.objs.active) ix sub item

/-- Value of an `RW` object (R336). -/
def State.rw (s : State) (ix sub item : Nat) : Nat := sget s.objs.rw (okey ix sub item) (s.dflt ix sub item)

/-- Sets an `RW` object. -/
def State.setRw (s : State) (ix sub item v : Nat) : State := s.onObjs fun o => { o with rw := sset o.rw (okey ix sub item) v }

/-- Value of a counter behind an `RO` object. -/
def State.counter (s : State) (ix sub item : Nat) : Nat := sget s.objs.counters (okey ix sub item) 0

/-- Adds to a counter behind an `RO` object. -/
def State.bump (s : State) (ix sub item n : Nat) : State := s.onObjs fun o => { o with counters := sadd o.counters (okey ix sub item) n }

/-- Adds to a counter something that no command tells: a free value below a bound (log 68). -/
def State.bumpFree (s : State) (ix sub item bound : Nat) : State := (s.free).2.bump ix sub item ((s.free).1.toNat % bound)

/-- Raises a high-water mark behind an `RO` object. -/
def State.peak (s : State) (ix sub item n : Nat) : State :=
  s.onObjs fun o => { o with counters := sset o.counters (okey ix sub item) (max n (sget o.counters (okey ix sub item) 0)) }

/-- Sets the value behind an `RO` object. -/
def State.note (s : State) (ix sub item v : Nat) : State := s.onObjs fun o => { o with counters := sset o.counters (okey ix sub item) v }

/-! ### HBM bytes (R50, R313, log 8): one canonical list, addresses rising, no byte 0 listed -/

/-- Canonical form of HBM's contents. -/
abbrev Memory.wf (m : List Host.Cell) : Prop := m.Pairwise (fun a b => a.1 < b.1) ∧ ∀ c ∈ m, c.2 ≠ 0

/-- One byte; an unlisted byte reads 0. -/
def memRead (m : List Host.Cell) (a : Nat) : Byte :=
  match m with
  | [] => 0
  | (k, v) :: r => if k = a then v else memRead r a

/-- Stores one byte. -/
def memWrite (m : List Host.Cell) (a : Nat) (b : Byte) : List Host.Cell :=
  match m with
  | [] => if b = 0 then [] else [(a, b)]
  | (k, v) :: r =>
    if a < k then (if b = 0 then (k, v) :: r else (a, b) :: (k, v) :: r)
    else if a = k then (if b = 0 then r else (a, b) :: r) else (k, v) :: memWrite r a b

/-- Consecutive bytes. -/
def memReads (m : List Host.Cell) (a n : Nat) : List Byte := (List.range n).map fun i => memRead m (a + i)

/-- Stores consecutive bytes. -/
def memWrites (m : List Host.Cell) (a : Nat) (bs : List Byte) : List Host.Cell :=
  match bs with
  | [] => m
  | b :: r => memWrites (memWrite m a b) (a + 1) r

/-- Zeroes a range (R313). -/
def memZero (m : List Host.Cell) (a n : Nat) : List Host.Cell := m.filter fun c => c.1 < a || a + n ≤ c.1

/-- Bytes of one HBM channel (R19, R378) and frames of one channel (chapter 10, worked example). -/
def channelBytes : Nat := 2 ^ 31
def channelFrames : Nat := 126976

/-- Device physical byte address of a frame (log 8). -/
def frameAddr (frame : Nat) : Nat := frame / channelFrames * channelBytes + frame % channelFrames * 16384

/-- Granule address of a frame's first granule, as Table 2-5's frame field holds it (log 8). -/
def frameGranule (frame : Nat) : Nat := frameAddr frame / 1024

/-- Frame that holds a granule (log 8). -/
def granuleFrame (g : Nat) : Nat := g / 2097152 * channelFrames + g % 2097152 / 16

/-- Channel of a frame. -/
def frameChannel (frame : Nat) : Nat := frame / channelFrames

/-! ### Bytes and words -/

/-- A number as `n` bytes, most significant first (R10). -/
def beBytes : Nat → Nat → List Byte
  | 0, _ => []
  | n + 1, v => beBytes n (v / 256) ++ [BitVec.ofNat 8 v]

/-- Bytes, most significant first, as a number (R10). -/
def beNat (bs : List Byte) : Nat := bs.foldl (fun a b => a * 256 + b.toNat) 0

/-- A number as `n` bytes, least significant first (R10, R46). -/
def leBytes : Nat → Nat → List Byte
  | 0, _ => []
  | n + 1, v => BitVec.ofNat 8 v :: leBytes n (v / 256)

/-- Bytes, least significant first, as a number. -/
def leNat (bs : List Byte) : Nat := bs.foldr (fun b a => b.toNat + 256 * a) 0

/-- 64-bit words on the wire, most significant byte first (R10). -/
def wordBytes (ws : List W64) : List Byte := ws.flatMap fun w => beBytes 8 w.toNat

/-! ### Where units are (R18 to R20) -/

def clusterIsland (c : Nat) : Nat := if c < 8 then c else c + 10
def stackIsland (st : Nat) : Nat := if st < 6 then st + 8 else st + 20
def netIsland (die : Nat) : Nat := if die = 0 then 14 else 32
def lpDie (lp : Nat) : Nat := lp / 8
def channelIsland (ch : Nat) : Nat := stackIsland (ch / 32)

/-- Island kind (Table 1-10). -/
def islandKind (n : Nat) : Nat :=
  if n < 8 then 0 else if n < 14 then 1 else if n = 14 then 2 else if n = 15 then 3 else if n = 16 then 4 else if n = 17 then 5
  else if n < 26 then 0 else if n < 32 then 1 else if n = 32 then 2 else 3

/-- Minimum clock, kHz (Table 1-5). -/
def minClock (n : Nat) : Nat := [800000, 1000000, 1600000, 500000, 1200000, 625000].getD (islandKind n) 0

def islandDie (n : Nat) : Nat := if n < 18 then 0 else 1

/-- Stack of an HBM controller island. -/
def islandStack (n : Nat) : Nat := if n < 14 then n - 8 else n - 20

/-- Cluster of a cluster island. -/
def islandCluster (n : Nat) : Nat := if n < 8 then n else n - 10

/-- Whether the configuration holds die 1 (R4). -/
def State.diePresent (s : State) (die : Nat) : Bool := die = 0 || s.dev.part == .al

def State.island (s : State) (n : Nat) : Option Island := s.islands.find? (·.num == n)

def State.onIsland (s : State) (n : Nat) (f : Island → Island) : State := s.onIslands fun l => mapIf (·.num == n) f l

/-- Cores of a slice (R19). -/
def sliceCores (sl : Nat) : List Nat := [64 * (sl / 32) + 2 * (sl % 32), 64 * (sl / 32) + 2 * (sl % 32) + 1]

/-- Cluster of a slice (R19). -/
def sliceCluster (sl : Nat) : Nat := 8 * (sl / 32) + sl % 32 / 4

/-- The six HBM channels of a slice (R19). -/
def sliceChannels (sl : Nat) : List Nat := (List.range 6).map fun st => (6 * (sl / 32) + st) * 32 + sl % 32

/-- Slice that holds an HBM channel (R19). -/
def channelSlice (ch : Nat) : Nat := 32 * (ch / 192) + ch % 32

/-- Slice that holds a core (R19). -/
def coreSlice (core : Nat) : Nat := 32 * (core / 64) + core % 64 / 2

/-- Slice in effect of a partition (0x6014). -/
def State.sliceOf (s : State) (n : Nat) : Option Slice := s.epochs.slices.find? (·.num == n)

/-- Slices that a partition has in effect, those being drained included. -/
def State.slicesOf (s : State) (p : Nat) : List Slice := s.epochs.slices.filter fun x => x.owner == some p

/-- Slices of a partition on the placement lists of an epoch: those assigned to it, under the previous live epoch the ones it held then; a draining slice
takes no new tile under either (R88, R311). -/
def State.slicesAt (s : State) (epoch p : Nat) : List Nat :=
  (s.epochs.slices.filter fun x => x.owner == some p && x.st == .assigned
    && (s.epochs.prev != some epoch || s.epochs.prevOwners.getD x.num none == some p)).map (·.num)

/-- A cluster that comes back: not gated any longer, idle from now on, and on the active epoch's placement lists only (R377, R396). -/
def State.clusterBack (s : State) (c : Nat) : State :=
  (s.onPower fun p => { p with waking := p.waking.filter (·.1 != c), idleSince := p.idleSince.set c (some s.us) }).onEpochs fun e =>
    { e with returned := insNat e.returned c }

/-- Slices of a partition that take new work: assigned and not draining (R311). -/
def State.usableSlices (s : State) (p : Nat) : List Slice := s.epochs.slices.filter fun x => x.owner == some p && x.st == .assigned

end Sys2Proof.Machine
end

