-- ==== Sys2Proof/Machine/Budget.lean ====
section
/-!
DEFINITION. Entitlements, budgets, charges and the end of a period (R29 to R41, R436).
-/
namespace Sys2Proof.Machine

/-- Logical ports a port's mode uses (R277). -/
def lpInMode (mode lp : Nat) : Bool := if mode = 0 then lp % 4 = 0 else if mode = 1 then lp % 2 = 0 else true

/-- Whether a logical port is in use (R277). -/
def State.lpInUse (s : State) (lp : Nat) : Bool := s.diePresent (lpDie lp) && lpInMode (s.net.modes.getD (lp / 4) 0) lp

/-- Resources of an island, by selector (0x2011.03). -/
def resourceCount (i : Nat) : Nat := [9, 32, 8, 1, 1, 1].getD (islandKind i) 0

/-- Capacity C of a resource per period (R29, Table 1-7). -/
def State.capacity (s : State) (i r : Nat) : Nat :=
  match islandKind i with
  | 0 => if r = 0 then 8192 else 4096
  | 1 => 2048
  | 2 => if s.lpInUse (8 * islandDie i + r) then [4000, 2000, 1000].getD (s.net.modes.getD ((8 * islandDie i + r) / 4) 0) 0 else 0
  | 3 => 4096 * (s.flash.diesPerChannel * 16)
  | 4 => 64
  | _ => 2048

/-- Slices a partition counts for entitlements under a budget table's source (R30). -/
def ownedSlices (t : TableSrc) (p : Nat) : List Nat := (List.range 64).filter fun sl => t.owners.getD sl none == some p

/-- Device share D of an island kind (0x2012). -/
def State.deviceShare (s : State) (t : TableSrc) (kind : Nat) : Nat := s.inMap t.map 0x2012 (kind + 1) 0

/-- Key of an entitlement's item (0x2011.05): partition, island, resource. -/
def entKey (p i r : Nat) : Nat := (p * 65536 + i) * 65536 + r

/-- Entitlement E(i, r, p) of a partition, or of the device row 64 (R30, Table 1-8). -/
def State.entitlement (s : State) (t : TableSrc) (i r p : Nat) : Nat :=
  let kind := islandKind i
  let d := s.deviceShare t kind
  let own := ownedSlices t p
  let fixed := s.inMap t.map 0x2011 5 (entKey p i r)
  if p = 64 then (if kind = 0 && r ≠ 0 then 0 else d)
  else match kind with
    | 0 =>
      if r = 0 then
        (if fixed ≠ 0 then fixed else (65536 - d) * (own.countP fun sl => sliceCluster sl == islandCluster i) / 4)
      else if own.contains (coreSlice (8 * islandCluster i + (r - 1))) then 65536 else 0
    | 1 => if own.contains (channelSlice ((if i < 14 then i - 8 else i - 20) * 32 + r)) then 65536 - d else 0
    | 2 => if s.lpInUse (8 * islandDie i + r) then (65536 - d) * s.inMap t.map (0x6400 + p) (0x10 + (8 * islandDie i + r)) 0 / 65536 else 0
    | 3 => (65536 - d) * sumOf (fun sl => s.inMap t.map 0x6011 (sl + 1) 0) own / 65536
    | _ => if fixed ≠ 0 then fixed else (65536 - d) * own.length / sliceCount s.dev.part

/-- Guaranteed share g(p, c) (0x2010), or the device row's (0x2013). -/
def State.share (s : State) (t : TableSrc) (kind p c : Nat) : Nat :=
  if p = 64 then s.inMap t.map 0x2013 (c + 2) kind else s.inMap t.map 0x2010 (c + 2) p

/-- Ceiling h(p, c). -/
def State.ceiling (s : State) (t : TableSrc) (kind p c : Nat) : Nat :=
  if p = 64 then s.inMap t.map 0x2013 (c + 2) kind else s.inMap t.map 0x2010 (c + 10) p

/-- Whether a partition is closed under a map (0x6400 + p, R315); the device row never is (R38). -/
def State.closedIn (s : State) (t : TableSrc) (p : Nat) : Bool := p < 64 && s.inMap t.map (0x6400 + p) 3 0 == 1

/-- Budget B (R31). -/
def State.budgetOf (s : State) (t : TableSrc) (i r p c : Nat) : Nat :=
  s.capacity i r * s.entitlement t i r p * s.share t (islandKind i) p c / 2 ^ 32

/-- Ceiling H (R31). -/
def State.ceilingOf (s : State) (t : TableSrc) (i r p c : Nat) : Nat :=
  min (if s.closedIn t p then s.budgetOf t i r p c
    else s.capacity i r * s.entitlement t i r p * max (s.share t (islandKind i) p c) (s.ceiling t (islandKind i) p c) / 2 ^ 32) (s.capacity i r)

/-- A class that has used nothing. -/
def Use.zero (r p c : Nat) : Use :=
  { res := r, row := p, cls := c, used := 0, borrowed := 0, lent := 0, debt := 0, lastUsed := 0, lastBorrowed := 0, lastLent := 0, exhausted := 0
    programs := 0, waited := false }

def useIs (r p c : Nat) (u : Use) : Bool := u.res == r && u.row == p && u.cls == c

/-- Use of one class of one row at one resource. -/
def useAt (us : List Use) (r p c : Nat) : Use := (us.find? (useIs r p c)).getD (Use.zero r p c)

/-- Replaces it. -/
def setUse (us : List Use) (u : Use) : List Use :=
  if us.any (useIs u.res u.row u.cls) then mapIf (useIs u.res u.row u.cls) (fun _ => u) us else us ++ [u]

/-- Units of a resource granted so far in the period. -/
def usedTotal (us : List Use) (r : Nat) : Nat := sumOf (fun u => if u.res = r then u.used else 0) us

/-- How a request for units fares. -/
inductive Grant where
  | granted (u : Use)
  | waits
  deriving DecidableEq, Repr

/-- Grants one operation of `cost` units while the resource has that much left: within the guarantee B, as an operation dearer than its budget (R37), or
borrowed below H out of what closed partitions need not keep idle (R33 to R37). `total` is what the resource has granted in the period, `cap` its capacity
and `idle` the unused guarantees of closed partitions. -/
def grantUse (u : Use) (b h cap total idle cost : Nat) (lending closed : Bool) : Grant :=
  if u.debt > 0 then .waits
  else if u.used + cost ≤ b then (if total + cost ≤ cap then .granted { u with used := u.used + cost } else .waits)
  else if b < cost && u.used = 0 && 0 < b then (if total + b ≤ cap then .granted { u with used := b, debt := cost - b } else .waits)
  else if lending && !closed && u.used + cost ≤ h && total + idle + cost ≤ cap then
    .granted { u with used := u.used + cost, borrowed := u.borrowed + (u.used + cost - max b u.used) }
  else .waits

/-- What closed partitions leave unused of their guarantees at a resource: it stays idle (R35). -/
def State.idleKept (s : State) (isl : Island) (r : Nat) : Nat :=
  sumOf (fun p => sumOf (fun c => s.budgetOf isl.table isl.num r p c - (useAt isl.uses r p c).used) (List.range 8))
    ((List.range 64).filter fun p => !(ownedSlices isl.table p).isEmpty && s.closedIn isl.table p)

/-- Swaps in the newest budget table (R40). -/
def Island.takeTable (x : Island) : Island := { x with table := x.shadowTable.getD x.table, shadowTable := none }

/-- One charge: units of a resource of an island, to a class of a row (R29, R38). -/
structure Cost where
  island : Nat
  res : Nat
  row : Nat
  cls : Nat
  units : Nat
  deriving DecidableEq, Repr

/-- Charges one operation: the state with it charged, or none when it waits for the next period (R36) or the island issues no new work (R21). `whole` raises
the class's ceiling to the resource's capacity (R232). -/
def State.chargeTo (s : State) (whole : Bool) (x : Cost) : Option State :=
  match s.island x.island with
  | none => none
  | some isl =>
    if isl.st != .running || isl.paused then none
    else match grantUse (useAt isl.uses x.res x.row x.cls) (s.budgetOf isl.table x.island x.res x.row x.cls)
        (if whole then s.capacity x.island x.res else s.ceilingOf isl.table x.island x.res x.row x.cls) (s.capacity x.island x.res) (usedTotal isl.uses x.res) (s.idleKept isl x.res) x.units
        (s.inMap isl.table.map 0x2003 0 0 == 1) (s.closedIn isl.table x.row) with
    | .granted u => some (s.onIsland x.island fun y => { y with uses := setUse y.uses u })
    | .waits => none

/-- The same under the ceiling of R31. -/
def State.charge (s : State) (x : Cost) : Option State := s.chargeTo false x

/-- Marks a class as waiting under R36 in this period. -/
def State.markWait (s : State) (x : Cost) : State :=
  s.onIsland x.island fun y => { y with uses := setUse y.uses { useAt y.uses x.res x.row x.cls with waited := true } }

/-- Charges everything one piece of work takes, or says which class it waits for. A charge of no units asks for nothing. -/
def State.chargeAll (s : State) : List Cost → State × Option Cost
  | [] => (s, none)
  | x :: r => if x.units = 0 then s.chargeAll r else
    match s.charge x with
    | none => (s, some x)
    | some s' => s'.chargeAll r

/-- Adds a charge to one already listed for the same class of the same resource. -/
def mergeCost (l : List Cost) (x : Cost) : List Cost :=
  match l with
  | [] => [x]
  | y :: r => if y.island = x.island && y.res = x.res && y.row = x.row && y.cls = x.cls then { y with units := y.units + x.units } :: r else y :: mergeCost r x

/-- Charges of one piece of work, one for each class of a resource. -/
def mergeCosts (l : List Cost) : List Cost := l.foldl mergeCost []

/-- Charges a piece of work and goes on with it, or marks the class it waits for and leaves it for a later period (R36) (log 18, 82). -/
def State.charged (s : State) (costs : List Cost) (k : State → State) : State :=
  match s.chargeAll (mergeCosts costs) with
  | (s', none) => k s'
  | (_, some x) => s.markWait x

/-- Charges work that is done at once because its cause has it done (a deletion, the eviction an insertion makes): what its class cannot pay now becomes
debt, which later refills repay before the class issues anything else (R37) (log 144). -/
def State.owe (s : State) (x : Cost) : State :=
  if x.units = 0 then s else match s.charge x with
    | some s' => s'
    | none => s.onIsland x.island fun y =>
      { y with uses := setUse y.uses { useAt y.uses x.res x.row x.cls with debt := (useAt y.uses x.res x.row x.cls).debt + x.units } }

/-- The same for several charges. -/
def State.oweAll (s : State) (l : List Cost) : State := s.each l fun s x => s.owe x

/-- Bursts at a channel (Table 1-7). -/
def channelCost (ch p c n : Nat) : Cost := { island := channelIsland ch, res := ch % 32, row := p, cls := c, units := n }

/-- Bursts at the channel of a granule address (Table 1-7). -/
def burstCost (granule p c n : Nat) : Cost := channelCost (frameChannel (granuleFrame granule)) p c n

/-- Walker lookups of a cluster. -/
def walkCost (cluster p c n : Nat) : Cost := { island := clusterIsland cluster, res := 0, row := p, cls := c, units := n }

/-- Matrix-engine issue cycles of a core. -/
def issueCost (core p n : Nat) : Cost := { island := clusterIsland (core / 8), res := 1 + core % 8, row := p, cls := 0, units := n }

/-- Search issue slots of the Mortise array island. -/
def searchCost (p c n : Nat) : Cost := { island := 17, res := 0, row := p, cls := c, units := n }

/-- Management slots. -/
def managementCost (p c n : Nat) : Cost := { island := 16, res := 0, row := p, cls := c, units := n }

/-- Lent counts at the end of a period: borrowed units go first to what is guaranteed to no one, then to unused guarantees in row and class order, the order `us` is given in (R436). -/
def lentCounts (us : List Use) (b : Use → Nat) (closed : Nat → Bool) (free borrowed : Nat) : List Use :=
  (us.foldl (fun (acc : Nat × List Use) u =>
    let unused := if closed u.row then 0 else b u - u.used
    let give := min unused acc.1
    (acc.1 - give, acc.2 ++ [{ u with lent := give }])) (borrowed - free, [])).2

/-- The rows of one resource, every class of every row, as they stand at the end of the period. -/
def State.fullUses (s : State) (isl : Island) (r : Nat) : List Use :=
  ((List.range 65).flatMap fun p => (List.range 8).map fun c => useAt isl.uses r p c).filter fun u =>
    u != Use.zero r u.row u.cls || 0 < s.budgetOf isl.table isl.num r u.row u.cls

/-- A resource's uses at a period boundary: last period's counts kept, lending attributed, debt repaid from the refill, or cleared with B zero
(R36, R37, R436). `next` is the table of the new period. -/
def State.turnUses (s : State) (isl : Island) (next : TableSrc) (r : Nat) : List Use :=
  let us := s.fullUses isl r
  let b := fun u : Use => s.budgetOf isl.table isl.num r u.row u.cls
  let free := s.capacity isl.num r - sumOf b us
  let counted := lentCounts us b (s.closedIn isl.table) free (sumOf (·.borrowed) us)
  (counted.map fun u =>
    let b' := s.budgetOf next isl.num r u.row u.cls
    let debt := if b' = 0 && b u ≠ 0 then 0 else u.debt
    { u with lastUsed := u.used, lastBorrowed := u.borrowed, lastLent := u.lent, used := min debt b', borrowed := 0, lent := 0, debt := debt - min debt b'
             exhausted := u.exhausted + bit' u.waited, programs := 0, waited := false }).filter fun u => u != Use.zero r u.row u.cls
where
  /-- 1 for true. -/
  bit' (b : Bool) : Nat := if b then 1 else 0

end Sys2Proof.Machine
end

