-- ==== Sys2Proof/Machine/Layout.lean ====
section
/-!
DEFINITION. The layouts of the spec's bit tables: a list of fields with their widths, most significant first, and the words they make (R10).
-/
namespace Sys2Proof.Machine

/-- Bits a list of fields takes. -/
def fieldBits (fs : List (Nat × Nat)) : Nat :=
  match fs with
  | [] => 0
  | (w, _) :: r => w + fieldBits r

/-- Fields (width, value), most significant first, as one number; a value is cut to its width. -/
def packBits (fs : List (Nat × Nat)) : Nat :=
  match fs with
  | [] => 0
  | (w, v) :: r => v % 2 ^ w * 2 ^ fieldBits r + packBits r

/-- Values of fields of the given widths, most significant first, in a number. -/
def unpackBits (ws : List Nat) (n : Nat) : List Nat :=
  match ws with
  | [] => []
  | w :: r => n / 2 ^ (r.foldl (· + ·) 0) % 2 ^ w :: unpackBits r n

/-- One 64-bit word of fields. -/
def packWord (fs : List (Nat × Nat)) : W64 := BitVec.ofNat 64 (packBits fs)

def bit (b : Bool) : Nat := if b then 1 else 0

/-! ### Handles (R44, Table 2-1) -/

def handleOf (part tenant gen slot : Nat) : Nat := packBits [(6, part), (16, tenant), (22, gen), (20, slot)]
def handlePart (h : Nat) : Nat := h / 2 ^ 58 % 64
def handleTenant (h : Nat) : Nat := h / 2 ^ 42 % 65536
def handleGen (h : Nat) : Nat := h / 2 ^ 20 % 2 ^ 22
def handleSlot (h : Nat) : Nat := h % 2 ^ 20

/-- Handle of a live or retained sequence. -/
def Seq.handle (q : Seq) : Nat := handleOf q.part q.tenant q.gen q.slot

/-! ### Page entry and shadow word (R55, R56, Tables 2-5 and 2-6) -/

def Tier.code : Tier → Nat
  | .absent => 0 | .hbm => 1 | .flash => 2 | .peer => 3

def Page.entryFields (p : Page) : List (Nat × Nat) :=
  [(2, p.tier.code), (4, p.fmt), (2, p.gen), (1, bit p.packed), (1, bit p.dirty), (1, bit p.pinned), (1, bit p.glob), (1, bit p.lost), (7, p.valid),
   (44, p.frame)]

/-- Page entry word. -/
def Page.entryWord (p : Page) : W64 := packWord p.entryFields

/-- What the shadow word names as the flash copy when there is none. -/
def noCopy : Nat := 2 ^ 44 - 1

/-- Shadow word. -/
def Page.shadowWord (p : Page) : W64 := packWord [(8, p.pins), (12, 0), (44, p.copy.getD noCopy)]

/-! ### Sequence descriptor (R53, Table 2-3) -/

def SeqState.code : SeqState → Nat
  | .live => 1 | .retained => 2 | .ledgerLost => 3

/-- Pages of a sequence in a tier. -/
def Seq.pagesIn (q : Seq) (t : Tier) : Nat := q.pages.countP fun p => p.tier == t && !p.lost

/-- Pages now in the lost state (R75). -/
def Seq.pagesLost (q : Seq) : Nat := q.pages.countP (·.lost)

/-- Words 0 to 7 and 10 to 12 of the descriptor; words 8 and 9 hold table addresses, whose places the spec leaves to the device (log 16). -/
def Seq.descriptorWords (q : Seq) (layerTable ledgerDir : Nat) : List W64 :=
  [BitVec.ofNat 64 q.handle,
   packWord [(16, q.variant), (8, q.layers - 1), (6, q.kvHeads - 1), (4, q.group - 1), (4, q.fmt), (2, q.st.code), (1, bit q.truncated),
             (1, bit q.unmirrored), (1, bit q.winPolicy), (13, q.window), (8, q.globalPages)],
   packWord [(23, q.sealedPos), (11, q.capacity), (30, 0)],
   packWord [(23, q.posBase), (23, q.posLimit), (18, 0)],
   BitVec.ofNat 64 q.headMask,
   packWord [(12, q.holder.getD 0), (1, bit q.holder.isNone), (16, q.leaseGen), (16, q.epoch), (19, 0)],
   BitVec.ofNat 64 q.link,
   packWord [(23, q.linkLen), (3, q.linkDepth), (20, q.linkers), (18, 0)],
   BitVec.ofNat 64 (layerTable % 2 ^ 40),
   BitVec.ofNat 64 (ledgerDir % 2 ^ 40),
   BitVec.ofNat 64 (q.lastTouch % 2 ^ 48),
   packWord [(32, q.pagesIn .hbm), (32, q.pagesIn .flash)],
   packWord [(32, q.pagesIn .peer), (32, q.pagesLost)], 0, 0, 0]

/-! ### Jinetia header (R245, Table 8-1) -/


/-- Header words of a received message; `op` is the opcode the command carries. -/
def hdrWords (h : Hdr) (op : Nat) : List W64 :=
  [packWord [(4, h.version.toNat), (1, bit h.completion), (1, bit h.device), (10, h.reserved.toNat / 2 ^ 24), (8, op), (8, h.status.toNat),
             (8, h.partition.toNat), (16, h.tenant.toNat), (8, h.reserved.toNat / 2 ^ 16 % 256)],
   packWord [(16, h.epoch.toNat), (16, h.reserved.toNat % 2 ^ 16), (32, h.tag.toNat)],
   h.handle,
   packWord [(32, h.bodyLen.toNat), (32, h.check.toNat)]]

/-- One bit of CRC-32C, reflected (polynomial 0x1EDC6F41; log 17). -/
def crcBit (c : Nat) : Nat := if c % 2 = 1 then c / 2 ^^^ 0x82F63B78 else c / 2

/-- One byte of CRC-32C. -/
def crcByte (c : Nat) (b : Byte) : Nat :=
  crcBit (crcBit (crcBit (crcBit (crcBit (crcBit (crcBit (crcBit (c ^^^ b.toNat))))))))

/-- CRC-32C of bytes (R245; log 17). -/
def crc32c (bs : List Byte) : Nat := bs.foldl crcByte 0xFFFFFFFF ^^^ 0xFFFFFFFF

/-- The header check that fits a header: CRC-32C over bytes 0 to 27. -/
def hdrCheck (h : Hdr) (op : Nat) : W32 := BitVec.ofNat 32 (crc32c ((wordBytes (hdrWords h op)).take 28))

def Status.code : Status → Nat
  | .ok => 0 | .retryLater => 1 | .capacity => 2 | .pageExhausted => 3 | .staleEpoch => 4 | .notOwner => 5 | .accessDenied => 6 | .domainOff => 7
  | .fenced => 8 | .integrity => 9 | .mediaExhausted => 10 | .tolerance => 11 | .lost => 12 | .malformed => 13 | .policed => 14
  | .attestPending => 15 | .commitBusy => 16 | .truncated => 17

/-- Dictionary status codes (Table 11-3, R343). -/
def DStatus.code : DStatus → Nat
  | .ok => 0 | .retryLater => 1 | .accessDenied => 6 | .domainOff => 7 | .malformed => 0x0D | .attestPending => 0x0F | .commitBusy => 0x10
  | .noObject => 0x80 | .noSubindex => 0x81 | .notWritable => 0x82 | .notReadable => 0x83 | .length => 0x84 | .outOfRange => 0x85
  | .commitRefused => 0x86 | .shadowReserved => 0x87 | .segment => 0x88 | .lastAdministrator => 0x89 | .busy => 0x8A

/-! ### Fault record (R361, Table 12-1) -/

def FaultRec.words (r : FaultRec) : List W64 :=
  [packWord [(12, r.src.source.toNat), (8, r.src.kind.toNat), (6, r.src.partition.toNat), (1, bit r.src.partitionValid), (1, bit r.src.tenantValid),
             (4, 0), (16, r.src.tenant.toNat), (16, r.src.detail.toNat)],
   packWord [(16, 0), (48, r.src.address.toNat)], r.src.localCount,
   packWord [(48, r.seqno), (2, r.cls), (1, bit r.escalated), (13, 0)],
   packWord [(16, 0), (48, r.time)]]

/-- Island descriptor (R42, Table 1-10). -/
def IslandState.code : IslandState → Nat
  | .absent => 0 | .running => 1 | .gated => 2 | .fenced => 3 | .resetting => 4 | .clockChanging => 5

def Island.descriptor (i : Island) : Nat :=
  packBits [(8, i.num), (8, islandKind i.num), (8, islandDie i.num), (8, i.st.code)]

end Sys2Proof.Machine
end

