-- ==== Sys2Proof/Machine/Report.lean ====
section
/-!
DEFINITION. Fault records on their way to the collector (R361 to R366) and the tenants' meter records (R383 to R385).
-/
namespace Sys2Proof.Machine

/-! ### Meters -/

/-- Key of a field of a tenant's meter record: subindex of 0x8010, or 64 + loss reason for 0x8011. -/
def meterKey (p t f : Nat) : Nat := (p * 65536 + t) * 128 + f

/-- Adds to a field of a tenant's meter record (R383), when it holds one. -/
def State.meter (s : State) (p t f n : Nat) : State :=
  if s.meters.pairs.contains (p, t) then s.onMeters fun m => { m with live := sadd m.live (meterKey p t f) n } else s

/-- Gives a (partition, tenant) pair a meter record, up to 65,536 records. -/
def State.openMeter (s : State) (p t : Nat) : State :=
  if s.meters.pairs.contains (p, t) || 65536 ≤ s.meters.pairs.length then s else s.onMeters fun m => { m with pairs := m.pairs ++ [(p, t)] }

/-- Energy per array search in pJ by bank mode (Table 5-4, R384). -/
def searchEnergy (mode : Nat) : Nat := [2400, 4800, 9600].getD mode 0

/-- Activity added to a tenant's energy in pJ (R384); the record keeps pJ in field 63 and shows µJ (log 19). -/
def State.energy (s : State) (p t pj : Nat) : State := s.meter p t 63 pj

/-- Charges HBM bursts to a tenant (R384). -/
def State.meterBursts (s : State) (p t n : Nat) : State := s.energy p t (s.rw 0x8001 2 0 * n)

/-- Charges message and payload bytes to a tenant (R384). -/
def State.meterBytes (s : State) (p t n : Nat) : State := s.energy p t (s.rw 0x8001 4 0 * n)

/-- Bytes a class moved (0x8010.0A to .11). -/
def State.meterMoved (s : State) (p t c n : Nat) : State := s.meter p t (0x0A + c) n

/-! ### Records -/

/-- Source codes of Table 12-2. -/
def srcCore (n : Nat) : Nat := n
def srcCluster (n : Nat) : Nat := 0x080 + n
def srcIsland (n : Nat) : Nat := 0x0A0 + n
def srcChannel (n : Nat) : Nat := 0x100 + n
def srcStack (n : Nat) : Nat := 0x280 + n
def srcLane (n : Nat) : Nat := 0x290 + n
def srcLp (n : Nat) : Nat := 0x2A0 + n
def srcPort (n : Nat) : Nat := 0x2B0 + n
def srcNand (n : Nat) : Nat := 0x2C0 + n
def srcDie (n : Nat) : Nat := 0x400 + n
def srcBank (n : Nat) : Nat := 0x800 + n
def srcEngine : Nat := 0x840
def srcBridge : Nat := 0x850
def srcCrypto : Nat := 0x861
def srcBoot : Nat := 0x862
def srcBroker : Nat := 0x868
def srcInput (n : Nat) : Nat := 0x870 + n
def srcRail (n : Nat) : Nat := 0x880 + n
def srcSensor (n : Nat) : Nat := 0x8A0 + n

/-- Island a source reports through (R23, R365). -/
def sourceIsland (c : Nat) : Nat :=
  if c < 0x080 then clusterIsland (c / 8) else if c < 0x090 then clusterIsland (c - 0x080)
  else if 0x0A0 ≤ c && c ≤ 0x0C1 then c - 0x0A0
  else if 0x100 ≤ c && c < 0x280 then channelIsland (c - 0x100)
  else if 0x280 ≤ c && c ≤ 0x28B then stackIsland (c - 0x280)
  else if 0x290 ≤ c && c < 0x2A0 then netIsland ((c - 0x290) / 8)
  else if 0x2A0 ≤ c && c < 0x2B0 then netIsland ((c - 0x2A0) / 8)
  else if 0x2B0 ≤ c && c < 0x2B4 then netIsland ((c - 0x2B0) / 2)
  else if 0x2C0 ≤ c && c < 0x2E0 then (if c - 0x2C0 < 16 then 15 else 33)
  else if 0x400 ≤ c && c < 0x800 then (if c - 0x400 < 512 then 15 else 33)
  else if 0x800 ≤ c && c ≤ 0x840 then 17 else 16

/-- Whether a code stands in Table 12-2 (R362). -/
def isSource (c : Nat) : Bool :=
  c < 0x090 || (0x0A0 ≤ c && c ≤ 0x0C1) || (0x100 ≤ c && c < 0x280) || (0x280 ≤ c && c ≤ 0x28B) || (0x290 ≤ c && c < 0x2B4)
    || (0x2C0 ≤ c && c < 0x2E0) || (0x400 ≤ c && c ≤ 0x840) || (0x850 ≤ c && c ≤ 0x852) || (0x860 ≤ c && c ≤ 0x862) || c == 0x868
    || (0x870 ≤ c && c ≤ 0x872) || (0x880 ≤ c && c < 0x8A0) || (0x8A0 ≤ c && c ≤ 0x8AD)

/-- Die a source lies on (R362): a mesh, a rail monitor and a thermal sensor on that of Tables 12-2 and 14-5, any other on its island's. -/
def sourceDie (c : Nat) : Nat :=
  if c = 0x851 || c = 0x852 then c - 0x851
  else if 0x880 ≤ c && c < 0x890 then (c - 0x880) % 2
  else if 0x8A0 ≤ c && c ≤ 0x8AD then (if c = 0x8A1 || 0x8A8 ≤ c then 1 else 0)
  else islandDie (sourceIsland c)

/-- Kinds Table 12-3 lists (R363). -/
def isKind (k : Nat) : Bool :=
  [0x01, 0x02, 0x03, 0x04, 0x05, 0x06, 0x07, 0x08, 0x10, 0x11, 0x12, 0x13, 0x14, 0x15, 0x16, 0x17, 0x20, 0x21, 0x22, 0x23, 0x24, 0x25, 0x26, 0x30,
   0x31, 0x32, 0x33, 0x34, 0x35, 0x36, 0x40, 0x41, 0x42, 0x50, 0x51, 0x52, 0x53, 0x54, 0x55, 0x58, 0x59, 0x5A, 0x5B, 0x5C, 0x60, 0x61].contains k

/-- Class in force of a kind (R363). -/
def State.kindClass (s : State) (k : Nat) : Nat := s.rw 0x7020 2 k

/-- An island's fault queue. -/
def State.faultQueue (s : State) (i : Nat) : FaultQueue :=
  (s.faults.queues.find? (·.island == i)).getD { island := i, recs := [], dropped := 0, quiet := [] }

/-- Replaces an island's fault queue. -/
def State.setQueue (s : State) (q : FaultQueue) : State :=
  s.onFaults fun f => { f with queues := (f.queues.filter (·.island != q.island)) ++ [q] }

/-- Puts a record into an island's fault queue; when it is full the record is counted instead (R365). -/
def FaultQueue.push (q : FaultQueue) (r : SourceRecord) : FaultQueue :=
  if q.recs.length < 16 then { q with recs := q.recs ++ [r] } else { q with dropped := q.dropped + 1 }

/-- Sends a record of a source: at most one per kind and period for kinds of class 0, the events between counted in the next one's detail (R364). -/
def State.sendRecord (s : State) (i : Nat) (r : SourceRecord) : State :=
  let q := s.faultQueue i
  let per := ((s.island i).map (·.periods)).getD 0
  if s.kindClass r.kind.toNat = 0 then
    match q.quiet.find? fun x => x.1 == r.source.toNat && x.2.1 == r.kind.toNat with
    | some (_, _, p, n) =>
      if p = per then s.setQueue { q with quiet := q.quiet.map fun x =>
        if x.1 == r.source.toNat && x.2.1 == r.kind.toNat then (x.1, x.2.1, p, n + 1) else x }
      else s.setQueue (({ q with quiet := q.quiet.map fun x =>
        if x.1 == r.source.toNat && x.2.1 == r.kind.toNat then (x.1, x.2.1, per, 0) else x } : FaultQueue).push
          { r with detail := if n = 0 then r.detail else BitVec.ofNat 16 (min n 65535) })
    | none => s.setQueue (({ q with quiet := q.quiet ++ [(r.source.toNat, r.kind.toNat, per, 0)] } : FaultQueue).push r)
  else s.setQueue (q.push r)

/-- Local cycle count an island stamps a record with: the cycles of its whole periods, and within the period a free value (R23, R29, log 1). -/
def State.localCount (s : State) (i : Nat) : W64 :=
  BitVec.ofNat 64 (((s.island i).map (·.periods)).getD 0 * 4096 + (s.free).1.toNat % 4096)

/-- A record as its source fills it (R361). -/
def State.report (s : State) (source kind : Nat) (who : Option (Nat × Nat)) (part : Option Nat) (detail address : Nat) : State :=
  (s.free).2.sendRecord (sourceIsland source)
    { source := BitVec.ofNat 12 source, kind := BitVec.ofNat 8 kind
      partition := BitVec.ofNat 6 ((who.map (·.1)).getD (part.getD 0)), partitionValid := who.isSome || part.isSome
      tenant := BitVec.ofNat 16 ((who.map (·.2)).getD 0), tenantValid := who.isSome
      detail := BitVec.ofNat 16 (min detail 65535), address := BitVec.ofNat 48 address, localCount := s.localCount (sourceIsland source) }

/-- A record about a unit and no tenant. -/
def State.reportUnit (s : State) (source kind detail address : Nat) : State := s.report source kind none none detail address

/-- A record about a tenant. -/
def State.reportTenant (s : State) (source kind p t detail address : Nat) : State := s.report source kind (some (p, t)) none detail address

end Sys2Proof.Machine
end

