-- ==== Sys2Proof/Machine/Caches.lean ====
section
/-!
DEFINITION. The buffers of the clusters: look-aside buffers, walker caches, cluster buffers and the die page cache (R14, R16, R17, R65, R69, R307, R316).
What the spec leaves open of them, the order in which lines are replaced, is log 142.
-/
namespace Sys2Proof.Machine

/-- Buffers of a cluster. -/
def State.cacheOf (s : State) (c : Nat) : ClusterCache := (s.caches.find? (·.cluster == c)).getD (Reset.cache c)

/-- Changes the buffers of a cluster. -/
def State.onCache (s : State) (c : Nat) (f : ClusterCache → ClusterCache) : State := s.onCaches fun l => mapIf (·.cluster == c) f l

/-- Whether a cluster's buffers work: its island runs, or only changes its clock (R17, R21). -/
def State.cacheUp (s : State) (c : Nat) : Bool :=
  match s.island (clusterIsland c) with
  | some i => i.st == .running || i.st == .clockChanging
  | none => false

/-! ### Look-aside buffers (R65) -/

/-- Translations a core's look-aside buffer holds. -/
def lookasideSize : Nat := 256

/-- The translation a core holds for what a tile names. -/
def State.xlat (s : State) (core : Nat) (k : PageKey) : Option Xlat :=
  ((s.cacheOf (core / 8)).lookaside.find? fun x => x.1 == core && x.2.named == k).map (·.2)

/-- Keeps the newest entries of each core, at most what its buffer holds. -/
def trimXlats (core : Nat) : Nat → List (Nat × Xlat) → List (Nat × Xlat)
  | _, [] => []
  | n, x :: r => if x.1 = core then (match n with
      | 0 => trimXlats core 0 r
      | m + 1 => x :: trimXlats core m r) else x :: trimXlats core n r

/-- Puts a translation into a core's look-aside buffer. -/
def State.putXlat (s : State) (core : Nat) (x : Xlat) : State :=
  s.onCache (core / 8) fun c =>
    let old := c.lookaside.filter fun y => !(y.1 == core && y.2.named == x.named)
    { c with lookaside := trimXlats core lookasideSize ((core, x) :: old) }

/-- A core invalidates its translation of what a tile names (R66). -/
def State.dropXlat (s : State) (core : Nat) (k : PageKey) : State :=
  s.onCache (core / 8) fun c => { c with lookaside := c.lookaside.filter fun y => !(y.1 == core && y.2.named == k) }

/-! ### Walker cache (R65, R307) -/

/-- Lines of a walker cache. -/
def walkerLines : Nat := 2048

/-- One level of a walk through a cluster's walker cache: its lines are there for the partition, or are read from HBM and kept. -/
def State.walkLevel (s : State) (c p : Nat) (lines : List Nat) : State :=
  if lines.all fun l => (s.cacheOf c).walker.contains (p, l) then s.bump 0x2103 3 c 1
  else s.onCache c fun x => { x with walker := ((lines.map fun l => (p, l)) ++ x.walker.filter fun y => !(y.1 == p && lines.contains y.2)).take walkerLines }

/-! ### Page data (R16, R17, R307, R316) -/

/-- Granules of 4 MiB: a quarter of a cluster buffer, and a cluster's part of the die page cache. -/
def cacheGranules : Nat := 4096

/-- A run of granules cut at frame boundaries. The fuel is the count. -/
def frameCuts : Nat → Nat → Nat → List (Nat × Nat)
  | 0, _, _ => []
  | _ + 1, _, 0 => []
  | n + 1, g, k => (g, min k (16 - g % 16)) :: frameCuts n (g + min k (16 - g % 16)) (k - min k (16 - g % 16))

/-- Keeps the newest runs that fit. -/
def trimRuns (room : Nat) : List CacheRun → List CacheRun
  | [] => []
  | x :: r => if x.count ≤ room then x :: trimRuns (room - x.count) r else []

/-- Whether a run of a partition's granules is held. -/
def holdsRun (l : List CacheRun) (p base count : Nat) : Bool := l.any fun x => x.part == p && x.base ≤ base && base + count ≤ x.base + x.count

/-- Whether a partition is closed under the map in force (R315). -/
def State.closedNow (s : State) (p : Nat) : Bool := s.act (0x6400 + p) 3 0 == 1

/-- The closed partition that holds a cluster, if one does (R315, R316). -/
def State.closedOwner (s : State) (c : Nat) : Option Nat :=
  (((List.range 64).filter fun sl => sliceCluster sl == c).findSome? fun sl => (s.sliceOf sl).bind (·.owner)).bind fun p =>
    if s.closedNow p then some p else none

/-- Cluster beside which a die's page cache keeps a frame for a partition: interleaved by frame over the die's eight parts, a closed partition's frames over
the parts of its own clusters; none where that part is invalid or serves another (R17, R316). -/
def State.cachePart (s : State) (p die frame : Nat) : Option Nat :=
  let own := if s.closedNow p then (List.range 8).filterMap fun j => if s.closedOwner (8 * die + j) == some p then some (8 * die + j) else none
    else (List.range 8).map (8 * die + ·)
  match own[frame % max 1 own.length]? with
  | none => none
  | some c => if s.cacheUp c && ((s.closedOwner c).all (· == p)) then some c else none

/-- Whether a die's page cache holds a page for a partition. -/
def State.pageCached (s : State) (p die base count : Nat) : Bool :=
  (frameCuts count base count).all fun x => match s.cachePart p die (granuleFrame x.1) with
    | none => false
    | some c => holdsRun (s.cacheOf c).pages p x.1 x.2

/-- A fetched page enters the page cache of the die that fetched it. -/
def State.fillPage (s : State) (p die base count : Nat) : State :=
  s.each (frameCuts count base count) fun s x => match s.cachePart p die (granuleFrame x.1) with
    | none => s
    | some c => s.onCache c fun y =>
      let old := y.pages.filter fun z => !(z.part == p && z.base == x.1)
      { y with pages := trimRuns cacheGranules ({ part := p, base := x.1, count := x.2 } :: old) }

/-- Whether a cluster buffer holds a page for a partition: in a quarter of one of its own slices (R307). -/
def State.bufferHolds (s : State) (p c base count : Nat) : Bool :=
  holdsRun (((s.cacheOf c).quarters.filter fun x => (s.sliceOf x.1).bind (·.owner) == some p).map (·.2)) p base count

/-- Puts granules into a slice's quarter of its cluster's buffer (R307). -/
def State.fillQuarter (s : State) (p sl base count : Nat) : State :=
  s.onCache (sliceCluster sl) fun c =>
    let old := ((c.quarters.filter fun x => x.1 == sl).map (·.2)).filter fun z => !(z.part == p && z.base == base)
    { c with quarters := ((trimRuns cacheGranules ({ part := p, base := base, count := count } :: old)).map fun z => (sl, z))
                ++ c.quarters.filter fun x => x.1 != sl }

/-! ### Invalidation -/

/-- Whether a run overlaps granules. -/
def CacheRun.meets (x : CacheRun) (g n : Nat) : Bool := x.base < g + n && g < x.base + x.count

/-- What a shootdown names goes from every buffer: translations of its pages, lines of its old places in every page cache and cluster buffer, and
walker-cache lines of its tables (R69). -/
def State.shotDown (s : State) (pages : List PageKey) (runs : List (Nat × Nat)) (lines : List (Nat × Nat)) : State :=
  s.onCaches fun l => l.map fun c => { c with
    lookaside := c.lookaside.filter fun x => !pages.contains x.2.page && !pages.contains x.2.named
    walker := c.walker.filter fun x => !lines.any fun y => y.1 ≤ x.2 && x.2 < y.1 + y.2
    quarters := c.quarters.filter fun x => !runs.any fun r => x.2.meets r.1 r.2
    pages := c.pages.filter fun x => !runs.any fun r => x.meets r.1 r.2 }

/-- A cluster that is gated, fenced, reset or returns has empty buffers, its part of the die page cache among them (R17, R377, R396). -/
def State.clearCache (s : State) (c : Nat) : State := s.onCache c fun _ => Reset.cache c

/-- Lines of a partition go from a slice's quarter, its cores' look-aside buffers, and, when it keeps no slice in the cluster, from the cluster's walker cache
and its part of the die page cache (R313). -/
def State.clearSliceLines (s : State) (sl p : Nat) (kept : Bool) : State :=
  s.onCache (sliceCluster sl) fun c => { c with
    lookaside := c.lookaside.filter fun x => !(sliceCores sl).contains x.1
    quarters := c.quarters.filter fun x => x.1 != sl
    walker := if kept then c.walker else c.walker.filter (·.1 != p)
    pages := if kept then c.pages else c.pages.filter (·.part != p) }

end Sys2Proof.Machine
end

