-- ==== Sys2Proof/Machine/Send.lean ====
section
/-!
DEFINITION. What the device sends: services, frames, completions and device-initiated requests (R247, R286, R288, R289).
-/
namespace Sys2Proof.Machine

/-! ### Queue pairs, nodes, rings -/

def State.qp (s : State) (n : Nat) : Option Qp := s.net.qps.find? (·.num == n)
def State.onQp (s : State) (n : Nat) (f : Qp → Qp) : State := s.onNet fun x => { x with qps := mapIf (·.num == n) f x.qps }
def State.node (s : State) (n : Nat) : Option Node := s.broker.nodes.find? (·.num == n)
def State.onNode (s : State) (n : Nat) (f : Node → Node) : State := s.onBroker fun b => { b with nodes := mapIf (·.num == n) f b.nodes }
def State.ring (s : State) (n : Nat) : Option Ring := s.net.rings.find? (·.num == n)
def State.onRing (s : State) (n : Nat) (f : Ring → Ring) : State := s.onNet fun x => { x with rings := mapIf (·.num == n) f x.rings }

def Qp.connected (q : Qp) : Bool := q.st == .connected

/-- Registered node of a queue pair. -/
def State.qpNode (s : State) (q : Qp) : Option Node := q.node.bind s.node

/-- Connected queue pairs of a node, lowest number first. -/
def State.nodeQps (s : State) (n : Nat) : List Qp := s.net.qps.filter fun q => q.node == some n && q.connected

/-- Queue pair that carries what the device sends to a node: the one its REGISTER was accepted on, or its lowest-numbered connected one (R288, R391). -/
def State.nodeQp (s : State) (n : Nat) : Option Qp :=
  match s.node n with
  | none => none
  | some nd => match s.qp nd.regQp with
    | some q => if q.connected && q.node == some n then some q else (s.nodeQps n).head?
    | none => (s.nodeQps n).head?

/-- Queue pair a completion goes out on: the request's own, or after an error the lowest-numbered other connected one of the same node in the
partition (R286). -/
def State.routeQp (s : State) (n : Nat) : Option Qp :=
  match s.qp n with
  | none => none
  | some q =>
    if q.connected then some q
    else match q.node with
      | none => none
      | some nd => (s.nodeQps nd).find? fun x => x.part == q.part

/-! ### Services and frames -/

/-- Role of a queue pair's node, 4 while it has none registered. -/
def State.qpRole (s : State) (q : Qp) : Nat := ((s.qpNode q).map (·.role)).getD 4

/-- Service of a message by its opcode and its queue pair's node (R289, Table 9-5). `relay` is the kind of a RELAY; `device` marks a request of the
device's own. A peer's HEARTBEAT completion travels in service 3 (log 20). -/
def serviceOf (role op relay : Nat) (device : Bool) : Nat :=
  if role = 3 && (op = 0x61 && (relay = 0 || relay = 3)) then 4
  else if role = 3 && (op = 0x61 || op = 0x60 || op = 0x62 || op = 0x02) then 3
  else if role = 2 || op = 0x01 || op = 0x02 || op = 0x03 || op = 0x11 || op = 0x50 || (device && (op = 0x13 || op = 0x40)) then 5
  else if op = 0x33 then 2
  else if role = 1 then 0 else 1

/-- Activity class its frames are charged to (R289). -/
def classOf (service op : Nat) : Nat :=
  if service = 2 then 0 else if service = 3 || service = 4 then 3 else if service = 5 then 7
  else if op = 0x31 then 0 else if op = 0x30 then 1 else if op = 0x32 then 2 else 7

/-- Bytes of a packet besides its payload: Ethernet, tag, IP, UDP, BTH, ICRC and FCS (chapter 9, worked example; IPv6 header length, log 21). -/
def Qp.overhead (q : Qp) : Nat :=
  14 + (if q.vlan = 0 then 0 else 4) + (if q.srcGid / 2 ^ 32 = 0xFFFF then 20 else 40) + 8 + 12 + 4 + 4

/-- Frame lengths L of a message of `total` bytes, with `first` and `last` header bytes in its first and last packet (R289, R293). -/
def Qp.frames (q : Qp) (total first last : Nat) : List Nat :=
  let k := max 1 (cdiv total q.mtu)
  (List.range k).map fun i =>
    q.overhead + cdiv (min q.mtu (total - i * q.mtu)) 4 * 4 + (if i = 0 then first else 0) + (if i + 1 = k then last else 0)

def Msg.bytes (m : Msg) : Nat := 32 + 8 * m.words.length + m.data.length

/-- Bytes of what leaves. -/
def Wire.total (w : Wire) : Nat :=
  match w with
  | .message _ m => m.bytes
  | .ringEntry _ _ _ d m => cdiv (8 * d.length + (m.map Msg.bytes).getD 0) 64 * 64
  | .write _ _ _ _ bs => bs.length
  | .resend _ n => n
  | _ => 0

/-- Extended headers of the first packet: RETH for writes and reads (log 21). -/
def Wire.firstExtra (w : Wire) : Nat := match w with | .ringEntry .. => 16 | .write .. => 16 | .read .. => 16 | _ => 0

/-- Immediate data in the last packet (log 21). -/
def Wire.lastExtra (w : Wire) : Nat := match w with | .ringEntry .. => 4 | .write _ _ _ (some _) _ => 4 | _ => 0

/-- Queues something for egress in a service and class. -/
def State.post (s : State) (q : Qp) (svc cls tenant : Nat) (w : Wire) : State :=
  (s.fresh).2.onNet fun x => { x with egress := x.egress ++
    [{ id := (s.fresh).1, lp := q.lp, qp := q.num, service := svc, cls := cls, part := q.part, tenant := tenant
       frames := q.frames w.total w.firstExtra w.lastExtra, begun := false, wire := w, frees := none }] }

/-- Markings of what leaves: a queue pair's data frames have those of its partition, fixed when it connected, and the ECN codepoint of 0x5010.03; CNPs have
their own. The spec gives none for other control frames (R298). -/
def State.marksOf (s : State) (w : Wire) : Option Marks :=
  let data := fun (n : Nat) => (s.qp n).map fun q => ({ pcp := q.pcp, dscp := q.dscp, ecn := some (s.rw 0x5010 3 0) } : Marks)
  match w with
  | .message n _ | .ringEntry n _ _ _ _ | .write n _ _ _ _ | .read n _ _ _ | .resend n _ => data n
  | .cnp _ => some { pcp := s.rw 0x5010 2 0, dscp := s.rw 0x5010 1 0, ecn := none }
  | .ack _ | .nakInvalid _ | .nakAccess _ _ | .rnrNak _ _ | .cmRep _ _ | .cmRej _ | .cmDrep _ | .pfc _ _ _ => none

/-- Something has left a logical port, marked as it then was. -/
def State.emit (s : State) (lp : Nat) (w : Wire) : State := s.onNet fun n => { n with sent := n.sent ++ [(lp, s.marksOf w, w)] }

/-- Puts a frame into a logical port's control queue (R289). -/
def State.control (s : State) (lp : Nat) (w : Wire) : State :=
  s.onNet fun x => { x with lps := mapIf (·.num == lp) (fun p => { p with control := p.control ++ [w] }) x.lps }

/-- Sends a message on a queue pair: as SEND in mode 0, through its completion ring otherwise (R280, R284, R285). -/
def State.sendMsg (s : State) (q : Qp) (relay : Nat) (m : Msg) : State :=
  match (if q.mode = 0 then none else q.compRing) with
  | none =>
    let svc := serviceOf (s.qpRole q) m.opcode relay m.device
    s.post q svc (classOf svc m.opcode) m.tenant (.message q.num m)
  | some r => s.onRing r fun x => { x with held := x.held ++ [(q.num, relay, m)] }

/-- A completion: the request's opcode, tag, partition, tenant and handle, the active epoch, a status and a body (R245, R247). -/
def State.completeAs (s : State) (r : Req) (relay : Nat) (st : Status) (words : List W64) (data : List Byte) : State :=
  match s.routeQp r.qp with
  | none => s
  | some q => s.sendMsg q relay
      { opcode := r.opcode, completion := true, device := false, status := st, partition := r.partition, tenant := r.tenant
        epoch := s.epochs.active, tag := r.tag, handle := r.handle, words := words, data := data }

def State.complete (s : State) (r : Req) (st : Status) (words : List W64) (data : List Byte) : State := s.completeAs r 9 st words data

/-- A completion with no body. -/
def State.answer (s : State) (r : Req) (st : Status) : State := s.complete r st [] []

/-- A device-initiated request to a node, and the tag it carries (R245). The tag counts with the message even when the node has no queue pair left. -/
def State.ask (s : State) (node op relay p t handle : Nat) (words : List W64) (data : List Byte) (kind : Option (AskKind × Nat)) : State :=
  let s1 := (s.freshTag).2
  let tag := (s.freshTag).1
  let s2 := match kind with
    | none => s1
    | some (k, until_) => s1.onBroker fun b => { b with asks := b.asks ++ [{ tag := tag, node := node, kind := k, untilUs := until_ }] }
  match s2.nodeQp node with
  | none => s2
  | some q => s2.sendMsg q relay
      { opcode := op, completion := false, device := true, status := .ok, partition := p, tenant := t, epoch := s.epochs.active, tag := tag
        handle := handle, words := words, data := data }

/-- An RDMA WRITE on a queue pair (R288), in the service of the message it belongs to. -/
def State.rdmaWrite (s : State) (q : Qp) (svc cls tenant addr key : Nat) (bs : List Byte) : State :=
  s.post q svc cls tenant (.write q.num addr key none bs)

/-- Whether one more RDMA READ fits the 16 of a queue pair and the 1,024 of a network island (R288). -/
def State.readFits (s : State) (q : Qp) : Bool :=
  q.readsOut < 16 && s.net.reads.countP (fun r => r.issued && r.island == netIsland (lpDie q.lp)) < 1024

/-- Sends a waiting read's request. -/
def State.issueRead (s : State) (q : Qp) (r : DevRead) : State :=
  ((s.onNet fun x => { x with reads := mapIf (·.id == r.id) (fun y => { y with issued := true }) x.reads }).onQp q.num
    fun x => { x with readsOut := x.readsOut + 1 }).post q r.service r.cls r.tenant (.read q.num r.addr r.key r.len)

/-- An RDMA READ of the device and the record that waits for it (R288); it is sent now, or when a place is free. -/
def State.rdmaRead (s : State) (q : Qp) (svc cls tenant addr key len owner : Nat) (why : Instr) : State :=
  let r : DevRead := { id := (s.fresh).1, qp := q.num, island := netIsland (lpDie q.lp), why := why, owner := owner, issued := false
                       service := svc, cls := cls, tenant := tenant, addr := addr, key := key, len := len }
  let s1 := (s.fresh).2.onNet fun x => { x with reads := x.reads ++ [r] }
  if s1.readFits q then s1.issueRead q r else s1

/-- Takes a finished read out and sends the next that waits for its place (R288). -/
def State.endRead (s : State) (r : DevRead) : State :=
  let s1 := (s.onNet fun x => { x with reads := x.reads.filter (·.id != r.id) }).onQp r.qp fun x =>
    { x with readsOut := if r.issued then x.readsOut - 1 else x.readsOut }
  match s1.net.reads.find? fun x => !x.issued && x.island == r.island && ((s1.qp x.qp).map fun q => s1.readFits q).getD false with
  | some w => match s1.qp w.qp with
    | some q => s1.issueRead q w
    | none => s1
  | none => s1

/-- Tokens as bytes, 4 each most significant first, padded to 8 bytes (R10, Tables 8-7 and 8-9). -/
def tokenBytes (ts : List W32) : List Byte :=
  ts.flatMap (fun t => beBytes 4 t.toNat) ++ (if ts.length % 2 = 1 then [0, 0, 0, 0] else [])

end Sys2Proof.Machine
end

