-- ==== Sys2Proof/Machine/Pages.lean ====
section
/-!
DEFINITION. Sequences, frames and pages: finding, allocating, freeing, losing (R44 to R62, R68 to R75).
-/
namespace Sys2Proof.Machine

/-! ### Formats (R50, Table 2-2) -/

/-- Raw page bytes of a format code. -/
def rawBytes (f : Nat) : Nat := [0, 32768, 32768, 16384, 16384, 16896, 12800, 12800, 8704, 16896, 9216, 16384].getD f 0

/-- HBM frames of an unpacked page. -/
def fmtFrames (f : Nat) : Nat := if [1, 2, 5, 9].contains f then 2 else 1

/-- Flash logical pages of a page: a packed two-frame page whose coded size is at most 16 KiB takes one (R50). -/
def Page.flashPages (p : Page) : Nat := if p.packed && p.imageLen ≤ 16384 then 1 else fmtFrames p.fmt

/-! ### Sequences -/

def State.seq (s : State) (h : Nat) : Option Seq := s.seqs.find? (·.handle == h)
def State.onSeq (s : State) (h : Nat) (f : Seq → Seq) : State := s.onSeqs fun l => mapIf (·.handle == h) f l

def Seq.page (q : Seq) (l k i : Nat) : Option Page := q.pages.find? fun p => p.layer == l && p.head == k && p.index == i
def State.page (s : State) (k : PageKey) : Option Page := (s.seq k.handle).bind fun q => q.page k.layer k.head k.index

def pageIs (k : PageKey) (p : Page) : Bool := p.layer == k.layer && p.head == k.head && p.index == k.index

/-- Changes one page of a sequence. -/
def State.onPage (s : State) (k : PageKey) (f : Page → Page) : State :=
  s.onSeq k.handle fun q => { q with pages := mapIf (pageIs k) f q.pages }

/-- Removes one page's entry. -/
def State.clearPage (s : State) (k : PageKey) : State := s.onSeq k.handle fun q => { q with pages := q.pages.filter fun p => !pageIs k p }

/-- The key of a page of a sequence. -/
def keyOf (q : Seq) (p : Page) : PageKey := { handle := q.handle, layer := p.layer, head := p.head, index := p.index }

/-- First position of a page. -/
def Seq.pagePos (q : Seq) (i : Nat) : Nat := q.posBase + 64 * i

/-- Sequence and page that hold index `i`: the sequence itself, or through its links below the link length (R57, R60). The fuel is the greatest depth
plus one. -/
def State.resolve (s : State) : Nat → Nat → Nat → Nat → Nat → Option (Seq × Option Page)
  | 0, _, _, _, _ => none
  | n + 1, h, l, k, i =>
    match s.seq h with
    | none => none
    | some q => if q.link ≠ 0 && q.pagePos i < q.linkLen then s.resolve n q.link l k i else some (q, q.page l k i)

/-- Where the walker finds a page of a sequence. -/
def State.walk (s : State) (h l k i : Nat) : Option (Seq × Option Page) := s.resolve 6 h l k i

/-- Touches a sequence (R73). -/
def State.touch (s : State) (h : Nat) : State := s.onSeq h fun q => { q with lastTouch := s.ms }

/-- Touches a sequence and, when a walk of its positions below `limit` goes through a link, the sequences it links to (R62, R73). -/
def State.touchLinked (s : State) : Nat → Nat → State
  | 0, _ => s
  | n + 1, h => match s.seq h with
    | none => s
    | some q => if q.link = 0 then s.touch h else (s.touch h).touchLinked n q.link

/-! ### Channels and frames (R51, R52, R306, R311) -/

/-- Whether a source is fenced (R374): itself, or the unit it lies in. -/
def State.fenced (s : State) (src : Nat) : Bool := s.faults.fences.any (·.source == src)

def State.stackFenced (s : State) (st : Nat) : Bool :=
  s.fenced (srcStack st) || s.fenced (srcIsland (stackIsland st)) || (6 ≤ st && s.fenced srcBridge)

def State.channelFenced (s : State) (ch : Nat) : Bool := s.fenced (srcChannel ch) || s.stackFenced (ch / 32)

def State.clusterFenced (s : State) (c : Nat) : Bool :=
  s.fenced (srcCluster c) || s.fenced (srcIsland (clusterIsland c)) || (8 ≤ c && s.fenced srcBridge)

def State.coreFenced (s : State) (c : Nat) : Bool := s.fenced (srcCore c) || s.clusterFenced (c / 8)

/-- Numbers in rising order, each once. -/
def sortNat (l : List Nat) : List Nat := l.foldl insNat []

/-- Running channels of a partition, rising; `fresh` keeps out those of slices that drain (R311). -/
def State.channelsOf (s : State) (p : Nat) (fresh : Bool) : List Nat :=
  (sortNat ((if fresh then s.usableSlices p else s.slicesOf p).flatMap fun sl => sliceChannels sl.num)).filter fun ch => !s.channelFenced ch

/-- Frames of the partition's running channels: F of R129 and R257. -/
def State.frameTotal (s : State) (p : Nat) : Nat := (s.channelsOf p false).length * channelFrames

/-- Frames in use in a set of channels. -/
def State.framesIn (s : State) (chs : List Nat) : Nat := s.hbm.used.countP fun f => chs.contains (frameChannel f)

/-- Free frames a partition can take. -/
def State.freeFrames (s : State) (p : Nat) : Nat :=
  (s.channelsOf p true).length * channelFrames - s.framesIn (s.channelsOf p true)

/-- Frames of a partition's reserve line, and how many it holds now (R129). -/
def State.reserveLine (s : State) (p : Nat) : Nat := s.frameTotal p / 128
def State.reserveLeft (s : State) (p : Nat) : Nat := s.reserveLine p - sget s.hbm.reserveTaken p 0

/-- Frames on a partition's free list: free ones beyond the reserve line. -/
def State.openFrames (s : State) (p : Nat) : Nat := s.freeFrames p - s.reserveLeft p

/-- First run of `n` free frames at or after `at_` in a rising list of used frames. -/
def firstRun (used : List Nat) (at_ n : Nat) : Nat :=
  match used with
  | [] => at_
  | u :: r => if u < at_ then firstRun r at_ n else if at_ + n ≤ u then at_ else firstRun r (u + 1) n

/-- A run of `n` contiguous frames in a channel, lowest first (log 25). -/
def State.runIn (s : State) (ch n align : Nat) : Option Nat :=
  let base := ch * channelFrames
  let used := s.hbm.used.filter fun f => frameChannel f == ch
  let f := if align ≤ 1 then firstRun used base n else alignedRun used base align 1000
  if f + n ≤ base + channelFrames then some f else none
where
  /-- First aligned run of `align` frames. -/
  alignedRun (used : List Nat) (f align : Nat) : Nat → Nat
    | 0 => f
    | k + 1 => if used.any fun u => f ≤ u && u < f + align then alignedRun used (f + align) align k else f

/-- Channels in the order R51 tries them for a page index. -/
def rotateTo (l : List Nat) (i : Nat) : List Nat := l.drop (i % max 1 l.length) ++ l.take (i % max 1 l.length)

/-- Where `n` frames for page index `i` of a partition go (R51). -/
def State.findFrames (s : State) (p i n : Nat) : Option (List Nat) :=
  ((rotateTo (s.channelsOf p true) i).findSome? fun ch => s.runIn ch n 1).map fun f => (List.range n).map (f + ·)

/-- The same off the free list: never from the reserve line (R129). -/
def State.findOpen (s : State) (p i n : Nat) : Option (List Nat) := if n ≤ s.openFrames p then s.findFrames p i n else none

/-- Takes frames. -/
def State.takeFrames (s : State) (fs : List Nat) : State := s.onHbm fun h => { h with used := fs.foldl insNat h.used }

/-- Gives frames back: those still being shot down wait for that, and what a partition gets back refills its reserve line first (R69, R129). -/
def State.dropFrames (s : State) (p : Nat) (fs : List Nat) : State :=
  let now := fs.filter fun f => !s.hbm.shootdowns.any fun d => d.frames.contains f
  s.onHbm fun h => { h with used := h.used.filter fun f => !now.contains f, reserveTaken := ssub h.reserveTaken p now.length }

/-- A shootdown that names nothing yet. -/
def Shootdown.of (p : Nat) : Shootdown := { id := 0, part := p, pages := [], frames := [], runs := [], tabs := [], lpns := [], gens := [] }

/-- Issues a shootdown (R69): what it holds is reallocated only when it completes. -/
def State.shoot (s : State) (d : Shootdown) : State :=
  if d.pages.isEmpty && d.frames.isEmpty && d.tabs.isEmpty then s
  else ((s.fresh).2.onHbm fun h => { h with shootdowns := h.shootdowns ++ [{ d with id := (s.fresh).1 }] }).each
    ((List.range 16).filter fun c => s.diePresent (c / 8)) fun s c => s.bump 0x2103 9 c 1

/-- Shoots down frames that no page entry names any longer. -/
def State.shootDown (s : State) (p : Nat) (fs : List Nat) : State := s.shoot { Shootdown.of p with frames := fs }

/-! ### Contents -/

/-- Stored bytes of a page: raw page, or coded or Kerf image. -/
def Page.stored (p : Page) : Nat := if p.packed || p.fmt = 11 then p.imageLen else rawBytes p.fmt

/-- Bytes of a page in HBM. -/
def State.hbmBytes (s : State) (p : Page) : List Byte := memReads s.hbm.mem (p.frame * 1024) p.stored

/-- Writes bytes at a granule address. -/
def State.putBytes (s : State) (granule : Nat) (bs : List Byte) : State := s.onHbm fun h => { h with mem := memWrites h.mem (granule * 1024) bs }

/-- Clears whole frames before they are used for a new page, so that no earlier content shows (log 26). -/
def State.wipeFrames (s : State) (fs : List Nat) : State :=
  s.each fs fun s f => s.onHbm fun h => { h with mem := memZero h.mem (frameAddr f) 16384 }

/-! ### Packed extents (R50, R52) -/

def State.extent (s : State) (id : Nat) : Option Extent := s.hbm.extents.find? (·.id == id)

/-- Live granules of an extent. -/
def Extent.live (e : Extent) : Nat := sumOf (·.2) e.runs

/-- First gap of `n` granules among rising runs, below 2,048. -/
def gapIn (runs : List (Nat × Nat)) (at_ n : Nat) : Option Nat :=
  match runs with
  | [] => if at_ + n ≤ 2048 then some at_ else none
  | (o, k) :: r => if at_ + n ≤ o then some at_ else gapIn r (max at_ (o + k)) n

def insRun (runs : List (Nat × Nat)) (x : Nat × Nat) : List (Nat × Nat) :=
  match runs with
  | [] => [x]
  | y :: r => if x.1 < y.1 then x :: y :: r else y :: insRun r x

/-- Where a run of `n` granules fits in one channel: a packed extent of the partition with room, or else a new extent there; the extent's number when it
exists, and the frame or offset (log 25). -/
def State.runPlace (s : State) (p ch n not_ : Nat) : Option (Sum (Extent × Nat) Nat) :=
  match s.hbm.extents.findSome? fun e =>
      if e.part = p && e.id ≠ not_ && frameChannel e.base = ch then (gapIn e.runs 0 n).map fun o => (e, o) else none with
  | some x => some (.inl x)
  | none => if s.openFrames p < 128 then none else (s.runIn ch 128 128).map .inr

/-- A run of `n` granules for a packed page of index `i`, on the partition's channels round-robin by page index, the next channel where one has no room
(R50, R51); its granule address. `not_` is an extent to keep out of. -/
def State.takeRun (s : State) (p i n not_ : Nat) : Option (Nat × State) :=
  match (rotateTo (s.channelsOf p true) i).findSome? fun ch => s.runPlace p ch n not_ with
  | none => none
  | some (.inl (e, o)) => some (frameGranule e.base + o,
      s.onHbm fun h => { h with extents := mapIf (·.id == e.id) (fun x => { x with runs := insRun x.runs (o, n) }) h.extents })
  | some (.inr f) => some (frameGranule f, ((s.fresh).2.takeFrames ((List.range 128).map (f + ·))).onHbm fun h =>
      { h with extents := h.extents ++ [{ id := (s.fresh).1, part := p, base := f, runs := [(0, n)] }] })

/-- Extent that holds a granule. -/
def State.extentAt (s : State) (g : Nat) : Option Extent :=
  s.hbm.extents.find? fun e => frameGranule e.base ≤ g && g < frameGranule e.base + 2048

/-- Granules of a packed run. -/
def runCount (bytes : Nat) : Nat := cdiv bytes 1024

/-- Gives a granule run back; an extent left empty gives its frames back. -/
def State.dropRun (s : State) (g : Nat) : State :=
  match s.extentAt g with
  | none => s
  | some e =>
    let runs := e.runs.filter fun r => r.1 != g - frameGranule e.base
    if runs.isEmpty then
      (s.onHbm fun h => { h with extents := h.extents.filter (·.id != e.id) }).dropFrames e.part ((List.range 128).map (e.base + ·))
    else s.onHbm fun h => { h with extents := mapIf (·.id == e.id) (fun x => { x with runs := runs }) h.extents }

/-- Granules of an extent that hold pages, without those that only await their shootdown (R52). -/
def State.liveIn (s : State) (e : Extent) : Nat :=
  sumOf (fun r : Nat × Nat => if s.hbm.shootdowns.any fun d => d.runs.any fun x => x.1 == frameGranule e.base + r.1 then 0 else r.2) e.runs

/-- Shoots down the translation of a page that moves and the lines of its old place, whose frames or granules are free once that has completed
(R68, R69). A page that was not in HBM has only its translation. -/
def State.shootPage (s : State) (part : Nat) (k : PageKey) (p : Page) : State :=
  let d := { Shootdown.of part with pages := [k] }
  s.shoot (if p.tier != .hbm then d
    else if p.packed then { d with runs := [(p.frame, runCount p.imageLen)], gens := [p.gen] } else { d with frames := p.frames })

/-! ### Flash copies: the logical page numbers a page names -/

/-- Flash copies of a page: its own in tier 10, the shadow's in tier 01. -/
def Page.flashCopy (p : Page) : Option Nat := if p.tier == .flash then some p.frame else if p.tier == .hbm then p.copy else none

/-- Whether an LPN lies in the fine region: bit 39 set (R219, log 34). -/
def lpnFine (l : Nat) : Bool := l.testBit 39

/-- Logical page `j` of a copy that begins at an LPN: the next of its unit in the coarse region; in the fine region the next fine page of the same island, so
that the copies of a batch alternate between the islands whatever pages they take (R219, log 36). -/
def State.lpnAt (s : State) (l j : Nat) : Nat := if lpnFine l && s.dev.part == .al then l + 2 * j else l + j

/-- Logical pages of a copy. -/
def State.lpnSpan (s : State) (l n : Nat) : List Nat := (List.range n).map fun j => s.lpnAt l j

/-- Flash island index that serves an LPN (R219). -/
def State.lpnIsland (s : State) (l : Nat) : Nat :=
  if s.dev.part == .al then (if lpnFine l then l % 2 else l / 256 % 2) else 0

def State.fisland (s : State) (i : Nat) : Option FlashIsland := s.flash.islands[i]?

def State.onFisland (s : State) (i : Nat) (f : FlashIsland → FlashIsland) : State :=
  s.onFlash fun x => { x with islands := x.islands.mapIdx fun j y => if j = i then f y else y }

/-- Adds map updates to an island's pending journal records (R228). -/
def State.journal (s : State) (i : Nat) (rs : List JournalRec) : State :=
  s.onFisland i fun x => { x with pendingJournal := x.pendingJournal ++ rs, updates := x.updates + rs.length }

/-- Marks the slots of logical pages invalid, takes them out of the maps and journals the unmap (R220 to R222, R229). -/
def State.freeLpn (s : State) (lpn n : Nat) : State :=
  let ls := s.lpnSpan lpn n
  (s.onFlash fun f => { f with
    pages := f.pages.map fun x => if x.kind == .data && ls.contains x.lpn then { x with valid := false } else x
    coarse := (f.coarse.map fun c => { c with live := c.live.filter fun l => !ls.contains (c.unit * 256 + l) }).filter fun c => !c.live.isEmpty
    fine := f.fine.filter fun x => !ls.contains x.lpn }).journal (s.lpnIsland lpn) (ls.map fun l => { kind := 3, lpn := l, sb := 0, slot := 0, wseq := 0 })

/-- Frees whatever flash copy a page names (R70, R220). -/
def State.freeCopy (s : State) (p : Page) : State :=
  match p.flashCopy with
  | none => s
  | some l => s.freeLpn l p.flashPages

/-- Shoots down the translation of a page whose flash copy moves; the old copy is freed once that has completed (R68, R69). -/
def State.shootCopy (s : State) (part : Nat) (k : PageKey) (p : Page) : State :=
  match p.flashCopy with
  | none => s
  | some l => s.shoot { Shootdown.of part with pages := [k], lpns := [(l, p.flashPages)], gens := if p.packed then [p.gen] else [] }

/-- Whether an append of this sequence's own recycled pages claims a frame (R130). -/
def State.claimed (s : State) (f : Nat) : Bool := s.work.appends.any fun a => a.got.any (·.contains f) || a.tabs.contains f

/-- A shootdown completes: every buffer has lost what it names, and its places can be allocated (R69). -/
def State.shootdownDone (s : State) (d : Shootdown) : State :=
  let s1 := (s.onHbm fun h => { h with shootdowns := h.shootdowns.filter (·.id != d.id) }).shotDown d.pages
    (d.runs ++ d.frames.map fun f => (frameGranule f, 16))
    (d.tabs.flatMap fun t => t.frames.map fun f => ((frameAddr f + t.offset) / 64, cdiv t.bytes 64))
  ((s1.dropFrames d.part (d.frames.filter fun f => !s.claimed f)).each d.runs fun s r => s.dropRun r.1).each d.lpns fun s l => s.freeLpn l.1 l.2

/-! ### Loss (R75) -/

/-- Drops a page: tier 00, lost, its reason and time; its place and flash copy freed; counted and reported (R75, Table 2-9). `src` is the unit the
report names (log 23, 9, 86). -/
def State.losePage (s : State) (k : PageKey) (reason src : Nat) : State :=
  match s.seq k.handle, s.page k with
  | some q, some p =>
    if p.lost then s
    else (((((((s.shootPage q.part k p).freeCopy p).onPage k fun x =>
      { x with tier := .absent, lost := true, dirty := false, packed := false, frame := reason * 2 ^ 40 + s.ms % 2 ^ 40, pins := 0, copy := none
               frames := [], imageLen := 0 }).bump 0x2104 reason 0 1).meter q.part q.tenant 9 1).meter q.part q.tenant (64 + reason) 1)).reportTenant
        src 0x34 q.part q.tenant reason (if p.tier == .hbm then p.frame * 1024 else 0)
  | _, _ => s

/-- Drops a page of a sequence without naming a unit: the broker reports it. -/
def State.lose (s : State) (k : PageKey) (reason : Nat) : State := s.losePage k reason srcBroker

/-- Frees a page: its place, its copy and its entry (Table 2-8, last row). -/
def State.freePage (s : State) (k : PageKey) : State :=
  match s.seq k.handle, s.page k with
  | some q, some p => ((s.shootPage q.part k p).freeCopy p).clearPage k
  | _, _ => s

/-! ### Layers and heads -/

/-- Key of a layer and head. -/
def lhKey (l k : Nat) : Nat := l * 64 + k

/-- Write frontier of a layer and head (R120). -/
def Seq.frontier (q : Seq) (l k : Nat) : Nat := sget q.frontiers (lhKey l k) q.frontierBase

/-- Heads a sequence holds. -/
def Seq.heads (q : Seq) : List Nat := (List.range q.kvHeads).filter fun k => q.headMask.testBit k

/-- HBM frames of a partition in use for pages, ledgers and tables (0x2101.0E). -/
def State.framesInUse (s : State) (p : Nat) : Nat := s.framesIn (s.channelsOf p false)

/-- Frees a sequence altogether: pages, tables, ledger, record, and its links (R62). -/
def State.dropSeq (s : State) (h : Nat) : State :=
  match s.seq h with
  | none => s
  | some q =>
    ((s.each q.pages fun s p => s.freePage (keyOf q p)).shootDown q.part (q.ledgerFrames ++ q.tableFrames)).onSeqs fun l => l.filter (·.handle != h)

/-- Greatest link length among the sequences that link to one. -/
def State.linkedTo (s : State) (h : Nat) : Nat := s.seqs.foldl (fun m q => if q.link = h then max m q.linkLen else m) 0

end Sys2Proof.Machine
end

