-- ==== Sys2Proof/Machine/Tables.lean ====
section
/-!
DEFINITION. Tables and ledger in HBM: which tables a sequence has, where they lie, the walk through them, and the words they hold
(R10, R47, R53, R54, R57, R58, R65, R66). Where a table lies among its sequence's frames is log 24.
-/
namespace Sys2Proof.Machine

/-! ### Which tables a sequence has (R54, R58) -/

/-- Rounds up to 64 bytes. -/
def to64 (n : Nat) : Nat := cdiv n 64 * 64

/-- The table of a kind. -/
def Seq.tab (q : Seq) (k : TabKind) : Option Tab := q.tabs.find? (·.kind == k)

/-- Block of 4,096 positions that holds a page. -/
def Page.block (p : Page) : TabKind := .block p.layer p.head (p.index / 64)
def PageKey.block (k : PageKey) : TabKind := .block k.layer k.head (k.index / 64)

/-- Layer of a block. -/
def TabKind.layer : TabKind → Option Nat
  | .block l _ _ => some l
  | _ => none

/-- Puts an element at the end of a list that lacks it. -/
def addNew {α : Type} [DecidableEq α] (l : List α) (x : α) : List α := if l.contains x then l else l ++ [x]

/-- Page-entry blocks of a sequence: those that exist, and those of pages to come (R58). -/
def Seq.blockKinds (q : Seq) (more : List PageKey) : List TabKind :=
  (q.pages.map Page.block ++ more.map PageKey.block).foldl addNew ((q.tabs.map (·.kind)).filter fun k => k.layer.isSome)

/-- A table that has no place yet. -/
def Tab.want (k : TabKind) (bytes per : Nat) : Tab := { kind := k, frames := [], offset := 0, bytes := bytes, per := per }

/-- The tables a sequence is to have: descriptor, layer table, ledger directory, a head table for each layer with a block, and the blocks (R47, R53, R54,
R58, Table 2-10). -/
def Seq.tabNeeds (q : Seq) (more : List PageKey) : List Tab :=
  let blocks := q.blockKinds more
  [Tab.want .descriptor 128 0, Tab.want .layers (to64 (q.layers * 8)) 0, Tab.want .ledgerDir (to64 (cdiv q.ledger.length 4096 * 8)) 0]
    ++ ((blocks.filterMap TabKind.layer).foldl addNew []).map (fun l => Tab.want (.heads l) (to64 (q.kvHeads * q.capacity * 8)) q.capacity)
    ++ blocks.map fun k => Tab.want k 1024 0

/-- Whether a table stands as wanted. -/
def Tab.serves (t w : Tab) : Bool := t.kind == w.kind && t.bytes == w.bytes && t.per == w.per

/-- Tables it is to have and has not. -/
def Seq.lacking (q : Seq) (more : List PageKey) : List Tab := (q.tabNeeds more).filter fun w => !q.tabs.any fun t => t.serves w

/-! ### Where they lie -/

/-- Bytes of one frame that tables take, rising, as (offset, length). -/
def busyIn (tabs : List Tab) (f : Nat) : List (Nat × Nat) :=
  (tabs.flatMap fun t => (List.range t.frames.length).filterMap fun j =>
    if t.frames[j]? = some f then some ((if j = 0 then t.offset else 0), min 16384 (t.offset + t.bytes - j * 16384) - (if j = 0 then t.offset else 0))
    else none).foldl insRun []

/-- First gap of `n` bytes among taken ones, at a multiple of `align`, in a frame. -/
def tabGap (busy : List (Nat × Nat)) (at_ n align : Nat) : Option Nat :=
  match busy with
  | [] => if at_ + n ≤ 16384 then some at_ else none
  | (o, k) :: r => if at_ + n ≤ o then some at_ else tabGap r (cdiv (max at_ (o + k)) align * align) n align

/-- Alignment of a table: a page-entry block 1 KiB, any other 64 bytes (Tables 2-3 and 2-4). -/
def Tab.align (t : Tab) : Nat := if t.kind.layer.isSome then 1024 else 64

/-- Places one table: in a gap of the sequence's table frames, or from the start of new ones; the table, and the frames left. -/
def placeTab (tabs : List Tab) (frames : List Nat) (w : Tab) (supply : List Nat) : Option (Tab × List Nat × List Nat) :=
  match (if 16384 < w.bytes then none else frames.findSome? fun f => (tabGap (busyIn tabs f) 0 w.bytes w.align).map fun o => (f, o)) with
  | some (f, o) => some ({ w with frames := [f], offset := o }, frames, supply)
  | none =>
    let n := max 1 (cdiv w.bytes 16384)
    if supply.length < n then none else some ({ w with frames := supply.take n }, frames ++ supply.take n, supply.drop n)

/-- Places tables in order; `old` are tables whose place a shootdown still holds. -/
def placeTabs (old tabs : List Tab) (frames : List Nat) : List Tab → List Nat → Option (List Tab × List Nat × List Nat)
  | [], supply => some (tabs, frames, supply)
  | w :: r, supply => match placeTab (old ++ tabs) frames w supply with
    | none => none
    | some (t, fs, rest) => placeTabs old (tabs ++ [t]) fs r rest

/-- Tables whose places are still being shot down. -/
def State.dyingTabs (s : State) : List Tab := s.hbm.shootdowns.flatMap (·.tabs)

/-- New frames a sequence's tables need: what placing them would take. -/
def State.tabFrames (s : State) (q : Seq) (more : List PageKey) : Nat :=
  let want := q.lacking more
  let most := sumOf (fun w : Tab => max 1 (cdiv w.bytes 16384)) want
  match placeTabs s.dyingTabs q.tabs q.tableFrames want ((List.range most).map (10 ^ 12 + ·)) with
  | some x => most - x.2.2.length
  | none => most

/-- Gives a sequence its tables out of frames at hand, which go back when they are too few. Tables that something newer replaces, and frames left without one, are shot down and then free
(R58, R69). -/
def State.setTabs (s : State) (h : Nat) (more : List PageKey) (supply : List Nat) : State :=
  match s.seq h with
  | none => s
  | some q => match placeTabs s.dyingTabs q.tabs q.tableFrames (q.lacking more) supply with
    | none => s.dropFrames q.part supply
    | some (tabs, frames, rest) =>
      let needs := q.tabNeeds more
      let keep := tabs.filter fun t => needs.any fun w => t.serves w
      let gone := tabs.filter fun t => !needs.any fun w => t.serves w
      let held := frames.filter fun f => keep.any fun t => t.frames.contains f
      ((s.onSeq h fun x => { x with tabs := keep, tableFrames := held }).shoot
        { Shootdown.of q.part with tabs := gone, frames := frames.filter fun f => !held.contains f }).dropFrames q.part rest

/-- Takes `n` frames one by one off the free list for a sequence's tables or ledger, on the channels round-robin; none unless it gets them all. -/
def State.takeFixed (s : State) (p : Nat) : Nat → Option (List Nat × State)
  | 0 => some ([], s)
  | n + 1 => (s.findOpen p n 1).bind fun fs => ((s.takeFrames fs).takeFixed p n).map fun x => (fs ++ x.1, x.2)

/-- Ledger frames a sequence is to have (R47). -/
def Seq.ledgerNeed (q : Seq) : Nat := cdiv q.ledger.length 4096

/-- Whether a sequence has every table and ledger frame it is to have. -/
def Seq.fitted (q : Seq) : Bool := (q.lacking []).isEmpty && q.ledgerNeed ≤ q.ledgerFrames.length

/-- Gives a sequence the ledger frames it lacks where the free list has them all, and returns those it no longer needs. -/
def State.growLedger (s : State) (h : Nat) (q : Seq) : State :=
  ((s.takeFixed q.part (q.ledgerNeed - q.ledgerFrames.length)).map fun x =>
    (x.2.wipeFrames x.1).onSeq h fun y => { y with ledgerFrames := y.ledgerFrames ++ x.1 }).getD s
def State.fitLedger (s : State) (h : Nat) (q : Seq) : State :=
  ((s.growLedger h q).shootDown q.part (q.ledgerFrames.drop q.ledgerNeed)).onSeq h fun y => { y with ledgerFrames := y.ledgerFrames.take q.ledgerNeed }

/-- Gives a sequence the table frames it lacks where the free list has them all, and places its tables in them. -/
def State.fitTabs (s : State) (h : Nat) (q : Seq) : State :=
  ((s.takeFixed q.part (s.tabFrames q [])).map fun x => (x.2.wipeFrames x.1).setTabs h [] x.1).getD s

/-- Gives a sequence the ledger and table frames it now needs, and returns those it no longer does. What no free frame serves yet is tried again with every
command that follows (log 143). -/
def State.fitFixed (s : State) (h : Nat) : State :=
  match s.seq h with
  | none => s
  | some q => (s.fitLedger h q).fitTabs h q

/-! ### The walk (R57, R65) -/

/-- Address of a byte of a table. -/
def Tab.addr (t : Tab) (j : Nat) : Nat := frameAddr (t.frames.getD ((t.offset + j) / 16384) 0) + (t.offset + j) % 16384

/-- Address of a head-table entry: `k × blocks_per_head + b` entries into the head table of the layer (R57). -/
def Seq.headEntryAddr (q : Seq) (l k b : Nat) : Option Nat := (q.tab (.heads l)).map fun t => t.addr (8 * (k * t.per + b))

/-- Address of the entry pair of a page: block ⌊i / 64⌋ of its head, pair i mod 64 (R57). -/
def Seq.pairAddr (q : Seq) (l k i : Nat) : Option Nat := (q.tab (.block l k (i / 64))).map fun t => t.addr (16 * (i % 64))

/-- Lines a walk reads in one sequence's tables: its descriptor's two, and where it resolves the page its layer entry's and its head entry's. -/
def Seq.descLines (q : Seq) : List Nat := ((q.tab .descriptor).map fun t => [t.addr 0 / 64, t.addr 64 / 64]).getD []
def Seq.layerLine (q : Seq) (l : Nat) : List Nat := ((q.tab .layers).map fun t => [t.addr (8 * l) / 64]).getD []
def Seq.headLine (q : Seq) (l k b : Nat) : List Nat := ((q.headEntryAddr l k b).map fun a => [a / 64]).getD []

/-- Levels a walk resolves, as the lines of each: the descriptors down to the sequence that holds the page, its layer entry and its head entry (R60, R65). -/
def State.walkLevels (s : State) : Nat → Nat → Nat → Nat → Nat → List (List Nat)
  | 0, _, _, _, _ => []
  | n + 1, h, l, k, i => match s.seq h with
    | none => []
    | some q =>
      if q.link ≠ 0 && q.pagePos i < q.linkLen then q.descLines :: s.walkLevels n q.link l k i
      else [q.descLines, q.layerLine l, q.headLine l k (i / 64)]

/-- Levels of the walk of a page: 3, and one more for each link it goes through (R65, Table 2-7). -/
def State.walkOf (s : State) (k : PageKey) : List (List Nat) := s.walkLevels 6 k.handle k.layer k.head k.index

/-- The walker of a cluster resolves a page: its lookups are counted, and its lines come from the walker cache or from HBM and stay there. -/
def State.walked (s : State) (c p : Nat) (levels : List (List Nat)) : State :=
  (s.bump 0x2103 2 c levels.length).each levels fun s x => s.walkLevel c p x

/-- Granule address of a page's entry pair: where its pin operation takes its burst (R65). -/
def State.pairGranule (s : State) (k : PageKey) : Nat :=
  (((s.seq k.handle).bind fun q => q.pairAddr k.layer k.head k.index).getD 0) / 1024

/-! ### What the tables hold (R10, R53 to R56): words least significant byte first -/

/-- Descriptor words with the places of the layer table and the ledger directory. -/
def Seq.descriptor (q : Seq) : List W64 :=
  q.descriptorWords (((q.tab .layers).map (·.addr 0)).getD 0) (((q.tab .ledgerDir).map (·.addr 0)).getD 0)

/-- Layer table entry (Table 2-4). -/
def Seq.layerEntry (q : Seq) (l : Nat) : W64 :=
  match q.tab (.heads l) with
  | some t => packWord [(1, 1), (12, 0), (11, t.per), (40, t.addr 0)]
  | none => 0

/-- Head table entry (Table 2-4). -/
def Seq.headEntry (q : Seq) (l k b : Nat) : W64 :=
  match q.tab (.block l k b) with
  | some t => packWord [(1, 1), (23, 0), (40, t.addr 0)]
  | none => 0

/-- Entry pair of a page; an absent page's entry is 0 and its shadow names no copy (Tables 2-5 and 2-6). -/
def Seq.pairWords (q : Seq) (l k i : Nat) : List W64 :=
  match q.page l k i with
  | some p => [p.entryWord, p.shadowWord]
  | none => [0, packWord [(8, 0), (12, 0), (44, noCopy)]]

/-- Ledger directory entry: valid, and the address of the ledger frame. -/
def dirEntry (f : Nat) : W64 := packWord [(1, 1), (23, 0), (40, frameAddr f)]

/-- Word `i` of a table. -/
def Seq.tabWord (q : Seq) (t : Tab) (i : Nat) : W64 :=
  match t.kind with
  | .descriptor => q.descriptor.getD i 0
  | .layers => q.layerEntry i
  | .ledgerDir => (q.ledgerFrames[i]?.map dirEntry).getD 0
  | .heads l => q.headEntry l (i / max 1 t.per) (i % max 1 t.per)
  | .block l k b => (q.pairWords l k (64 * b + i / 2)).getD (i % 2) 0

/-- Byte `j` of words kept least significant byte first (R10). -/
def leByte (w : W64) (j : Nat) : Byte := BitVec.ofNat 8 (w.toNat / 256 ^ j)

/-- Byte `j` of a ledger frame's tokens: 4 bytes a token, least significant first. -/
def Seq.ledgerByte (q : Seq) (frame j : Nat) : Byte := BitVec.ofNat 8 ((q.ledger.getD (4096 * frame + j / 4) 0).toNat / 256 ^ (j % 4))

/-- Place in a table of a byte address, when the table holds it. -/
def Tab.placeOf (t : Tab) (a : Nat) : Option Nat :=
  match t.frames.findIdx? fun f => frameAddr f ≤ a && a < frameAddr f + 16384 with
  | some m => if t.offset ≤ 16384 * m + a % 16384 && 16384 * m + a % 16384 < t.offset + t.bytes then some (16384 * m + a % 16384 - t.offset) else none
  | none => none

/-- Byte that a sequence's tables or ledger hold at an HBM address. -/
def Seq.fixedByte (q : Seq) (a : Nat) : Option Byte :=
  match q.ledgerFrames.findIdx? fun f => frameAddr f ≤ a && a < frameAddr f + 16384 with
  | some j => some (q.ledgerByte j (a % 16384))
  | none => q.tabs.findSome? fun t => (t.placeOf a).map fun j => leByte (q.tabWord t (j / 8)) (j % 8)

/-- Byte of HBM at an address: what a table or a ledger keeps there, else the page data written to it (R10, R47, R53, R54). -/
def State.hbmByte (s : State) (a : Nat) : Byte := (s.seqs.findSome? fun q => q.fixedByte a).getD (memRead s.hbm.mem a)

end Sys2Proof.Machine
end

