-- ==== Sys2Proof/Machine/Formats.lean ====
section
/-!
DEFINITION. Element encodings and conversion, page layout, the packer's coded image and code tables, Relay images and the Kerf encoder (R179 to R209).
Finite values are exact integers in units of 2^-160, finer than every encoding of Table 6-2.
-/
namespace Sys2Proof.Machine

/-- A floating-point encoding of Table 6-2: exponent bits, bias, mantissa bits, code of the largest finite value, infinity code if any, canonical NaN if
any. -/
structure Enc where
  e : Nat
  bias : Nat
  m : Nat
  maxCode : Nat
  inf : Option Nat
  nan : Option Nat
  deriving DecidableEq, Repr

def encFp32 : Enc := ⟨8, 127, 23, 0x7F7FFFFF, some 0x7F800000, some 0x7FC00000⟩
def encBf16 : Enc := ⟨8, 127, 7, 0x7F7F, some 0x7F80, some 0x7FC0⟩
def encFp16 : Enc := ⟨5, 15, 10, 0x7BFF, some 0x7C00, some 0x7E00⟩
def encE4m3 : Enc := ⟨4, 7, 3, 0x7E, none, some 0x7F⟩
def encE5m2 : Enc := ⟨5, 15, 2, 0x7B, some 0x7C, some 0x7E⟩
def encE3m2 : Enc := ⟨3, 3, 2, 0x1F, none, none⟩
def encE2m3 : Enc := ⟨2, 1, 3, 0x1F, none, none⟩
def encE2m1 : Enc := ⟨2, 1, 1, 0x7, none, none⟩

/-- Element encoding of a format code (Tables 6-1 and 6-2); the integer formats 9 and 10 have none. -/
def encOf (f : Nat) : Enc := [encFp32, encBf16, encFp16, encE4m3, encE5m2, encE4m3, encE3m2, encE2m3, encE2m1].getD f encFp32

def Enc.bits (c : Enc) : Nat := 1 + c.e + c.m

/-- A value: not a number, an infinity with its sign, negative zero, or any other finite number in units of 2^-160 (R180: zero has either sign). -/
inductive Val where
  | nan
  | inf (neg : Bool)
  | nzero
  | fin (v : Int)
  deriving DecidableEq, Repr

def Val.finite (v : Val) : Bool := match v with | .fin _ => true | .nzero => true | _ => false

/-- A finite value as a number; 0 for one that is not finite. -/
def Val.num (v : Val) : Int := match v with | .fin n => n | _ => 0

/-- Value of a code (R180). -/
def Enc.decode (c : Enc) (code : Nat) : Val :=
  let neg := code / 2 ^ (c.e + c.m) % 2 = 1
  let mag := code % 2 ^ (c.e + c.m)
  let ef := mag / 2 ^ c.m
  let mf := mag % 2 ^ c.m
  if c.maxCode < mag && c.inf == some mag then .inf neg
  else if c.maxCode < mag then .nan
  else if neg && mag = 0 then .nzero
  else
    let sig := if ef = 0 then mf else 2 ^ c.m + mf
    let sh := 160 + (if ef = 0 then 1 else ef) - c.bias - c.m
    .fin (if neg then -(sig * 2 ^ sh : Nat) else (sig * 2 ^ sh : Nat))

/-- n / d rounded to nearest, ties to even (R119). -/
def rne (n d : Nat) : Nat :=
  let q := n / d
  let r := n % d
  if 2 * r < d then q else if d < 2 * r then q + 1 else q + q % 2

/-- Code, without sign, of a magnitude divided by 2^x: nearest even, saturating (R119, R182). -/
def Enc.round (c : Enc) (mag : Nat) (x : Int) : Nat :=
  if mag = 0 then 0
  else
    let lo : Int := 1 - c.bias - c.m
    let t : Int := max (Nat.log2 mag - 160 - x - c.m) lo
    min c.maxCode ((t - lo).toNat * 2 ^ c.m + rne mag (2 ^ (160 + x + t).toNat))

/-- A value in an encoding, scaled by 2^-x; infinities and NaN as R181 states for targets without a block rule. -/
def Enc.encode (c : Enc) (v : Val) (x : Int) : Nat :=
  match v with
  | .nan => c.nan.getD 0
  | .inf neg => match c.inf with
    | some i => (if neg then 2 ^ (c.e + c.m) else 0) + i
    | none => c.nan.getD 0
  | .nzero => 2 ^ (c.e + c.m)
  | .fin n => (if n < 0 then 2 ^ (c.e + c.m) else 0) + c.round n.natAbs x

/-! ### Stored formats (R181, R182, R184) -/

/-- Bits of a stored element. -/
def elemBits (f : Nat) : Nat := if [1, 2].contains f then 16 else if [3, 4, 5, 9].contains f then 8 else if [6, 7].contains f then 6 else 4

/-- Bytes of the element array and of one scale (Table 6-3). -/
def arrayBytes (f : Nat) : Nat := 16384 * elemBits f / 8
def scaleBytes (f : Nat) : Nat := if [5, 6, 7, 8, 9].contains f then 1 else if f = 10 then 2 else 0

/-- Largest finite magnitude among values. -/
def maxMag (vs : List Val) : Nat := vs.foldl (fun a v => match v with | .fin n => max a n.natAbs | _ => a) 0

/-- emax of R182. -/
def emaxOf (f : Nat) : Int := [0, 0, 0, 0, 0, 8, 4, 2, 2, 0].getD f 0

/-- E8M0 exponent x of an MX block (R182). -/
def mxExp (f : Nat) (a : Nat) : Int := if a = 0 then -127 else max (-127) (min 127 ((Nat.log2 a : Int) - 160 - emaxOf f))

/-- INT4-G scale: a / 7 rounded toward +∞ to FP16, saturating (R182). -/
def int4Scale (a : Nat) : Nat :=
  if a = 0 then 0
  else
    let l : Int := (Nat.log2 (a * 256 / 7) : Int) - 8 - 160
    let t : Int := max (l - 10) (-24)
    let d := 7 * 2 ^ (160 + t).toNat
    min 0x7BFF ((t + 24).toNat * 1024 + (a + d - 1) / d)

/-- A signed integer clamped and cut to `w` bits of two's complement. -/
def clampInt (n : Int) (lo hi : Int) (w : Nat) : Nat := ((max lo (min hi n)) % (2 ^ w : Int)).toNat

/-- Rounds a signed ratio to nearest even. -/
def rneInt (n : Int) (d : Nat) : Int := if n < 0 then -(rne n.natAbs d : Int) else rne n.natAbs d

/-- Codes of 32 elements and their scale code in a scaled format (R181, R182). -/
def encodeGroup (f : Nat) (vs : List Val) : List Nat × Nat :=
  let a := maxMag vs
  let bad := vs.any fun v => !v.finite
  if f = 10 then
    if bad then (vs.map fun _ => 0, 0x7E00)
    else
      let sc := int4Scale a
      match encFp16.decode sc with
      | .fin k => (vs.map fun v => match v with
          | .fin n => if a = 0 then 0 else clampInt (rneInt n k.natAbs) (-8) 7 4
          | _ => 0, sc)
      | _ => (vs.map fun _ => 0, sc)
  else if f = 5 then
    let x := mxExp f a
    (vs.map fun v => if v.finite then (if a = 0 then 0 else encE4m3.encode v x) else 0x7F, if a = 0 then 0 else (x + 127).toNat)
  else if bad then (vs.map fun _ => 0, 0xFF)
  else if a = 0 then (vs.map fun _ => 0, 0)
  else
    let x := mxExp f a
    (vs.map fun v => match v with
      | .fin n => if f = 9 then clampInt (rneInt (n * 64) (2 ^ (160 + x).toNat)) (-128) 127 8 else (encOf f).encode v x
      | .nzero => if f = 9 then 0 else (encOf f).encode v x
      | _ => 0, (x + 127).toNat)

/-- Groups of `n` elements. -/
def chunks {α : Type} (n : Nat) : Nat → List α → List (List α)
  | 0, _ => []
  | k + 1, l => l.take n :: chunks n k (l.drop n)

/-- Element codes packed into bytes: two bytes least significant first, one byte, four elements in three bytes, or two in one (R184). -/
def packElems (f : Nat) (cs : List Nat) : List Byte :=
  if elemBits f = 16 then cs.flatMap (leBytes 2)
  else if elemBits f = 8 then cs.map (BitVec.ofNat 8)
  else if elemBits f = 6 then
    (chunks 4 (cs.length / 4) cs).flatMap fun g => leBytes 3 (g.getD 0 0 + 64 * g.getD 1 0 + 4096 * g.getD 2 0 + 262144 * g.getD 3 0)
  else (chunks 2 (cs.length / 2) cs).flatMap fun g => [BitVec.ofNat 8 (g.getD 0 0 + 16 * g.getD 1 0)]

/-- Stored bytes of 128 values of one position: element bytes and scale bytes (R119, R181, R182). -/
def encodeHalf (f : Nat) (vs : List Val) : List Byte × List Byte :=
  if scaleBytes f = 0 then (packElems f (vs.map fun v => (encOf f).encode v 0), [])
  else
    let gs := (chunks 32 4 vs).map (encodeGroup f)
    (packElems f (gs.flatMap (·.1)), gs.flatMap fun g => leBytes (scaleBytes f) g.2)

/-- What one position writes into its page: byte offset and bytes, keys then values, elements then scales (R184). -/
def positionWrites (f p : Nat) (ks vs : List Val) : List (Nat × List Byte) :=
  let k := encodeHalf f ks
  let v := encodeHalf f vs
  [(128 * p * elemBits f / 8, k.1), ((8192 + 128 * p) * elemBits f / 8, v.1)]
    ++ (if scaleBytes f = 0 then [] else
      [(arrayBytes f + 4 * p * scaleBytes f, k.2), (arrayBytes f + (256 + 4 * p) * scaleBytes f, v.2)])

/-- Element code n of an unpacked page's bytes (R184). -/
def pageElem (f : Nat) (bs : List Byte) (n : Nat) : Nat :=
  if elemBits f = 16 then leNat ((bs.drop (2 * n)).take 2)
  else if elemBits f = 8 then (bs.getD n 0).toNat
  else if elemBits f = 6 then leNat ((bs.drop (3 * (n / 4))).take 3) / 2 ^ (6 * (n % 4)) % 64
  else (bs.getD (n / 2) 0).toNat / 16 ^ (n % 2) % 16

/-- Value of element n of an unpacked page, its scale applied (R180, R183, R186). -/
def pageVal (f : Nat) (bs : List Byte) (n : Nat) : Val :=
  let c := pageElem f bs n
  if f = 10 then
    match encFp16.decode (leNat ((bs.drop (8192 + 2 * (n / 32))).take 2)) with
    | .fin k => .fin (k * (if c < 8 then (c : Int) else (c : Int) - 16))
    | _ => .nan
  else if scaleBytes f = 0 then (encOf f).decode c
  else
    let sc := (bs.getD (arrayBytes f + n / 32) 0).toNat
    if sc = 255 then .nan
    else if f = 9 then .fin ((if c < 128 then (c : Int) else (c : Int) - 256) * (2 ^ (160 + sc - 127 - 6) : Nat))
    else match (encOf f).decode c with
      | .fin v => .fin (v * (2 ^ sc : Nat) / (2 ^ 127 : Nat))
      | x => x

/-! ### Payloads (R117, R82) -/

/-- Bytes of an element of a payload format. -/
def payloadBytes (f : Nat) : Nat := if f = 0 then 4 else if f ≤ 2 then 2 else 1

/-- Elements of a payload, most significant byte first (R10, R117). -/
def payloadVals (f : Nat) (bs : List Byte) : List Val :=
  (chunks (payloadBytes f) (bs.length / payloadBytes f) bs).map fun g => (encOf f).decode (beNat g)

/-! ### Byte order on the network (R185) -/

def swapPairs (bs : List Byte) : List Byte := (chunks 2 (bs.length / 2) bs).flatMap List.reverse
def swapWords (n : Nat) (bs : List Byte) : List Byte := (chunks n (bs.length / n) bs).flatMap List.reverse

/-- An unpacked or Kerf page in network order. -/
def netPage (f : Nat) (bs : List Byte) : List Byte :=
  if f = 1 || f = 2 then swapPairs bs
  else if f = 10 then bs.take 8192 ++ swapPairs (bs.drop 8192)
  else if f = 11 then swapWords 8 (bs.take 64) ++ bs.drop 64
  else bs

/-! ### Code tables (R189, R190) -/

/-- Lengths of the 16 symbols of a stored table. -/
def tableLengths (t : Nat) : List Nat := (List.range 16).map fun s => t / 16 ^ (15 - s) % 16

/-- A stored table from lengths. -/
def lengthsTable (ls : List Nat) : Nat := ls.foldl (fun a l => a * 16 + l) 0

/-- The built-in table (0x2500.02). -/
def builtInTable : Nat := 0x222345678ABBBBBB

/-- Symbols in ascending (length, number). -/
def symbolOrder (ls : List Nat) : List Nat := (List.range 16).flatMap fun l => (List.range 16).filter fun s => ls.getD s 0 = l

/-- Canonical codewords: (symbol, length, codeword), in that order (R189). -/
def codewords (ls : List Nat) : List (Nat × Nat × Nat) :=
  ((symbolOrder ls).foldl (fun (acc : Nat × Nat × List (Nat × Nat × Nat)) s =>
    let l := ls.getD s 0
    let prev := if acc.2.2.isEmpty then l else acc.2.1
    let code := acc.1 * 2 ^ (l - prev)
    (code + 1, l, acc.2.2 ++ [(s, l, code)])) (0, 0, [])).2.2

/-- Bits of a number, most significant first. -/
def toBits (w v : Nat) : List Bool := (List.range w).map fun i => v.testBit (w - 1 - i)
def fromBits (bs : List Bool) : Nat := bs.foldl (fun a b => 2 * a + bit b) 0

/-- Bits as bytes, most significant bit first, padded with zeros (R188). -/
def bitsBytes (bs : List Bool) : List Byte :=
  (chunks 8 (cdiv bs.length 8) bs).map fun g => BitVec.ofNat 8 (fromBits (g ++ List.replicate (8 - g.length) false))

def bytesBits (bs : List Byte) : List Bool := bs.flatMap fun b => toBits 8 b.toNat

/-! ### The packer (R187 to R193) -/

/-- Packable formats (Table 6-1). -/
def packable (f : Nat) : Bool := 1 ≤ f && f ≤ 7

/-- A unit to code: format, its element codes with their channels' indices, and the tables by element. -/
def unitElems (f unit : Nat) (page : List Byte) : List Nat :=
  if f ≤ 2 then (List.range 8192).map fun n => pageElem f page (8192 * unit + n) else (List.range 16384).map fun n => pageElem f page n

/-- Exponent field of an element code. -/
def expField (c : Enc) (code : Nat) : Nat := code / 2 ^ c.m % 2 ^ c.e

/-- Channel slot of element n of a unit: key channels 0 to 127, then value channels. -/
def channelSlot (n : Nat) : Nat := (if n < 8192 then 0 else 128) + n % 128

/-- Bases: the largest exponent field of each channel of the unit (R188). -/
def unitBases (c : Enc) (es : List Nat) : List Nat :=
  (List.range (es.length / 8192 * 128)).map fun ch =>
    (List.range 64).foldl (fun b p => max b (expField c (es.getD (ch / 128 * 8192 + 128 * p + ch % 128) 0))) 0

/-- Symbol of an element (R188). -/
def symbolOf (base e : Nat) : Nat := if base - e ≤ 14 then base - e else 15

/-- Bits of one element. -/
def elemCode (c : Enc) (words : List (Nat × Nat × Nat)) (base code : Nat) : List Bool :=
  let e := expField c code
  let s := symbolOf base e
  let w := ((words.find? fun x => x.1 == s).map fun x => toBits x.2.1 x.2.2).getD []
  toBits 1 (code / 2 ^ (c.e + c.m)) ++ w ++ (if s = 15 then toBits c.e e else []) ++ toBits c.m code

/-- One block: whether it is raw, and its bytes (R188, R192). -/
def codeBlock (f : Nat) (c : Enc) (words : List (Nat × Nat × Nat)) (bases es : List Nat) (first : Nat) : Bool × List Byte :=
  let coded := bitsBytes ((List.range es.length).flatMap fun i => elemCode c words (bases.getD (channelSlot (first + i)) 0) (es.getD i 0))
  let raw := packElems f es
  if 7 * raw.length < 8 * coded.length then (true, raw) else (false, coded)

/-- A unit's coded image (R191, Tables 6-5 to 6-7). -/
def unitImage (f unit gen keyTable valueTable : Nat) (page : List Byte) : List Byte × Nat :=
  let c := encOf f
  let es := unitElems f unit page
  let bases := unitBases c es
  let n := es.length / 16
  let blocks := (List.range 16).map fun k =>
    codeBlock f c (codewords (tableLengths (if (if f ≤ 2 then unit else k / 8) = 0 then keyTable else valueTable))) bases
      ((es.drop (k * n)).take n) (k * n)
  let scales := if scaleBytes f = 0 then [] else (page.drop (arrayBytes f)).take 512
  let head := 128 + bases.length + scales.length
  let index := ((blocks.foldl (fun (acc : Nat × List Byte) b =>
    (acc.1 + b.2.length, acc.2 ++ leBytes 4 (packBits [(1, bit b.1), (15, acc.1), (16, b.2.length)]))) (head, [])).2)
  let rawMask := (List.range 16).foldl (fun a k => a + (if (blocks.getD k (false, [])).1 then 2 ^ k else 0)) 0
  let len := head + sumOf (fun b => b.2.length) blocks
  (leBytes 8 (packBits [(4, f), (2, gen), (1, unit), (1, bit (f ≤ 2)), (16, len), (16, rawMask), (24, 0)]) ++ List.replicate 56 0 ++ index
    ++ bases.map (BitVec.ofNat 8) ++ scales ++ blocks.flatMap (·.2), blocks.countP (·.1))

/-- A page's coded image and how many of its blocks are raw (R191). -/
def codedImage (f gen keyTable valueTable : Nat) (page : List Byte) : List Byte × Nat :=
  let u0 := unitImage f 0 gen keyTable valueTable page
  if f ≤ 2 then
    let u1 := unitImage f 1 gen keyTable valueTable page
    (u0.1 ++ List.replicate (cdiv u0.1.length 16 * 16 - u0.1.length) 0 ++ u1.1, u0.2 + u1.2)
  else u0

/-- Whether an image may replace its page (R192). -/
def packWorth (f : Nat) (image : List Byte) : Bool := 16 * image.length ≤ 15 * rawBytes f

/-- Symbol counts of a page: (table index × 16 + symbol), one per element (R193). -/
def symbolCounts (f : Nat) (page : List Byte) : SMap :=
  (List.range (if f ≤ 2 then 2 else 1)).foldl (fun m u =>
    let es := unitElems f u page
    let bases := unitBases (encOf f) es
    (List.range es.length).foldl (fun m i =>
      let t := if f ≤ 2 then u else i / 8192
      sadd m ((2 * f + t) * 16 + symbolOf (bases.getD (channelSlot i) 0) (expField (encOf f) (es.getD i 0))) 1) m) []

/-! ### The expander (R187, R199) -/

/-- One symbol off a bit stream: symbol and rest. -/
def takeSymbol (words : List (Nat × Nat × Nat)) (bs : List Bool) : Option (Nat × List Bool) :=
  (words.find? fun x => bs.length ≥ x.2.1 && fromBits (bs.take x.2.1) == x.2.2).map fun x => (x.1, bs.drop x.2.1)

/-- Elements of a coded block. -/
def expandBits (c : Enc) (words : List (Nat × Nat × Nat)) (bases : List Nat) : Nat → Nat → List Bool → Option (List Nat)
  | 0, _, _ => some []
  | n + 1, i, bs =>
    match takeSymbol words (bs.drop 1) with
    | none => none
    | some (s, r) =>
      let e := if s = 15 then fromBits (r.take c.e) else bases.getD (channelSlot i) 0 - s
      let r2 := if s = 15 then r.drop c.e else r
      if r2.length < c.m || (s ≠ 15 && bases.getD (channelSlot i) 0 < s) then none
      else (expandBits c words bases n (i + 1) (r2.drop c.m)).map fun l =>
        (fromBits (bs.take 1) * 2 ^ (c.e + c.m) + e * 2 ^ c.m + fromBits (r2.take c.m)) :: l

/-- Elements of a unit's image, and its scales; none when it is not well formed: its header names the unit and the format, its index the blocks that are
raw, and every block gives its elements (R191, R202). -/
def expandUnit (f unit keyTable valueTable : Nat) (img : List Byte) : Option (List Byte × List Byte) :=
  let c := encOf f
  let nb := if f ≤ 2 then 128 else 256
  let bases := ((img.drop 128).take nb).map (·.toNat)
  let n := if f ≤ 2 then 512 else 1024
  let head := leNat (img.take 8)
  let rawBit := fun k => leNat ((img.drop (64 + 4 * k)).take 4) / 2 ^ 31 == head / 2 ^ (24 + k) % 2
  if head / 2 ^ 60 ≠ f || head / 2 ^ 57 % 2 ≠ unit || head / 2 ^ 56 % 2 ≠ bit (f ≤ 2) || img.length < head / 2 ^ 40 % 65536 || !(List.range 16).all rawBit then none
  else
  ((List.range 16).foldl (fun (acc : Option (List Byte)) k =>
    match acc with
    | none => none
    | some out =>
      let w := leNat ((img.drop (64 + 4 * k)).take 4)
      let bytes := (img.drop (w / 65536 % 32768)).take (w % 65536)
      if w / 2 ^ 31 = 1 then
        (if bytes.length = n * elemBits f / 8 then some (out ++ bytes) else none)
      else (expandBits c (codewords (tableLengths (if (if f ≤ 2 then unit else k / 8) = 0 then keyTable else valueTable))) bases n (k * n)
        (bytesBits bytes)).map fun es => out ++ packElems f es) (some [])).map fun out =>
    (out, if scaleBytes f = 0 then [] else (img.drop (128 + nb)).take 512)

/-- Where unit 1 begins, from unit 0's header word (R191). -/
def unitSpan (word0 : Nat) : Nat := cdiv (word0 / 2 ^ 40 % 65536) 16 * 16

/-- The unpacked page of a coded image, or none when it does not expand into a well-formed page (R202). -/
def expandImage (f keyTable valueTable : Nat) (img : List Byte) : Option (List Byte) :=
  match expandUnit f 0 keyTable valueTable img with
  | none => none
  | some (a, sc) =>
    if f ≤ 2 then
      (expandUnit f 1 keyTable valueTable (img.drop (unitSpan (leNat (img.take 8))))).map fun b => a ++ b.1
    else some (a ++ sc)

/-- Blocks of a coded page that positions of it need, as unit and block: their keys' and their values' (R187). -/
def neededBlocks (f : Nat) (js : List Nat) : List (Nat × Nat) :=
  js.foldl (fun l j => if f ≤ 2 then addNew (addNew l (0, j / 4)) (1, j / 4) else addNew (addNew l (0, j / 8)) (0, 8 + j / 8)) []

/-- Offset index entry of a block of a coded image (Table 6-7). -/
def indexEntry (f : Nat) (img : List Byte) (x : Nat × Nat) : Nat :=
  leNat (((if x.1 = 0 || 2 < f then img else img.drop (unitSpan (leNat (img.take 8)))).drop (64 + 4 * x.2)).take 4)

/-- Bytes of a coded image that a tile fetches: all before its first block, and the blocks its positions need. -/
def neededBytes (f : Nat) (img : List Byte) (js : List Nat) : Nat :=
  sumOf (fun u => indexEntry f img (u, 0) / 65536 % 32768) (List.range (if f ≤ 2 then 2 else 1))
    + sumOf (fun x => indexEntry f img x % 65536) (neededBlocks f js)

/-- The raw 16-bit elements of a unit's raw blocks with their bytes turned, by its offset index in stored order (R185). -/
def turnRaw (f : Nat) (index body : List Byte) : List Byte :=
  (List.range 16).foldl (fun (bs : List Byte) k =>
    let w := leNat ((index.drop (4 * k)).take 4)
    let o := w / 65536 % 32768 - 128
    let l := w % 65536
    if f ≤ 2 && w / 2 ^ 31 = 1 then bs.take o ++ swapPairs ((bs.drop o).take l) ++ bs.drop (o + l) else bs) body

/-- A unit's coded image with every header word, index entry and raw 16-bit element turned: from stored to network order, or back; `index` is the offset
index in stored order. -/
def turnUnit (f : Nat) (index img : List Byte) : List Byte :=
  swapWords 8 (img.take 64) ++ swapWords 4 ((img.drop 64).take 64) ++ turnRaw f index (img.drop 128)

/-- A coded image in network order (R185), unit by unit. -/
def netImage (f : Nat) (img : List Byte) : List Byte :=
  let one := fun u : List Byte => turnUnit f ((u.drop 64).take 64) u
  if f ≤ 2 then one (img.take (unitSpan (leNat (img.take 8)))) ++ one (img.drop (unitSpan (leNat (img.take 8)))) else one img

/-- A coded image out of network order. -/
def storedImage (f : Nat) (img : List Byte) : List Byte :=
  let one := fun u : List Byte => turnUnit f (swapWords 4 ((u.drop 64).take 64)) u
  if f ≤ 2 then one (img.take (unitSpan (beNat (img.take 8)))) ++ one (img.drop (unitSpan (beNat (img.take 8)))) else one img

/-! ### Length-limited codes (R195) -/

/-- Inserts an item behind those of no greater weight. -/
def insItem (l : List (Nat × List Nat)) (x : Nat × List Nat) : List (Nat × List Nat) :=
  match l with
  | [] => [x]
  | y :: r => if x.1 < y.1 then x :: y :: r else y :: insItem r x

/-- Pairs of neighbours. -/
def packages : List (Nat × List Nat) → List (Nat × List Nat)
  | a :: b :: r => (a.1 + b.1, a.2 ++ b.2) :: packages r
  | _ => []

/-- Code lengths of 16 weights, at most 12, by package-merge; ties go to the lower symbol (R195, log 27). -/
def codeLengths (ws : List Nat) : List Nat :=
  let coins := (List.range 16).foldl (fun l s => insItem l (ws.getD s 0, [s])) []
  let last := (List.range 11).foldl (fun l _ => (packages l).foldl insItem coins) coins
  (List.range 16).map fun s => sumOf (fun x => x.2.count s) (last.take 30)

/-- The table set of a build: 16 tables, indices 0 and 1 built-in; 1 added to every count (R195). -/
def buildTables (acc : SMap) : List Nat :=
  (List.range 16).map fun t =>
    if t < 2 then builtInTable else lengthsTable (codeLengths ((List.range 16).map fun s => sget acc (t * 16 + s) 0 + 1))

/-! ### The Kerf encoder (R203 to R208) -/

/-- Source element values of one channel over the valid positions. -/
def channelVals (f valid : Nat) (page : List Byte) (value : Bool) (ch : Nat) : List Int :=
  (List.range valid).map fun p => match pageVal f page ((if value then 8192 else 0) + 128 * p + ch) with | .fin n => n | _ => 0

def maxAbs (l : List Int) : Nat := l.foldl (fun a v => max a v.natAbs) 0

/-- Whether every valid element of a page is finite (R208). -/
def pageFinite (f valid : Nat) (page : List Byte) : Bool :=
  (List.range valid).all fun p => (List.range 128).all fun ch =>
    (pageVal f page (128 * p + ch)).finite && (pageVal f page (8192 + 128 * p + ch)).finite

/-- Lower middle of 128 magnitudes (R204). -/
def lowerMedian (l : List Nat) : Nat := (l.foldl (fun (a : List Nat) x => insDup a x) []).getD 63 0
where
  /-- Inserts, keeping duplicates. -/
  insDup (l : List Nat) (x : Nat) : List Nat :=
    match l with
    | [] => [x]
    | y :: r => if x ≤ y then x :: y :: r else y :: insDup r x

/-- Candidate outliers: is a value channel, channel, magnitude, median (R204). -/
def outlierCandidates (ratio : Nat) (kmag vmag : List Nat) : List (Bool × Nat × Nat × Nat) :=
  let km := lowerMedian kmag
  let vm := lowerMedian vmag
  ((List.range 128).map fun c => (false, c, kmag.getD c 0, km)) ++ ((List.range 128).map fun c => (true, c, vmag.getD c 0, vm))
    |>.filter fun x => x.2.2.1 ≠ 0 && ratio * x.2.2.2 ≤ x.2.2.1

/-- Order of R204: descending ratio, then descending magnitude, keys before values, ascending channel. -/
def outlierBefore (a b : Bool × Nat × Nat × Nat) : Bool :=
  let (_, _, ma, da) := a
  let (_, _, mb, db) := b
  let more := if da = 0 then db ≠ 0 else if db = 0 then false else mb * da < ma * db
  let same := if da = 0 then db = 0 else db ≠ 0 && mb * da = ma * db
  more || (same && mb < ma)

/-- The up to four outliers. -/
def outliers (ratio : Nat) (kmag vmag : List Nat) : List (Bool × Nat × Nat × Nat) :=
  ((outlierCandidates ratio kmag vmag).foldl (fun l x => ins l x) []).take 4
where
  /-- Stable insertion. -/
  ins (l : List (Bool × Nat × Nat × Nat)) (x : Bool × Nat × Nat × Nat) : List (Bool × Nat × Nat × Nat) :=
    match l with
    | [] => [x]
    | y :: r => if outlierBefore x y then x :: y :: r else y :: ins r x

/-- Smallest x of at least -127 with mag ≤ k × 2^x, magnitudes in units of 2^-160. -/
def scaleExp (mag k : Nat) : Int :=
  (List.range 256).foldr (fun (i : Nat) (acc : Int) => if mag ≤ k * 2 ^ (160 - 127 + i) then (i : Int) - 127 else acc) 128

/-- Code of a Kerf element and its reconstruction. -/
def kerfElem (c : Enc) (v : Int) (x : Int) : Nat × Int :=
  let code := c.encode (.fin v) x
  (code, match c.decode code with | .fin n => n * (2 ^ (x + 127).toNat : Nat) / (2 ^ 127 : Nat) | _ => 0)

/-- FP32 code of a magnitude rounded toward +∞ (R206). -/
def fp32Up (mag : Nat) : Nat :=
  let c := encFp32.round mag 0
  match encFp32.decode c with
  | .fin n => if n.natAbs < mag then c + 1 else c
  | _ => c

/-- Tolerance thresholds in 1/16 (Table 6-11). -/
def tauSixteenths (t : Nat) : Nat := t + 1

/-- What an encoding found: the page, its classes, how many outliers, κ and A in units of 2^-160. -/
structure KerfPage where
  bytes : List Byte
  classes : Nat
  outliers : Nat
  kappa : Nat
  amax : Nat
  deriving DecidableEq, Repr

/-- Encodes a page (R203 to R207); `now` is the encoding time. -/
def kerfEncode (f valid ratio now : Nat) (page : List Byte) : KerfPage :=
  let ks := (List.range 128).map fun c => channelVals f valid page false c
  let vs := (List.range 128).map fun c => channelVals f valid page true c
  let outs := outliers ratio (ks.map maxAbs) (vs.map maxAbs)
  let isOut := fun (v : Bool) (c : Nat) => outs.any fun o => o.1 == v && o.2.1 == c
  let kx := (List.range 128).map fun c => scaleExp (maxAbs (ks.getD c [])) 6
  let kscale := (List.range 128).map fun c => if isOut false c || maxAbs (ks.getD c []) = 0 then 0 else (kx.getD c 0 + 127).toNat
  let groupMag := fun (p g : Nat) => (List.range 32).foldl (fun a i =>
    if isOut true (32 * g + i) then a else max a ((vs.getD (32 * g + i) []).getD p 0).natAbs) 0
  let vx := fun (p g : Nat) => scaleExp (groupMag p g) 6
  let kel := fun (p c : Nat) => if valid ≤ p || isOut false c then (0, (0 : Int)) else kerfElem encE2m1 ((ks.getD c []).getD p 0) (kx.getD c 0)
  let vel := fun (p c : Nat) => if valid ≤ p || isOut true c then (0, (0 : Int)) else kerfElem encE2m1 ((vs.getD c []).getD p 0) (vx p (c / 32))
  let outEl := fun (o : Bool × Nat × Nat × Nat) (p : Nat) =>
    kerfElem encE4m3 (((if o.1 then vs else ks).getD o.2.1 []).getD p 0) (scaleExp o.2.2.1 448)
  let err := fun (a b : Int) => (a - b).natAbs
  let kappa := (List.range valid).foldl (fun m p => max m (max
    ((List.range 128).foldl (fun m c => if isOut false c then m else max m (err ((ks.getD c []).getD p 0) (kel p c).2)) 0) (max
    ((List.range 128).foldl (fun m c => if isOut true c then m else max m (err ((vs.getD c []).getD p 0) (vel p c).2)) 0)
    (outs.foldl (fun m o => max m (err (((if o.1 then vs else ks).getD o.2.1 []).getD p 0) (outEl o p).2)) 0)))) 0
  let amax := (List.range 128).foldl (fun a c => max a (max (if isOut false c then 0 else maxAbs (ks.getD c []))
    (if isOut true c then 0 else maxAbs (vs.getD c [])))) 0
  let classes := (List.range 4).foldl (fun a t =>
    a + (if (if amax = 0 then kappa = 0 else 16 * kappa ≤ tauSixteenths t * amax) then 2 ^ t else 0)) 0
  let recBytes := fun (o : Bool × Nat × Nat × Nat) =>
    [BitVec.ofNat 8 (128 + bit o.1), BitVec.ofNat 8 o.2.1, BitVec.ofNat 8 ((scaleExp o.2.2.1 448) + 127).toNat, 0]
      ++ (List.range 64).map fun p => BitVec.ofNat 8 (if valid ≤ p then 0 else (outEl o p).1)
  let head := leBytes 8 (packBits [(4, 11), (4, classes), (7, valid), (4, f), (3, outs.length), (42, 0)])
    ++ leBytes 8 (packBits [(32, fp32Up kappa), (32, encFp32.round amax 0)]) ++ leBytes 8 (now % 2 ^ 48) ++ List.replicate 40 0
  let body := kscale.map (BitVec.ofNat 8)
    ++ (List.range 64).flatMap (fun p => (List.range 4).map fun g =>
      BitVec.ofNat 8 (if valid ≤ p || groupMag p g = 0 then 0 else (vx p g + 127).toNat))
    ++ outs.flatMap recBytes ++ List.replicate ((4 - outs.length) * 68) 0
  let pad := List.replicate (0x400 - 0x2D0) 0
  let nib := fun (el : Nat → Nat → Nat × Int) => (List.range 64).flatMap fun p => packElems 8 ((List.range 128).map fun c => (el p c).1)
  { bytes := head ++ body ++ pad ++ nib kel ++ nib vel, classes := classes, outliers := outs.length, kappa := kappa, amax := amax }

/-- Tolerance classes of a stored Kerf page, from its first block (R97, R203). -/
def kerfClasses (bs : List Byte) : Nat := (bs.getD 7 0).toNat % 16

/-- Reconstructed value of element n of a Kerf page: keys first, then values, position by position (R203 to R205). -/
def kerfVal (bs : List Byte) (n : Nat) : Val :=
  let value := 8192 ≤ n
  let p := n % 8192 / 128
  let c := n % 128
  let scaled := fun (v : Val) (sc : Nat) => match v with
    | .fin k => Val.fin (k * (2 ^ sc : Nat) / (2 ^ 127 : Nat))
    | x => x
  match (List.range 4).find? fun o => (bs.getD (0x1C0 + 68 * o) 0).toNat == 128 + (if value then 1 else 0) && (bs.getD (0x1C0 + 68 * o + 1) 0).toNat == c with
  | some o => scaled (encE4m3.decode (bs.getD (0x1C0 + 68 * o + 4 + p) 0).toNat) (bs.getD (0x1C0 + 68 * o + 2) 0).toNat
  | none =>
    let code := (bs.getD (0x400 + n / 2) 0).toNat / 16 ^ (n % 2) % 16
    scaled (encE2m1.decode code) (bs.getD (if value then 0xC0 + 4 * p + c / 32 else 0x40 + c) 0).toNat

/-- Value of element n of a stored page, unpacked or Kerf. -/
def storedVal (f : Nat) (bs : List Byte) (n : Nat) : Val := if f = 11 then kerfVal bs n else pageVal f bs n

end Sys2Proof.Machine
end

