-- ==== Sys2Proof/Machine/Softmax.lean ====
section
/-!
DEFINITION. Attention's arithmetic: the tile update of R101, the Scarf merge of R102 and the output of a query head (R87, R98, R100 to R104, R113). Where every
order and rounding the spec allows gives one result, that is the result; elsewhere the result is a free value among the FP32 or FP16 numbers that lie within the
step's share of R113's bound (log 41). Real quantities are integers in units of 2^-160 unless a unit is named.
-/
namespace Sys2Proof.Machine

/-- One, in units of 2^-160. -/
abbrev one160 : Int := 2 ^ 160

/-! ### FP32 numbers by rank: rank r is the r-th number above 0, negative below -/

/-- Greatest FP32 magnitude at or below a number, and least at or above it, as codes without sign. -/
def floorMag (n : Nat) : Nat :=
  if n = 0 then 0
  else
    let t : Int := max ((Nat.log2 n : Int) - 160 - 23) (-149)
    min encFp32.maxCode ((t + 149).toNat * 2 ^ 23 + n / 2 ^ (160 + t).toNat)

/-- Value of an FP32 code without sign. -/
def magVal (c : Nat) : Nat := match encFp32.decode c with | .fin v => v.natAbs | _ => 0

def ceilMag (n : Nat) : Nat := if magVal (floorMag n) < n then min encFp32.maxCode (floorMag n + 1) else floorMag n

/-- Greatest rank at or below a number, and least at or above it. -/
def floorRank (x : Int) : Int := if 0 ≤ x then floorMag x.natAbs else -(ceilMag x.natAbs : Int)
def ceilRank (x : Int) : Int := if 0 ≤ x then ceilMag x.natAbs else -(floorMag x.natAbs : Int)

/-- Rank of the FP32 number nearest, ties to even. -/
def nearRank (x : Int) : Int := if 0 ≤ x then encFp32.round x.natAbs 0 else -(encFp32.round x.natAbs 0 : Int)

def rankCode (r : Int) : W32 := BitVec.ofNat 32 (if r < 0 then 2 ^ 31 + r.natAbs else r.natAbs)
def rankVal (r : Int) : Int := if r < 0 then -(magVal r.natAbs : Int) else magVal r.natAbs

/-- Value of an FP32 code that is finite. -/
def fp32Val (c : W32) : Int := match encFp32.decode c.toNat with | .fin v => v | _ => 0

/-- A free whole number from `lo` to `hi`; nothing is drawn where there is one (log 1). -/
def State.pick (s : State) (lo hi : Int) : Int × State :=
  if hi ≤ lo then (lo, s) else (lo + ((s.free).1.toNat : Int) % (hi - lo + 1), (s.free).2)

/-- An FP32 number within `e` of `x`: the nearest one where none lies so close, any where `x` leaves the FP32 range (log 41). -/
def State.fp32Near (s : State) (x : Int) (e : Nat) : Int × State :=
  if magVal encFp32.maxCode < x.natAbs then s.pick (-(encFp32.maxCode : Int)) encFp32.maxCode
  else if floorRank (x + e) < ceilRank (x - e) then (nearRank x, s)
  else s.pick (ceilRank (x - e)) (floorRank (x + e))

/-! ### Sums in FP32 (R100, R103) -/

/-- Largest power of two that divides every one of some numbers. -/
def commonUnit (l : List Int) : Nat := l.foldl (fun g x => Nat.gcd g x.natAbs) (2 ^ 1024)

def absSum (l : List Int) : Nat := sumOf Int.natAbs l

/-- Whether FP32 sums some numbers without rounding in every order. -/
def sumExact (l : List Int) : Bool := absSum l ≤ commonUnit l * 2 ^ 24

/-- α × old + β × Σ terms (R101, R102): α, β and old in units of 2^-160, the terms of 2^-320. It is exact where no step rounds; else two products and a sum round
once each, and the sum of the terms once a term. -/
def State.update (s : State) (α old β : Int) (terms : List Int) : Int × State :=
  let y := α * old * one160 + β * terms.foldl (· + ·) 0
  let x := y / 2 ^ 320
  let clean := (α = 0 || α = one160) && β = one160 && sumExact terms && y % 2 ^ 320 = 0 && rankVal (nearRank x) = x
  let sum := if sumExact terms then 0 else terms.length * absSum terms * β.natAbs / 2 ^ 24
  s.fp32Near x (if clean then 0 else (sum + ((α * old).natAbs * 2 ^ 160 + β.natAbs * absSum terms) / 2 ^ 23) / 2 ^ 320 + 1)

/-! ### Exponentials (R100, R102) -/

/-- Partial sums of e^-x: `t` is the next term, `n` its number, in units of 2^-224. -/
def expTerms (x : Nat) : Nat → Nat → Int → Int → Int
  | 0, _, _, acc => acc
  | k + 1, n, t, acc => expTerms x k (n + 1) (-(t * x) / (2 ^ 224 * n)) (acc + t)

/-- Squares a number in units of 2^-224 some times. -/
def squared : Nat → Int → Int
  | 0, a => a
  | k + 1, a => squared k (a * a / 2 ^ 224)

/-- Bounds of e^-n for a number n at least 0: each lies within 2^-159 of it. -/
def expNeg (n : Nat) : Nat × Nat :=
  if n = 0 then (2 ^ 160, 2 ^ 160)
  else if 200 * 2 ^ 160 ≤ n then (0, 1)
  else
    let a := squared 10 (expTerms (n * 2 ^ 54) 40 1 (2 ^ 224) 0)
    ((max 0 ((a - 2 ^ 20) / 2 ^ 64)).toNat, ((a + 2 ^ 20) / 2 ^ 64 + 1).toNat)

/-- Bounds of a computed exponential: relative error at most 2^-21; that of 0 is 1 (R100, R101). -/
def expRange (n : Nat) : Nat × Nat :=
  let r := expNeg n
  if n = 0 then r else (r.1 - r.1 / 2 ^ 21 - 1, r.2 + r.2 / 2 ^ 21 + 1)

/-- exp(−n) in FP32 (R101, R102): a free value within the unit's error; one that falls below every FP32 number is zero (R103). -/
def State.expFp32 (s : State) (n : Nat) : Int × State :=
  let r := expRange n
  let p := s.pick (ceilMag r.1) (max (ceilMag r.1) (floorMag r.2))
  (rankVal p.1, p.2)

/-- FP16 code of a number at most 1, nearest even; below the smallest FP16 subnormal it is zero (R100). -/
def prob16 (n : Nat) : Nat := if n < 2 ^ 136 then 0 else encFp16.round n 0

/-- A probability p (R100, R101): exactly 1 at the tile maximum. -/
def State.prob (s : State) (n : Nat) : Int × State :=
  let r := expRange n
  let p := s.pick (prob16 r.1) (prob16 r.2)
  (match encFp16.decode p.1.toNat with | .fin v => v | _ => 0, p.2)

/-! ### Scores (R100, R101, R104) -/

/-- Score scale σ: an FP32 code, 0 for 1/√128 (Table 3-1). -/
def sigmaVal (scale : Nat) : Int := match encFp32.decode (if scale = 0 then 0x3DB504F3 else scale) with | .fin v => v | _ => 0

def valNum (v : Val) : Int := v.num

/-- Products q_i × k_i in units of 2^-320. -/
def products (q k : List Val) : List Int := (q.zip k).map fun x => valNum x.1 * valNum x.2

/-- σ (q · k), exactly, in units of 2^-480. -/
def exactScore (scale : Nat) (q k : List Val) : Int := sigmaVal scale * (products q k).foldl (· + ·) 0

/-- σ Σ |q_i k_i|, rounded up (R113). -/
def scoreSpan (scale : Nat) (q k : List Val) : Nat := (sigmaVal scale).natAbs * absSum (products q k) / 2 ^ 320 + 1

/-- Error of a score relative to its span, in units of 2^-24: an FP32 query is taken as two BF16 parts (R100, R113). -/
def spanUnits (qf : Nat) : Nat := if qf = 0 then 137 else 9

/-- Whether the engine takes a query without rounding. -/
def queryExact (qf : Nat) (q : List Val) : Bool :=
  qf ≠ 0 || q.all fun v => match v with | .fin n => encBf16.decode (encBf16.encode (.fin n) 0) == .fin n | .nzero => true | _ => false

/-- A score in FP32 (R100, R101). -/
def State.score (s : State) (scale qf : Nat) (q k : List Val) : Int × State :=
  let y := exactScore scale q k
  let x := y / 2 ^ 320
  let clean := queryExact qf q && sumExact (products q k) && y % 2 ^ 320 = 0 && rankVal (nearRank x) = x
  let r := s.fp32Near x (if clean then 0 else scoreSpan scale q k * spanUnits qf / 2 ^ 24 + 1)
  (rankVal r.1, r.2)

/-- Scores of several keys, in order. -/
def State.scores (s : State) (scale qf : Nat) (q : List Val) : List (List Val) → List Int × State
  | [] => ([], s)
  | k :: ks =>
    let x := s.score scale qf q k
    let r := x.2.scores scale qf q ks
    (x.1 :: r.1, r.2)

/-- Probabilities of several scores below a maximum, in order. -/
def State.probs (s : State) (top : Int) : List Int → List Int × State
  | [] => ([], s)
  | x :: xs =>
    let p := s.prob (top - x).natAbs
    let r := p.2.probs top xs
    (p.1 :: r.1, r.2)

def maxOf (l : List Int) : Int := l.foldl max (l.headD 0)

/-! ### The exact attention beside the partial (R113) -/

/-- Product of a factor's bounds, at least 0, and a number's bounds. -/
def scaleRange (f : Nat × Nat) (x : Int × Int) : Int × Int :=
  ((if 0 ≤ x.1 then f.1 else f.2) * x.1 / one160, -(-((if 0 ≤ x.2 then f.2 else f.1) * x.2) / one160))

def addRange (x y : Int × Int) : Int × Int := (x.1 + y.1, x.2 + y.2)

/-- Bounds of e^(x − top) for scores in units of 2^-480. -/
def scoreWeight (top x : Int) : Nat × Nat :=
  if x = top then expNeg 0 else ((expNeg ((top - x).natAbs / 2 ^ 320 + 1)).1, (expNeg ((top - x).natAbs / 2 ^ 320)).2)

/-- What one key adds: weight, and weight times value. -/
def Exact.ofKey (scale : Nat) (q k v : List Val) : Exact :=
  { top := exactScore scale q k, l := (one160, one160), o := v.map fun x => (valNum x, valNum x), span := scoreSpan scale q k
    mag := v.foldl (fun a x => max a (valNum x).natAbs) 0 }

/-- Sum of two of them, over the greater of their scores. -/
def Exact.join (a b : Exact) : Exact :=
  let top := max a.top b.top
  let fa := scoreWeight top a.top
  let fb := scoreWeight top b.top
  { top := top, l := addRange (scaleRange fa a.l) (scaleRange fb b.l)
    o := (a.o.zip b.o).map fun x => addRange (scaleRange fa x.1) (scaleRange fb x.2), span := max a.span b.span, mag := max a.mag b.mag }

/-- Bounds of a quotient of a number by one above 0. -/
def quotRange (o l : Int × Int) : Int × Int :=
  (o.1 * one160 / (if 0 ≤ o.1 then l.2 else max 1 l.1), -(-(o.2 * one160) / (if 0 ≤ o.2 then max 1 l.1 else l.2)))

/-- Δ of R113, rounded up. -/
def QPartial.delta (p : QPartial) (qf : Nat) : Nat := p.exact.span * spanUnits qf / 2 ^ 24 + 1 + 2 ^ 149 + 2 ^ 139

/-- Roundings t + D + 8 of R113. -/
def QPartial.steps (p : QPartial) : Nat := p.tiles + p.depth + 8

/-- Upper bound of e^x for a number x up to 40; above, none. -/
def expPos (x : Nat) : Option Nat := if 40 * 2 ^ 160 < x then none else some (2 ^ 320 / max 1 (expNeg x).1 + 1)

/-- R113's bound on a normalised element; none where it is beyond every output. -/
def QPartial.errorBound (p : QPartial) (qf : Nat) : Option Nat :=
  (expPos (2 * p.delta qf)).map fun e => p.exact.mag * (e - 2 ^ 160 + p.steps * 2 ^ 137 + 2 ^ 143) / 2 ^ 160 + 1

/-- Numbers a normalised element may have (R113). -/
def QPartial.elementRange (p : QPartial) (qf : Nat) (o : Int × Int) : Option (Int × Int) :=
  (p.errorBound qf).map fun e => ((quotRange o p.exact.l).1 - e, (quotRange o p.exact.l).2 + e)

def clampTo (r : Option (Int × Int)) (x : Int) : Int := match r with | some r => max r.1 (min r.2 x) | none => x

/-! ### Partials (R101, R102, R104) -/

/-- The empty partial: m = −∞, l = 0, o = 0. -/
def QPartial.none_ : QPartial :=
  { empty := true, nan := false, m := 0xFF800000, l := 0, o := List.replicate 128 0, tiles := 0, depth := 0
    exact := { top := 0, l := (0, 0), o := [], span := 0, mag := 0 } }

/-- The partial of a head that is not finite. -/
def QPartial.nan_ : QPartial :=
  { QPartial.none_ with empty := false, nan := true, m := 0x7FC00000, l := 0x7FC00000, o := List.replicate 128 0x7FC00000 }

/-- `update` of one element, as a code. -/
def State.updateCode (s : State) (α : Int) (old : W32) (β : Int) (terms : List Int) : W32 × State :=
  let r := s.update α (fp32Val old) β terms
  (rankCode r.1, r.2)

/-- `update` of each element of o, its terms given by position. -/
def State.updateAll (s : State) (α β : Int) (terms : Nat → List Int) : List W32 → Nat → List W32 × State
  | [], _ => ([], s)
  | x :: xs, c =>
    let y := s.updateCode α x β (terms c)
    let r := y.2.updateAll α β terms xs (c + 1)
    (y.1 :: r.1, r.2)

/-- Whether a scaled score of finite operands leaves the FP32 range (R104). -/
def scoreOverflows (scale : Nat) (q k : List Val) : Bool := magVal encFp32.maxCode * 2 ^ 320 < (exactScore scale q k).natAbs

/-- Whether the operands a node sends, score scale and query, are finite. -/
def operandsFinite (scale : Nat) (q : List Val) : Bool := (encFp32.decode scale).finite && q.all Val.finite

/-- Some free codes. -/
def State.codes (s : State) : Nat → List W32 × State
  | 0 => ([], s)
  | n + 1 =>
    let r := (s.free).2.codes n
    ((s.free).1.setWidth 32 :: r.1, r.2)

/-- The partial after a tile met a query or a score scale that is not finite: NaN or any numbers, since the spec states no result (log 41). -/
def State.openPartial (s : State) (old : QPartial) : QPartial × State :=
  let nan := s.pick 0 1
  let c := nan.2.codes 130
  (if nan.1 = 1 then QPartial.nan_
    else { old with empty := false, nan := false, m := c.1.getD 0 0, l := c.1.getD 1 0, o := c.1.drop 2, exact := { old.exact with span := 2 ^ 1024 } }, c.2)

/-- One tile of R101 over a row's query head: its scores and values of the eligible positions, at least one. -/
def State.tileUpdate (s : State) (scale qf : Nat) (old : QPartial) (q : List Val) (keys vals : List (List Val)) : QPartial × State :=
  let sc := s.scores scale qf q keys
  let t := maxOf sc.1
  let m0 := fp32Val old.m
  let m1 := if old.empty then t else max m0 t
  let α := if old.empty then (0, sc.2) else sc.2.expFp32 (m1 - m0).natAbs
  let β := α.2.expFp32 (m1 - t).natAbs
  let ps := β.2.probs t sc.1
  let l := ps.2.updateCode α.1 old.l β.1 (ps.1.map (· * one160))
  let o := l.2.updateAll α.1 β.1 (fun c => (ps.1.zip vals).map fun x => x.1 * valNum (x.2.getD c (.fin 0))) old.o 0
  let ex := ((keys.zip vals).map fun x => Exact.ofKey scale q x.1 x.2).foldl (fun (a : Option Exact) x => match a with
    | none => some x
    | some y => some (y.join x)) (if old.empty then none else some old.exact)
  ({ empty := false, nan := false, m := rankCode (nearRank m1), l := l.1, o := o.1, tiles := old.tiles + 1, depth := old.depth, exact := ex.getD old.exact }, o.2)

/-- A tile of R101, or the NaN of R104. -/
def State.newPartial (s : State) (scale qf : Nat) (old : QPartial) (q : List Val) (keys vals : List (List Val)) : QPartial × State :=
  if old.nan || !((keys ++ vals).all fun v => v.all Val.finite) || (operandsFinite scale q && keys.any (scoreOverflows scale q)) then (QPartial.nan_, s)
  else if operandsFinite scale q then s.tileUpdate scale qf old q keys vals
  else s.openPartial old

/-- Updates the core partials of a head's query heads, one by one, by a tile's eligible positions; without one it leaves them unchanged (R101, R104). -/
def State.addToPartials (s : State) (scale qf : Nat) (old : List QPartial) (qs keys vals : List (List Val)) : List QPartial × State :=
  if keys.isEmpty then (old, s)
  else (old.zip (List.range old.length)).foldl (fun (acc : List QPartial × State) x =>
    let r := acc.2.newPartial scale qf x.1 (qs.getD x.2 []) keys vals
    (acc.1 ++ [r.1], r.2)) ([], s)

/-- Scarf merge of two partials that are not empty (R102). -/
def State.joinPartials (s : State) (a b : QPartial) : QPartial × State :=
  let ma := fp32Val a.m
  let mb := fp32Val b.m
  let top := max ma mb
  let wa := s.expFp32 (top - ma).natAbs
  let wb := wa.2.expFp32 (top - mb).natAbs
  let term := fun (x : W32) => [fp32Val x * one160]
  let l := wb.2.updateCode wa.1 a.l wb.1 (term b.l)
  let o := l.2.updateAll wa.1 wb.1 (fun c => term (b.o.getD c 0)) a.o 0
  ({ empty := false, nan := false, m := rankCode (nearRank top), l := l.1, o := o.1, tiles := max a.tiles b.tiles, depth := max a.depth b.depth + 1
     exact := a.exact.join b.exact }, o.2)

/-- Scarf merge: an empty partial leaves the other (R102), a NaN of either stays (R104). -/
def State.mergePartial (s : State) (a b : QPartial) : QPartial × State :=
  if a.empty then (b, s) else if b.empty then (a, s) else if a.nan || b.nan then (QPartial.nan_, s) else s.joinPartials a b

/-! ### Output of a query head (R87, R98, R102, R104, R113) -/

/-- A number of an output format, most significant byte first. -/
def outElem (fmt code : Nat) : List Byte := beBytes (payloadBytes fmt) code

/-- Canonical NaN of an output format. -/
def outNan (fmt : Nat) : Nat := ((encOf fmt).nan).getD 0

/-- o / l in units of 2^-320, its last bit set where the division leaves a rest, so that rounding it is rounding the quotient. -/
def quotient (o l : Int) : Int :=
  let n := o.natAbs * 2 ^ 320
  let q : Nat := n / l.natAbs ||| (if n % l.natAbs = 0 then 0 else 1)
  if o < 0 then -q else q

/-- A normalised element: o / l, within R113's bound, rounded to nearest even and saturated (R87, R102). -/
def QPartial.normal (p : QPartial) (qf fmt c : Nat) : Nat :=
  let x := quotient (fp32Val (p.o.getD c 0)) (fp32Val p.l)
  (encOf fmt).encode (.fin (clampTo ((p.elementRange qf (p.exact.o.getD c (0, 0))).map fun r => (r.1 * one160, r.2 * one160)) x)) 160

/-- l of a partial sent as such: l × e^m lies within R113's factor of the exact sum. -/
def QPartial.sentL (p : QPartial) (qf : Nat) : Int :=
  let f : Int := ((p.delta qf + p.steps * 2 ^ 136 + 2 ^ 142 : Nat) : Int)
  let d : Int := p.exact.top / 2 ^ 320 - fp32Val p.m
  let up : Int := f + 1 + d
  let down : Int := f - d
  let factor := fun (x : Int) => if 0 ≤ x then expPos x.toNat else some (expNeg x.natAbs).2
  let lower := fun (x : Int) => if 0 ≤ x then some (expNeg x.toNat).1 else (expPos x.natAbs).map fun _ => 2 ^ 320 / (expNeg x.natAbs).2
  match factor up, lower down with
  | some u, some w => rankVal (max (ceilRank (p.exact.l.1 * w / one160)) (min (floorRank (-(-(p.exact.l.2 * u) / one160))) (nearRank (fp32Val p.l))))
  | _, _ => fp32Val p.l

/-- An element of o of a partial sent as such: o / l lies within R113's bound. -/
def QPartial.sentO (p : QPartial) (qf fmt c : Nat) : Nat :=
  let l := p.sentL qf
  (encOf fmt).encode (.fin (clampTo ((p.elementRange qf (p.exact.o.getD c (0, 0))).map fun r => (r.1 * l / one160, -(-(r.2 * l) / one160)))
    (fp32Val (p.o.getD c 0)))) 0

/-- Bytes of one query head's output (Table 3-4). -/
def headOut (b : AttendBody) (p : QPartial) : List Byte :=
  let f := b.oFmt.toNat
  let qf := b.qFmt.toNat
  let each := fun (e : Nat → Nat) => (List.range 128).flatMap fun c => outElem f (e c)
  if b.oMode = 1 then
    each (fun c => if p.nan then outNan f else if p.empty then 0 else p.sentO qf f c) ++ beBytes 4 p.m.toNat
      ++ beBytes 4 (if p.nan || p.empty then p.l.toNat else (rankCode (nearRank (p.sentL qf))).toNat)
  else each fun c => if p.nan then outNan f else if p.empty || fp32Val p.l ≤ 0 then 0 else p.normal qf f c

end Sys2Proof.Machine
end

