-- ==== Sys2Proof/Machine/Hash.lean ====
section
/-!
DEFINITION. SHAKE256 as FIPS 202 defines it, which the spec names and does not repeat (R149, R323, R326; log 17), and the key derivation of Table 10-7.
-/
namespace Sys2Proof.Machine

/-- The state of the permutation: FIPS 202's array of 5 by 5 lanes, kept row by row. -/
abbrev Sponge := List W64

/-- Lane A[x, y], both taken modulo 5. -/
def Sponge.at (a : Sponge) (x y : Nat) : W64 := a.getD (y % 5 * 5 + x % 5) 0

/-- The array whose lane (x, y) a rule gives. -/
def Sponge.build (f : Nat → Nat → W64) : Sponge := (List.range 5).flatMap fun y => (List.range 5).map fun x => f x y

/-- θ: a lane takes in the parity of the column before its own and that of the column after, the latter moved by one place (FIPS 202, 3.2.1). -/
def Sponge.theta (a : Sponge) : Sponge :=
  let parity := (List.range 5).map fun x => (List.range 5).foldl (fun w y => w ^^^ a.at x y) 0
  Sponge.build fun x y => a.at x y ^^^ parity.getD ((x + 4) % 5) 0 ^^^ (parity.getD ((x + 1) % 5) 0).rotateLeft 1

/-- ρ and π in one walk: from (1, 0) each step goes from (x, y) to (y, 2x + 3y), which is where π puts the lane, and the t-th lane met moves by
(t + 1)(t + 2) / 2 places (3.2.2, 3.2.3). -/
def Sponge.walk (a : Sponge) : Nat → Nat → Nat → Nat → Sponge → Sponge
  | 0, _, _, _, out => out
  | n + 1, t, x, y, out => Sponge.walk a n (t + 1) y ((2 * x + 3 * y) % 5)
      (out.set ((2 * x + 3 * y) % 5 * 5 + y) ((a.at x y).rotateLeft ((t + 1) * (t + 2) / 2 % 64)))

/-- χ: a lane takes in the next two of its row, the nearer one inverted (3.2.4). -/
def Sponge.chi (a : Sponge) : Sponge := Sponge.build fun x y => a.at x y ^^^ ((a.at (x + 1) y ^^^ BitVec.allOnes 64) &&& a.at (x + 2) y)

/-- The shift register of ι after `t` steps from 1: a bit that leaves its eight places returns at 0, 4, 5 and 6 (3.2.5, algorithm 5). -/
def iotaRegister : Nat → Nat
  | 0 => 1
  | t + 1 => if 128 ≤ iotaRegister t then 2 * iotaRegister t ^^^ 0x171 else 2 * iotaRegister t

/-- The constant of a round: place 2^j − 1 holds the register's low bit after j + 7 × round steps. -/
def iotaConstant (round : Nat) : W64 :=
  (List.range 7).foldl (fun w j => if iotaRegister (j + 7 * round) % 2 = 1 then w ||| BitVec.ofNat 64 (2 ^ (2 ^ j - 1)) else w) 0

/-- One round. -/
def Sponge.round (a : Sponge) (i : Nat) : Sponge :=
  let b := (Sponge.walk a.theta 24 0 1 0 a.theta).chi
  b.set 0 (b.at 0 0 ^^^ iotaConstant i)

/-- The permutation: 24 rounds. -/
def Sponge.permute (a : Sponge) : Sponge := (List.range 24).foldl Sponge.round a

/-- Bytes of SHAKE256's rate, 1,600 − 512 bits (6.2). -/
def shakeRate : Nat := 136

/-- Takes in one block at the rate: its bytes lie from lane 0 on, least significant byte first, and the capacity stays. -/
def Sponge.absorb (a : Sponge) (block : List Byte) : Sponge :=
  Sponge.permute (Sponge.build fun x y =>
    a.at x y ^^^ (if (5 * y + x) * 8 < shakeRate then BitVec.ofNat 64 (leNat ((block.drop ((5 * y + x) * 8)).take 8)) else 0))

/-- Input whose last block, less than the rate, is closed by the suffix 1111 and pad10*1 (5.1, 6.2). -/
def Sponge.absorbAll : Nat → Sponge → List Byte → Sponge
  | 0, a, _ => a
  | n + 1, a, bs =>
    if shakeRate ≤ bs.length then Sponge.absorbAll n (a.absorb (bs.take shakeRate)) (bs.drop shakeRate)
    else
      let last := leNat bs + 0x1F * 256 ^ bs.length + 0x80 * 256 ^ (shakeRate - 1)
      a.absorb (leBytes shakeRate last)

/-- Squeezes at the rate until it has `n` bytes; the fuel is the number of blocks. -/
def Sponge.squeeze : Nat → Sponge → Nat → List Byte
  | 0, _, _ => []
  | k + 1, a, n =>
    let out := (a.flatMap fun w => leBytes 8 w.toNat).take (min n shakeRate)
    out ++ Sponge.squeeze k a.permute (n - shakeRate)

/-- The first `n` bytes of SHAKE256. -/
def shake256 (bs : List Byte) (n : Nat) : List Byte :=
  Sponge.squeeze (cdiv n shakeRate) (Sponge.absorbAll (bs.length / shakeRate + 1) (List.replicate 25 0) bs) n

/-- ASCII bytes of a label. -/
def ascii (s : String) : List Byte := s.toList.map fun c => BitVec.ofNat 8 c.toNat

/-- KDF(K, label, n) (Table 10-7, R323). -/
def kdf (k : List Byte) (label : String) (n : Nat) : List Byte := shake256 (k ++ ascii label ++ beBytes 2 n) n

/-- The 64-byte hashes of R326 and R349. -/
def hash64 (bs : List Byte) : List Byte := shake256 bs 64

end Sys2Proof.Machine
end

