-- ==== Sys2Proof/Machine/Mort.lean ====
section
/-!
DEFINITION. The Mortise array: fingerprints, searches, insertions, deletions, the second level, and lookups (R149 to R172).
-/
namespace Sys2Proof.Machine

/-! ### Keys and salts (R150, R324) -/

/-- The released root key of a tenant. -/
def State.tenantKey (s : State) (p t : Nat) : Option TenantKey := s.sec.keys.find? fun k => k.part == p && k.tenant == t

/-- Uses a tenant's derived keys: a miss unwraps them, and the least recently used of 1,024 entries gives way (R324). -/
def State.useKey (s : State) (p t : Nat) : State :=
  let hit := s.sec.cache.contains (p, t)
  (if hit then s else s.bump 0x6030 2 0 1).onSec fun x => { x with cache := ((p, t) :: x.cache.filter (· != (p, t))).take 1024 }

/-- Prefix salt of a tenant (Table 10-7). -/
def TenantKey.salt (k : TenantKey) : List Byte := kdf k.key "HN-PREFIX" 32

/-- Public salt of a partition, when one is set (R150). -/
def State.publicSalt (s : State) (p : Nat) : Option (List Byte) := (s.objs.salts.find? (·.1 == p)).map (·.2)

/-! ### Fingerprints (R149) -/

/-- Fingerprint of one block from the one before it. -/
def fingerprint (salt : List Byte) (prev variant : Nat) (ts : List W32) : Nat :=
  beNat (shake256 (salt ++ beBytes 16 prev ++ leBytes 2 variant ++ ts.flatMap fun t => leBytes 4 t.toNat) 16)

/-- Tokens of block i. -/
def blockTokens (ts : List W32) (i : Nat) : List W32 := (ts.drop (64 * i)).take 64

/-- F(i) of a token sequence. -/
def chainAt (salt : List Byte) (variant : Nat) (ts : List W32) : Nat → Nat
  | 0 => fingerprint salt 0 variant (blockTokens ts 0)
  | i + 1 => fingerprint salt (chainAt salt variant ts i) variant (blockTokens ts (i + 1))

/-- F(first) to F(first + n - 1), from the fingerprint before them. -/
def chainFrom (salt : List Byte) (variant : Nat) (ts : List W32) : Nat → Nat → Nat → List Nat
  | 0, _, _ => []
  | n + 1, first, prev =>
    fingerprint salt prev variant (blockTokens ts first) ::
      chainFrom salt variant ts n (first + 1) (fingerprint salt prev variant (blockTokens ts first))

/-- Fold of a head mask (Table 5-2). -/
def headFold (mask : Nat) : Nat := (List.range 8).foldl (fun a i => a ^^^ (mask / 256 ^ i % 256)) 0

/-- Priority of an entry (R152). -/
def prefixPriority (cls block : Nat) : Nat := 16384 * cls + 16383 - min block 16383

/-! ### Banks and searches (R155, R158) -/

/-- Whether the array island serves: neither fenced nor held in reset. While it relocks its PLL it serves on, and only issues nothing new (R21, R163). -/
def State.mortiseUp (s : State) : Bool :=
  ((s.island 17).map fun i => i.st == .running || i.st == .clockChanging).getD false && !s.fenced (srcIsland 17) && !s.fenced srcEngine

/-- Array cycles so far: those counted when the clock last changed, and those at the present clock since (R170, log 28). -/
def State.arrayCycles (s : State) : Nat := s.mortise.cycles + (s.clock.us - s.mortise.cyclesUs) * ((s.island 17).map (·.clk)).getD 1250000 / 1000

/-- Counts the array cycles up to now, before the island's clock changes. -/
def State.markCycles (s : State) : State := s.onMortise fun m => { m with cycles := s.arrayCycles, cyclesUs := s.clock.us }

/-- Recency clock: ticks of 2^26 array cycles (R170). -/
def State.recency (s : State) : Nat := s.arrayCycles / 2 ^ 26 % 65536

/-- Age of a stamp in ticks. -/
def State.stampAge (s : State) (stamp : Nat) : Nat := (s.recency + 65536 - stamp) % 65536

/-- Running banks of the group of a fingerprint's home bank under a bank mode. -/
def State.groupBanks (s : State) (fp mode : Nat) : List Nat :=
  ((List.range (2 ^ mode)).map fun i => fp / 2 ^ 122 / 2 ^ mode * 2 ^ mode + i).filter fun b => !s.fenced (srcBank b)

/-- Group size mode insertions use: the target of mode moves, when some run (R157). -/
def State.insertMode (s : State) : Nat := s.mortise.target.getD s.mortise.mode

def State.bank (s : State) (b : Nat) : Bank := (s.mortise.banks.find? (·.num == b)).getD { num := b, slots := [] }

/-- Replaces the slots of a bank. -/
def State.setBank (s : State) (b : Nat) (slots : List (Nat × Entry)) : State :=
  s.onMortise fun m => { m with banks := (
    if m.banks.any (·.num == b) then mapIf (·.num == b) (fun _ => { num := b, slots := slots }) m.banks
    else m.banks ++ [{ num := b, slots := slots }]) }

/-- A search key. -/
structure SearchKey where
  fp : Nat
  variant : Nat
  tenant : Nat
  part : Nat
  published : Bool
  fold : Nat
  deriving DecidableEq, Repr

/-- Whether an entry matches under its care mask (R153, R158). -/
def Entry.hits (e : Entry) (k : SearchKey) : Bool :=
  !e.moving && e.fp == k.fp && e.variant == k.variant && e.part == k.part && e.published == k.published && e.fold == k.fold
    && (e.published || e.tenant == k.tenant)

/-- Matching entries of some banks as (bank, index, entry). -/
def State.matching (s : State) (bs : List Nat) (k : SearchKey) : List (Nat × Nat × Entry) :=
  (sortNat bs).flatMap fun b => ((s.bank b).slots.filter fun x => x.2.hits k).map fun x => (b, x.1, x.2)

/-- Whether one matching entry is better than another: of higher priority, or of equal priority in a lower bank, or at a lower index of the same bank. -/
def betterMatch (x y : Nat × Nat × Entry) : Bool :=
  y.2.2.priority < x.2.2.priority || (y.2.2.priority == x.2.2.priority && (x.1 < y.1 || (x.1 == y.1 && x.2.1 < y.2.1)))

/-- Best match: the highest priority, first in bank and index order. -/
def bestMatch (l : List (Nat × Nat × Entry)) : Option (Nat × Nat × Entry) :=
  l.foldl (fun acc x => match acc with
    | none => some x
    | some y => if betterMatch x y then some x else some y) none

/-- Result of a search (R158). -/
structure SearchResult where
  count : Nat
  best : Option (Nat × Nat × Entry)
  tie : Bool
  deriving DecidableEq, Repr

def searchOf (l : List (Nat × Nat × Entry)) : SearchResult :=
  { count := min 255 l.length, best := bestMatch l
    tie := match bestMatch l with
      | none => false
      | some b => 2 ≤ l.countP fun x => x.2.2.priority == b.2.2.priority }

/-- One array search of a group with a running bank: its result, counted (0x2403, R384). -/
def State.arraySearch (s : State) (k : SearchKey) (tenant : Nat) : SearchResult × State :=
  let r := searchOf (s.matching (s.groupBanks k.fp s.mortise.mode) k)
  let s1 := ((s.bump 0x2403 2 k.part 1).bump 0x2403 3 k.part (bit r.best.isSome)).bump 0x2403 0x0B k.part (bit r.tie)
  (r, s1.energy k.part tenant (searchEnergy s.mortise.mode))

/-- Whether every bank of a key's group is fenced (R155). -/
def State.dark (s : State) (k : SearchKey) : Bool := (s.groupBanks k.fp s.mortise.mode).isEmpty

/-- The array's answer to a key. A search of an all-fenced group is none, and is counted in 0x2403.04 when no second level answers it (R155). -/
def State.arrayAnswer (s : State) (k : SearchKey) (tenant : Nat) : Option Entry × State :=
  if s.dark k then (none, s.bump 0x2403 4 k.part (bit (s.act 0x2402 8 k.part = 0)))
  else
    let r := s.arraySearch k tenant
    (r.1.best.map (·.2.2), r.2)

/-! ### Prefix nodes (R154) -/

def State.prefixNode (s : State) (p i : Nat) : Option PrefixNode := s.mortise.nodes.find? fun n => n.part == p && n.index == i

def State.onNodeRec (s : State) (p i : Nat) (f : PrefixNode → PrefixNode) : State :=
  s.onMortise fun m => { m with nodes := mapIf (fun n => n.part == p && n.index == i) f m.nodes }

/-- Lowest unused prefix node index of a partition (log 29). -/
def State.freeNode (s : State) (p : Nat) : Nat :=
  (sortNat ((s.mortise.nodes.filter (·.part == p)).map (·.index))).foldl (fun a i => if a = i then a + 1 else a) 0

/-- Where an entry with a payload stands: bank × 4,096 + index in the array, bucket × 4 + slot in the second level. -/
def State.nodeLocation (s : State) (p i : Nat) : Option Nat :=
  match s.mortise.banks.findSome? fun b => (b.slots.find? fun x => x.2.part == p && x.2.payload == i).map fun x => b.num * 4096 + x.1 with
  | some l => some l
  | none => (s.mortise.second.find? fun x => x.part == p && x.entry.payload == i).map fun x => x.bucket * 4 + x.slot

/-- Channel of record `j` of one of a partition's tables in its HBM: the records lie round-robin on its channels (log 145). -/
def State.tableChannel (s : State) (p j : Nat) : Nat :=
  let chs := s.channelsOf p false
  chs.getD (j % max 1 chs.length) 0

/-- Takes an entry and its prefix node out. -/
def State.removeEntry (s : State) (p i : Nat) : State :=
  (s.onMortise fun m => { m with
    banks := m.banks.map fun b => { b with slots := b.slots.filter fun x => !(x.2.part == p && x.2.payload == i) }
    second := m.second.filter fun x => !(x.part == p && x.entry.payload == i)
    nodes := m.nodes.filter fun n => !(n.part == p && n.index == i) }).bump 0x2403 8 p 1

/-- Deletes an entry by its prefix node: it never matches again, and its node is free (R168). `row` and `cls` are charged (R169). -/
def State.deleteEntry (s : State) (p i row cls : Nat) : State :=
  if (s.nodeLocation p i).isNone then s
  else (s.removeEntry p i).oweAll [searchCost row cls 1, channelCost (s.tableChannel p i) row cls 1]

/-! ### Insertion (R165, R170, R172) -/

/-- Second-level buckets B in force. -/
def State.buckets (s : State) (p : Nat) : Nat := s.act 0x2402 8 p

/-- Puts an evicted or unplaced entry into the second level; a full bucket drops its lowest-priority, oldest entry, and counts it in 0x2403.0A (R172). Where two
are equal in both, the one that stands in the bucket goes before the one that comes, and the first listed before the others (log 147). -/
def State.toSecond (s : State) (e : Entry) : State :=
  let b := s.buckets e.part
  if b = 0 then (s.bump 0x2403 0x0A e.part 1).onMortise fun m => { m with nodes := m.nodes.filter fun n => !(n.part == e.part && n.index == e.payload) }
  else
    let here := s.mortise.second.filter fun x => x.part == e.part && x.bucket == e.fp % b
    let put := fun (st : State) (slot : Nat) =>
      (st.onMortise fun m => { m with second := m.second ++ [{ part := e.part, bucket := e.fp % b, slot := slot, entry := e }] }).onNodeRec e.part e.payload
        fun n => { n with second := true }
    match (List.range 4).find? fun i => !here.any (·.slot == i) with
    | some i => put s i
    | none =>
      let worse := fun (x y : Entry) => x.priority < y.priority || (x.priority == y.priority && s.stampAge y.stamp < s.stampAge x.stamp)
      match here.foldl (fun (acc : Option SecondSlot) x => match acc with
        | none => some x
        | some y => if worse x.entry y.entry then some x else some y) none with
      | none => s
      | some w =>
        let s1 := s.bump 0x2403 0x0A e.part 1
        if worse e w.entry then
          s1.onMortise fun m => { m with nodes := m.nodes.filter fun n => !(n.part == e.part && n.index == e.payload) }
        else put (s1.onMortise fun m => { m with
          second := m.second.filter (· != w)
          nodes := m.nodes.filter fun n => !(n.part == e.part && n.index == w.entry.payload) }) w.slot

/-- Moves the entries of a contiguous run up by one place; the list runs from the highest index (log 30). -/
def shiftUp : List (Nat × Entry) → Nat → List (Nat × Entry)
  | [], _ => []
  | (i, e) :: r, at_ => if i = at_ then (i - 1, e) :: shiftUp r (at_ - 1) else (i, e) :: r

/-- One step of a shift: the entries at `z - m` to `z - 1` move down by one place into the free slot `z`. All but the topmost overwrite their old copies; that
one's copy has its moving bit set, and the copy the step before left moving is cleared, since its old copy is overwritten now (R165). -/
def shiftStep (slots : List (Nat × Entry)) (z m : Nat) : List (Nat × Entry) :=
  slots.flatMap fun x =>
    if x.1 = z - m then [x, (x.1 + 1, { x.2 with moving := true })]
    else if z - m < x.1 && x.1 < z then [(x.1 + 1, { x.2 with moving := false })]
    else if x.1 = z then [] else [(x.1, { x.2 with moving := false })]

/-- The bank after each step of the shift of the entries at `p` to `z - 1`, from the bottom up in steps of eight (R165). -/
def shiftSteps (slots : List (Nat × Entry)) (p : Nat) : Nat → Nat → List (List (Nat × Entry))
  | 0, _ => []
  | n + 1, z =>
    if z ≤ p then []
    else
      let next := shiftStep slots z (min 8 (z - p))
      next :: shiftSteps next p n (z - min 8 (z - p))

/-- Writes the new entry last: its slot's old copy goes, and the slot below has its moving bit cleared (R165). -/
def writeEntry (slots : List (Nat × Entry)) (p : Nat) (e : Entry) : List (Nat × Entry) :=
  let rest := slots.filter fun x => x.1 != p
  rest.filter (·.1 < p) ++ (p, e) :: (rest.filter (p < ·.1)).map fun x => (x.1, { x.2 with moving := false })

/-- Nearest free slot at or below `p`. -/
def freeBelow (slots : List (Nat × Entry)) (p : Nat) : Nat := slots.foldl (fun a x => if x.1 = a then a + 1 else a) p

/-- Where an entry goes in its bank: after the last of equal or higher priority (R159, R165). -/
def entryPlace (slots : List (Nat × Entry)) (e : Entry) : Nat := slots.foldl (fun a x => if e.priority ≤ x.2.priority then x.1 + 1 else a) 0

/-- A bank's slots with an entry inserted (R165). With no free slot below its place, the entries above move up instead (log 30). -/
def bankInsert (slots : List (Nat × Entry)) (e : Entry) : List (Nat × Entry) :=
  let p := entryPlace slots e
  let z := freeBelow slots p
  if z ≤ 4095 then writeEntry ((shiftSteps slots p (z - p) z).getLastD slots) p e
  else (shiftUp (slots.filter (·.1 < p)).reverse (p - 1)).reverse ++ (p - 1, e) :: slots.filter (p ≤ ·.1)

/-- Quota of a closed partition in each bank (R316). -/
def State.bankQuota (s : State) (p : Nat) : Nat :=
  if s.act (0x6400 + p) 3 0 = 1 then 4096 * (s.slicesOf p).length / sliceCount s.dev.part else 0

/-- Entries of a partition in a bank. -/
def bankHeld (b : Bank) (p : Nat) : Nat := b.slots.countP fun x => x.2.part == p

/-- Whether a bank has room for an entry of a partition: free slots beyond what other closed partitions' quotas still claim (R316). -/
def State.bankRoom (s : State) (b p : Nat) : Bool :=
  let bk := s.bank b
  bk.slots.length + sumOf (fun q => if q = p then 0 else s.bankQuota q - bankHeld bk q) (List.range 64) < 4096

/-- Entries an insertion of partition `p` may evict from a bank (R316). -/
def State.evictable (s : State) (p : Nat) (b : Bank) : List (Nat × Nat × Entry) :=
  (b.slots.filter fun x => x.2.part == p || s.bankQuota x.2.part < bankHeld b x.2.part || s.bankQuota x.2.part = 0).map fun x => (b.num, x.1, x.2)

/-- Victim of R170: lowest priority, then oldest stamp, then highest bank and index. -/
def State.victim (s : State) (l : List (Nat × Nat × Entry)) : Option (Nat × Nat × Entry) :=
  l.foldl (fun acc x => match acc with
    | none => some x
    | some y =>
      if x.2.2.priority < y.2.2.priority then some x
      else if x.2.2.priority = y.2.2.priority && s.stampAge y.2.2.stamp ≤ s.stampAge x.2.2.stamp then some x else some y) none

/-- Places an entry in the least-occupied bank with room, or evicts under R170; an all-fenced group sends it to the second level (R155). -/
def State.placeEntry (s : State) (e : Entry) : State :=
  let bs := s.groupBanks e.fp s.insertMode
  let least := fun (st : State) => (bs.filter fun b => st.bankRoom b e.part).foldl (fun (acc : Option Nat) b => match acc with
    | none => some b
    | some a => if (st.bank b).slots.length < (st.bank a).slots.length then some b else some a) none
  if bs.isEmpty || !s.mortiseUp then s.toSecond e
  else match least s with
    | some b => (s.setBank b (bankInsert (s.bank b).slots e)).onNodeRec e.part e.payload fun n => { n with second := false }
    | none =>
      match s.victim (bs.flatMap fun b => s.evictable e.part (s.bank b)) with
      | none => s.toSecond e
      | some (b, i, v) =>
        if e.priority < v.priority then s.toSecond e
        else
          let s1 := (((s.setBank b ((s.bank b).slots.filter (·.1 != i))).bump 0x2403 9 v.part (bit (s.buckets v.part ≠ 0))).oweAll
            [searchCost 64 7 4, channelCost (s.tableChannel v.part (v.fp % max 1 (s.buckets v.part))) 64 7 2]).toSecond v
          (s1.setBank b (bankInsert (s1.bank b).slots e)).onNodeRec e.part e.payload fun n => { n with second := false }

/-- Creates an entry and its prefix node (R151 to R154). -/
def State.createEntry (s : State) (e : Entry) (block cls holder publishers : Nat) : State :=
  let i := s.freeNode e.part
  ((s.onMortise fun m => { m with nodes := m.nodes ++
    [{ part := e.part, index := i, holder := holder, block := block, cls := cls, published := e.published, second := false
       publishers := publishers, hits := 0, lastHit := 0 }] }).bump 0x2403 7 e.part 1).placeEntry { e with payload := i, stamp := s.recency }

/-- Deletes every entry that names a sequence, from a block on, and the insertions not yet made (R168); the class of the message that frees it pays
(log 146). -/
def State.dropPrefix (s : State) (h from_ : Nat) : State :=
  (s.each (s.mortise.nodes.filter fun n => n.holder == h && from_ ≤ n.block) fun s n => s.deleteEntry n.part n.index n.part 7).onMortise fun m =>
    { m with insertions := m.insertions.filter fun x => !(x.holder == h && from_ ≤ x.block) }

/-- Takes one linker from a sequence; a retained one left with none is freed with the entries that name it, and so down its own link (R62, R168). The fuel
bounds the link depth. -/
def State.unlink (s : State) : Nat → Nat → State
  | 0, _ => s
  | n + 1, h =>
    match s.seq h with
    | none => s
    | some q =>
      if q.linkers ≤ 1 && q.st == .retained then ((s.dropPrefix h 0).dropSeq h).unlink n q.link
      else s.onSeq h fun x => { x with linkers := x.linkers - 1 }

/-- Queues the automatic insertions of the blocks sealed between two positions (R164). -/
def State.issueInsertions (s : State) (h old new : Nat) : State :=
  match s.seq h with
  | none => s
  | some q =>
    if q.st != .live || q.posBase ≠ 0 || s.act 0x2402 4 q.part ≠ 1 || !s.mortiseUp || new / 64 ≤ old / 64 then s
    else match s.tenantKey q.part q.tenant with
      | none => s
      | some key =>
        let first := old / 64
        let prev := match q.chain with
          | some (i, f) => if i + 1 = first then f else if first = 0 then 0 else chainAt key.salt q.variant q.ledger (first - 1)
          | none => if first = 0 then 0 else chainAt key.salt q.variant q.ledger (first - 1)
        let fps := chainFrom key.salt q.variant q.ledger (new / 64 - first) first prev
        let cls := s.act 0x2402 6 q.part
        let s1 := ((s.useKey q.part q.tenant).onSeq h fun x => { x with chain := some (new / 64 - 1, fps.getLastD 0) })
        s1.each (List.range fps.length) fun s i =>
          let b := first + i
          if s.act 0x2402 5 q.part ≤ b || b < q.linkLen / 64 then s
          else (s.fresh).2.onMortise fun m => { m with insertions := m.insertions ++
            [{ id := (s.fresh).1, issued := false, block := b, cls := cls, holder := h
               entry := { stamp := 0, fp := fps.getD i 0, variant := q.variant, tenant := q.tenant, part := q.part, published := false
                          fold := headFold q.headMask, priority := prefixPriority cls b, payload := 0, moving := false } }] }

/-- Bank group of an insertion: one runs at a time in each (R167). -/
def State.insertGroup (s : State) (x : Insertion) : Nat := x.entry.fp / 2 ^ 122 / 2 ^ s.insertMode

/-- Issues a queued insertion when its group runs none and its class can be charged (R167, R169). -/
def State.issueInsertion (s : State) (x : Insertion) : State :=
  if !s.mortiseUp || s.mortise.insertions.any (fun y => y.issued && s.insertGroup y == s.insertGroup x) then s
  else s.charged [searchCost x.entry.part 1 4, channelCost (s.tableChannel x.entry.part (s.freeNode x.entry.part)) x.entry.part 1 2] fun s =>
    (s.meterBursts x.entry.part x.entry.tenant 2).onMortise fun m =>
      { m with insertions := mapIf (·.id == x.id) (fun y => { y with issued := true }) m.insertions }

/-- Issues what insertions can be issued, oldest first. -/
def State.pumpInsertions (s : State) : State := s.each (s.mortise.insertions.filter fun x => !x.issued) fun s x => s.issueInsertion x

/-! ### Lookups (R160 to R163) -/

/-- Whether a hit may be used: its holder live or retained, of the requester's geometry and base 0 (R59, R162). A LOOKUP or a probe names no
key-value head count, so its 0 leaves that check out (log 31). -/
def State.hitValid (s : State) (lk : Lookup) (e : Entry) : Option PrefixNode :=
  match s.prefixNode e.part e.payload with
  | none => none
  | some n => match s.seq n.holder with
    | none => none
    | some q => if q.st != .ledgerLost && (lk.kvHeads == 0 || q.kvHeads == lk.kvHeads) && q.headMask == lk.headMask && q.posBase == 0 && q.variant == lk.variant then some n else none

/-- Search key of a lookup on a chain. -/
def Lookup.key (lk : Lookup) (pub : Bool) : SearchKey :=
  { fp := if pub then lk.fpPub else lk.fpPriv, variant := lk.variant, tenant := lk.tenant, part := lk.part, published := pub
    fold := headFold lk.headMask }

/-- A hit when it may be used; a stale entry is deleted and counts as a miss (R162). -/
def State.checkHit (s : State) (lk : Lookup) (pub second : Bool) (e : Option Entry) : Option Hit × State :=
  match e with
  | none => (none, s)
  | some e => match s.hitValid lk e with
    | some _ => (some { block := lk.block, pub := pub, second := second, entry := e }, s)
    | none => (none, (s.deleteEntry e.part e.payload 64 7).bump 0x2403 0x0C lk.part 1)

/-- Salt of a chain of a lookup. -/
def State.chainSalt (s : State) (lk : Lookup) (pub : Bool) : List Byte :=
  if pub then (s.publicSalt lk.part).getD [] else ((s.tenantKey lk.part lk.tenant).map (·.salt)).getD []

/-- Array search of one chain at the lookup's block: its hit, and whether a second-level search must follow. -/
def State.chainSearch (s : State) (lk : Lookup) (pub : Bool) : Option Hit × Bool × State :=
  if !(if pub then lk.doPub else lk.doPriv) then (none, false, s)
  else
    let r := s.arrayAnswer (lk.key pub) lk.tenant
    let c := r.2.checkHit lk pub false r.1
    (c.1, c.1.isNone && 0 < s.buckets lk.part, c.2)

/-- The second-level slot that answers a key: the first that matches in its bucket (R171, log 147). -/
def State.secondSlot (s : State) (k : SearchKey) : Option SecondSlot :=
  s.mortise.second.find? fun x => x.part == k.part && x.bucket == k.fp % max 1 (s.buckets k.part) && x.entry.hits k

/-- The answer of a second-level search, counted (0x2403). -/
def State.secondAnswer (s : State) (k : SearchKey) : Option Entry × State :=
  let e := (s.secondSlot k).map (·.entry)
  (e, (s.bump 0x2403 4 k.part 1).bump 0x2403 5 k.part (bit e.isSome))

/-- The second-level search of one chain of a lookup (R172). -/
def State.secondSearch (s : State) (lk : Lookup) (pub : Bool) : Option Hit × State :=
  let r := s.secondAnswer (lk.key pub)
  (r.2.meterBursts lk.part lk.tenant 2).checkHit lk pub true r.1

/-- What the array searches of a lookup's block cost: one slot for each chain searched in a group with a running bank (R155, R169). -/
def State.searchCosts (s : State) (lk : Lookup) : List Cost :=
  [searchCost lk.part 0 (bit (lk.doPriv && !s.dark (lk.key false)) + bit (lk.doPub && !s.dark (lk.key true)))]

/-- What the second-level searches a block waits for cost: two slots, and two bursts at the bucket's channel, each. -/
def State.secondCosts (s : State) (lk : Lookup) : List Cost :=
  let one := fun (pub : Bool) => [searchCost lk.part 0 2, channelCost (s.tableChannel lk.part ((lk.key pub).fp % max 1 (s.buckets lk.part))) lk.part 0 2]
  (if lk.waitPriv then one false else []) ++ if lk.waitPub then one true else []

/-- Closes a block whose chains have answered: the hit used, or none when the lookup stops. -/
def Lookup.closeBlock (lk : Lookup) : Option Lookup :=
  match lk.hitPriv with
  | some h => some { lk with hits := lk.hits ++ [h], block := lk.block + 1, usedSecond := lk.usedSecond || h.second, hitPriv := none, hitPub := none }
  | none => match lk.hitPub with
    | some h => some { lk with hits := lk.hits ++ [h], block := lk.block + 1, usedSecond := lk.usedSecond || h.second, hitPriv := none, hitPub := none }
    | none => none

/-- A lookup with the fingerprints of its next block. -/
def State.withPrints (s : State) (lk : Lookup) : Lookup :=
  let ts := blockTokens lk.tokens lk.block
  { lk with fpPriv := if lk.doPriv then fingerprint (s.chainSalt lk false) lk.fpPriv lk.variant ts else 0
            fpPub := if lk.doPub then fingerprint (s.chainSalt lk true) lk.fpPub lk.variant ts else 0 }

/-- Runs a lookup block by block until it has stopped or must wait: for a charge, or for a second-level answer (R36, R160, log 81). -/
def State.runLookup (s : State) (lk : Lookup) : Nat → Lookup × State
  | 0 => ({ lk with phase := .ending }, s)
  | n + 1 =>
    if lk.tokens.length / 64 ≤ lk.block then ({ lk with phase := .ending }, s)
    else
      let lk1 := s.withPrints lk
      match s.chargeAll (s.searchCosts lk1) with
      | (_, some x) => (lk, s.markWait x)
      | (s1, none) =>
        let a := s1.chainSearch lk1 false
        let b := a.2.2.chainSearch lk1 true
        let lk2 := { lk1 with hitPriv := a.1, hitPub := b.1, waitPriv := a.2.1, waitPub := b.2.1 }
        if lk2.waitPriv || lk2.waitPub then ({ lk2 with phase := .secondDue }, b.2.2)
        else match lk2.closeBlock with
          | none => ({ lk2 with phase := .ending }, b.2.2)
          | some lk3 => b.2.2.runLookup lk3 n

/-- Issues the second-level searches a block waits for, once they can be charged. -/
def State.issueSecond (s : State) (lk : Lookup) : Lookup × State :=
  match s.chargeAll (mergeCosts (s.secondCosts lk)) with
  | (_, some x) => (lk, s.markWait x)
  | (s1, none) => ({ lk with phase := .secondRuns }, s1)

/-- Takes the next second-level answer of a lookup, private chain first; with the last one the block is closed (R160). -/
def State.secondDone (s : State) (lk : Lookup) : Lookup × State :=
  let r := s.secondSearch lk (!lk.waitPriv)
  let lk1 := if lk.waitPriv then { lk with hitPriv := r.1, waitPriv := false } else { lk with hitPub := r.1, waitPub := false }
  if lk1.waitPriv || lk1.waitPub then (lk1, r.2)
  else match lk1.closeBlock with
    | none => ({ lk1 with phase := .ending }, r.2)
    | some lk2 => ({ lk2 with phase := .searching }, r.2)

/-- A lookup from block 0 again (R163). -/
def Lookup.again (lk : Lookup) : Lookup :=
  { lk with phase := .searching, block := 0, fpPriv := 0, fpPub := 0, hits := [], waitPriv := false, waitPub := false, hitPriv := none, hitPub := none
            usedSecond := false }

/-- Last block usable through publication records: the largest up to `j` whose public fingerprint the tenant has a record for (R160). -/
def State.recordedTo (s : State) (lk : Lookup) (j : Nat) : Option Nat :=
  let fps := chainFrom (s.chainSalt lk true) lk.variant lk.tokens (j + 1) 0 0
  (List.range (j + 1)).foldl (fun acc i =>
    if s.mortise.records.any fun r => r.part == lk.part && r.tenant == lk.tenant && r.fp == fps.getD i 0 then some i else acc) none

/-- What a finished lookup matched: length, public length, holder, and the hits used. -/
structure Match where
  len : Nat
  pubLen : Nat
  holder : Nat
  hits : List Hit
  deriving DecidableEq, Repr

def Match.zero : Match := { len := 0, pubLen := 0, holder := 0, hits := [] }

/-- Last block of a stopped lookup that may be used: the last with a hit, or for a public one the last with a publication record (R160). -/
def State.lastBlock (s : State) (lk : Lookup) : Option Nat :=
  match lk.hits.getLast? with
  | none => none
  | some last => if last.pub then s.recordedTo lk (lk.hits.length - 1) else some (lk.hits.length - 1)

/-- Blocks of a lookup that the ledger of a holder bears out, of the first `j + 1` (R161). -/
def State.verifiedBlocks (s : State) (lk : Lookup) (holder j : Nat) : Nat :=
  let ledger := ((s.seq holder).map (·.ledger)).getD []
  ((List.range (j + 1)).takeWhile fun i => blockTokens ledger i == blockTokens lk.tokens i).length

/-- Holder of the block a lookup would link to. -/
def State.holderAt (s : State) (lk : Lookup) (j : Nat) : Nat :=
  (((lk.hits[j]?).bind fun h => s.prefixNode h.entry.part h.entry.payload).map (·.holder)).getD 0

/-- What the end of a lookup costs: a probe of 2 bursts for each step of the binary search over the records, at most 16, and 4 bursts for each block
verified, at the channel of the holder's ledger frame (R160, R169). -/
def State.endCosts (s : State) (lk : Lookup) : List Cost :=
  let probes := if (lk.hits.getLast?.map (·.pub)).getD false then
      channelCost (s.tableChannel lk.part lk.fpPub) lk.part 0 (2 * min 16 (Nat.log2 lk.hits.length + 1)) else searchCost lk.part 0 0
  match s.lastBlock lk with
  | none => [probes]
  | some j =>
    let frames := ((s.seq (s.holderAt lk j)).map (·.ledgerFrames)).getD []
    probes :: (List.range (min (j + 1) (s.verifiedBlocks lk (s.holderAt lk j) j + 1))).map fun i =>
      channelCost (frameChannel (frames.getD (i / 64) 0)) lk.part 0 4

/-- Ends a lookup: publication records, verification against the holder's ledger, matched length (R160, R161). None when the recheck of R162 fails at the
block it would link to: the lookup runs again from block 0 (R163). -/
def State.endLookup (s : State) (lk : Lookup) : Option Match × State :=
  if lk.hits.isEmpty || !s.mortiseUp then (some Match.zero, s)
  else
    let j0 := lk.hits.length - 1
    let j := s.lastBlock lk
    let s1 := if j != some j0 then s.bump 0x2403 0x0D lk.part 1 else s
    match j.bind fun j => (lk.hits[j]?).map fun h => (j, h) with
    | none => (some Match.zero, s1)
    | some (j, h) => match s1.hitValid lk h.entry with
      | none => (none, (s1.deleteEntry h.entry.part h.entry.payload 64 7).bump 0x2403 0x0C lk.part 1)
      | some nd =>
        let good := s1.verifiedBlocks lk nd.holder j
        let s2 := s1.meterBursts lk.part lk.tenant (4 * min (j + 1) (good + 1))
        let s3 := if good = j + 1 then s2
          else match lk.hits[good]? with
            | none => s2
            | some x =>
              let s4 := s2.bump 0x2403 6 lk.part 1
              if ((s4.prefixNode x.entry.part x.entry.payload).map (·.holder)) == some nd.holder then s4.deleteEntry x.entry.part x.entry.payload 64 7 else s4
        let used := lk.hits.take good
        (some { len := 64 * good, pubLen := used.foldl (fun a h => if h.pub then 64 * (h.block + 1) else a) 0
                holder := if good = 0 then 0 else nd.holder, hits := used }, s3)

/-- Marks the hits used for a link: stamp, hits, last hit, and promotion out of the second level (R163, R172). -/
def State.useHits (s : State) (hits : List Hit) : State :=
  s.each hits fun s h =>
    let p := h.entry.part
    let i := h.entry.payload
    let s1 := (s.onNodeRec p i fun n => { n with hits := min (n.hits + 1) (2 ^ 32 - 1), lastHit := s.ms }).onMortise fun m => { m with
      banks := m.banks.map fun b => { b with slots := b.slots.map fun x =>
        if x.2.part == p && x.2.payload == i then (x.1, { x.2 with stamp := s.recency }) else x } }
    match s1.mortise.second.find? fun x => x.part == p && x.entry.payload == i with
    | none => s1
    | some x =>
      (((s1.onMortise fun m => { m with second := m.second.filter (· != x) }).bump 0x2403 0x0E p 1).oweAll
        [searchCost 64 7 4, channelCost (s.tableChannel p x.bucket) 64 7 2]).placeEntry { x.entry with stamp := s.recency }

/-! ### Layouts (R151, R154, R171): what the entry array and a partition's tables hold -/

/-- Fields of an entry's bits [401:0], most significant first: valid and moving, key, care mask, priority and payload (Table 5-2). Every care bit is set but
those of a published entry's tenant (R153). -/
def Entry.body (e : Entry) : List (Nat × Nat) :=
  [(1, 1), (1, bit e.moving), (128, e.fp), (16, e.variant), (16, if e.published then 0 else e.tenant), (6, e.part), (1, bit e.published), (1, 0), (8, e.fold),
   (128, 2 ^ 128 - 1), (16, 2 ^ 16 - 1), (16, if e.published then 0 else 2 ^ 16 - 1), (6, 63), (1, 1), (1, 1), (8, 255), (16, e.priority), (32, e.payload)]

/-- Interleaved even parity over bits [401:0]: bit k covers every bit n with n mod 8 = k (Table 5-2). -/
def Entry.parity (e : Entry) : Nat :=
  (List.range 8).foldl (fun a k => a + 2 ^ k * ((List.range 51).countP (fun j => (packBits e.body).testBit (8 * j + k)) % 2)) 0

/-- The 426 bits of an entry. -/
def Entry.word (e : Entry) : Nat := packBits ([(16, e.stamp), (8, e.parity)] ++ e.body)

/-- Words of a prefix node (Table 5-3); its location is where its entry stands. -/
def PrefixNode.words (n : PrefixNode) (location : Nat) : List W64 :=
  [BitVec.ofNat 64 n.holder, packWord [(16, n.block), (2, n.cls), (1, bit n.published), (1, bit n.second), (27, 0), (17, n.publishers)],
   packWord [(32, location), (32, n.hits)], packWord [(16, 0), (48, n.lastHit)]]

/-- Words of a second-level slot (Table 5-8). -/
def SecondSlot.words (x : SecondSlot) : List W64 :=
  [BitVec.ofNat 64 x.entry.fp, BitVec.ofNat 64 (x.entry.fp / 2 ^ 64),
   packWord [(16, x.entry.variant), (16, if x.entry.published then 0 else x.entry.tenant), (6, x.entry.part), (1, bit x.entry.published), (1, 0),
             (8, x.entry.fold), (16, x.entry.priority)],
   packWord [(32, x.entry.payload), (16, x.entry.stamp), (1, 1), (15, 0)]]

/-- Words of a publication record: the fingerprint and the tenant (chapter 5, "Publication across tenants"; log 145). -/
def PubRecord.words (r : PubRecord) : List W64 := [BitVec.ofNat 64 r.fp, BitVec.ofNat 64 (r.fp / 2 ^ 64), BitVec.ofNat 64 r.tenant, 0]

/-- First byte address of a partition's tables: node table, second-level table and publication table, 1 GiB apart (log 145). -/
def mortiseBase (p : Nat) : Nat := 2 ^ 39 + 2 ^ 38 + p * 2 ^ 32

/-- Word of a partition's prefix tables at a byte address, when they lie there: 32-byte records, four slots of a bucket in a row. -/
def State.mortiseWord (s : State) (a : Nat) : W64 :=
  let p := (a - mortiseBase 0) / 2 ^ 32
  let off := (a - mortiseBase 0) % 2 ^ 32
  let rec_ := off % 2 ^ 30 / 32
  let words := if off < 2 ^ 30 then ((s.prefixNode p rec_).map fun n => n.words ((s.nodeLocation p rec_).getD 0)).getD []
    else if off < 2 ^ 31 then ((s.mortise.second.find? fun x => x.part == p && x.bucket == rec_ / 4 && x.slot == rec_ % 4).map (·.words)).getD []
    else (((s.mortise.records.filter (·.part == p))[rec_]?).map (·.words)).getD []
  words.getD (off / 8 % 4) 0

end Sys2Proof.Machine
end

