-- ==== Sys2Proof/Machine/Seqs.lean ====
section
/-!
DEFINITION. What happens to a sequence as a whole: home cluster, work in flight, sealing, mirroring, cuts, failing appends, cancelled rows
(R48, R78, R88, R111, R121, R124, R201, R268, R273).
-/
namespace Sys2Proof

/-- Layers a message names: the field holds the count less one. -/
def layerSpan (first count : Nat) : List Nat := (List.range (count + 1)).map (first + ·)

/-- Set bits of a head mask. -/
def headSpan (mask : Nat) : List Nat := (List.range 64).filter fun k => mask.testBit k

def AppendBody.first (b : AppendBody) : Nat := b.firstPos.toNat
def AppendBody.count (b : AppendBody) : Nat := b.posCount.toNat + 1
def AppendBody.stop (b : AppendBody) : Nat := b.first + b.count
def AppendBody.layers (b : AppendBody) : List Nat := layerSpan b.firstLayer.toNat b.layerCount.toNat
def AppendBody.heads (b : AppendBody) : List Nat := headSpan b.headMask.toNat

/-- Whether an append carries a layer and head. -/
def AppendBody.names (b : AppendBody) (l k : Nat) : Bool :=
  b.firstLayer.toNat ≤ l && l ≤ b.firstLayer.toNat + b.layerCount.toNat && b.headMask.toNat.testBit k

end Sys2Proof

namespace Sys2Proof.Machine

/-! ### Placement lists (R88, R89, R397) -/

/-- Whether a cluster's units run: neither fenced, gated nor resetting, and not held off (R88, R398). -/
def State.clusterRuns (s : State) (c : Nat) : Bool :=
  (match s.island (clusterIsland c) with
    | some i => i.st == .running || i.st == .clockChanging
    | none => false) && !s.clusterFenced c && !s.power.heldOff.contains c

/-- Running cores of a partition in a cluster under an epoch's lists, ascending. -/
def State.coresIn (s : State) (e p c : Nat) : List Nat :=
  sortNat (((s.slicesAt e p).filter fun sl => sliceCluster sl == c).flatMap fun sl => (sliceCores sl).filter fun k => !s.coreFenced k)

/-- Clusters of a partition that run and hold a running core of it under an epoch's lists, ascending; one that has come back since the commit is on the active
epoch's lists only (R377). -/
def State.clustersOf (s : State) (e p : Nat) : List Nat :=
  sortNat (((s.slicesAt e p).map sliceCluster).filter fun c =>
    s.clusterRuns c && !(s.coresIn e p c).isEmpty && !(s.epochs.prev == some e && s.epochs.returned.contains c))

/-- Slot of the last sequence of a link chain: ρ of R88. -/
def State.chainSlot (s : State) : Nat → Nat → Nat
  | 0, h => handleSlot h
  | n + 1, h => match s.seq h with
    | none => handleSlot h
    | some q => if q.link = 0 then q.slot else s.chainSlot n q.link

/-- Home cluster of a sequence: the one kept while it has a request in flight, else R88's under its epoch; none when no cluster of the partition runs. -/
def State.homeCluster (s : State) (q : Seq) : Option Nat :=
  match q.home with
  | some c => some c
  | none =>
    let k := s.clustersOf q.epoch q.part
    k[s.chainSlot 6 q.handle % max 1 k.length]?

/-! ### Work in flight -/

/-- Whether an append has been accepted: one that still waits for its payload or its turn has not (R118, R120). -/
def Append.accepted (a : Append) : Bool := a.phase != .reading

/-- Position below which a layer and head is written by completed appends (R108, R124). -/
def State.visible (s : State) (q : Seq) (l k : Nat) : Nat :=
  s.work.appends.foldl (fun m a => if a.handle = q.handle && a.accepted && !a.refresh && a.body.names l k then min m a.body.first else m) (q.frontier l k)

/-- The same over every layer and head of a part. -/
def State.allVisible (s : State) (q : Seq) : Nat :=
  (List.range q.layers).foldl (fun m l => q.heads.foldl (fun m k => min m (s.visible q l k)) m) (2 ^ 23)

/-- Epoch a row of an ATTEND runs under: its sequence's, which keeps it while the row is in flight (R249). -/
def State.rowEpoch (s : State) (r : Row) : Nat := ((s.seq r.body.handle.toNat).map (·.epoch)).getD s.epochs.active

/-- Requests of a sequence in flight under an epoch other than the active one (`old`), or under any (R249, R310). -/
def State.inFlight (s : State) (h : Nat) (old : Bool) : Bool :=
  let e := fun (x : Nat) => !old || x != s.epochs.active
  s.work.appends.any (fun a => a.handle == h && e a.epoch)
    || s.work.attends.any (fun a => a.rows.any fun r => r.body.handle.toNat == h && r.status.isNone && e (s.rowEpoch r))
    || s.work.stageReqs.any (fun r => r.handle == h && e r.epoch)
    || s.work.deliveries.any (fun d => d.handle == h && e d.epoch)
    || s.mortise.jobs.any (fun j => j.handle == h && e (((s.seq h).map (·.epoch)).getD s.epochs.active))
    || (match s.seq h with
      | some q => !old && (q.turn.handoffReq.isSome || q.turn.releaseReq.isSome)
      | none => false)

/-! ### Partner and peers (R48, R267, R268) -/

/-- Whether a partition names a partner (0x4002.07). -/
def State.namesPartner (s : State) (p : Nat) : Bool := s.act 0x4002 7 p != 0xFFFF

/-- Node number of a partition's partner. -/
def State.partner (s : State) (p : Nat) : Nat := s.act 0x4002 7 p

/-- Node identifier of a node number, 0 when none is registered. -/
def State.identOf (s : State) (n : Nat) : Nat := ((s.node n).map (·.ident)).getD 0

/-- ADMIT words 0 to 3 of a sequence, token fields zero (Tables 8-6, 8-14). -/
def Seq.geometry (q : Seq) : List W64 :=
  [packWord [(16, q.variant), (8, q.layers - 1), (6, q.kvHeads - 1), (4, q.group - 1), (4, q.fmt), (1, bit q.winPolicy), (13, q.window),
             (2, q.turn.svc), (10, 0)],
   BitVec.ofNat 64 q.headMask, packWord [(23, q.posBase), (23, q.posLimit), (18, 0)], packWord [(23, q.posLimit), (41, 0)]]

def SyncKind.code : SyncKind → Nat
  | .create => 0 | .tokens => 1 | .cut => 2 | .free => 3 | .readmit => 4

/-- LEDGER_SYNC body (Table 8-14). -/
def Seq.syncWords (q : Seq) (k : SyncKind) (first count holder : Nat) : List W64 :=
  [packWord [(4, k.code), (60, 0)], BitVec.ofNat 64 q.handle, packWord [(23, first), (23, count), (18, 0)]]
    ++ (if k == .create || k == .readmit then q.geometry else [0, 0, 0, 0])
    ++ [BitVec.ofNat 64 q.turn.admitterIdent, BitVec.ofNat 64 holder]
    ++ (if k == .create || k == .readmit then (q.turn.context ++ List.replicate 8 0).take 8 else List.replicate 8 0)

/-- Most tokens one LEDGER_SYNC carries within the body limit of R244. -/
def syncChunk : Nat := 262110

/-- Sends one LEDGER_SYNC to the partner; positions below `upTo` wait for its answer until the mirror timeout (R48, R268). -/
def State.syncOne (s : State) (q : Seq) (k : SyncKind) (first upTo : Nat) : State :=
  let ts := if k == .create || k == .tokens then (q.ledger.take upTo).drop first else []
  s.ask (s.partner q.part) 0x60 9 q.part q.tenant q.handle (q.syncWords k first ts.length ((q.holder.map s.identOf).getD 0)) (tokenBytes ts)
    (some (.sync k q.handle upTo, s.us + s.rw 0x2101 0x0B q.part))

/-- Sends what a LEDGER_SYNC of `first` to `upTo` says, in as many messages as the body limit needs (R244, R268) (log 91). -/
def State.sync (s : State) (q : Seq) (k : SyncKind) (first upTo : Nat) : State :=
  if !s.namesPartner q.part then s
  else s.each (List.range (max 1 (cdiv (upTo - first) syncChunk))) fun s i =>
    s.syncOne q (if i = 0 then k else .tokens) (first + i * syncChunk) (min upTo (first + (i + 1) * syncChunk))

/-- Keyed peer link used for Relay images: the lowest-numbered keyed slot (log 32). -/
def State.peerLink (s : State) : Option PeerLink := s.sec.links.find? (·.st == 2)

/-! ### Relay images (R201, R202) -/

/-- Packer state of a partition; at creation all four slots hold the built-in set (R194). -/
def State.packer (s : State) (p : Nat) : Packer :=
  (s.packers.find? (·.part == p)).getD
    { part := p, newest := 0, slots := List.replicate 4 { tables := List.replicate 16 builtInTable, installed := 0 }, acc := [], accPages := 0, accTried := 0
      pending := none, installs := 0 }

def State.onPacker (s : State) (p : Nat) (f : Packer → Packer) : State :=
  s.onPackers fun l => l.filter (·.part != p) ++ [f (s.packer p)]

/-- Key and value tables of a format in a slot (R193). -/
def State.tablesOf (s : State) (p gen fmt : Nat) : Nat × Nat :=
  let t := (((s.packer p).slots[gen]?).map (·.tables)).getD []
  (t.getD (2 * fmt) builtInTable, t.getD (2 * fmt + 1) builtInTable)

/-- Page images that wait for egress at a port: its packer's queue (log 90). -/
def State.packerQueue (s : State) (port : Nat) : Nat := s.net.egress.countP fun e => e.lp / 4 == port && e.cls == 3 && (match e.wire with
  | .write .. => true
  | _ => false)

/-- Port through which images go to a peer. -/
def State.peerPort (s : State) (peer : Nat) : Nat := ((s.nodeQp peer).map fun q => q.lp / 4).getD 0

/-- Page image of content in stored order, and its counter in 0x2505: an unpacked page of a packable format is coded with the newest slot while `queued` pages
are no more than the port's threshold, else sent unpacked (R202). -/
def State.wireImage (s : State) (part fmt valid : Nat) (bs : List Byte) (port queued : Nat) : Nat × RelayImage :=
  let plain : RelayImage := { tagOk := true, fmt := BitVec.ofNat 4 fmt, coded := false, valid := BitVec.ofNat 7 valid, keyTable := 0, valueTable := 0, content := bs }
  if !packable fmt then (if fmt = 11 then 6 else 0, plain)
  else if s.rw 0x2505 2 port < queued then (5, plain)
  else
    let g := (s.packer part).newest
    let t := s.tablesOf part g fmt
    (4, { plain with coded := true, keyTable := BitVec.ofNat 64 t.1, valueTable := BitVec.ofNat 64 t.2, content := (codedImage fmt g t.1 t.2 bs).1 })

/-- Page image of a page's stored bytes, and its counter in 0x2505: a packed page goes as its stored coded image (R201, R202). -/
def State.relayImage (s : State) (q : Seq) (p : Page) (bs : List Byte) (port queued : Nat) : Nat × RelayImage :=
  if p.packed then
    let t := s.tablesOf q.part p.gen p.fmt
    (6, { tagOk := true, fmt := BitVec.ofNat 4 p.fmt, coded := true, valid := BitVec.ofNat 7 p.valid, keyTable := BitVec.ofNat 64 t.1
          valueTable := BitVec.ofNat 64 t.2, content := bs })
  else s.wireImage q.part p.fmt p.valid bs port queued

/-- Image as it lies in a window: preamble, content in network order, 16-byte tag, padding to 64 bytes (R185, R201, R273). -/
def imageWire (i : RelayImage) (l : PeerLink) : List Byte :=
  let net := if i.coded then netImage i.fmt.toNat i.content else netPage i.fmt.toNat i.content
  let body := wordBytes [packWord [(4, i.fmt.toNat), (1, bit i.coded), (7, i.valid.toNat), (16, i.content.length), (36, 0)], i.keyTable, i.valueTable, 0] ++ net
  let all := body ++ Config.gcmTag l.key l.generation l.counter body
  all ++ List.replicate (cdiv all.length 64 * 64 - all.length) 0

/-- Window bytes of an image. -/
def imageRoom (i : RelayImage) : Nat := cdiv (48 + i.content.length) 64 * 64

/-- First gap of `n` bytes among a peer's window spans in use (R273). -/
def windowGap (used : List (Nat × Nat)) (at_ n size : Nat) : Option Nat :=
  match used with
  | [] => if at_ + n ≤ size then some at_ else none
  | (o, k) :: r => if at_ + n ≤ o then some at_ else windowGap r (max at_ (o + k)) n size

def State.windowAt (s : State) (peer n : Nat) : Option Nat :=
  windowGap ((s.broker.relays.filter (·.peer == peer)).foldl (fun l r => insRun l (r.offset, r.bytes)) []) 0 n (s.rw 0x4005 3 0)

/-- Writes one image into a peer's window under the link key and counts it (R202, R273, R330; the window's address, log 33). -/
def State.putImage (s : State) (peer p t offset sub : Nat) (i : RelayImage) : State :=
  match s.nodeQp peer, s.peerLink with
  | some q, some l =>
    let nd := s.node peer
    let s0 := if sub = 0 then s else s.bump 0x2505 sub (q.lp / 4) 1
    ((s0.rdmaWrite q 4 3 t ((nd.map (·.regionAddr)).getD 0 + offset) ((nd.map (·.regionKey)).getD 0) (imageWire i l)).onSec fun x =>
      { x with links := mapIf (·.peer == l.peer) (fun y => { y with counter := y.counter + 1 }) x.links }).meterBytes p t (imageRoom i)
  | _, _ => s

/-- Page list of a RELAY (Table 8-15). -/
def pageListWords (ps : List (PageKey × Nat)) : List W64 :=
  ps.map fun x => packWord [(8, x.1.layer), (6, x.1.head), (16, x.1.index), (2, 0), (32, x.2)]

/-- Begins a Relay: its record, its images for kinds 0 and 3, and the message (R273, R274). -/
def State.relayOut (s : State) (kind peer : Nat) (q : Seq) (handle first stop : Nat) (pages : List (PageKey × Nat)) (images : List (Nat × RelayImage))
    (room forSeq : Nat) (stagings : List Nat) : State :=
  match s.windowAt peer room with
  | none => s
  | some off =>
    let id := (s.fresh).1
    let until_ := s.us + 1000 * s.act 0x4002 0x0A q.part
    let s1 := (s.fresh).2.onBroker fun b => { b with relays := b.relays ++
      [{ id := id, kind := kind, peer := peer, part := q.part, tenant := q.tenant, pages := pages.map (·.1), stagings := stagings, forSeq := forSeq
         length := stop, offset := off, bytes := room, deadlineUs := until_ }] }
    let s2 := (images.foldl (fun (acc : Nat × State) i =>
      (acc.1 + imageRoom i.2, acc.2.putImage peer q.part q.tenant (off + acc.1) i.1 i.2)) (0, s1)).2
    ((s2.ask peer 0x61 kind q.part q.tenant handle
      ([packWord [(4, kind), (12, 0), (16, pages.length - 1), (32, 0)], BitVec.ofNat 64 handle, packWord [(23, first), (23, stop), (18, 0)],
        packWord [(32, off), (32, room)]] ++ pageListWords pages) [] (some (.relay id, until_))).meter q.part q.tenant (0x1C + kind) room).meterMoved
        q.part q.tenant 3 room

/-- Mirrors the pages that became full and sealed of a page-mirrored sequence (R268, kind 3). -/
def State.mirrorPages (s : State) (h old new : Nat) : State :=
  match s.seq h with
  | none => s
  | some q =>
    if q.turn.svc ≠ 1 || !s.namesPartner q.part || s.peerLink.isNone then s
    else
      let ps := q.pages.filter fun p => p.tier == .hbm && q.pagePos (p.index + 1) ≤ new && old < q.pagePos (p.index + 1)
      if ps.isEmpty then s
      else
        let port := s.peerPort (s.partner q.part)
        let is := ps.zipIdx.map fun x => s.relayImage q x.1 (s.hbmBytes x.1) port (s.packerQueue port + x.2)
        (s.oweAll (ps.map fun p => burstCost p.frame q.part 3 (cdiv p.stored 64))).relayOut 3 (s.partner q.part) q q.handle 0 0 (ps.map fun p => (keyOf q p, 0)) is (sumOf (fun i => imageRoom i.2) is) 0 []

/-! ### Sealing (R124) -/

/-- Greatest sealed position the conditions of R124 allow. -/
def State.sealTarget (s : State) (q : Seq) : Nat :=
  min (s.allVisible q) (if s.namesPartner q.part then min q.ledger.length (max q.acked q.timedOut) else q.ledger.length)

/-- Advances the sealed position of a live sequence as far as it goes, with what each sealed block and page starts (R124, R164, R268). -/
def State.seal (s : State) (h : Nat) : State :=
  match s.seq h with
  | none => s
  | some q =>
    let t := s.sealTarget q
    if q.st != .live || t ≤ q.sealedPos then s
    else ((s.onSeq h fun x => { x with sealedPos := t }).issueInsertions h q.sealedPos t).mirrorPages h q.sealedPos t

/-- Puts identifiers into the ledger from a position on, mirrors what is new, and returns the state (R47, R255). -/
def State.writeLedger (s : State) (h first : Nat) (ts : List W32) : State :=
  match s.seq h with
  | none => s
  | some q =>
    let new := ts.drop (q.ledger.length - first)
    if new.isEmpty then s
    else
      let s1 := (s.onSeq h fun x => { x with ledger := x.ledger ++ new }).fitFixed h
      match s1.seq h with
      | none => s1
      | some q1 => s1.sync q1 .tokens q.ledger.length q1.ledger.length

/-! ### Frontiers, valid counts and cuts (R78, R121, R131) -/

/-- Sets valid counts of a layer's and head's own pages to what completed appends have written. -/
def State.fixValid (s : State) (h l k : Nat) : State :=
  match s.seq h with
  | none => s
  | some q =>
    let v := s.visible q l k
    s.onSeq h fun x => { x with pages := x.pages.map fun p =>
      if p.layer = l && p.head = k && !p.lost && (p.valid < 64 || v < q.pagePos (p.index + 1)) then { p with valid := min 64 (v - q.pagePos p.index) } else p }

/-- Discards positions at or beyond the sealed position: frontiers, ledger, valid counts, pages with reason 11, and the partner's record (R78). -/
def State.cut (s : State) (h : Nat) : State :=
  match s.seq h with
  | none => s
  | some q =>
    let e := q.sealedPos
    let past := q.pages.filter fun p => e ≤ q.pagePos p.index
    let s1 := s.each past fun s p => if p.lost then s else if p.valid = 0 then s.freePage (keyOf q p) else s.lose (keyOf q p) 11
    let s2 := (s1.onSeq h fun x => { x with
      frontierBase := e, frontiers := [], ledger := x.ledger.take e, acked := min x.acked e, timedOut := min x.timedOut e
      pages := x.pages.map fun p => if p.lost then p else { p with valid := min p.valid (e - x.pagePos p.index) } }).fitFixed h
    match s2.seq h with
    | none => s2
    | some q2 => if q.ledger.length = q2.ledger.length then s2 else s2.sync q2 .cut e e

/-- Takes an append out with its frames, without a completion (R121). -/
def State.dropAppend (s : State) (a : Append) : State :=
  (s.dropFrames a.req.partition (a.got.flatten ++ a.tabs)).onWork fun w => { w with appends := w.appends.filter (·.id != a.id) }

/-- Page-entry blocks that no page lies in any longer go, with the head tables and frames that only they needed (R126). -/
def State.dropEmptyBlocks (s : State) (h : Nat) : State :=
  match s.seq h with
  | none => s
  | some q =>
    let gone := q.tabs.filter fun t => t.kind.layer.isSome && !q.pages.any fun p => p.block == t.kind
    ((s.onSeq h fun x => { x with tabs := x.tabs.filter fun t => !gone.contains t }).shoot { Shootdown.of q.part with tabs := gone }).fitFixed h

/-- Puts frontiers back to before some failed appends and frees the pages that held nothing else, with the page-entry blocks they leave empty (R121, R126). -/
def State.rewind (s : State) (h : Nat) (as : List Append) : State :=
  let s1 := s.each (as.filter (!·.refresh)) fun s a =>
    s.each a.body.layers fun s l => s.each a.body.heads fun s k =>
      match s.seq h with
      | none => s
      | some q =>
        let f := min (q.frontier l k) a.body.first
        let s1 := s.onSeq h fun x => { x with frontiers := sset x.frontiers (lhKey l k) f }
        s1.each (q.pages.filter fun p => p.layer == l && p.head == k && p.valid == 0 && !p.lost && f ≤ q.pagePos p.index) fun s p => s.freePage (keyOf q p)
  s1.dropEmptyBlocks h

/-- APPEND completion body (Table 4-2). -/
def appendWords (a : Append) (sealed pos : Nat) : List W64 :=
  [packWord [(23, sealed), (23, pos), (18, 0)],
   packWord [(16, min a.newPages 65535), (16, min a.holdUs 65535), (1, bit (0 < a.fromReserve)), (1, bit a.recycled), (30, 0)]]

/-- Completes an append with a status, its own words and the sealed position as it now is (R123). -/
def State.appendAnswer (s : State) (a : Append) (st : Status) (pos : Nat) : State :=
  s.complete a.req st (appendWords a (((s.seq a.handle).map (·.sealedPos)).getD 0) pos) []

/-- An append with its time in allocation, when it still is in it (R123, R126). -/
def Append.timed (a : Append) (us : Nat) : Append :=
  if a.phase == .holding || a.phase == .growth then { a with holdUs := us - a.acceptedUs } else a

/-- Fails an accepted append and every one of its sequence accepted after it, each with its own completion; `st` is what they answer, none for a holder that
is gone, and `pos` the position of a lost page (R111, R121, R123). -/
def State.failFrom (s : State) (id : Nat) (st : Option Status) (pos : Nat) : State :=
  match s.work.appends.find? (·.id == id) with
  | none => s
  | some a0 =>
    let later := (s.work.appends.dropWhile (·.id != id)).filter fun a => a.handle == a0.handle && a.accepted
    let s1 := s.each later fun s a => s.dropAppend a
    let s2 := s1.rewind a0.handle later
    match st with
    | none => s2
    | some st => s2.each later fun s a => s.appendAnswer (a.timed s.us) st pos

/-- Fails every accepted append of a sequence (R121). -/
def State.failAccepted (s : State) (h : Nat) (st : Option Status) : State :=
  match s.work.appends.find? fun a => a.handle == h && a.accepted with
  | some a => s.failFrom a.id st 0
  | none => s

/-- Appends of a sequence that have not been accepted go, with the reads of their payloads (R78, R118). -/
def State.dropQueued (s : State) (h : Nat) (st : Option Status) : State :=
  s.each (s.work.appends.filter fun a => a.handle == h && !a.accepted) fun s a =>
    let s1 := s.each (s.net.reads.filter fun r => r.owner == a.id) fun s r => s.endRead r
    let s2 := s1.dropAppend a
    match st with
    | none => s2
    | some st => s2.appendAnswer a st 0

/-! ### Tiles and rows (R66, R109, R111) -/

/-- Takes pins off a page. -/
def State.unpin (s : State) (k : PageKey) : State := s.onPage k fun p => { p with pins := if p.pins = 255 then 255 else p.pins - 1 }

/-- Ends a group when its last member has gone: the page is unpinned (R66). -/
def State.endGroup (s : State) (g : Nat) : State :=
  match s.work.groups.find? (·.id == g) with
  | none => s
  | some x => if x.members.isEmpty then (s.unpin x.page).onWork fun w => { w with groups := w.groups.filter (·.id != g) } else s

/-- Takes a tile off the scoreboard or out of its core, with its pin. -/
def State.dropTile (s : State) (t : Tile) : State :=
  let s1 := s.onWork fun w => { w with
    tiles := w.tiles.filter (·.id != t.id)
    groups := w.groups.map fun g => { g with members := g.members.filter (· != t.id) } }
  match t.st with
  | .issued g => s1.endGroup g
  | _ => s1

/-- Ends one row of an ATTEND with a status: its tiles and accumulators go (R96, R138). -/
def State.endRow (s : State) (att row : Nat) (st : Status) (pos : Nat) : State :=
  let s1 := s.each (s.work.tiles.filter fun t => t.att == att && t.row == row) fun s t => s.dropTile t
  s1.onWork fun w => { w with
    accums := w.accums.filter fun a => !(a.att == att && a.row == row)
    attends := mapIf (·.id == att) (fun a => { a with rows := a.rows.mapIdx fun i r =>
      if i = row && r.status.isNone then { r with status := some st, position := pos } else r }) w.attends }

/-- Cancels the rows of a sequence that a gone node has in flight; a message left with no row is dropped without a completion (R111). -/
def State.cancelRows (s : State) (h node : Nat) : State :=
  let mine := s.work.attends.filter fun a => a.node == node
  let hit := fun (a : Attend) (i : Nat) => ((a.rows[i]?).map fun r => r.body.handle.toNat == h && r.status.isNone).getD false
  let s1 := s.each mine fun s a =>
    let ts := s.work.tiles.filter fun t => t.att == a.id && hit a t.row
    s.each ts fun s t => (s.dropTile t).bump 0x2202 0x11 (t.core / 8) 1
  let gone := mine.filter fun a => a.rows.any (fun r => r.body.handle.toNat == h) && (a.rows.zipIdx.all fun x => x.1.status.isSome || hit a x.2)
  let s2 := s1.each (s1.net.reads.filter fun r => gone.any fun a => a.id == r.owner) fun s r => s.endRead r
  s2.onWork fun w => { w with
    accums := w.accums.filter fun x => !mine.any fun a => a.id == x.att && hit a x.row
    attends := (w.attends.map fun a => if a.node = node then { a with rows := a.rows.map fun r =>
      if r.body.handle.toNat = h && r.status.isNone then { r with status := some .notOwner } else r } else a).filter
      fun a => !(a.node == node && a.rows.any (fun r => r.body.handle.toNat == h) && a.rows.all (·.status.isSome)) }

/-- Takes a sequence's delivery out; one whose node is gone draws no completion (R253). -/
def State.stopDelivery (s : State) (h : Nat) : State := s.onWork fun w => { w with deliveries := w.deliveries.filter (·.handle != h) }

/-- Whether a tile that may read positions of a sequence above its sealed position still holds a pin (R131). -/
def State.readsPast (s : State) (q : Seq) : Bool :=
  s.work.tiles.any fun t => t.page.handle == q.handle && (match t.st with
      | .issued _ => true
      | _ => false) &&
    ((s.work.attends.find? (·.id == t.att)).bind fun a => a.rows[t.row]?).any fun r => q.sealedPos < r.limit

/-- Whether the cut of a truncated sequence has to wait: for such tiles, and for appends accepted before the one that found no frame, which complete first
(R131; the appends, log 148). -/
def State.cutWaits (s : State) (q : Seq) : Bool := s.readsPast q || s.work.appends.any fun a => a.handle == q.handle && a.accepted

end Sys2Proof.Machine
end

