-- ==== Sys2Proof/Machine/Nand.lean ====
section
/-!
DEFINITION. The flash tier's own steps: which islands take programs, quotas, superblocks and their slots, programs, confirmations, relocations
(R212 to R241).
-/
namespace Sys2Proof.Machine

/-! ### Islands, pools and quotas -/

def flashNum (i : Nat) : Nat := if i = 0 then 15 else 33

/-- Flash island index of an island number. -/
def flashIndex (num : Nat) : Nat := if num = 33 then 1 else 0

/-- Whether a flash island takes programs (R239). -/
def State.takesPrograms (s : State) (i : Nat) : Bool :=
  i < flashIslandCount s.dev.part && ((s.fisland i).map fun f => !f.readOnly && !f.disabled).getD false && !s.fenced (srcIsland (flashNum i))
    && (i = 0 || !s.fenced srcBridge)

/-- Whether the tier is disabled (R212). -/
def State.flashDisabled (s : State) : Bool := s.flash.islands.all (·.disabled)

/-- Whether the tier is read-only: no island takes programs (R239); a disabled tier counts as read-only (R212). -/
def State.flashReadOnly (s : State) : Bool := !(s.takesPrograms 0 || s.takesPrograms 1)

/-- Flash quota of a partition in effect: the sum of its slices' (R305). -/
def State.flashQuota (s : State) (p : Nat) : Nat := sumOf (fun (x : Slice) => s.act 0x6012 (x.num + 1) 0) (s.slicesOf p)

/-- Logical pages a partition has valid (R238). -/
def State.quotaUsed (s : State) (p : Nat) : Nat :=
  sumOf (fun (q : Seq) => if q.part = p then sumOf (fun (x : Page) => if x.flashCopy.isSome then x.flashPages else 0) q.pages else 0) s.seqs

def State.quotaFull (s : State) (p : Nat) : Bool := s.flashQuota p ≤ s.quotaUsed p

/-- Superblocks an island has, and those the TLC pool takes under the archive fraction (R214, 0x3001.04). -/
def State.sbTotal (s : State) (i : Nat) : Nat := superblocksPerIsland s.flash - ((s.fisland i).map (·.lostSbs)).getD 0
def State.tlcTotal (s : State) (i : Nat) : Nat := s.sbTotal i * s.act 0x3001 4 0 / 65536

/-- Superblocks of an island and mode that are not free. -/
def State.sbsBusy (s : State) (i : Nat) (tlc : Bool) : Nat := s.flash.sbs.countP fun b => b.island == i && b.tlc == tlc && b.st != .free && b.st != .retired

/-- Free superblocks of a pool: f of R232. -/
def State.sbsFree (s : State) (i : Nat) (tlc : Bool) : Nat :=
  (if tlc then s.tlcTotal i else s.sbTotal i - s.tlcTotal i) - s.sbsBusy i tlc

/-- Watermark h, l or c of a pool (0x3004). -/
def State.watermark (s : State) (tlc : Bool) (k : Nat) : Nat := s.act 0x3004 ((if tlc then 4 else 1) + k) 0

/-! ### Superblocks (R215, R231) -/

def sbIs (i n : Nat) (b : Superblock) : Bool := b.island == i && b.num == n
def State.sb (s : State) (i n : Nat) : Option Superblock := s.flash.sbs.find? (sbIs i n)
def State.onSb (s : State) (i n : Nat) (f : Superblock → Superblock) : State := s.onFlash fun x => { x with sbs := mapIf (sbIs i n) f x.sbs }

def Superblock.width (b : Superblock) : Nat := b.members.length
def State.sbRows (s : State) (b : Superblock) : Nat := s.flash.pagesPerBlock * (if b.tlc then 3 else 1)
def State.sbSlots (s : State) (b : Superblock) : Nat := s.sbRows b * (b.width - 1)
def Superblock.row (b : Superblock) (slot : Nat) : Nat := slot / (b.width - 1)

/-- Live member that holds a data slot: the parity member of the row is skipped (R215). -/
def Superblock.memberOf (b : Superblock) (slot : Nat) : Nat :=
  let j := slot % (b.width - 1)
  if j < b.row slot % b.width then j else j + 1

/-- Rows that are confirmed with a row: its wordline's three in TLC mode (R216). -/
def Superblock.rowsWith (b : Superblock) (row : Nat) : List Nat := if b.tlc then [row / 3 * 3, row / 3 * 3 + 1, row / 3 * 3 + 2] else [row]

/-- Data slots of rows. -/
def Superblock.slotsOf (b : Superblock) (rows : List Nat) : List Nat := rows.flatMap fun r => (List.range (b.width - 1)).map fun j => r * (b.width - 1) + j

/-- Device-wide die number of a slot. -/
def Superblock.dieOf (b : Superblock) (slot : Nat) : Nat :=
  (16 * b.island + ((b.members[b.memberOf slot]?).map (·.1)).getD 0) * 32 + b.num / 32768

/-- Device-wide die number of a member. -/
def Superblock.memberDie (b : Superblock) (m : Nat × Nat) : Nat := (16 * b.island + m.1) * 32 + b.num / 32768

/-- Formatted number of lowest index that is not listed (log 10, log 35). -/
def firstUnlisted (used : List Nat) (perGroup : Nat) : List Nat → Option Nat
  | [] => none
  | g :: r =>
    let k := (sortNat (used.filter fun n => n / 32768 == g)).foldl (fun a n => if a = n % 32768 then a + 1 else a) 0
    if k < perGroup then some (g * 32768 + k) else firstUnlisted used perGroup r

/-- Key of a block's wear: island, group, channel, block (R214). -/
def blockKey (i g ch b : Nat) : Nat := ((i * 32 + g) * 16 + ch) * 32768 + b

/-- Wear used by a block in 1/65,536 of its ratings (R214). -/
def State.wear (s : State) (k : Nat) : Nat :=
  sget s.flash.wearPslc k 0 * 65536 / max 1 s.flash.ratingPslc + sget s.flash.wearTlc k 0 * 65536 / max 1 s.flash.ratingTlc

/-- Key of a member's block. -/
def Superblock.blockOf (b : Superblock) (m : Nat × Nat) : Nat := blockKey b.island (b.num / 32768) m.1 m.2

/-! ### Die-time (R213, R233) -/

/-- Cycles of a nominal time in ns at an island's present clock (log 107). -/
def State.cyclesOf (s : State) (i ns : Nat) : Nat := cdiv (ns * ((s.island (flashNum i)).map (·.clk)).getD 1000000) 1000000

/-- Cycles of the nominal times 1 to 6 of 0x300A. -/
def State.dieCycles (s : State) (i which : Nat) : Nat := s.cyclesOf i (s.flash.times.getD (which - 1) 0)

/-- Cycles of one page's program: in TLC mode a third of its wordline's (log 150). -/
def State.programCycles (s : State) (i : Nat) (tlc : Bool) : Nat := if tlc then cdiv (s.dieCycles i 4) 3 else s.dieCycles i 2

/-- Cycles of one page's read. -/
def State.readCycles (s : State) (i : Nat) (tlc : Bool) : Nat := s.dieCycles i (if tlc then 3 else 1)

/-- Cycles of one block's erasure. -/
def State.eraseCycles (s : State) (i : Nat) (tlc : Bool) : Nat := s.dieCycles i (if tlc then 6 else 5)

/-- Die-time of a flash island. -/
def flashCost (i p c cycles : Nat) : Cost := { island := flashNum i, res := 0, row := p, cls := c, units := cycles }

/-- Charges a program of class 1 or 2 under the throttle: none when it must wait (R213, R233). -/
def State.chargeProgram (s : State) (i p c : Nat) (tlc : Bool) (n : Nat) : Option State :=
  let x := flashCost i p c (n * s.programCycles i tlc)
  match s.island x.island with
  | none => none
  | some y =>
    let u := useAt y.uses 0 p c
    let b := s.budgetOf y.table x.island 0 p c
    let lim := b + y.throttle * (s.ceilingOf y.table x.island 0 p c - b) / 65535
    if s.sbsFree i false ≤ s.watermark false 2 || (lim < u.programs + x.units && !(b < x.units && u.used = 0)) then none
    else (s.charge x).map fun s => s.onIsland x.island fun z =>
      { z with uses := setUse z.uses { useAt z.uses 0 p c with programs := u.programs + x.units } }

/-! ### Dies out of reach (R217, R218) -/

/-- Whether a flash die is out of reach: fenced, or its channel or island is (R217). -/
def State.dieFenced (s : State) (d : Nat) : Bool :=
  s.fenced (srcDie d) || s.fenced (srcNand (d / 32)) || s.fenced (srcIsland (if d < 512 then 15 else 33)) || (512 ≤ d && s.fenced srcBridge)

/-- Dies that are fenced return stale: what is left on them is emptied, and each block is erased before it joins a superblock again (R218). -/
def State.staleDies (s : State) (mine : Nat → Bool) : State :=
  let ds := (List.range 1024).filter fun d => mine d && s.dieFenced d
  s.onFlash fun f => { f with stale := f.stale.filter (fun x => !ds.contains x.1) ++ ds.map fun d => (d, []) }

/-- Whether a die returned stale and a block of it has not been erased since (R218). -/
def State.blockStale (s : State) (d key : Nat) : Bool := s.flash.stale.any fun x => x.1 == d && !x.2.contains key

/-- Whether a member's pages are out of reach: its die is fenced, or stale. -/
def State.memberAway (s : State) (b : Superblock) (m : Nat × Nat) : Bool := s.dieFenced (b.memberDie m) || s.blockStale (b.memberDie m) (b.blockOf m)

/-- Whether a slot's page is. -/
def State.slotAway (s : State) (b : Superblock) (slot : Nat) : Bool := ((b.members[b.memberOf slot]?).map (s.memberAway b)).getD false

/-- Counts erasures of blocks, by mode; a stale die's block is fresh again (R214, R218). -/
def State.erased (s : State) (tlc : Bool) (ks : List Nat) : State :=
  s.onFlash fun f => { f with
    wearPslc := if tlc then f.wearPslc else ks.foldl (fun m k => sadd m k 1) f.wearPslc
    wearTlc := if tlc then ks.foldl (fun m k => sadd m k 1) f.wearTlc else f.wearTlc
    stale := f.stale.map fun x => (x.1, (ks.filter fun k => k / 32768 / 16 % 32 == x.1 % 32 && k / 32768 % 16 == x.1 / 32 % 16 && k / 32768 / 512 == x.1 / 512)
      ++ x.2) }

/-- Members of a free superblock whose dies are in reach, by rising channel. -/
def State.reachable (s : State) (i n : Nat) (ms : List (Nat × Nat)) : List (Nat × Nat) :=
  ((List.range 16).filterMap fun c => ms.find? (·.1 == c)).filter fun m => !s.dieFenced ((16 * i + m.1) * 32 + n / 32768)

/-- Opens a free superblock for a stream: a formatted one first, then the listed free one with the least wear (R231, log 35). A die out of reach leaves its
member out, 15 members at least stay, and a stale die's block is erased before it joins (R215, R217, R218). -/
def State.openSb (s : State) (i : Nat) (tlc : Bool) (st : Stream) : Option (Nat × State) :=
  if s.sbsFree i tlc = 0 then none
  else
    let mine := s.flash.sbs.filter (·.island == i)
    let whole := fun (n : Nat) => (List.range 16).map fun c => (c, n % 32768)
    let new := fun (n : Nat) (all : List (Nat × Nat)) =>
      let live := s.reachable i n all
      ({ island := i, num := n, st := .open_, tlc := tlc, members := live, out := all.filter fun m => !live.contains m, stream := st, point := 0, closedAt := 0
         filter := 0, marked := false, parityRows := [], failed := none } : Superblock)
    let start := fun (b : Superblock) (x : State) =>
      let old := b.members.filter fun m => s.blockStale (b.memberDie m) (b.blockOf m)
      some (b.num, ((x.erased tlc (old.map b.blockOf)).owe (flashCost i 64 4 (old.length * s.eraseCycles i tlc))).journal i
        [{ kind := 5, lpn := 0, sb := b.num, slot := 0, wseq := 0 }])
    let groups := (List.range s.flash.diesPerChannel).filter fun g => 15 ≤ (s.reachable i (g * 32768) (whole 0)).length
    match firstUnlisted (mine.map (·.num)) (s.flash.blocksPerDie - sparesPerDie s.flash) groups with
    | some n => start (new n (whole n)) (s.onFlash fun f => { f with sbs := f.sbs ++ [new n (whole n)] })
    | none =>
      let cost := fun (b : Superblock) => sumOf (fun m => s.wear (b.blockOf m)) (b.members ++ b.out)
      match (mine.filter fun b => b.st == .free && !b.marked && 15 ≤ (s.reachable i b.num (b.members ++ b.out)).length).foldl
          (fun (acc : Option Superblock) b => match acc with
            | none => some b
            | some a => if cost b < cost a then some b else some a) none with
      | none => none
      | some b => start (new b.num (b.members ++ b.out)) (s.onSb i b.num fun _ => new b.num (b.members ++ b.out))

/-- Open superblock of a stream. -/
def State.openOf (s : State) (i : Nat) (st : Stream) : Option Superblock :=
  s.flash.sbs.find? fun b => b.island == i && b.st == .open_ && b.stream == st

/-- Closes a superblock. -/
def State.closeSb (s : State) (i n : Nat) : State :=
  (((s.onSb i n fun b => { b with st := .closed, closedAt := ((s.fisland i).map (·.closings)).getD 0 }).onFisland i fun f =>
    { f with closings := f.closings + 1 })).journal i [{ kind := 6, lpn := 0, sb := n, slot := 0, wseq := 0 }]

/-- Takes `n` consecutive slots of a stream, beginning at a multiple of `align`; closes a superblock they do not fit, or with a member out of reach, and opens
the next (R217, R220). -/
def State.takeSlots (s : State) (i : Nat) (st : Stream) (n align : Nat) : Option (Nat × Nat × State) :=
  let tlc := st == .archive
  let fits := fun (b : Superblock) => cdiv b.point align * align + n ≤ s.sbSlots b && !b.members.any (s.memberAway b)
  let use := fun (b : Superblock) (x : State) =>
    some (b.num, cdiv b.point align * align, x.onSb i b.num fun y => { y with point := cdiv b.point align * align + n })
  match s.openOf i st with
  | some b =>
    if fits b then use b s
    else match (s.closeSb i b.num).openSb i tlc st with
      | some (m, x) => (x.sb i m).bind fun y => use y x
      | none => none
  | none => match s.openSb i tlc st with
    | some (m, x) => (x.sb i m).bind fun y => use y x
    | none => none

/-! ### The maps (R219 to R222, R224) -/

/-- Where the maps have a logical page: superblock, slot, write sequence, and whether that is the least its unit's rows carry. The coarse entry is looked up
first for a coarse page, the fine map only for a fine page or a split unit (R221). -/
def State.mapped (s : State) (lpn : Nat) : Option (Nat × Nat × Nat × Bool) :=
  let fine := fun (_ : Unit) => (s.flash.fine.find? (·.lpn == lpn)).map fun x => (x.sb, x.slot, x.wseq, false)
  if lpnFine lpn then fine ()
  else match s.flash.coarse.find? (·.unit == lpn / 256) with
    | none => none
    | some c =>
      let here := (c.sb, c.start + lpn % 256, c.wseq, true)
      if c.split then some ((fine ()).getD here) else some here

/-- What makes a data page acceptable besides its decoding (R224): kind, logical page, the MAC under its tenant's key as it now is, and its write sequence. That
the MAC holds exactly under the key it was made with is KMAC256's promise (log 3). -/
def State.accepts (s : State) (lpn : Nat) (m : Nat × Nat × Nat × Bool) (x : FlashPage) : Bool :=
  x.kind == .data && x.lpn == lpn && x.valid && x.confirmed && ((s.tenantKey x.part x.tenant).map (·.key)) == some x.key
    && (if m.2.2.2 then m.2.2.1 ≤ x.wseq else m.2.2.1 == x.wseq)

/-- The page that the maps name for a logical page, when its tag is acceptable (R221, R224). -/
def State.slotOf (s : State) (lpn : Nat) : Option FlashPage :=
  (s.mapped lpn).bind fun m => s.flash.pages.find? fun x => x.island == s.lpnIsland lpn && x.sb == m.1 && x.slot == m.2.1 && s.accepts lpn m x

/-- Whether a logical page lies in a TLC superblock. -/
def State.inTlc (s : State) (lpn : Nat) : Bool :=
  ((s.mapped lpn).bind fun m => (s.sb (s.lpnIsland lpn) m.1).map (·.tlc)).getD false

/-- Bytes of a flash copy. -/
def State.flashBytes (s : State) (lpn n : Nat) : List Byte := (s.lpnSpan lpn n).flatMap fun l => ((s.slotOf l).map (·.bytes)).getD []

/-- Fine entries in use, and those that programs under way will need (R222). -/
def State.fineTaken (s : State) : Nat :=
  s.flash.fine.length + s.flash.pages.countP fun x => x.kind == .data && !x.confirmed && !s.flash.fine.any (·.lpn == x.lpn)
    && (lpnFine x.lpn || (match x.why with
      | .relocate .. => true
      | _ => false))

/-- Whether the fine map has room for `n` more entries (R222). -/
def State.fineRoom (s : State) (n : Nat) : Bool := s.fineTaken + n ≤ s.flash.fineCap

/-! ### Programs (R215, R216, R223, R241) -/

/-- Bits of a handle in a superblock's filter. -/
def filterBits (h : Nat) : Nat := (List.range 3).foldl (fun a k => a ||| 2 ^ (Config.filterHash h k).toNat) 0

/-- Whether a superblock's filter matches a handle. -/
def Superblock.matches_ (b : Superblock) (h : Nat) : Bool := b.filter &&& filterBits h == filterBits h

/-- Write sequence of a row: the one its pages carry, or the island's next. -/
def State.rowSeq (s : State) (i n row : Nat) : Nat × State :=
  match s.flash.pages.find? fun x => x.island == i && x.sb == n && ((s.sb i n).map fun b => b.row x.slot) == some row with
  | some x => (x.wseq, s)
  | none => (((s.fisland i).map (·.wseq)).getD 0 + 1, s.onFisland i fun f => { f with wseq := f.wseq + 1 })

/-- Whether every data slot of a row has been programmed. -/
def State.rowFull (s : State) (b : Superblock) (row : Nat) : Bool :=
  b.width - 1 ≤ s.flash.pages.countP fun x => x.island == b.island && x.sb == b.num && b.row x.slot == row

/-- Class of the device row that pays for what a superblock's rows need of their own, parity and pads: the journal's, or garbage collection's (log 150). -/
def Superblock.ownClass (b : Superblock) : Nat := if b.stream == .journal then 7 else 4

/-- Programs one data slot, and the parity page of a row that is then full (R215); `h` is the handle its superblock's filter records, 0 for none. -/
def State.programSlot (s : State) (i n slot : Nat) (x : FlashPage) (h : Nat) : State :=
  match s.sb i n with
  | none => s
  | some b =>
    let w := s.rowSeq i n (b.row slot)
    let temp := ((s.fisland i).bind fun f => f.temps[b.dieOf slot % 512]?).getD 250
    let s1 := (w.2.onFlash fun f => { f with pages := f.pages ++
      [{ x with island := i, sb := n, slot := slot, wseq := w.1, wtime := s.ms, wtemp := temp / 10, progUs := s.us, confirmed := false }] }).onSb i n fun y =>
        { y with filter := y.filter ||| (if x.kind == .data && h != 0 then filterBits h else 0) }
    if s1.rowFull b (b.row slot) then s1.owe (flashCost i 64 b.ownClass (s.programCycles i b.tlc)) else s1

/-- A data page record before its place is known. -/
def State.dataPage (s : State) (q : Seq) (p : Page) (lpn count : Nat) (why : ProgramFor) (bs : List Byte) : FlashPage :=
  { island := 0, sb := 0, slot := 0, kind := .data, lpn := lpn, part := q.part, tenant := q.tenant, wseq := 0, wtime := 0, wtemp := 0, progUs := 0
    key := ((s.tenantKey q.part q.tenant).map (·.key)).getD [], confirmed := false, valid := true, why := why, fmt := p.fmt, packed := p.packed
    gen := p.gen, count := count, bytes := bs }

/-- What page `j` of a copy of `k` logical pages is programmed with; the first carries what its confirmation does. -/
def State.copyPage (s : State) (q : Seq) (p : Page) (lpn k : Nat) (why : ProgramFor) (bs : List Byte) (j : Nat) : FlashPage :=
  s.dataPage q p (s.lpnAt lpn j) (if j = 0 then k else 0) (if j = 0 then why else .none_) ((bs.drop (16384 * j)).take 16384)

/-- A copy's programs are counted for its tenant, whose keys encrypt it (R223, R324, R382). -/
def State.noteCopy (s : State) (q : Seq) (k : Nat) : State := (s.useKey q.part q.tenant).energy q.part q.tenant (s.rw 0x8001 3 0 * k)

/-- Programs a page's bytes into consecutive slots from `slot`, one logical page each. -/
def State.programData (s : State) (i n slot : Nat) (q : Seq) (p : Page) (lpn : Nat) (why : ProgramFor) (bs : List Byte) : State :=
  (s.each (List.range p.flashPages) fun s j => s.programSlot i n (slot + j) (s.copyPage q p lpn p.flashPages why bs j) q.handle).noteCopy q p.flashPages

/-- Island the next allocation of logical pages goes to: the other than the last, while it takes programs (R219). -/
def State.nextIsland (s : State) : Nat :=
  if s.takesPrograms (1 - s.flash.lastIsland) then 1 - s.flash.lastIsland
  else if s.takesPrograms s.flash.lastIsland then s.flash.lastIsland else 1 - s.flash.lastIsland

/-- Index of an island's `a`-th unit or fine page (R219). -/
def State.islandIndex (s : State) (i a : Nat) : Nat := if s.dev.part == .al then 2 * a + i else a

/-- Logical page numbers of a copy of `n` fine pages on an island: the first of them (R219). -/
def State.takeFine (s : State) (i n : Nat) : Nat × State :=
  let f := s.flash.nextFine.getD i 0
  (2 ^ 39 + s.islandIndex i f, s.onFlash fun x => { x with nextFine := setAt x.nextFine i (f + n), lastIsland := i })

/-- A coarse unit number of an island (R219). -/
def State.takeUnit (s : State) (i : Nat) : Nat × State :=
  let u := s.flash.nextUnit.getD i 0
  (s.islandIndex i u, s.onFlash fun x => { x with nextUnit := setAt x.nextUnit i (u + 1), lastIsland := i })

/-- Programs a page as fine logical pages, each in a slot of the stream: its first logical page number, or none without slots or room in the fine map
(R222). -/
def State.programFine (s : State) (i : Nat) (st : Stream) (q : Seq) (p : Page) (why : ProgramFor) (bs : List Byte) : Option (Nat × State) :=
  let k := p.flashPages
  let l := s.takeFine i k
  if !s.fineRoom k then none
  else ((List.range k).foldl (fun (acc : Option State) j => acc.bind fun s =>
    (s.takeSlots i st 1 1).map fun x => x.2.2.programSlot i x.1 x.2.1 (s.copyPage q p l.1 k why bs j) q.handle) (some l.2)).map fun x => (l.1, x.noteCopy q k)

/-! ### Moves (R68, R71, R73) -/

/-- Page index of a sequence's tail: the page of the position just below the sealed position (R71). -/
def Seq.tail (q : Seq) : Option Nat := if q.sealedPos ≤ q.posBase then none else some ((q.sealedPos - 1 - q.posBase) / 64)

/-- Whether a sequence untouched since `last` has reached an age; an age of 0 disables its transition (R73). -/
def ageReached (now last age : Nat) : Bool := age != 0 && age ≤ now - last

/-- Whether the untouched time has crossed a whole multiple of an age since `tried` (R192, R208). -/
def ageCrossed (now last age tried : Nat) : Bool := ageReached now last age && tried < last + (now - last) / age * age

/-- Ages of a partition in ms: write-back, pack, flash, Kerf, archive (0x2101.05 to .09; the archive age counts seconds). -/
def State.ageOf (s : State) (p : Nat) (k : MoveKind) : Nat :=
  match k with
  | .writeBack => s.rw 0x2101 5 p
  | .pack => s.rw 0x2101 6 p
  | .demote _ => s.rw 0x2101 7 p
  | .kerf => s.rw 0x2101 8 p
  | .archive => 1000 * s.rw 0x2101 9 p
  | .drain => 0

/-- Whether a sequence is cold: untouched for longer than its partition's reclaim age (R127). -/
def State.cold (s : State) (q : Seq) : Bool := s.act 0x2301 5 q.part < s.ms - q.lastTouch

/-- Whether a move's reason still holds: an age is still reached, a sequence still cold, the page not its sequence's tail or pinned where that bars it
(R71, R73, R127). -/
def State.moveStands (s : State) (m : Move) (q : Seq) (p : Page) : Bool :=
  let reached := ageReached s.ms q.lastTouch (s.ageOf q.part m.kind)
  let body := q.tail != some p.index
  match m.kind with
  | .drain => true
  | .demote 1 => p.tier == .hbm && !p.pinned && body && s.cold q
  | .demote _ => p.tier == .hbm && !p.pinned && reached
  | .writeBack => p.tier == .hbm && p.dirty && p.valid == 64 && reached
  | .pack => p.tier == .hbm && !p.packed && packable p.fmt && p.valid == 64 && body && s.act 0x2501 2 q.part == 1 && reached
  | .kerf => p.tier == .flash && body && s.act 0x2502 2 q.part == 1 && reached
  | .archive => p.tier == .flash && body && reached

/-- A move ends: it leaves the list. -/
def State.endMove (s : State) (k : PageKey) : State := s.onWork fun w => { w with moves := w.moves.filter (·.page != k) }

/-- Moves that wait for slots of a superblock give those up; they take fine pages when they are made (R216, R220). -/
def State.unplace (s : State) (i n : Nat) (slots : List Nat) : State :=
  let hit := fun (m : Move) => !m.begun && m.place.any fun x => x.1 == i && x.2.1 == n && (slots.contains x.2.2
    || (slots.contains (x.2.2 + 1) && ((s.page m.page).map (·.flashPages)) == some 2 && m.kind != .kerf))
  (s.each (s.work.moves.filter hit) fun s m => match m.lpn, s.page m.page with
    | some l, some p => s.freeLpn l (if m.kind == .kerf then 1 else p.flashPages)
    | some l, none => s.freeLpn l 1
    | none, _ => s).onWork fun w => { w with moves := mapIf hit (fun m => { m with lpn := none, place := none }) w.moves }

/-! ### Confirmation (R216, R220 to R222, R228) -/

/-- Whether every logical page of a copy is confirmed. -/
def State.copyDone (s : State) (x : FlashPage) : Bool :=
  (s.lpnSpan x.lpn x.count).all fun l => s.flash.pages.any fun y => y.kind == .data && y.lpn == l && y.confirmed &&
    (y.valid || (match x.why with | .relocate .. => true | .relocateUnit .. => true | _ => false))

/-- Writes the map entry of a newly confirmed logical page: a fine entry, or its coarse unit once every page of it is confirmed. A page of a split unit
that was reissued outside the unit's run has a fine entry too (R221, R236). -/
def State.mapPage (s : State) (x : FlashPage) : State :=
  let strayed := s.flash.coarse.any fun c => c.unit == x.lpn / 256 && c.split && (c.sb != x.sb || c.start + x.lpn % 256 != x.slot)
  if lpnFine x.lpn || strayed then
    (s.onFlash fun f => { f with fine := f.fine.filter (·.lpn != x.lpn) ++ [{ lpn := x.lpn, sb := x.sb, slot := x.slot, wseq := x.wseq }] }).journal x.island
      [{ kind := 1, lpn := x.lpn, sb := x.sb, slot := x.slot, wseq := x.wseq }]
  else
    match s.flash.coarse.find? (·.unit == x.lpn / 256) with
    | none => s
    | some c =>
      if c.live.all fun l => s.flash.pages.any fun y => y.kind == .data && y.lpn == c.unit * 256 + l && y.confirmed then
        s.journal x.island [{ kind := 2, lpn := c.unit * 256, sb := c.sb, slot := c.start, wseq := c.wseq }]
      else s

/-- Completes a page's move to tier 10: entry and shadow written, its place shot down and freed (R68, Table 2-8). -/
def State.toFlash (s : State) (k : PageKey) (lpn : Nat) : State :=
  match s.seq k.handle, s.page k with
  | some q, some p =>
    ((s.shootPage q.part k p).onPage k fun x => { x with tier := .flash, frame := lpn, dirty := false, copy := none, pins := 0, frames := [] }).bump 0x2104 0x0C 0 1
  | _, _ => s

/-- A flash page takes a new flash copy; the old one is freed once its shootdown has completed (R68, Table 2-8). -/
def State.toCopy (s : State) (q : Seq) (k : PageKey) (p : Page) (lpn : Nat) (f : Page → Page) : State :=
  ((s.shootCopy q.part k p).onPage k fun y => f { y with frame := lpn, pins := 0, copyFreed := some s.us }).bump 0x2104 0x0C 0 1

/-- Bytes of a copy as they were programmed. -/
def State.writtenBytes (s : State) (x : FlashPage) : List Byte :=
  (s.lpnSpan x.lpn x.count).flatMap fun l => ((s.flash.pages.find? fun y => y.kind == .data && y.lpn == l && y.valid).map (·.bytes)).getD []

/-- A copy that is no longer wanted is freed, its move ends, and the lock of a page that was not full is released (R68). -/
def State.dropCopy (s : State) (k : PageKey) (x : FlashPage) : State :=
  (((s.freeLpn x.lpn x.count).endMove k).onPage k fun y => { y with pins := if y.pins = 255 && y.tier == .hbm && y.valid < 64 then 0 else y.pins })

/-- A confirmed copy of a page becomes what its move wanted it for, when the page is still the one that was copied and the move still stands; a page that a tile
has pinned since does not move (R68, R70, R71). -/
def State.finishMove (s : State) (k : PageKey) (x : FlashPage) : State :=
  match s.work.moves.find? (fun m => m.page == k && m.begun && m.lpn == some x.lpn), s.seq k.handle, s.page k with
  | some m, some q, some p =>
    let same := p.tier == .hbm && p.dirty && p.packed == x.packed && p.fmt == x.fmt && p.gen == x.gen && s.hbmBytes p == s.writtenBytes x
    let still := p.tier == .flash && p.pins == 0 && !s.work.stagings.any (·.page == k)
    let skip := (s.dropCopy k x).bump 0x2104 0x0D 0 1
    if p.lost || !s.moveStands m q p then s.dropCopy k x
    else match m.kind with
      | .writeBack => if same then (s.onPage k fun y => { y with dirty := false, copy := some x.lpn }).endMove k else s.dropCopy k x
      | .kerf => if still then (s.toCopy q k p x.lpn fun y => { y with fmt := 11, packed := false, gen := 0, imageLen := 9216 }).endMove k else skip
      | .archive => if still then (s.toCopy q k p x.lpn id).endMove k else skip
      | _ => if same && (p.pins = 0 || (p.pins = 255 && p.valid < 64)) then (s.toFlash k x.lpn).endMove k else skip
  | _, _, _ => s.dropCopy k x

/-- A page of a collected superblock that is confirmed elsewhere: the map switches to the copy, with a fine entry (R222, R234). -/
def State.switchPage (s : State) (x : FlashPage) (sb slot : Nat) : State :=
  let old := fun (y : FlashPage) => y.island == x.island && y.sb == sb && y.slot == slot
  if !(s.flash.pages.any fun y => old y && y.valid) then s
  else
    let split := s.flash.coarse.any fun c => !lpnFine x.lpn && c.unit == x.lpn / 256 && !c.split
    let s1 := s.onFlash fun f => { f with
      pages := f.pages.map fun y =>
        if old y then { y with valid := false } else if y.island = x.island && y.sb = x.sb && y.slot = x.slot then { y with valid := true } else y
      coarse := mapIf (fun c => !lpnFine x.lpn && c.unit == x.lpn / 256) (fun c => { c with split := true }) f.coarse
      fine := f.fine.filter (·.lpn != x.lpn) ++ [{ lpn := x.lpn, sb := x.sb, slot := x.slot, wseq := x.wseq }] }
    (if split then s1.bump 0x3002 5 0 1 else s1).journal x.island
      ((if split then [{ kind := 4, lpn := x.lpn / 256 * 256, sb := 0, slot := 0, wseq := 0 }] else [])
        ++ [{ kind := 1, lpn := x.lpn, sb := x.sb, slot := x.slot, wseq := x.wseq }])

/-- A unit copied as a whole: its coarse entry is rewritten once every page of the copy is confirmed (R222, R234). -/
def State.switchUnit (s : State) (x : FlashPage) (sb : Nat) : State :=
  let moved := fun (y : FlashPage) => y.island == x.island && y.sb == sb && y.lpn / 256 == x.lpn / 256 && !lpnFine y.lpn
  let new := fun (y : FlashPage) => y.island == x.island && y.sb == x.sb && y.lpn / 256 == x.lpn / 256 && !lpnFine y.lpn
  let live := s.flash.pages.filter fun y => moved y && y.valid
  if live.isEmpty || !live.all (fun y => s.flash.pages.any fun z => new z && z.lpn == y.lpn && z.confirmed) then s
  else
    let start := x.slot / 256 * 256
    let first := (s.flash.pages.filter new).foldl (fun a y => min a y.wseq) x.wseq
    (s.onFlash fun f => { f with
      pages := f.pages.map (fun y =>
        if moved y then { y with valid := false } else if new y then { y with valid := live.any (·.lpn == y.lpn) } else y)
      coarse := mapIf (·.unit == x.lpn / 256) (fun c =>
        { c with sb := x.sb, start := start, wseq := first, tlc := ((s.sb x.island x.sb).map (·.tlc)).getD c.tlc }) f.coarse }).journal x.island
      [{ kind := 2, lpn := x.lpn / 256 * 256, sb := x.sb, slot := start, wseq := first }]

/-- A fine page rewritten into a coarse unit takes its copy there while it is still a flash page that nothing reads (R222). -/
def State.consolidated (s : State) (k : PageKey) (x : FlashPage) : State :=
  match s.seq k.handle, s.page k with
  | some q, some p =>
    if p.tier == .flash && !p.lost && p.pins == 0 && lpnFine p.frame && !s.work.stagings.any (·.page == k) && s.flashBytes p.frame p.flashPages == s.writtenBytes x
    then s.toCopy q k p x.lpn id else s.freeLpn x.lpn x.count
  | _, _ => s.freeLpn x.lpn x.count

/-- What a confirmed copy was for. -/
def State.finishCopy (s : State) (x : FlashPage) : State :=
  match x.why with
  | .none_ => s
  | .writeBack k => s.finishMove k x
  | .demote k => s.finishMove k x
  | .kerf k => s.finishMove k x
  | .archive k => s.finishMove k x
  | .relocate sb slot => s.switchPage x sb slot
  | .relocateUnit sb _ => s.switchUnit x sb
  | .consolidate k => s.consolidated k x

/-- Whether what is programmed into a slot is lost: its member is out of reach or has failed a program (R217, R236). -/
def State.slotGone (s : State) (b : Superblock) (slot : Nat) : Bool := s.slotAway b slot || b.failed == some (b.memberOf slot)

/-- Confirms the rows whose data and parity programs have passed, and finishes every copy that is now whole (R216). -/
def State.confirmRows (s : State) (i n row : Nat) : State :=
  match s.sb i n with
  | none => s
  | some b =>
    let rows := b.rowsWith row
    if !(rows.all fun r => s.rowFull b r) then s
    else
      let here := fun (x : FlashPage) => x.island == i && x.sb == n && rows.contains (b.row x.slot) && !s.slotGone b x.slot
      let fresh := s.flash.pages.filter fun x => here x && !x.confirmed
      let s1 := (s.onFlash fun f => { f with pages := mapIf here (fun x => { x with confirmed := true }) f.pages }).onSb i n fun y =>
        { y with parityRows := rows.foldl insNat y.parityRows }
      let s2 := s1.each (fresh.filter fun x => x.kind == .data && x.valid) fun s x => s.mapPage x
      let due := s2.flash.pages.filter fun x => x.why != .none_ && s2.copyDone x
      s2.each due fun s x =>
        (s.finishCopy x).onFlash fun f => { f with
          pages := mapIf (fun y => y.island == x.island && y.sb == x.sb && y.slot == x.slot) (fun y => { y with why := .none_ }) f.pages }

/-- A pad page (R216). -/
def padPage : FlashPage :=
  { island := 0, sb := 0, slot := 0, kind := .pad, lpn := 0, part := 0, tenant := 0, wseq := 0, wtime := 0, wtemp := 0, progUs := 0, key := [], confirmed := false
    valid := false, why := .none_, fmt := 0, packed := false, gen := 0, count := 0, bytes := [] }

/-- Pads the remaining slots of a row, in TLC mode of its wordline's three rows; moves that waited for those slots give them up (R216). -/
def State.padRow (s : State) (i n row : Nat) : State :=
  match s.sb i n with
  | none => s
  | some b =>
    let free := (b.slotsOf (b.rowsWith row)).filter fun sl => !s.flash.pages.any fun x => x.island == i && x.sb == n && x.slot == sl
    let s1 := (s.unplace i n free).each free fun s sl => s.programSlot i n sl padPage 0
    (((s1.bump 0x3003 5 0 free.length).owe (flashCost i 64 b.ownClass (free.length * s.programCycles i b.tlc))).onSb i n fun y =>
      { y with point := max y.point (((b.rowsWith row).foldl max 0 + 1) * (b.width - 1)) })

/-- Whether a row's pad timeout has passed since its first data program; the timeout is given at the island's minimum clock (R216, 0x3003.04). -/
def State.padDue (s : State) (i n row : Nat) : Bool :=
  match s.sb i n, s.island (flashNum i) with
  | some b, some y =>
    let begun := (s.flash.pages.filter fun x => x.island == i && x.sb == n && b.row x.slot == row && x.kind != .pad).map (·.progUs)
    !begun.isEmpty && !s.rowFull b row && s.rw 0x3003 4 0 * minClock y.num ≤ (s.us - begun.foldl min s.us) * y.clk
  | _, _ => false

/-! ### Relocation (R222, R234, R236, R241) -/

/-- Counts pages programmed by moves and pages copied by garbage collection, the last hour's kept (0x3004.08, 0x3004.09). -/
def State.noteWrites (s : State) (programmed copied : Nat) : State :=
  (s.bump 0x3004 8 0 copied).onFlash fun f => { f with
    writeLog := (f.writeLog.filter fun x => s.us < x.1 + 3600000000) ++ [(s.us, programmed, copied)] }

/-- Copies one valid page to a slot of the garbage-collection stream; the old slot stays mapped until the copy is confirmed. None without a slot, or without
the fine entry that a coarse page's copy needs (R222, R234). -/
def State.relocate (s : State) (x : FlashPage) : Option State :=
  if !lpnFine x.lpn && !s.fineRoom 1 then none
  else (s.takeSlots x.island .gc 1 1).map fun t =>
    ((t.2.2.programSlot x.island t.1 t.2.1 { x with why := .relocate x.sb x.slot, valid := false, count := 1 } 0).onSb x.island t.1 fun b =>
      { b with filter := b.filter ||| ((s.sb x.island x.sb).map (·.filter)).getD 0 }).noteWrites 0 1

/-- Copies a whole coarse unit to an aligned run, in slot order. -/
def State.relocateUnit (s : State) (i sb : Nat) (pages : List FlashPage) : Option State :=
  (s.takeSlots i .gc 256 256).map fun t =>
    ((t.2.2.each ((List.range 256).flatMap fun j => pages.filter fun x => x.lpn % 256 == j) fun s x =>
      s.programSlot i t.1 (t.2.1 + x.lpn % 256) { x with why := .relocateUnit sb x.slot, valid := false, count := 1 } 0).onSb i t.1 fun b =>
      { b with filter := b.filter ||| ((s.sb i sb).map (·.filter)).getD 0 }).noteWrites 0 pages.length

/-- Whether a copy of a page by garbage collection, refresh or a fence is under way. -/
def State.copying (s : State) (x : FlashPage) : Bool :=
  s.flash.pages.any fun y => y.island == x.island && y.lpn == x.lpn && !y.valid && y.kind == .data && (match y.why with
    | .relocate sb slot => sb == x.sb && slot == x.slot
    | .relocateUnit sb _ => sb == x.sb
    | _ => false)

/-- Valid data pages of a superblock. -/
def State.validIn (s : State) (i n : Nat) : List FlashPage := s.flash.pages.filter fun x => x.island == i && x.sb == n && x.kind == .data && x.valid

/-- Erases a superblock into its free pool: its slots are gone, its filter cleared, its members' cycles counted (R214, R234). -/
def State.eraseSb (s : State) (i n : Nat) : State :=
  match s.sb i n with
  | none => s
  | some b =>
    ((s.erased b.tlc (b.members.map b.blockOf)).onFlash fun f => { f with
      pages := f.pages.filter fun x => !(x.island == i && x.sb == n)
      sbs := mapIf (sbIs i n) (fun y => { y with st := .free, point := 0, filter := 0, marked := false, parityRows := [], stream := .fine, failed := none }) f.sbs }).journal i
        [{ kind := 7, lpn := 0, sb := n, slot := 0, wseq := 0 }]

/-- Whether a superblock may be erased: no valid page, no pending journal record of a relocation out of it, no read of a location in it (R234). -/
def State.erasable (s : State) (i n : Nat) : Bool :=
  (s.validIn i n).isEmpty && !((s.fisland i).map fun f => f.pendingJournal.any fun r => r.kind == 1 || r.kind == 2 || r.kind == 4).getD false
    && !s.flash.reads.any fun r => r.issued && s.flash.pages.any fun x => x.island == i && x.sb == n && x.kind == .data && (s.lpnSpan r.lpn r.n).contains x.lpn

/-! ### Pages that no longer can be read, and dies that are left (R217, R218, R226) -/

/-- What a read of a slot meets when the other members of its row are out of reach or not: a page on a die out of reach is reconstructed, and none is when a
second member is out of reach too (R217). -/
def State.readVerdict (s : State) (b : Superblock) (slot : Nat) (v : FlashVerdict) : FlashVerdict :=
  let alone := ((List.range b.width).filter (· != b.memberOf slot)).any fun m => ((b.members[m]?).map (s.memberAway b)).getD false
  match v with
  | .unreadable => .unreadable
  | .pass n c => if s.slotAway b slot || n ≥ 8 then (if alone then .unreadable else .pass 8 0) else .pass n c

/-- Page of a sequence that a logical page belongs to. -/
def State.ownerOf (s : State) (lpn : Nat) : Option PageKey :=
  s.seqs.findSome? fun q => (q.pages.find? fun p => match p.flashCopy with
    | some l => (s.lpnSpan l p.flashPages).contains lpn
    | none => false).map fun p => keyOf q p

/-- Drops a page whose flash copy cannot be read, for a reason; in HBM the page stays, now dirty (R218, R226, Table 2-9, reasons 3 and 10). -/
def State.flashLostFor (s : State) (k : PageKey) (reason die : Nat) : State :=
  match s.page k with
  | none => s
  | some p =>
    if p.tier == .hbm then (s.freeCopy p).onPage k fun x => { x with dirty := true, copy := none, copyFreed := some s.us }
    else if p.tier == .flash then (s.losePage k reason (srcDie die)).bump 0x3100 0x0A 0 1
    else s

/-- A page lost to an unreadable flash copy (R226). -/
def State.flashLost (s : State) (k : PageKey) (die : Nat) : State := s.flashLostFor k 3 die

/-- Valid pages on dies that are fenced or stale, of islands that run, with no copy under way, and their superblocks (R217, R218). -/
def State.strays (s : State) : List (Superblock × FlashPage) :=
  s.flash.pages.filterMap fun x => if x.kind != .data || !x.valid || !x.confirmed || s.copying x then none
    else (s.sb x.island x.sb).bind fun b =>
      if s.slotAway b x.slot && !s.fenced (srcIsland (flashNum x.island)) && !(x.island = 1 && s.fenced srcBridge) then some (b, x) else none

/-- What the reconstruction of a page costs: the row's other pages, read for class 4 (R213, R217). -/
def State.rebuildCost (s : State) (b : Superblock) : Cost := flashCost b.island 64 4 ((b.width - 1) * s.readCycles b.island b.tlc)

/-- Moves one page off a die that is out of reach, by reconstruction, when its charge and a slot can be had; whether it did (R213, R217). -/
def State.leaveDie (s : State) (b : Superblock) (x : FlashPage) : Bool × State :=
  match s.chargeAll (mergeCosts [s.rebuildCost b, flashCost x.island 64 4 (s.programCycles x.island false)]) with
  | (_, some c) => (false, s.markWait c)
  | (s1, none) => match s1.relocate x with
    | none => (false, s)
    | some s2 => (true, s2.bump 0x3100 0x0D 0 1)

/-- Empties dies that are fenced or returned stale: each page is reconstructed and moved as charges and slots allow, and one that a second member out of reach
makes unreadable is dropped, with reason 3 or on a stale die 10 (R217, R218). -/
def State.pumpDies (s : State) : State :=
  (s.strays.foldl (fun (acc : Bool × State) y =>
    match acc.2.readVerdict y.1 y.2.slot (.pass 8 0) with
    | .unreadable => (acc.1, (match acc.2.ownerOf y.2.lpn with
        | some k => acc.2.flashLostFor k (if s.dieFenced (y.1.dieOf y.2.slot) then 3 else 10) (y.1.dieOf y.2.slot)
        | none => acc.2))
    | .pass _ _ => if acc.1 then acc.2.leaveDie y.1 y.2 else acc) (true, s)).2

/-- Row and class that pay for a page's program: its partition's stage class, or the device row's for collection and the journal (R213). -/
def FlashPage.payer (x : FlashPage) : Nat × Nat :=
  if x.kind != .data then (64, 7)
  else match x.why with
    | .relocate .. => (64, 4)
    | .relocateUnit .. => (64, 4)
    | _ => (x.part, 2)

/-- Reissues a page to the next slot of its stream; a coarse page leaves its unit's run (R236). -/
def State.reissue (s : State) (x : FlashPage) (b : Superblock) : Option State :=
  (s.takeSlots x.island b.stream 1 1).map fun t =>
    (((t.2.2.programSlot x.island t.1 t.2.1 x 0).onSb x.island t.1 fun y => { y with filter := y.filter ||| b.filter }).onFlash fun f => { f with
      coarse := mapIf (fun c => x.kind == .data && !lpnFine x.lpn && c.unit == x.lpn / 256 && x.valid) (fun c => { c with split := true }) f.coarse }).owe
        (flashCost x.island x.payer.1 x.payer.2 (s.programCycles x.island b.tlc))

/-- Programs elsewhere a page that its slot has lost, once a slot can be had: its row is padded, its superblock closed (R217, R236). -/
def State.replaceProgram (s : State) (b : Superblock) (x : FlashPage) : State :=
  let gone := s.onFlash fun f => { f with pages := f.pages.filter fun y => !(y.island == x.island && y.sb == x.sb && y.slot == x.slot) }
  let s1 := (if b.st == .open_ then gone.closeSb x.island x.sb else gone).padRow x.island x.sb (b.row x.slot)
  (s1.reissue x b).getD s

/-- Pages being programmed whose slots have lost them. -/
def State.lostPrograms (s : State) : List FlashPage :=
  s.flash.pages.filter fun x => x.kind != .pad && !x.confirmed && ((s.sb x.island x.sb).map fun b => s.slotGone b x.slot).getD false

/-- Programs them elsewhere. -/
def State.pumpPrograms (s : State) : State := s.each s.lostPrograms fun s x => match s.sb x.island x.sb with
  | some b => s.replaceProgram b x
  | none => s

/-! ### Reads (R137, R213, R225) -/

def StageKind.rank : StageKind → Nat
  | .tile => 0 | .resume => 1 | .ahead => 2 | .request => 3

/-- Order in which an island serves reads: the kinds of R137, a frame's repair with what a tile waits for, then reads for Kerf encoding and archiving; first come
first served within each. -/
def State.readOrder (s : State) (r : FlashRead) : Nat × Nat :=
  match r.why with
  | .staging id => (((s.work.stagings.find? (·.id == id)).map (·.kind.rank)).getD 0, id)
  | .restore _ => (0, r.id)
  | .kerf _ => (4, r.id)
  | .archive _ => (4, r.id)

/-- Puts a read into that order. -/
def insRead (key : FlashRead → Nat × Nat) (l : List FlashRead) (r : FlashRead) : List FlashRead :=
  match l with
  | [] => [r]
  | x :: t => if (key r).1 < (key x).1 || ((key r).1 = (key x).1 && (key r).2 < (key x).2) then r :: x :: t else x :: insRead key t r

/-- What a read of `n` logical pages costs (R213); a page out of reach is rebuilt instead. -/
def State.readCosts (s : State) (lpn n p c : Nat) : List Cost :=
  (s.lpnSpan lpn n).map fun l =>
    let rebuilt := (s.mapped l).bind fun m => (s.sb (s.lpnIsland l) m.1).bind fun b => if s.slotAway b m.2.1 then some (s.rebuildCost b) else none
    rebuilt.getD (flashCost (s.lpnIsland l) p c (s.readCycles (s.lpnIsland l) (s.inTlc l)))

/-- Age bin of a page: below 1 h, 8 h, 24 h, 3 d, 7 d, 30 d, 90 d, or older (R225). -/
def ageBin (ms : Nat) : Nat := ([1, 8, 24, 72, 168, 720, 2160].filter fun h => h * 3600000 ≤ ms).length

/-- Temperature bin of a page: below 25 °C, then 10 °C steps to 85 °C, or hotter (R225). -/
def tempBinOf (t : Int) : Nat := ([25, 35, 45, 55, 65, 75, 85].filter fun (x : Int) => x ≤ t).length

/-- Threshold table entry of a page's first read (R225, 0x3005). -/
def State.readOffsets (s : State) (lpn : Nat) : Nat :=
  match s.slotOf lpn with
  | none => 0
  | some x => s.rw 0x3005 4 ((bit (s.inTlc lpn) * 65536 + ageBin (s.ms - x.wtime)) * 65536 + tempBinOf x.wtemp)

/-- A read of a flash copy takes its place among those that wait. -/
def State.startRead (s : State) (lpn n p c : Nat) (why : ReadFor) : State :=
  (s.fresh).2.onFlash fun f => { f with reads := f.reads ++ [{ id := (s.fresh).1, lpn := lpn, n := n, part := p, cls := c, why := why, issued := false, offsets := 0 }] }

/-- Tenant of the page a read is for. -/
def State.readTenant (s : State) (r : FlashRead) : Nat := ((s.slotOf r.lpn).map (·.tenant)).getD 0

/-- Issues a read that has been charged (R225). -/
def State.issueFlashRead (s : State) (r : FlashRead) : State :=
  ((s.onFlash fun f => { f with reads := mapIf (·.id == r.id) (fun x => { x with issued := true, offsets := s.readOffsets r.lpn }) f.reads }).useKey r.part
    (s.readTenant r)).energy r.part (s.readTenant r) (s.rw 0x8001 3 0 * r.n)

/-- Whether the island that serves a logical page is out of reach: its pages are dropped when they are needed (Table 12-5). -/
def State.islandGone (s : State) (lpn : Nat) : Bool := s.fenced (srcIsland (flashNum (s.lpnIsland lpn))) || (s.lpnIsland lpn = 1 && s.fenced srcBridge)

/-- Issues waiting reads in order, each once its charge is granted; the class that waits at an island keeps its later reads waiting (R36, R137, R213). A read of
an island out of reach costs nothing and finds its page unreadable. -/
def State.pumpReads (s : State) : State :=
  ((s.flash.reads.filter fun r => !r.issued).foldl (insRead s.readOrder) []).foldl (fun (acc : List (Nat × Nat × Nat) × State) r =>
    let line := (acc.2.lpnIsland r.lpn, r.part, r.cls)
    if acc.1.contains line then acc
    else if acc.2.islandGone r.lpn then (acc.1, acc.2.issueFlashRead r)
    else match acc.2.chargeAll (mergeCosts (acc.2.readCosts r.lpn r.n r.part r.cls)) with
      | (s1, none) => (acc.1, s1.issueFlashRead r)
      | (_, some x) => (acc.1 ++ [line], acc.2.markWait x)) ([], s) |>.2

end Sys2Proof.Machine
end

