-- ==== Sys2Proof/Machine/Media.lean ====
section
/-!
DEFINITION. What lies on flash and in the flash maps, bit by bit: page tags, encrypted pages, parity, and map entries; HBM units as they are stored (R10, R215, R217, R221, R223, R320, R321).
-/
namespace Sys2Proof.Machine

/-! ### Page tags and images (R223, R321, Table 7-5) -/

/-- Kind codes of Table 7-5; 1 is parity. -/
def TagKind.code : TagKind → Nat
  | .data => 0 | .pad => 2 | .journal => 3 | .checkpoint => 4 | .root => 5

/-- Words 0 to 3 of a page tag. -/
def tagHead (kind lpn part : Nat) (tlc : Bool) (wseq ms : Nat) (temp : Int) (tenant : Nat) : List W64 :=
  [packWord [(4, kind), (40, lpn), (6, part), (1, bit tlc), (13, 0)], packWord [(48, wseq), (16, 0)],
   packWord [(48, ms), (8, (temp % 256).toNat), (8, 0)], packWord [(16, tenant), (48, 0)]]

/-- Words as bytes, each least significant first (R10). -/
def storedWords (ws : List W64) : List Byte := ws.flatMap fun w => leBytes 8 w.toNat

/-- A whole tag: words 0 to 3, the MAC, and the tag check over words 0 to 6 (log 151). -/
def tagOf (head : List W64) (mac : BitVec 128) : List W64 :=
  let body := head ++ [mac.setWidth 64, (mac >>> 64).setWidth 64, 0]
  body ++ [BitVec.ofNat 64 (crc32c (storedWords body))]

/-- Bytes to a full page of 16 KiB. -/
def fullPage (bs : List Byte) : List Byte := bs ++ List.replicate (16384 - bs.length) 0

/-- A page as encrypted: a data page under its tenant's flash encryption key with its write sequence and logical page as tweak, a page of the device's own under
the device flash key, a pad as zeros (R321, Table 10-7; log 151). -/
def FlashPage.cipher (x : FlashPage) : List Byte :=
  match x.kind with
  | .data => Config.xts (kdf x.key "HN-FLASH-ENC" 64) (packBits [(48, x.wseq), (40, 0), (40, x.lpn)]) (fullPage x.bytes)
  | .pad => fullPage []
  | _ => Config.xts Config.deviceFlashKey (packBits [(48, x.wseq), (80, 0)]) (fullPage x.bytes)

/-- Its tag in a superblock of a mode: only a data page names a partition and a tenant and carries a MAC, over the page and words 0 to 3 (R223, R321). -/
def FlashPage.tag (x : FlashPage) (tlc : Bool) : List W64 :=
  let data := x.kind == .data
  let head := tagHead x.kind.code (if data then x.lpn else 0) (if data then x.part else 0) tlc x.wseq x.wtime x.wtemp (if data then x.tenant else 0)
  tagOf head (if data then Config.kmacTag (kdf x.key "HN-FLASH-MAC" 32) (x.cipher ++ storedWords head) else 0)

/-- A physical page: data bytes and tag. -/
def FlashPage.image (x : FlashPage) (tlc : Bool) : List Byte := x.cipher ++ storedWords (x.tag tlc)

/-- XOR of two pages. -/
def xorPages (a b : List Byte) : List Byte := (a.zip b).map fun x => x.1 ^^^ x.2

/-- XOR of some pages, data and tags; a slot without a page counts as zero (R215, R236). -/
def xorAll (ps : List (List Byte)) : List Byte := ps.foldl xorPages (List.replicate 16448 0)

/-- Images in the data slots of a row. -/
def State.rowImages (s : State) (b : Superblock) (row : Nat) : List (List Byte) :=
  (b.slotsOf [row]).map fun sl =>
    ((s.flash.pages.find? fun x => x.island == b.island && x.sb == b.num && x.slot == sl).map (·.image b.tlc)).getD (List.replicate 16448 0)

/-- The parity of a row, as the flash island holds it in SRAM until it is programmed (R215). -/
def State.rowParity (s : State) (b : Superblock) (row : Nat) : List Byte := xorAll (s.rowImages b row)

/-- Tag of a row's parity page: kind 1 and the row's write sequence (R223). -/
def State.parityTag (s : State) (b : Superblock) (row : Nat) : List W64 :=
  let first := s.flash.pages.find? fun x => x.island == b.island && x.sb == b.num && b.row x.slot == row
  tagOf (tagHead 1 0 0 b.tlc ((first.map (·.wseq)).getD 0) ((first.map (·.wtime)).getD 0) ((first.map (·.wtemp)).getD 0) 0) 0

/-- A page reconstructed from its row's parity and the other data pages (R217). -/
def State.rebuilt (s : State) (b : Superblock) (slot : Nat) : List Byte :=
  let j := slot % (b.width - 1)
  xorPages (s.rowParity b (b.row slot)) (xorAll ((s.rowImages b (b.row slot)).eraseIdx j))

/-! ### Map entries (R221, Tables 7-3 and 7-4) -/

/-- Whether every allocated page of a unit is confirmed. -/
def State.unitConfirmed (s : State) (c : CoarseEntry) : Bool :=
  c.live.all fun l => s.flash.pages.any fun y => y.kind == .data && y.lpn == c.unit * 256 + l && y.confirmed

/-- Words of a coarse entry, the low one first. -/
def CoarseEntry.words (c : CoarseEntry) (valid : Bool) : List W64 :=
  let n := packBits [(1, bit valid), (1, bit c.split), (1, bit c.tlc), (20, c.sb), (17, c.start), (40, 0), (48, c.wseq)]
  [BitVec.ofNat 64 n, BitVec.ofNat 64 (n / 2 ^ 64)]

/-- Words of a fine entry, the low one first. -/
def FineEntry.words (e : FineEntry) : List W64 :=
  let n := packBits [(40, e.lpn), (20, e.sb), (17, e.slot), (1, 1), (2, 0), (48, e.wseq)]
  [BitVec.ofNat 64 n, BitVec.ofNat 64 (n / 2 ^ 64)]

/-- Buckets of the fine map, of four entries each. -/
def State.fineBuckets (s : State) : Nat := max 1 (s.flash.fineCap / 4)

/-- First bucket with a free entry from a hash on; the fuel is the number of entries placed. -/
def freeBucket (placed : List (Nat × FineEntry)) (n : Nat) : Nat → Nat → Nat
  | 0, b => b
  | k + 1, b => if (placed.countP fun x => x.1 / 4 == b) < 4 then b else freeBucket placed n k ((b + 1) % n)

/-- Fine entries of an island at their places, bucket × 4 + entry, put in in the order they were made (log 149). -/
def State.finePlaces (s : State) (i : Nat) : List (Nat × FineEntry) :=
  (s.flash.fine.filter fun e => s.lpnIsland e.lpn == i).foldl (fun acc e =>
    let b := freeBucket acc s.fineBuckets acc.length ((Config.fineHash e.lpn).toNat % s.fineBuckets)
    acc ++ [(b * 4 + acc.countP fun x => x.1 / 4 == b, e)]) []

/-- First byte address of an island's maps in the device region: the coarse map, and 2^34 further the fine map (log 149). -/
def mapBase (i : Nat) : Nat := 2 ^ 40 + i * 2 ^ 35

/-- Word of the flash maps at a byte address. -/
def State.mapWord (s : State) (a : Nat) : W64 :=
  let i := (a - mapBase 0) / 2 ^ 35
  let off := (a - mapBase 0) % 2 ^ 35
  let words := if off < 2 ^ 34 then
      ((s.flash.coarse.find? fun c => c.unit == s.islandIndex i (off / 16)).map fun c => c.words (s.unitConfirmed c)).getD []
    else (((s.finePlaces i).find? fun x => x.1 == (off - 2 ^ 34) / 16).map fun x => x.2.words).getD []
  words.getD (off / 8 % 2) 0

/-! ### HBM as it is stored (R320) -/

/-- Key generation of a channel: its own since its return, else its partition's, else that of the device HBM keys (R314, R323, R377). -/
def State.keyGeneration (s : State) (ch : Nat) : Nat :=
  let key := fun (k : Nat) => (s.epochs.hbmKeys.find? (·.1 == k)).map (·.2)
  match key (128 + ch) with
  | some g => g
  | none => ((((s.sliceOf (channelSlice ch)).bind (·.owner)).bind key).getD ((key 64).getD 0))

/-- A 256-byte unit of HBM as encrypted, under its channel's keys with its address divided by 256 as tweak (R320). -/
def State.unitCipher (s : State) (unit : Nat) : List Byte :=
  Config.xts (Config.hbmKeys (s.keyGeneration (unit * 256 / channelBytes))).1 unit ((List.range 256).map fun j => s.hbmByte (unit * 256 + j))

/-- Its integrity tag in the metadata region (R320). -/
def State.unitTag (s : State) (unit : Nat) : W64 :=
  Config.kmacUnit (Config.hbmKeys (s.keyGeneration (unit * 256 / channelBytes))).2 (unit * 256) (s.unitCipher unit)

end Sys2Proof.Machine
end

