-- ==== Sys2Proof/Machine/Alloc.lean ====
section
/-!
DEFINITION. Where HBM frames come from: cold pages, reclaim, demotion, pins, and staging (R74, R126 to R128, R136 to R138).
-/
namespace Sys2Proof.Machine

/-- Puts a sequence into least recently touched order. -/
def insLru (l : List Seq) (q : Seq) : List Seq :=
  match l with
  | [] => [q]
  | x :: r => if q.lastTouch < x.lastTouch then q :: x :: r else x :: insLru r q

/-- Cold sequences of a partition but one, least recently touched first (R127). -/
def State.coldSeqs (s : State) (p h : Nat) : List Seq :=
  (s.seqs.filter fun q => q.part == p && q.handle != h && s.cold q).foldl insLru []

/-- Whether steps 2 and 3 may take a page (R127). -/
def State.movable (s : State) (q : Seq) (p : Page) : Bool :=
  p.tier == .hbm && !p.pinned && p.pins == 0 && q.tail != some p.index && !s.work.moves.any fun m => m.page == keyOf q p

/-- Frames that come to a partition's free list when the shootdowns under way complete (R69, R126). -/
def State.comingFrames (s : State) (p : Nat) : Nat :=
  let chs := s.channelsOf p true
  sumOf (fun (d : Shootdown) => if d.part = p then d.frames.countP fun f => chs.contains (frameChannel f) && !s.claimed f else 0) s.hbm.shootdowns

/-- Frames a page gives back, in granules. -/
def Page.granules (p : Page) : Nat := if p.packed then runCount p.imageLen else 16 * p.frames.length

/-- Step 2: clean cold pages go to tier 10 until about `n` frames are to come free; their frames are free once their shootdowns have completed
(R69, R126, R127). -/
def State.reclaimClean (s : State) (p h n : Nat) : State :=
  (((s.coldSeqs p h).flatMap fun q => (q.pages.filter fun x => s.movable q x && !x.dirty && x.copy.isSome).map fun x => (keyOf q x, x)).foldl
    (fun acc x => if 16 * n ≤ acc.1 then acc
      else (acc.1 + x.2.granules, (acc.2.toFlash x.1 (x.2.copy.getD 0)).bump 0x2302 0x0A p x.2.frames.length)) (0, s)).2

/-- Step 2 for a lack of `n` frames: what shootdowns under way already bring comes off it first. -/
def State.reclaimFor (s : State) (p h n : Nat) : State := s.reclaimClean p h (n - s.comingFrames p)

/-- Starts one move (R68). -/
def State.addMove (s : State) (k : PageKey) (kind : MoveKind) : State :=
  if s.work.moves.any fun m => m.page == k then s
  else (s.fresh).2.onWork fun w => { w with moves := w.moves ++
    [{ id := (s.fresh).1, page := k, kind := kind, lpn := none, place := none, ready := kind != .kerf && kind != .archive, image := [], begun := false }] }

/-! ### Batches (R219, R220) -/

/-- Whether a page takes fine logical pages whatever its batch: not full, the tail page, or with a copy freed within the hot age (R220). -/
def State.fineOnly (s : State) (q : Seq) (p : Page) : Bool :=
  p.valid != 64 || q.tail == some p.index || (match p.copyFreed with
    | some t => s.us - t < 1000 * s.act 0x3002 3 0
    | none => false)

/-- Flash logical pages a move writes. -/
def Move.flashPages (m : Move) (p : Page) : Nat := if m.kind == .kerf then 1 else p.flashPages

/-- Puts a page's move into ascending layer, head, page index order. -/
def insMove (l : List (Move × Nat)) (x : Move × Nat) : List (Move × Nat) :=
  match l with
  | [] => [x]
  | y :: r => if lhKey x.1.page.layer x.1.page.head * 65536 + x.1.page.index < lhKey y.1.page.layer y.1.page.head * 65536 + y.1.page.index then x :: y :: r
    else y :: insMove r x

/-- The moves that fill one unit of 256 logical pages, each with its offset, and the rest. -/
def cutUnit (l : List (Move × Nat)) (at_ : Nat) : List (Move × Nat) × List (Move × Nat) :=
  match l with
  | [] => ([], [])
  | x :: r => if at_ + x.2 ≤ 256 then ((x.1, at_) :: (cutUnit r (at_ + x.2)).1, (cutUnit r (at_ + x.2)).2) else ([], x :: r)

/-- Gives coarse units and their slots to a batch while it fills whole ones; the fuel bounds their number. A page of two logical pages that the last slot does
not hold begins the next unit, and that slot is padded with its row (log 77). -/
def State.assignUnits (s : State) (st : Stream) : Nat → List (Move × Nat) → State
  | 0, _ => s
  | n + 1, l =>
    if sumOf (·.2) l < 256 then s
    else
      let i := s.nextIsland
      match s.takeSlots i st 256 256 with
      | none => s
      | some (sb, slot, s1) =>
        let u := (s1.takeUnit i).1
        let cut := cutUnit l 0
        let live := (l.take cut.1.length).foldl (fun (acc : List Nat) x => acc ++ (List.range x.2).map (acc.length + ·)) []
        let s2 := ((s1.takeUnit i).2.onFlash fun f => { f with coarse := f.coarse ++
          [{ unit := u, split := false, tlc := st == .archive, sb := sb, start := slot, wseq := 0, live := live }] }).onWork fun w => { w with
            moves := w.moves.map fun m => match cut.1.find? fun x => x.1.id == m.id with
              | some x => { m with lpn := some (u * 256 + x.2), place := some (i, sb, slot + x.2) }
              | none => m }
        s2.assignUnits st n cut.2

/-- Fixes the logical pages of a sequence's moves of one batch; those left over take fine pages when they are made (log 77). -/
def State.assignBatch (s : State) (h : Nat) (mine : MoveKind → Bool) (st : Stream) : State :=
  match s.seq h with
  | none => s
  | some q =>
    let ms := (s.work.moves.filter fun m => m.page.handle == h && mine m.kind && m.lpn.isNone && m.ready && !m.begun).filterMap fun m =>
      (q.page m.page.layer m.page.head m.page.index).bind fun p => if s.fineOnly q p then none else some (m, m.flashPages p)
    s.assignUnits st (ms.length + 1) (ms.foldl insMove [])

/-- Frames that demotions under way for step 3 will free. -/
def State.demoting (s : State) (p : Nat) : Nat :=
  sumOf (fun (m : Move) => if m.kind == .demote 1 && handlePart m.page.handle = p then ((s.page m.page).map (·.frames.length)).getD 0 else 0) s.work.moves

/-- Step 3: demotions of dirty cold pages start for about `n` frames, those under way counted; a tier without room drops the page with reason 4 or 5
(R128, R212, R238, R240). -/
def State.startDemotions (s : State) (p h n : Nat) : State :=
  let want := 16 * (n - s.demoting p)
  let s1 := (((s.coldSeqs p h).flatMap fun q => (q.pages.filter fun x => s.movable q x && (x.dirty || x.copy.isNone)).map fun x => (keyOf q x, x)).foldl
    (fun (acc : Nat × State) x =>
      if want ≤ acc.1 then acc
      else
        let s1 := acc.2.bump 0x2302 0x0B p 1
        (acc.1 + x.2.granules,
          if s1.flashReadOnly then (s1.bump 0x3007 5 p 1).lose x.1 4
          else if s1.quotaFull p then (s1.bump 0x3007 6 p 1).lose x.1 5 else s1.addMove x.1 (.demote 1))) (0, s)).2
  s1.each ((s.coldSeqs p h).map fun (q : Seq) => q.handle) fun s k => s.assignBatch k (fun m => m == .demote 1) .coarse

/-- Steps 2 and 3 for a lack of `n` frames (R126, R136). -/
def State.makeRoom (s : State) (p h n : Nat) : State :=
  let s1 := s.reclaimFor p h n
  s1.startDemotions p h (n - s1.comingFrames p)

/-! ### Pinned frames (R74) -/

/-- Frames a page holds: whole ones, or the granules of a packed page rounded up. -/
def Page.holds (p : Page) : Nat := if p.packed then cdiv p.imageLen 16384 else fmtFrames p.fmt

def State.pinnedFrames (s : State) (p : Nat) : Nat :=
  sumOf (fun (q : Seq) => if q.part = p then sumOf (fun (x : Page) => if x.pinned then x.holds else 0) q.pages else 0) s.seqs

/-- Frames of pages that stagings under way will pin (R74). -/
def State.pinningFrames (s : State) (p : Nat) : Nat :=
  sumOf (fun (g : Staging) => if g.pin && handlePart g.page.handle = p then ((s.page g.page).map fun x => if x.pinned then 0 else x.holds).getD 0 else 0) s.work.stagings

def State.pinnedLimit (s : State) (p : Nat) : Nat := s.rw 0x2101 0x0D p * s.frameTotal p / 65536

/-! ### Staging (R136, R137) -/

def State.staging (s : State) (id : Nat) : Option Staging := s.work.stagings.find? (·.id == id)
def State.onStaging (s : State) (id : Nat) (f : Staging → Staging) : State :=
  s.onWork fun w => { w with stagings := mapIf (·.id == id) f w.stagings }

/-- Begins the transfer of a staging that has its place: a flash read, or a Relay of kind 1 to the peer that holds the page (R136, R274). -/
def State.fetchStaging (s : State) (g : Staging) : State :=
  match s.seq g.page.handle, s.page g.page with
  | some q, some p =>
    if p.tier == .flash then s.startRead p.frame p.flashPages q.part 2 (.staging g.id)
    else if p.tier == .peer then s.relayOut 1 (p.frame / 2 ^ 32) q 0 0 0 [(g.page, p.frame % 2 ^ 32)] [] 32896 0 [g.id]
    else s
  | _, _ => s

/-- Gives a staging its frames by steps 1 to 3 of R126, never from the reserve line; without any it waits (R136). -/
def State.placeStaging (s : State) (id : Nat) : State :=
  match s.staging id with
  | none => s
  | some g =>
    match s.seq g.page.handle, s.page g.page with
    | some q, some p =>
      if p.packed && p.tier == .flash then
        match s.takeRun q.part p.index (runCount p.imageLen) 0 with
        | some (a, s2) => (s2.onStaging id fun x => { x with place := some a }).fetchStaging { g with place := some a }
        | none => s.makeRoom q.part g.page.handle (max (cdiv p.imageLen 16384) (128 - s.openFrames q.part))
      else
        match s.findOpen q.part p.index (fmtFrames p.fmt) with
        | some fs =>
          let a := frameGranule (fs.headD 0)
          ((s.takeFrames fs).onStaging id fun x => { x with place := some a, frames := fs }).fetchStaging { g with place := some a, frames := fs }
        | none => s.makeRoom q.part g.page.handle (fmtFrames p.fmt)
    | _, _ => s

/-- Starts staging a page, or joins the staging under way; its id (R136). -/
def State.stagePage (s : State) (k : PageKey) (kind : StageKind) (pin : Bool) : Nat × State :=
  match s.work.stagings.find? (·.page == k) with
  | some g =>
    (g.id, s.onStaging g.id fun x => { x with kind := if kind.rank < x.kind.rank then kind else x.kind, pin := x.pin || pin })
  | none =>
    let id := (s.fresh).1
    let relay := ((s.page k).map fun p => p.tier == .peer).getD false
    let g : Staging := { id := id, page := k, kind := kind, frames := [], place := none, relay := relay, verified := false, image := [], due := false, startUs := s.us, pin := pin }
    (id, ((s.fresh).2.onWork fun w => { w with stagings := w.stagings ++ [g] }).placeStaging id)

/-- Stagings that wait for frames, in the order of R137. -/
def State.waitingStagings (s : State) : List Staging :=
  (List.range 4).flatMap fun r => s.work.stagings.filter fun g => g.place.isNone && g.kind.rank == r

/-- Gives waiting stagings another try. -/
def State.retryStagings (s : State) : State := s.each s.waitingStagings fun s g => s.placeStaging g.id

/-- A staging ends: whoever waited on it is told. `ok` when the page is now in HBM. -/
def State.endStaging (s : State) (id : Nat) (ok : Bool) : State :=
  s.onWork fun w => { w with
    stagings := w.stagings.filter (·.id != id)
    tiles := w.tiles.map (fun t => if t.st = .staged id || t.st = .relayed id then { t with st := .ready } else t)
    appends := w.appends.map (fun a => if a.phase = .staging id then { a with phase := .scattering } else a)
    stageReqs := w.stageReqs.map (fun r => if r.waits.contains id then { r with waits := r.waits.filter (· != id), staged := r.staged + bit ok } else r) }

/-- Frames or granules a staging took, to which no translation has led yet, go back. -/
def State.dropPlace (s : State) (part : Nat) (g : Staging) : State :=
  if g.frames.isEmpty then (match g.place with
    | some a => s.dropRun a
    | none => s) else s.dropFrames part g.frames

/-- A staging fails: its frames go back and the page is dropped (R136, R274). -/
def State.failStaging (s : State) (id reason src : Nat) : State :=
  match s.staging id with
  | none => s
  | some g =>
    let part := handlePart g.page.handle
    ((s.dropPlace part g).losePage g.page reason src).endStaging id false

end Sys2Proof.Machine
end

