-- ==== Sys2Proof/Machine/Lease.lean ====
section
/-!
DEFINITION. Leases and placements: eligibility, cost, PLACE, acceptance and refusal, turn reports, and freeing a sequence (R62, R257 to R264, R269).
-/
namespace Sys2Proof.Machine

/-! ### Capacity (R257) -/

/-- Flash need Q of a geometry: layers, heads, base, declared length, format, window in pages (0 when dense). -/
def flashNeed (layers heads base declared fmt window : Nat) : Nat :=
  let n := cdiv (declared - base) 64
  layers * heads * (if window = 0 then n else min n (window + 66)) * fmtFrames fmt

/-- Fixed frames X of a geometry. -/
def fixedNeed (layers heads base declared fmt : Nat) : Nat :=
  cdiv declared 4096 + cdiv (1032 * (layers * heads * cdiv (declared - base) 4096)) 16384 + layers * heads * fmtFrames fmt + 1

/-- Fixed frames of a partition's sequences but one. -/
def State.fixedUsed (s : State) (p but : Nat) : Nat :=
  sumOf (fun (q : Seq) => if q.part = p && q.handle ≠ but then q.fixedFrames else 0) s.seqs

/-- Whether a partition has room for a sequence under R257; `but` is the sequence a new turn replaces, `slot` whether a free slot is needed. -/
def State.hasCapacity (s : State) (p but q x : Nat) (slot : Bool) : Bool :=
  (s.flashDisabled || q ≤ s.flashQuota p) && x + s.fixedUsed p but ≤ s.frameTotal p * s.act 0x4002 5 p / 65536
    && (!slot || s.seqs.countP (·.part == p) < s.act 0x2101 2 p)

/-! ### Eligibility and cost (R258, R263, R264) -/

/-- Tokens to prefill (R264). -/
def Seq.prefillTokens (q : Seq) : Nat := q.turn.endPos - q.sealedPos

/-- Tokens a prefill placement carries: those the ledger holds; after a cut it holds none past the sealed position (R78, log 37). -/
def Seq.placeTokens (q : Seq) : List W32 := (q.ledger.take q.turn.endPos).drop q.sealedPos

/-- Bytes of token region a prefill takes: none within the PLACE inline limit (R258). -/
def State.regionNeed (s : State) (q : Seq) : Nat := if q.placeTokens.length ≤ s.rw 0x4001 6 0 then 0 else 4 * q.placeTokens.length

/-- Where `n` bytes fit in a node's token region. -/
def Node.regionAt (nd : Node) (n : Nat) : Option Nat := windowGap (nd.regionUsed.foldl insRun []) 0 n nd.regionLen

def State.eligible (s : State) (q : Seq) (ph : TurnPhase) (nd : Node) : Bool :=
  nd.part == q.part && !q.turn.refused.contains nd.num && (nd.allTenants || nd.tenant == q.tenant)
    && nd.variants.contains q.variant && nd.payloadFormats != 0
    && (match ph with
      | .prefill => nd.role == 0 && (s.regionNeed q == 0 || (nd.regionAt (s.regionNeed q)).isSome)
      | .decode => nd.role == 1 && nd.active + nd.placedSeqs < nd.decodeCapacity && (!q.turn.classic || nd.classic))

/-- Cost of a placement as a fraction of µs. -/
def State.placeCost (s : State) (q : Seq) (ph : TurnPhase) (nd : Node) : Nat × Nat :=
  let cold := if nd.warm.contains q.variant then 0 else s.act 0x4002 2 q.part
  let die := match s.qp nd.regQp, s.homeCluster q with
    | some p, some c => if lpDie p.lp = c / 8 then 0 else s.act 0x4002 3 q.part
    | _, _ => 0
  match ph with
  | .prefill => (1000000 * (nd.queued + nd.placedTokens + q.prefillTokens) + (cold + die) * nd.prefillRate, nd.prefillRate)
  | .decode => (s.act 0x4002 4 q.part * (nd.active + nd.placedSeqs + 1) + (cold + die) * nd.decodeCapacity, nd.decodeCapacity)

/-- The eligible node of least cost, ties to the lowest number. -/
def State.bestNode (s : State) (q : Seq) (ph : TurnPhase) : Option Node :=
  (s.broker.nodes.filter fun nd => s.eligible q ph nd).foldl (fun acc nd => match acc with
    | none => some nd
    | some a =>
      let x := s.placeCost q ph nd
      let y := s.placeCost q ph a
      if x.1 * y.2 < y.1 * x.2 || (x.1 * y.2 = y.1 * x.2 && nd.num < a.num) then some nd else some a) none

/-- The node an offer goes to: a hand-off's named target first (R259). -/
def State.pickNode (s : State) (q : Seq) (ph : TurnPhase) : Option Node :=
  match ph, q.turn.target with
  | .decode, some t => match (s.node t).filter fun nd => s.eligible q ph nd with
    | some nd => some nd
    | none => s.bestNode q ph
  | _, _ => s.bestNode q ph

/-! ### PLACE (Table 8-7) -/

def TurnPhase.code : TurnPhase → Nat
  | .prefill => 0 | .decode => 1

def Seq.placeWords (q : Seq) (ph : TurnPhase) (region : Option Nat) : List W64 :=
  [packWord [(2, ph.code), (1, bit q.turn.replaced), (1, bit q.turn.classic), (1, bit region.isSome), (5, q.turn.pending.length), (6, 0),
             (16, q.leaseGen + 1), (32, 0)],
   packWord [(23, q.sealedPos), (23, if ph == .prefill then q.turn.endPos else q.sealedPos), (18, 0)],
   (q.geometry.headD 0) &&& 0xFFFFFFFFFFFFFC00, BitVec.ofNat 64 q.headMask, packWord [(23, q.posBase), (23, q.posLimit), (18, 0)],
   packWord [(32, region.getD 0), (32, if ph == .prefill then q.placeTokens.length else 0)]] ++ (q.turn.context ++ List.replicate 8 0).take 8

/-- Whether a lookup serves the admission of a sequence. -/
def LookupFor.admits (h : Nat) : LookupFor → Bool
  | .admission x => x == h
  | _ => false

/-- Whether an admission still looks for its prefix, so that it is not placed yet (R256, R272). -/
def State.admitBusy (s : State) (h : Nat) : Bool :=
  s.mortise.lookups.any (fun l => l.for_.admits h)
    || s.broker.asks.any (fun a => match a.kind with | .probe x => x == h | _ => false)
    || s.broker.relays.any fun r => r.kind == 2 && r.forSeq == h

/-- Offers a sequence in CHOOSING to the next node, when one is eligible (R258, R262). -/
def State.tryPlace (s : State) (h : Nat) : State :=
  match s.seq h with
  | none => s
  | some q =>
    match q.lease with
    | .choosing ph =>
      if s.admitBusy h || s.due q.turn.waitUntil then s
      else match s.pickNode q ph with
        | none => s
        | some nd =>
          let need := if ph == TurnPhase.prefill then s.regionNeed q else 0
          let region := if need = 0 then none else nd.regionAt need
          let ts := q.placeTokens
          let s1 := match region, s.nodeQp nd.num with
            | some off, some qp =>
              (s.onNode nd.num fun x => { x with regionUsed := x.regionUsed ++ [(off, need)] }).rdmaWrite qp (serviceOf nd.role 0x11 9 true) 7 q.tenant
                (nd.regionAddr + off) nd.regionKey (ts.flatMap fun (t : W32) => beBytes 4 t.toNat)
            | _, _ => s
          let until_ := s.us + 1000 * s.rw 0x4001 4 0
          let tag := (s1.freshTag).1
          (s1.ask nd.num 0x11 9 q.part q.tenant h (q.placeWords ph region)
            (tokenBytes (q.turn.pending ++ (if ph == TurnPhase.prefill && need = 0 then ts else []))) (some (.place h, until_))).onSeq h fun x =>
              { x with lease := .offered ph nd.num tag, turn := { x.turn with acceptUntil := until_, region := region.map fun o => (nd.num, o, need) } }
    | _ => s

/-- Offers every sequence of a partition that waits in CHOOSING, after the nodes have changed. -/
def State.retryPlaces (s : State) (p : Nat) : State :=
  s.each ((s.seqs.filter fun q => q.part == p && (match q.lease with | .choosing _ => true | _ => false)).map (·.handle)) fun s h => s.tryPlace h

/-- Takes an offer's request and token-region space back. -/
def State.endOffer (s : State) (h tag : Nat) : State :=
  let s1 := s.onBroker fun b => { b with asks := b.asks.filter (·.tag != tag) }
  match (s1.seq h).bind (·.turn.region) with
  | some (nd, off, n) => (s1.onNode nd fun x => { x with regionUsed := x.regionUsed.filter (· != (off, n)) }).onSeq h fun q =>
      { q with turn := { q.turn with region := none } }
  | none => s1

/-! ### Completions of turns (Tables 8-6, 8-8, 8-9) -/

def Seq.admitWords (q : Seq) (node : Nat) : List W64 :=
  [packWord [(23, q.turn.matched), (23, q.sealedPos), (18, 0)], packWord [(16, node), (32, q.turn.transit), (1, bit q.turn.prefixCopied), (15, 0)],
   BitVec.ofNat 64 q.turn.home]

def Seq.handoffWords (q : Seq) (node : Option Nat) : List W64 :=
  [packWord [(23, q.sealedPos), (12, node.getD 0), (1, bit node.isNone), (28, 0)]]

/-- Answers a request kept in a turn record, and forgets it. -/
def State.answerAdmit (s : State) (h node : Nat) (st : Status) : State :=
  match s.seq h with
  | none => s
  | some q => match q.turn.admitReq with
    | none => s
    | some r =>
      let s1 := if st == .ok then (s.bump 0x4006 2 q.part 1).meter q.part q.tenant 0x14 1 else s
      (s1.complete { r with handle := h } st (q.admitWords node) []).onSeq h fun x => { x with turn := { x.turn with admitReq := none } }

def State.answerHandoff (s : State) (h : Nat) (node : Option Nat) (st : Status) : State :=
  match s.seq h with
  | none => s
  | some q => match q.turn.handoffReq with
    | none => s
    | some r => (s.complete r st (q.handoffWords node) []).onSeq h fun x => { x with turn := { x.turn with handoffReq := none } }

/-- Sends the turn report to the node that admitted the turn, when it is still registered (R261). -/
def State.turnReport (s : State) (h : Nat) (st : Status) : State :=
  match s.seq h with
  | none => s
  | some q =>
    let s1 := s.meter q.part q.tenant (if st == .ok then 0x19 else 0x1A) 1
    match s1.broker.nodes.find? fun n => n.part == q.part && n.ident == q.turn.admitterIdent with
    | none => s1
    | some n => s1.ask n.num 0x13 9 q.part q.tenant h
        [packWord [(8, st.code), (5, q.turn.pending.length), (23, q.sealedPos), (28, 0)], BitVec.ofNat 64 q.turn.oldHandle] (tokenBytes q.turn.pending) none

/-- The turn ends: the device keeps the lease, and the report goes out (R261, R262). -/
def State.endTurn (s : State) (h : Nat) (st : Status) : State :=
  (s.turnReport h st).onSeq h fun q => { q with lease := .idle, turn := { q.turn with pending := [], target := none, refused := [], oldHandle := 0, thenDecode := false } }

/-! ### Acceptance and refusal (R258, R262) -/

/-- A node accepts: holder set, generation advanced, the waiting ADMIT or HANDOFF completed. -/
def State.acceptPlace (s : State) (h node tag : Nat) (ph : TurnPhase) : State :=
  match s.seq h with
  | none => s
  | some q =>
    let s1 := (((s.endOffer h tag).onNode node fun n =>
      { n with accepted := n.accepted + 1, placedTokens := n.placedTokens + (if ph == .prefill then q.prefillTokens else 0)
               placedSeqs := n.placedSeqs + (if ph == .decode then 1 else 0) }).meter q.part q.tenant 0x16 1).onSeq h fun x =>
        { x with lease := .held ph, holder := some node, leaseGen := (x.leaseGen + 1) % 65536
                 turn := { x.turn with target := none, pending := if ph == .decode then [] else x.turn.pending, replaced := false } }
    if ph == .prefill then s1.answerAdmit h node .ok else s1.answerHandoff h (some node) .ok

/-- A node refuses, does not answer in time, or is gone: it is excluded for this turn, and the next is tried. -/
def State.refusePlace (s : State) (h node tag : Nat) (ph : TurnPhase) : State :=
  match s.seq h with
  | none => s
  | some q =>
    ((((s.endOffer h tag).onNode node fun n => { n with refused := n.refused + 1 }).meter q.part q.tenant 0x17 1).onSeq h fun x =>
      { x with lease := .choosing ph, turn := { x.turn with refused := x.turn.refused ++ [node], target := none } }).tryPlace h

/-- Puts a sequence into CHOOSING with a new placement wait and offers it. -/
def State.choose (s : State) (h : Nat) (ph : TurnPhase) : State :=
  (s.onSeq h fun q => { q with lease := .choosing ph, holder := none, turn := { q.turn with waitUntil := s.us + 1000 * s.rw 0x4001 3 0 } }).tryPlace h

/-! ### Freeing (R62, R168, R268) -/

/-- Frees a sequence, or makes it retained when others link to it; its partner record and its prefix entries go (R62, R168, R268). -/
def State.releaseSeq (s : State) (h : Nat) : State :=
  match s.seq h with
  | none => s
  | some q =>
    let e := s.linkedTo h
    if 0 < q.linkers then
      let past := q.pages.filter fun p => e ≤ q.pagePos p.index
      ((s.each past fun s p => s.freePage (keyOf q p)).dropPrefix h (e / 64)).onSeq h fun x =>
        { x with st := .retained, truncated := false, lease := .idle, holder := none, epochQueue := [] }
    else
      let s1 := ((s.sync q .free 0 0).dropPrefix h 0).dropSeq h
      if q.link = 0 then s1 else s1.unlink 6 q.link

/-- Completes a release that waited in FREEING (R260, R262). -/
def State.finishRelease (s : State) (h : Nat) : State :=
  match s.seq h with
  | none => s
  | some q =>
    let s1 := s.releaseSeq h
    match q.turn.releaseReq with
    | some r => (s1.complete r .ok [packWord [(23, q.sealedPos), (41, 0)]] []).onSeq h fun x => { x with turn := { x.turn with releaseReq := none } }
    | none => s1

/-! ### A holder that is gone (R78, R111, R253) -/

/-- A sequence's holder is gone or has deregistered: appends fail, rows are cancelled, the cut follows, and the lease is offered again (R78, R262). -/
def State.loseHolder (s : State) (h node : Nat) : State :=
  match s.seq h with
  | none => s
  | some q =>
    let s2 := ((((s.failAccepted h none).dropQueued h none).cancelRows h node).stopDelivery h).cut h
    match q.lease with
    | .held ph => (s2.onSeq h fun x => { x with turn := { x.turn with replaced := true, pending := [], refused := [], target := none } }).choose h ph
    | _ => s2.onSeq h fun x => { x with holder := none }

end Sys2Proof.Machine
end

