-- ==== Sys2Proof/Machine/Admit.lean ====
section
/-!
DEFINITION. Admission: slots and generations, lookups on behalf of a sequence, links, the home ring, resume staging, and what follows a lookup
(R58 to R60, R139, R160, R163, R202, R255, R256, R269, R271, R272, R437).
-/
namespace Sys2Proof

def AdmitBody.layerN (b : AdmitBody) : Nat := b.layers.toNat + 1
def AdmitBody.headN (b : AdmitBody) : Nat := b.kvHeads.toNat + 1
def AdmitBody.groupN (b : AdmitBody) : Nat := b.group.toNat + 1
/-- Heads the part holds. -/
def AdmitBody.partHeads (b : AdmitBody) : Nat := (headSpan b.headMask.toNat).length
def AdmitBody.limit (b : AdmitBody) : Nat := if b.posLimit = 0 then 4194304 else b.posLimit.toNat

end Sys2Proof

namespace Sys2Proof

/-- Ranges of the append format, window and service class of word 0 of an ADMIT (Table 8-6, R179). -/
def AdmitBody.wordZero (b : AdmitBody) : Bool :=
  1 ≤ b.fmt.toNat && b.fmt.toNat ≤ 10 && (if b.winPolicy then 1 ≤ b.window.toNat && b.window.toNat ≤ 4096 else b.window == 0) && b.svc.toNat ≤ 1

end Sys2Proof

namespace Sys2Proof.Machine

/-! ### Slots (R437) -/

/-- Lowest-numbered free slot of a partition below its slot limit. -/
def State.freeSlot (s : State) (p : Nat) : Option Nat :=
  let n := (sortNat ((s.seqs.filter (·.part == p)).map (·.slot))).foldl (fun a i => if a = i then a + 1 else a) 0
  if n < s.act 0x2101 2 p then some n else none

/-- Takes a slot: its generation is drawn at its first use since the last device reset, and advances by one, skipping 0, at each reuse. -/
def State.takeGen (s : State) (p slot : Nat) : Nat × State :=
  let key := p * 2 ^ 20 + slot
  let old := sget s.slotGens key 0
  if old = 0 then
    let g := 1 + (s.free).1.toNat % (2 ^ 22 - 1)
    (g, (s.free).2.onSlotGens fun m => sset m key g)
  else
    let g := if old = 2 ^ 22 - 1 then 1 else old + 1
    (g, s.onSlotGens fun m => sset m key g)

/-- A turn record at the start of a turn (R255). -/
def newTurn (node ident svc endPos until_ : Nat) (context : List W64) (req : Option Req) : Turn :=
  { admitter := node, admitterIdent := ident, context := context, svc := svc, refused := [], waitUntil := until_, acceptUntil := 0, pending := []
    target := none, classic := false, replaced := false, endPos := endPos, admitReq := req, handoffReq := none, releaseReq := none, matched := 0
    transit := 0, prefixCopied := false, home := 0, region := none, oldHandle := 0, thenDecode := false }

/-- Puts a new sequence in CHOOSING, prefill, with its prompt in the ledger (R58, R255, R262). -/
def State.newSeq (s : State) (p t slot : Nat) (b : AdmitBody) (tokens : List W32) (turn : Turn) : Nat × State :=
  let g := s.takeGen p slot
  let base := b.posBase.toNat
  let reach := max b.declared.toNat (tokens.length + 1)
  let q : Seq :=
    { part := p, tenant := t, gen := g.1, slot := slot, variant := b.variant.toNat, layers := b.layerN, kvHeads := b.headN, group := b.groupN
      fmt := b.fmt.toNat, st := .live, truncated := false, unmirrored := !s.namesPartner p, winPolicy := b.winPolicy, window := b.window.toNat
      globalPages := 0, sealedPos := base, capacity := min 1024 (max 1 (cdiv (reach - base) 4096)), posBase := base, posLimit := b.declared.toNat
      headMask := b.headMask.toNat, holder := none, leaseGen := 0, epoch := s.epochs.active, link := 0, linkLen := 0, linkDepth := 0, linkers := 0
      lastTouch := s.ms, scanned := none, ledger := tokens, acked := 0, timedOut := 0, frontiers := [], frontierBase := base, pages := [], ledgerFrames := []
      tableFrames := [], tabs := [], lease := .choosing .prefill, turn := turn, chain := none, epochQueue := []
      fixedFrames := fixedNeed b.layerN b.partHeads base b.declared.toNat b.fmt.toNat, home := none }
  (q.handle, (((g.2.onSeqs fun l => l ++ [q]).fitFixed q.handle).sync q .create 0 tokens.length).openMeter p t)

/-! ### The home ring (R271) -/

/-- Ring points of a device (log 38: its identifier most significant byte first). -/
def ringPoints (ident : Nat) : List Nat := (List.range 64).map fun i => beNat (shake256 (beBytes 8 ident ++ [BitVec.ofNat 8 i]) 8)

/-- Node identifiers on a partition's ring: the device itself and, with probing enabled, its peers. -/
def State.ringIdents (s : State) (p : Nat) : List Nat :=
  s.rw 0x4005 2 0 :: (if s.act 0x4002 8 p = 1 then (s.broker.nodes.filter fun n => n.part == p && n.role == 3).map (·.ident) else [])

/-- Owner of the first point at or above a value, wrapping to the lowest point. -/
def ringOwner (idents : List Nat) (v : Nat) : Nat :=
  let pts := idents.flatMap fun d => (ringPoints d).map fun x => ((x + 2 ^ 64 - v) % 2 ^ 64, d)
  ((pts.foldl (fun (acc : Option (Nat × Nat)) x => match acc with
    | none => some x
    | some y => if x.1 < y.1 then some x else some y) none).map (·.2)).getD 0

/-- Home of a prompt: F(0) on the chain that matched. A prompt of less than one block has no F(0) and this device for its home (log 38). -/
def State.homeOf (s : State) (q : Seq) (pub : Bool) : Nat :=
  let salt := if pub then s.publicSalt q.part else (s.tenantKey q.part q.tenant).map (·.salt)
  match salt with
  | some k => if q.ledger.length < 64 then s.rw 0x4005 2 0
    else ringOwner (s.ringIdents q.part) (fingerprint k 0 q.variant (blockTokens q.ledger 0) / 2 ^ 64 % 2 ^ 64)
  | none => s.rw 0x4005 2 0

/-! ### Links (R59, R60, R163) -/

/-- Sequence and length a link of `len` to `h` records: through a link that reaches as far, and cut where a fifth link would be needed. -/
def State.linkTarget (s : State) : Nat → Nat → Nat → Nat × Nat
  | 0, h, len => (h, len)
  | n + 1, h, len =>
    match s.seq h with
    | none => (h, len)
    | some q =>
      if q.link ≠ 0 && len ≤ q.linkLen then s.linkTarget n q.link len
      else if 4 ≤ q.linkDepth then s.linkTarget n q.link q.linkLen
      else (h, len)

/-- Links an admission to a holder for `len` positions. -/
def State.commitLink (s : State) (h holder len : Nat) : State :=
  let t := s.linkTarget 8 holder len
  match s.seq t.1 with
  | none => s
  | some f =>
    let len := min t.2 (f.sealedPos / 64 * 64)
    if len = 0 || (s.seq h).isNone then s
    else (s.onSeq t.1 fun x => { x with linkers := x.linkers + 1 }).onSeq h fun x =>
      { x with link := t.1, linkLen := len, linkDepth := f.linkDepth + 1, sealedPos := len, frontierBase := len, turn := { x.turn with matched := len } }

/-! ### Resume staging (R139) -/

/-- Pages a dense row below `e` could need that stand in tier 10. -/
def State.flashPages (s : State) (h e : Nat) : List PageKey :=
  match s.seq h with
  | none => []
  | some q =>
    (List.range q.layers).flatMap fun l => q.heads.flatMap fun k =>
      (List.range (cdiv (e - q.posBase) 64)).filterMap fun i =>
        (s.walk h l k i).bind fun x => x.2.bind fun p => if p.tier == .flash then some (keyOf x.1 p) else none

/-- Starts resume staging of an admitted turn and counts its pages. -/
def State.resumeStaging (s : State) (h : Nat) : State :=
  match s.seq h with
  | none => s
  | some q =>
    if s.act 0x2301 0x0A q.part ≠ 1 then s
    else
      let ks := s.flashPages h q.sealedPos
      (s.each ks fun s k => (s.stagePage k .resume false).2).onSeq h fun x => { x with turn := { x.turn with transit := x.turn.transit + ks.length } }

/-! ### Pages that come from elsewhere (R202, R269, R274) -/

/-- Stored bytes of a Relay image as it arrives: out of network order, a coded one expanded; none when it is not a well-formed page (R185, R202). -/
def relayBytes (i : RelayImage) : Option (List Byte) :=
  let f := i.fmt.toNat
  if f = 0 || 11 < f || 64 < i.valid.toNat then none
  else if i.coded then (if packable f then expandImage f i.keyTable.toNat i.valueTable.toNat (storedImage f i.content) else none)
  else if i.content.length = (if f = 11 then 9216 else rawBytes f) then some (netPage f i.content) else none

/-- The image a page that arrived is kept as: unpacked, in stored order (R202). -/
def keptImage (i : RelayImage) (bs : List Byte) : RelayImage := { i with coded := false, keyTable := 0, valueTable := 0, content := bs }

/-- Puts a page into a sequence with its own frames: tier 01, unpacked, dirty. A lost page written anew keeps what only `STAGE` changes (Tables 2-5 and 2-8,
R125). -/
def State.storePage (s : State) (k : PageKey) (fmt valid : Nat) (fs : List Nat) (bs : List Byte) : State :=
  let old := s.page k
  let p : Page :=
    { layer := k.layer, head := k.head, index := k.index, tier := .hbm, fmt := fmt, gen := 0, packed := false, dirty := true
      pinned := (old.map (·.pinned)).getD false, glob := (old.map (·.glob)).getD false, lost := false, valid := valid, frame := frameGranule (fs.headD 0)
      pins := 0, copy := none, frames := fs, imageLen := if fmt = 11 then bs.length else 0, packTried := 0, kerfTried := 0
      copyFreed := old.bind (·.copyFreed) }
  ((s.takeFrames fs).putBytes p.frame bs).onSeq k.handle fun q => { q with pages := q.pages.filter (fun x => !pageIs k x) ++ [p] }

/-- Installs the pages a partner was sent for one page index, when they are there for every layer and head; true when they were (R269). -/
def State.installMirror (s : State) (h : Nat) (m : Mirror) (i : Nat) : Bool × State :=
  match s.seq h with
  | none => (false, s)
  | some q =>
    ((List.range q.layers).flatMap fun l => q.heads.map fun k => (l, k)).foldl (fun (acc : Bool × State) x =>
      if !acc.1 then acc
      else match m.pages.find? fun y => y.page.layer.toNat == x.1 && y.page.head.toNat == x.2 && y.page.index.toNat == i && y.image.tagOk with
        | none => (false, acc.2)
        | some y =>
          match acc.2.findOpen q.part i (fmtFrames y.image.fmt.toNat) with
          | some fs => (true, acc.2.storePage { handle := h, layer := x.1, head := x.2, index := i } y.image.fmt.toNat y.image.valid.toNat fs y.image.content)
          | none => (false, acc.2)) (true, s)

/-- Uses the mirrored pages of a re-admitted sequence from its link on, as far as they go without a gap, and ends the mirror record (R269). -/
def State.useMirror (s : State) (h : Nat) : State :=
  match s.seq h with
  | none => s
  | some q =>
    match (if q.turn.oldHandle = 0 then none else s.broker.mirrors.find? fun m => m.part == q.part && m.handle == q.turn.oldHandle) with
    | none => s
    | some m =>
      let first := (q.sealedPos - q.posBase) / 64
      let r := (List.range (q.ledger.length / 64)).foldl (fun (acc : Bool × Nat × State) i =>
        if !acc.1 then acc
        else
          let x := acc.2.2.installMirror h m (first + i)
          (x.1, if x.1 then first + i + 1 else acc.2.1, if x.1 then x.2 else acc.2.2)) (true, first, s)
      let e := min (q.posBase + 64 * r.2.1) (q.ledger.length)
      let s1 := if e ≤ q.sealedPos then r.2.2
        else ((r.2.2.onSeq h fun x => { x with sealedPos := e, frontierBase := e }).fitFixed h).issueInsertions h q.sealedPos e
      s1.onBroker fun b => { b with mirrors := b.mirrors.filter fun y => !(y.part == m.part && y.handle == m.handle) }

/-- After the prefix is settled: mirrored pages, which seal blocks whose entries are then made, and placement (R164, R256, R269). -/
def State.admitOn (s : State) (h : Nat) : State := (s.useMirror h).tryPlace h

/-! ### Lookups (R160, R163, R175, R272) -/

/-- A lookup that has not begun. -/
def State.newLookup (s : State) (for_ : LookupFor) (p t variant mask kvHeads : Nat) (ts : List W32) (priv pub : Bool) : Lookup × State :=
  let x := (s.fresh).2
  ({ id := (s.fresh).1, for_ := for_, phase := .searching, part := p, tenant := t, variant := variant, headMask := mask, kvHeads := kvHeads, tokens := ts
     doPriv := priv && (s.tenantKey p t).isSome
     doPub := pub && (s.publicSalt p).isSome && s.mortise.records.any fun r => r.part == p && r.tenant == t
     block := 0, fpPriv := 0, fpPub := 0, hits := [], waitPriv := false, waitPub := false, hitPriv := none, hitPub := none, usedSecond := false },
   if (s.tenantKey p t).isSome then x.useKey p t else x)

/-- PEER_PROBE (R272): asks the home for a longer match; true when it was sent. -/
def State.probeHome (s : State) (h len : Nat) (pub : Bool) : Bool × State :=
  match s.seq h with
  | none => (false, s)
  | some q =>
    let home := s.homeOf q pub
    let s1 := s.onSeq h fun x => { x with turn := { x.turn with home := home } }
    let prompt := q.turn.endPos
    if s.act 0x4002 8 q.part ≠ 1 || home = s.rw 0x4005 2 0 || prompt - len < s.act 0x4002 9 q.part || 65536 ≤ len then (false, s1)
    else match s.broker.nodes.find? fun n => n.part == q.part && n.role == 3 && n.ident == home with
      | none => (false, s1)
      | some n =>
        let ts := (q.ledger.take prompt).take 65536
        (true, s1.ask n.num 0x62 9 q.part q.tenant 0
          [packWord [(16, q.variant), (23, ts.length), (25, 0)], BitVec.ofNat 64 q.headMask, packWord [(16, q.tenant), (48, 0)]] (tokenBytes ts)
          (some (.probe h, s1.us + 1000 * s.act 0x4002 0x0A q.part)))

/-- Takes a lookup off the list. -/
def State.dropLookup (s : State) (id : Nat) : State := s.onMortise fun m => { m with lookups := m.lookups.filter (·.id != id) }

/-- Keeps a lookup as it now stands. -/
def State.keepLookup (s : State) (lk : Lookup) : State := s.onMortise fun m => { m with lookups := mapIf (·.id == lk.id) (fun _ => lk) m.lookups }

/-- What the match of an admission's lookup leads to: the link, the staging of its flash-resident pages at once (R139), and the probe (R163, R272). -/
def State.admitMatched (s : State) (lk : Lookup) (h : Nat) (m : Match) : State :=
  let s1 := if m.len = 0 then s else (s.useHits m.hits).commitLink h m.holder m.len
  let linked := ((s1.seq h).map (·.linkLen)).getD 0
  let s2 := ((s1.meter lk.part lk.tenant 0x15 linked).bump 0x2403 0x0F lk.part linked).resumeStaging h
  let r := s2.probeHome h m.len (0 < m.pubLen)
  if r.1 then r.2 else r.2.admitOn h

/-- What a finished lookup leads to: the link of an admission, or the answer of a LOOKUP or PEER_PROBE; when the recheck of R162 fails it begins anew (R163). -/
def State.lookupEnds (s : State) (lk : Lookup) : State :=
  match s.endLookup lk with
  | (none, s1) => s1.keepLookup lk.again
  | (some m, s1) =>
    let s2 := s1.dropLookup lk.id
    match lk.for_ with
    | .admission h => s2.admitMatched lk h m
    | .lookup req =>
      let staging := match s2.seq m.holder with
        | some q => 0 < m.len && q.pages.any fun p => p.tier == .flash
        | none => false
      s2.complete req .ok [packWord [(23, m.len), (23, m.pubLen), (1, bit lk.usedSecond), (1, bit staging), (16, 0)]] []
    | .probe req => s2.complete req .ok [packWord [(23, m.len), (41, 0)], BitVec.ofNat 64 m.holder] []

/-- Takes a lookup as far as its charges allow: array searches, then the issue of second-level searches (R36, R160). -/
def State.advanceLookup (s : State) (lk : Lookup) : Lookup × State :=
  match lk.phase with
  | .searching =>
    let r := s.runLookup lk (lk.tokens.length / 64 + 1)
    if r.1.phase == .secondDue then r.2.issueSecond r.1 else r
  | .secondDue => s.issueSecond lk
  | _ => (lk, s)

/-- One turn of a lookup; one that has stopped ends once its probes and verification reads are charged (R161, R169). -/
def State.turnLookup (s : State) (lk : Lookup) : State :=
  let r := s.advanceLookup lk
  let s1 := r.2.keepLookup r.1
  if r.1.phase == .ending then s1.charged (s1.endCosts r.1) fun s => s.lookupEnds r.1 else s1

/-- Carries on with every lookup that does not wait for a second-level answer, oldest first. -/
def State.pumpLookups (s : State) : State :=
  s.each (s.mortise.lookups.map (·.id)) fun s id => match s.mortise.lookups.find? (·.id == id) with
    | some lk => s.turnLookup lk
    | none => s

/-- Begins a lookup and runs it as far as it goes (R160). -/
def State.startLookup (s : State) (lk : Lookup) : State := (s.onMortise fun m => { m with lookups := m.lookups ++ [lk] }).turnLookup lk

/-- Lookup of an admitted sequence, over at most the full blocks before its last prompt token (R163); without one it is placed at once. -/
def State.admitLookup (s : State) (h : Nat) (want : Bool) : State :=
  match s.seq h with
  | none => s
  | some q =>
    if !want || q.posBase ≠ 0 then
      ((s.onSeq h fun x => { x with turn := { x.turn with home := s.homeOf q false } }).resumeStaging h).admitOn h
    else
      let l := s.newLookup (.admission h) q.part q.tenant q.variant q.headMask q.kvHeads ((q.ledger.take q.turn.endPos).take (q.turn.endPos - 1)) true true
      l.2.startLookup l.1

/-! ### Admissions that fail (R256) -/

/-- Refuses an admission under way: a new sequence is freed, a new turn's ledger entries are taken back. -/
def State.refuseAdmit (s : State) (h : Nat) (st : Status) : State :=
  match s.seq h with
  | none => s
  | some q =>
    let s1 := match q.turn.admitReq with
      | some r => if r.handle = 0 then s.complete r st [] [] else s.answerAdmit h 0 st
      | none => s
    match q.turn.admitReq with
    | some r =>
      if r.handle = 0 then s1.releaseSeq h
      else
        let s2 := (s1.onSeq h fun x => { x with ledger := x.ledger.take x.sealedPos, acked := min x.acked x.sealedPos, timedOut := min x.timedOut x.sealedPos
                                                lease := .idle, turn := { x.turn with admitReq := none, refused := [] } }).fitFixed h
        match s2.seq h with
        | some q2 => if q.ledger.length = q2.ledger.length then s2 else s2.sync q2 .cut q2.sealedPos q2.sealedPos
        | none => s2
    | none => s1

end Sys2Proof.Machine
end

