-- ==== Sys2Proof/Machine/Gone.lean ====
section
/-!
DEFINITION. Parties that fail: queue pairs in error, nodes and peers that are gone, re-admission, and fenced partners (R253, R266, R267, R269, R270, R286).
-/
namespace Sys2Proof.Machine

/-- The request a message makes (R247). -/
def reqOf (m : Rx) (op : Nat) : Req :=
  { qp := m.qp, opcode := op, tag := m.hdr.tag.toNat, partition := m.hdr.partition.toNat, tenant := m.hdr.tenant.toNat, handle := m.hdr.handle.toNat
    bytes := m.length }

/-- Request behind a message that waits for an RDMA READ (R288). -/
def readReq (i : Instr) : Option Req :=
  match i with
  | .admitTurn m _ => some (reqOf m 0x10)
  | .lookup m _ => some (reqOf m 0x20)
  | .append m _ => some (reqOf m 0x30)
  | .refreshAppend m _ => some (reqOf m 0x30)
  | .attend m _ => some (reqOf m 0x31)
  | _ => none

/-! ### Deliveries that end (R147) -/

/-- Ends a DELIVER with its completion (R147): layers delivered, limit, first lost position. -/
def State.endDelivery (s : State) (d : Delivery) (st : Status) (lost : Nat) : State :=
  (s.complete d.req st [packWord [(9, d.layer), (23, d.limit), (23, lost), (9, 0)]] []).onWork fun w => { w with
    deliveries := w.deliveries.filter (·.id != d.id) }

/-! ### Queue pairs in error (R286) -/

/-- What waited for egress on a queue pair ends: its writes and reads stop, a completion whose writes were stopped says so, and every other message goes out
on another queue pair of the node. -/
def State.rerouteEgress (s : State) (n : Nat) (st : Status) : State :=
  let mine := s.net.egress.filter fun e => e.qp == n
  let s1 := s.onNet fun x => { x with egress := x.egress.filter fun e => e.qp != n }
  let send := fun (s : State) (m : Msg) (cut : Bool) =>
    let m' := if cut && m.completion then { m with status := st, words := [], data := [] } else m
    if m.device && cut then s
    else match s.routeQp n with
      | none => s
      | some q => s.sendMsg q 9 m'
  (mine.foldl (fun (acc : Bool × State) e =>
    match e.wire with
    | .message _ m => (false, send acc.2 m acc.1)
    | .ringEntry _ _ _ _ (some m) => (false, send acc.2 m acc.1)
    | .write .. => (true, acc.2)
    | _ => acc) (false, s1)).2

/-- Takes a queue pair off a ring; a ring no queue pair uses is freed, and the entries it held go out elsewhere. -/
def State.leaveRing (s : State) (n r : Nat) : State :=
  match s.ring r with
  | none => s
  | some x =>
    let held := x.held.filter fun h => h.1 == n
    let s1 := s.onRing r fun y => { y with qps := y.qps.filter (· != n), held := y.held.filter fun h => h.1 != n }
    let s2 := if (x.qps.filter (· != n)).isEmpty then s1.onNet fun y => { y with rings := y.rings.filter (·.num != r) } else s1
    s2.each held fun s h => match s.routeQp n with
      | none => s
      | some q => s.sendMsg q h.2.1 h.2.2

/-- Moves a queue pair to the error state and ends what it carried: `ACCESS_DENIED` after a remote access error, else `RETRY_LATER`. -/
def State.errQp (s : State) (n : Nat) (access : Bool) : State :=
  match s.qp n with
  | none => s
  | some q =>
    if q.st == .error then s
    else
      let st : Status := if access then .accessDenied else .retryLater
      let s0 := s.onQp n fun x => { x with st := .error, readsOut := 0, unacked := [], rxUnacked := 0 }
      let reads := s.net.reads.filter fun r => r.qp == n
      let s1 := s0.onNet fun x => { x with reads := x.reads.filter fun r => r.qp != n }
      let s2 := s1.each reads fun s r =>
        match s.work.appends.find? (·.id == r.owner) with
        | some a => (s.dropAppend a).appendAnswer a st 0
        | none => match readReq r.why with
          | some req => (s.onWork fun w => { w with attends := w.attends.filter (·.id != r.owner) }).answer req st
          | none => s
      let s3 := s2.each (s2.work.deliveries.filter fun d => d.req.qp == n) fun s d => s.endDelivery d st 0
      let s4 := s3.rerouteEgress n st
      let s5 := match q.cmdRing with
        | some r => s4.leaveRing n r
        | none => s4
      match q.compRing with
      | some r => s5.leaveRing n r
      | none => s5

/-! ### Re-admission (R269) -/

/-- Node of a partition with an identifier. -/
def State.nodeByIdent (s : State) (p ident : Nat) : Option Node := s.broker.nodes.find? fun n => n.part == p && n.ident == ident

/-- Re-admits a mirrored sequence on this device when R257 passes; false when it does not. -/
def State.readmitHere (s : State) (m : Mirror) : Bool × State :=
  let b := m.body.geometry
  let base := b.posBase.toNat
  let ok := s.hasCapacity m.part 0
    (flashNeed b.layerN b.partHeads base b.declared.toNat b.fmt.toNat (if b.winPolicy then b.window.toNat else 0))
    (fixedNeed b.layerN b.partHeads base b.declared.toNat b.fmt.toNat) true
  match (if ok then s.freeSlot m.part else none) with
  | none => (false, s)
  | some slot =>
    let gen := ((s.nodeByIdent m.part m.body.holder.toNat).map (·.role)) == some 1
    let turn := { newTurn 0xFFFF m.body.admitter.toNat b.svc.toNat m.tokens.length (s.us + 1000 * s.rw 0x4001 3 0) m.body.context none with
      replaced := true, oldHandle := m.handle, thenDecode := gen }
    let r := s.newSeq m.part (handleTenant m.handle) slot b m.tokens turn
    (true, ((r.2.bump 0x4006 8 m.part 1).meter m.part (handleTenant m.handle) 0x1B 1).admitLookup r.1 true)

/-- Identifiers on the ring in order after one of them: devices by their first point above it (R269, R271). -/
def ringAfter (idents : List Nat) (ident : Nat) : List Nat :=
  let start := (ringPoints ident).headD 0
  let pts := idents.flatMap fun d => (ringPoints d).map fun x => ((x + 2 ^ 64 - start) % 2 ^ 64, d)
  ((pts.foldl (fun l x => ins l x) ([] : List (Nat × Nat))).map (·.2)).foldl (fun acc d => if acc.contains d then acc else acc ++ [d]) []
where
  /-- Puts a point into rising order. -/
  ins (l : List (Nat × Nat)) (x : Nat × Nat) : List (Nat × Nat) :=
    match l with
    | [] => [x]
    | y :: r => if x.1 < y.1 then x :: y :: r else y :: ins r x

/-- Sends a mirrored sequence on as a kind-4 LEDGER_SYNC to a peer (R269). -/
def State.sendReadmit (s : State) (m : Mirror) (peer : Nat) : State :=
  let b := m.body.geometry
  s.ask peer 0x60 9 m.part (handleTenant m.handle) m.handle
    ([packWord [(4, 4), (60, 0)], BitVec.ofNat 64 m.handle, packWord [(23, 0), (23, m.tokens.length), (18, 0)],
      packWord [(16, b.variant.toNat), (8, b.layers.toNat), (6, b.kvHeads.toNat), (4, b.group.toNat), (4, b.fmt.toNat), (1, bit b.winPolicy),
                (13, b.window.toNat), (2, b.svc.toNat), (10, 0)], b.headMask, packWord [(23, b.posBase.toNat), (23, b.posLimit.toNat), (18, 0)],
      packWord [(23, b.declared.toNat), (41, 0)], m.body.admitter, m.body.holder] ++ (m.body.context ++ List.replicate 8 0).take 8) (tokenBytes m.tokens)
    (some (.sync .readmit m.handle peer, s.us + s.rw 0x2101 0x0B m.part))

/-- Devices a mirrored sequence may be re-admitted on, in ring order after the failed one, this one and the failed one left out. -/
def State.readmitPeers (s : State) (m : Mirror) : List Nat :=
  let peers := s.broker.nodes.filter fun n => n.part == m.part && n.role == 3 && n.num != m.peer
  (ringAfter (peers.map (·.ident)) m.peerIdent).filterMap fun d => (peers.find? (·.ident == d)).map (·.num)

/-- Re-admits a mirrored sequence: here, or on the first device of the ring that accepts it (R269). -/
def State.readmit (s : State) (m : Mirror) : State :=
  let r := s.readmitHere m
  if r.1 then r.2
  else match s.readmitPeers m with
    | [] => s
    | n :: _ => s.sendReadmit m n

/-! ### Nodes and peers that are gone (R253, R266, R267) -/

/-- Drops the peer-tier pages of a peer (Table 2-9, reason 8). -/
def State.dropPeerPages (s : State) (n : Nat) : State :=
  s.each (s.seqs.flatMap fun q => (q.pages.filter fun p => p.tier == .peer && p.frame / 2 ^ 32 == n).map fun p => keyOf q p) fun s k => s.lose k 8

/-- Relays and probes to a peer that is gone end: fetched pages are lost with their peer, and an admission that waited goes on with its local match
(R267, R272, R274). -/
def State.endPeerWork (s : State) (n : Nat) : State :=
  let txs := s.broker.relays.filter (·.peer == n)
  let probes := s.broker.asks.filterMap fun a => match a.kind with
    | .probe h => if a.node = n then some h else none
    | _ => none
  let s1 := s.onBroker fun b => { b with
    relays := b.relays.filter (·.peer != n)
    asks := b.asks.filter fun a => !(a.node == n && (match a.kind with | .probe _ => true | .relay _ => true | _ => false)) }
  let s2 := s1.each (txs.flatMap (·.stagings)) fun s g => s.failStaging g 8 srcBroker
  s2.each (probes ++ (txs.filter (·.kind == 2)).map (·.forSeq)) fun s h => s.admitOn h

/-- What follows when a peer is declared gone: its pages, its place in the gone list, and re-admission of what it mirrored here (R267, R269, R270). -/
def State.peerGone (s : State) (nd : Node) : State :=
  let s1 := ((s.dropPeerPages nd.num).endPeerWork nd.num).onBroker fun b => { b with
    gone := b.gone.filter (fun g => !(g.part == nd.part && g.ident == nd.ident)) ++ [{ part := nd.part, ident := nd.ident, fenced := false }] }
  s1.each (s1.broker.mirrors.filter fun m => m.part == nd.part && m.peer == nd.num) fun s m => s.readmit m

/-- An advice counts as declined (R253, R265). -/
def State.declineAdvice (s : State) (p node : Nat) : State :=
  s.onBroker fun b => { b with
    advices := mapIf (fun a => a.part == p) (fun a => { a with out := none, declined := a.declined ++ [(node, s.us + 1000 * s.act 0x4003 6 p)] }) b.advices }

/-- What is offered to a node is refused, advice to it counts as declined, and its leases return (R253, R254). -/
def State.returnLeases (s : State) (nd : Node) : State :=
  let offers := s.seqs.filterMap fun q => match q.lease with
    | .offered ph m tag => if m = nd.num then some (q.handle, ph, tag) else none
    | _ => none
  let s1 := s.each offers fun s x => s.refusePlace x.1 nd.num x.2.2 x.2.1
  let s2 := s1.each (s1.broker.asks.filter fun a => a.node == nd.num && (match a.kind with | .advice _ => true | _ => false)) fun s a =>
    (s.declineAdvice nd.part nd.num).onBroker fun b => { b with asks := b.asks.filter (·.tag != a.tag) }
  s2.each ((s2.seqs.filter fun q => q.holder == some nd.num).map (·.handle)) fun s h => s.loseHolder h nd.num

/-- A node leaves the register and its number is free (R250) (log 97). -/
def State.forgetNode (s : State) (n : Nat) : State :=
  ((s.note 0x4004 2 n 0).onNet fun x => { x with qps := mapIf (fun q => q.node == some n) (fun q => { q with node := none }) x.qps }).onBroker fun b =>
    { b with nodes := b.nodes.filter (·.num != n), freed := b.freed.filter (·.1 != n) ++ [(n, s.us)] }

/-- A gone node's queue pairs are in error, it leaves the register, and what it held or was offered goes on (R253). -/
def State.removeNode (s : State) (n : Nat) : State :=
  match s.node n with
  | none => s
  | some nd =>
    let s1 := s.each ((s.net.qps.filter fun q => q.node == some n).map (·.num)) fun s q => s.errQp q false
    (s1.forgetNode n).returnLeases nd

/-- A node is declared gone (R253). -/
def State.nodeGone (s : State) (n : Nat) : State :=
  match s.node n with
  | none => s
  | some nd =>
    let s1 := ((s.bump 0x4006 6 nd.part 1).removeNode n).note 0x4004 2 n 2
    if nd.role = 3 then s1.peerGone nd else s1

/-- A queue pair enters the error state; a node whose every queue pair has done so is gone at once (R253, R286) (log 96). -/
def State.qpError (s : State) (n : Nat) (access : Bool) : State :=
  let s1 := s.errQp n access
  match (s.qp n).bind (·.node) with
  | none => s1
  | some nd => if (s1.nodeQps nd).isEmpty then s1.nodeGone nd else s1

/-- On the first `FENCED` of a partner, every sequence it mirrored is freed (R270). -/
def State.freedByPartner (s : State) (p : Nat) : State :=
  let hs := (s.seqs.filter fun q => q.part == p && q.st != .retained && !q.unmirrored).map (·.handle)
  s.each hs fun s h =>
    ((((s.failAccepted h (some .notOwner)).dropQueued h (some .notOwner)).releaseSeq h).bump 0x4006 7 p 1)

end Sys2Proof.Machine
end

