-- ==== Sys2Proof/Machine/Check.lean ====
section
/-!
DEFINITION. What every received message goes through before its opcode's own checks (R45, R246, R249, R282, R285, R296, R297), and the queue of R249.
-/
namespace Sys2Proof.Machine

/-! ### Epochs (R249, R310) -/

def State.epochLive (s : State) (e : Nat) : Bool := e == s.epochs.active || s.epochs.prev == some e

/-- How an opcode treats the epoch (Table 8-2). -/
inductive EpochUse where
  | unchecked | checked
  deriving DecidableEq, Repr

/-! ### Policing (R291, R296, R297) -/

/-- Value in force at a network island since its last period boundary (R295). -/
def State.netAct (s : State) (die ix sub item : Nat) : Nat := s.inMap (s.net.params.getD die []) ix sub item

/-- Profile of a tenant. -/
def State.profileOf (s : State) (die p t : Nat) : Nat := s.netAct die 0x5023 3 (p * 65536 + t)

def policerIs (die p t : Nat) (full : Bool) (x : Policer) : Bool := x.die == die && x.part == p && x.overflow == full && (full || x.tenant == t)

/-- Policer entry of a message, taken from the island's pool when it is the first, the partition's overflow entry when the pool is empty; and the profile
whose parameters it has. -/
def State.policer (s : State) (die p t : Nat) : Policer × Nat × State :=
  let full := fun (prof : Nat) (spill : Bool) =>
    ({ die := die, part := p, tenant := t, overflow := spill, bytes := s.netAct die 0x5022 7 (prof * 65536) * 2 ^ 24
       msgs := s.netAct die 0x5022 9 (prof * 65536) * 2 ^ 24 } : Policer)
  match s.net.policers.find? (policerIs die p t false) with
  | some x => (x, s.profileOf die p t, s)
  | none =>
    if s.net.policers.countP (fun x => x.die == die && !x.overflow) < 16384 then
      let x := full (s.profileOf die p t) false
      (x, s.profileOf die p t, s.onNet fun n => { n with policers := n.policers ++ [x] })
    else
      let s1 := s.bump 0x5003 8 p 1
      match s.net.policers.find? (policerIs die p t true) with
      | some x => (x, 0, s1)
      | none => (full 0 true, 0, s1.onNet fun n => { n with policers := n.policers ++ [full 0 true] })

/-- Checks and charges a message: whether it conforms, the profile's action, and the state. -/
def State.police (s : State) (die p t bytes : Nat) (always : Bool) : Bool × Nat × State :=
  let r := s.policer die p t
  let x := r.1
  let byteRate := s.netAct die 0x5022 6 (r.2.1 * 65536)
  let msgRate := s.netAct die 0x5022 8 (r.2.1 * 65536)
  let ok := (byteRate = 0 || 0 ≤ x.bytes) && (msgRate = 0 || 0 ≤ x.msgs)
  let y := { x with bytes := if byteRate = 0 then x.bytes else x.bytes - bytes * 2 ^ 24, msgs := if msgRate = 0 then x.msgs else x.msgs - 2 ^ 24 }
  (ok || always, s.netAct die 0x5022 0x0A (r.2.1 * 65536),
    if ok || always then r.2.2.onNet fun n => { n with policers := mapIf (policerIs die p t x.overflow) (fun _ => y) n.policers } else r.2.2)

/-! ### Message check (R246) -/

/-- Whether an opcode may be sent by a role (Table 8-2): 0 prompt, 1 generation, 2 front end, 3 peer. -/
def sentBy (op role : Nat) : Bool :=
  if op ≤ 3 || op = 0x40 then role ≤ 3
  else if op = 0x10 || op = 0x20 then role = 2 || role = 0
  else if op = 0x12 || op = 0x30 || op = 0x31 then role ≤ 1
  else if op = 0x33 || op = 0x34 then role = 1
  else if 0x60 ≤ op then role = 3
  else if op = 0x11 || op = 0x50 then false
  else role ≤ 2

/-- Steps 1 to 5 of R246 for a message on a queue pair: the status of the first check that fails. A partition given up after a fence of die 1 answers
`FENCED` (R375, log 52) (log 80, 84). -/
def State.checkHeader (s : State) (q : Qp) (h : Hdr) (length op : Nat) (ep : EpochUse) : Option Status :=
  if h.check != hdrCheck h op then some .integrity
  else if h.version != 1 || h.reserved != 0 || h.bodyLen.toNat + 32 != length || 1048576 < h.bodyLen.toNat || 63 < h.partition.toNat then some .malformed
  else if h.partition.toNat != q.part then some .accessDenied
  else if s.epochs.givenUp.contains q.part then some .fenced
  else if op != 0x01 && !(match s.qpNode q with
      | some n => sentBy op n.role && (n.allTenants || n.tenant == h.tenant.toNat)
      | none => false) then some .accessDenied
  else if s.fw.hold.isSome && op != 0x02 && op != 0x03 then some .attestPending
  else if s.dev.shutdownAt.isSome && op != 0x02 && op != 0x03 then some .retryLater
  else if ep == .checked && !s.epochLive h.epoch.toNat then some .staleEpoch
  else none

/-- What a header check that failed leaves behind besides the completion: counters and records (R246, R249, R361; log 39). -/
def State.noteRefusal (s : State) (q : Qp) (h : Hdr) (st : Status) : State :=
  match st with
  | .integrity => (s.bump 0x4006 0x0A q.part 1).report srcBroker 0x30 none (some q.part) 0 0
  | .staleEpoch => s.bump 0x4006 0x0B q.part 1
  | .accessDenied => s.report srcBroker 0x31 none (some q.part) 0 0
  | .policed => s.bump 0x5100 0x0A (q.part * 65536 + h.tenant.toNat) 1
  | _ => s

/-- Every message received counts as a sign of life of its node (R253, R297). -/
def State.heard (s : State) (q : Qp) : State :=
  let s1 := s.onQp q.num fun x => { x with lastUs := s.us }
  match q.node with
  | none => s1
  | some n => s1.onNode n fun x => { x with lastUs := s.us, lastMs := s.ms }

/-- Takes a message out of its command ring or its partition's receive pool into execution (R282, R285). -/
def State.takeIn (s : State) (q : Qp) (length : Nat) : State :=
  match q.cmdRing with
  | some r => s.onRing r fun x => match x.waiting with
    | (first, n, _) :: rest => { x with waiting := rest, busy := x.busy.filter fun b => !(first ≤ b && b < first + n), consumed := (x.consumed + n) % 2 ^ 32 }
    | [] => x
  | none => if q.mode = 0 then s.onNet fun x => { x with pool := ssub x.pool q.part length } else s

/-- A message of a connected queue pair, heard, taken in and counted, and not yet looked at (R253, R282, R285). -/
def State.arrived (s : State) (q : Qp) (m : Rx) : State :=
  (((s.heard q).takeIn q m.length).bump 0x5100 9 (q.part * 65536 + m.hdr.tenant.toNat) m.length).bump 0x5002 9 q.lp m.length

/-- Policing of a message that has passed its header checks; HEARTBEAT and DEREGISTER always conform (R297). -/
def State.policed (s : State) (q : Qp) (m : Rx) (op refBytes : Nat) : Bool × Nat × State :=
  s.police (lpDie q.lp) q.part m.hdr.tenant.toNat (m.length + refBytes) (op == 0x02 || op == 0x03)

/-- Runs R246 in order on a message taken in, and either refuses it or goes on with `run` (R246, R247, R249, R296, R297). `quiet` keeps back the completion of
a refusal by epoch (R249, `PROGRESS`). -/
def State.vet (s : State) (q : Qp) (m : Rx) (op : Nat) (ep : EpochUse) (refBytes : Nat) (quiet : Bool) (run : State → State) : State :=
  let req := reqOf m op
  match s.checkHeader q m.hdr m.length op ep with
  | some st => if quiet && st == .staleEpoch then s.noteRefusal q m.hdr st else (s.noteRefusal q m.hdr st).answer req st
  | none =>
    let r := s.policed q m op refBytes
    if r.1 then (run r.2.2).meterBytes q.part m.hdr.tenant.toNat m.length
    else if r.2.1 = 1 then r.2.2.bump 0x5100 0x0B (q.part * 65536 + m.hdr.tenant.toNat) 1
    else (r.2.2.noteRefusal q m.hdr .policed).answer req .policed

/-- Receives a message on a connected queue pair: takes it in and vets it. -/
def State.receive (s : State) (m : Rx) (op : Nat) (ep : EpochUse) (refBytes : Nat) (quiet : Bool) (run : State → State) : State :=
  if !s.serving then s
  else match s.qp m.qp with
    | none => s
    | some q =>
      if !q.connected then s
      else (s.arrived q m).vet q m op ep refBytes quiet run

/-! ### Handles, leases and the epoch queue (R45, R49, R76, R249) -/

/-- R45: partition and tenant, then slot and generation. -/
def State.checkHandle (s : State) (h : Hdr) (handle : Nat) : Option Status :=
  if handlePart handle != h.partition.toNat || handleTenant handle != h.tenant.toNat then some .accessDenied
  else if (s.seq handle).isNone || s.act 0x2101 2 (handlePart handle) ≤ handleSlot handle then some .notOwner
  else none

/-- Node registered on a queue pair. -/
def State.nodeOf (s : State) (qp : Nat) : Option Node := (s.qp qp).bind s.qpNode

/-- R76: the queue pair's node holds the sequence's lease. -/
def State.holds (s : State) (qp : Nat) (q : Seq) : Bool := q.holder.isSome && ((s.nodeOf qp).map (·.num)) == q.holder

/-- R49. -/
def Seq.ledgerLost (q : Seq) : Bool := q.st == .ledgerLost

/-- Whether a request needs its sequence's lease (R76, R141, R143). -/
def needsLease (i : Instr) : Bool :=
  match i with
  | .append _ _ => true
  | .refreshAppend _ _ => true
  | .attend _ _ => true
  | .deliver _ _ => true
  | .stage _ b => b.globalField != 0
  | .stageAndPin _ b => b.globalField != 0
  | .clearPinned _ b => b.globalField != 0
  | _ => false

/-- Lets a request of a sequence in under R249: it runs now, or queues until the sequence has left the older epoch. One refused for its handle or its lease has
no effect on the sequence (R76). -/
def State.enter (s : State) (m : Rx) (handle : Nat) (i : Instr) (run : State → State) : State :=
  if (s.checkHandle m.hdr handle).isSome then run s
  else match s.seq handle with
    | none => run s
    | some q =>
      if needsLease i && !s.holds m.qp q then run s
      else if !q.epochQueue.isEmpty then s.onSeq handle fun x => { x with epochQueue := x.epochQueue ++ [i] }
      else if m.hdr.epoch.toNat = s.epochs.active && q.epoch ≠ s.epochs.active then
        if s.inFlight handle true then s.onSeq handle fun x => { x with epochQueue := x.epochQueue ++ [i] }
        else run (s.onSeq handle fun x => { x with epoch := s.epochs.active })
      else run s

/-- Sequences whose queued requests may run now: no request of an older epoch is left (R249). -/
def State.ready (s : State) (q : Seq) : Bool := !q.epochQueue.isEmpty && (q.epoch == s.epochs.active || !s.inFlight q.handle true)

end Sys2Proof.Machine
end

