-- ==== Sys2Proof/Machine/Appends.lean ====
section
/-!
DEFINITION. APPEND: checks, acceptance in arrival order, allocation, the hold, scattering and completion (R116 to R132).
-/
namespace Sys2Proof.Machine

def State.append (s : State) (id : Nat) : Option Append := s.work.appends.find? (·.id == id)
def State.onAppend (s : State) (id : Nat) (f : Append → Append) : State := s.onWork fun w => { w with appends := mapIf (·.id == id) f w.appends }

/-- Keeps a sequence's home cluster while a request of it is in flight (R397). -/
def State.pinHome (s : State) (h : Nat) : State :=
  match s.seq h with
  | none => s
  | some q => s.onSeq h fun x => { x with home := s.homeCluster q }

/-! ### Layout and content (R116 to R119, R125) -/

/-- Bytes of the ledger part, and of a whole payload (R117). -/
def ledgerBytes (b : AppendBody) : Nat := if b.ledgerPresent then 4 * b.count else 0
def appendBytes (b : AppendBody) : Nat := ledgerBytes b + b.layers.length * b.heads.length * b.count * 256 * payloadBytes b.fmt.toNat

/-- Token identifiers of a payload. -/
def appendTokens (b : AppendBody) (bs : List Byte) : List W32 :=
  if b.ledgerPresent then (chunks 4 b.count (bs.take (4 * b.count))).map fun c => BitVec.ofNat 32 (beNat c) else []

/-- What can be told of an append's layout from its header (R117, R118). -/
def State.appendShape (s : State) (m : Rx) (b : AppendBody) : Bool :=
  b.fmt.toNat ≤ 4 && b.payloadLen.toNat == appendBytes b
    && (if b.byRef then m.hdr.bodyLen == 32 && b.payload.isEmpty
        else m.hdr.bodyLen.toNat == 32 + b.payloadLen.toNat && b.payload.length == b.payloadLen.toNat
          && m.hdr.bodyLen.toNat ≤ s.act 0x2301 3 m.hdr.partition.toNat)

/-- Page indices an append touches. -/
def Seq.appendPages (q : Seq) (b : AppendBody) : List Nat :=
  (List.range ((b.stop - 1 - q.posBase) / 64 + 1 - (b.first - q.posBase) / 64)).map (((b.first - q.posBase) / 64) + ·)

/-- Check 6 of R120 for a sequence as it stands. -/
def Seq.appendFits (q : Seq) (b : AppendBody) (refresh : Bool) : Bool :=
  b.layers.all (· < q.layers) && b.headMask != 0 && b.heads.all (fun k => q.headMask.testBit k)
    && q.posBase ≤ b.first && b.stop ≤ q.posLimit && q.linkLen ≤ b.first && b.stop ≤ 4194304
    && (if refresh then
        b.first % 64 == 0 && b.stop ≤ q.sealedPos && (b.stop % 64 == 0 || b.stop == q.sealedPos)
          && q.pages.all fun p => !(b.names p.layer p.head && b.first ≤ q.pagePos p.index && q.pagePos p.index < b.stop) || q.pagePos p.index + p.valid ≤ b.stop
        else b.layers.all fun l => b.heads.all fun k => q.frontier l k == b.first)

/-- Identifiers the ledger will hold once the appends accepted so far have completed (R120, log 153). -/
def State.ledgerAhead (s : State) (q : Seq) : List W32 :=
  s.work.appends.foldl (fun l a => if a.handle = q.handle && a.accepted && a.body.ledgerPresent && a.body.first ≤ l.length then
    l ++ (appendTokens a.body a.payload).drop (l.length - a.body.first) else l) q.ledger

/-- Check 7 of R120, against the identifiers held. -/
def ledgerAgrees (held : List W32) (b : AppendBody) (ts : List W32) : Bool :=
  !b.ledgerPresent || (b.first ≤ held.length && (held.drop b.first).take ts.length == ts.take (held.length - b.first))

/-- Check 8 of R120: the lowest lost frontier page that holds a position below the frontier. -/
def Seq.lostTarget (q : Seq) (b : AppendBody) : Option Nat :=
  if (b.layers.any fun l => b.heads.any fun k => match q.page l k ((b.first - q.posBase) / 64) with
      | some p => p.lost && q.pagePos p.index < b.first
      | none => false) then some (q.pagePos ((b.first - q.posBase) / 64)) else none

/-! ### Frames (R126 to R130) -/

/-- New pages an append needs, in layer, head and page order. -/
def Seq.appendWants (q : Seq) (b : AppendBody) (refresh : Bool) : List PageKey :=
  b.layers.flatMap fun l => b.heads.flatMap fun k => (q.appendPages b).filterMap fun i =>
    let key : PageKey := { handle := q.handle, layer := l, head := k, index := i }
    match q.page l k i with
    | none => if refresh then none else some key
    | some p => if p.lost then some key else none

/-- Frames an append still lacks; a page of its format has `n`. -/
def Append.lacks (a : Append) (n : Nat) : Nat := (a.wants.length - a.got.length) * n + (a.tabNeed - a.tabs.length)

/-- Takes frames for an append while it lacks more than `left`, as `find` finds them, and counts those that came from the reserve line. -/
def State.takeWith (find : State → Nat → Nat → Option (List Nat)) (s : State) (a : Append) (n left : Nat) : Append × State :=
  let draw := fun (s : State) (k : Nat) => k - s.openFrames a.req.partition
  let took := fun (s : State) (fs : List Nat) => (s.takeFrames fs).onHbm fun h => { h with reserveTaken := sadd h.reserveTaken a.req.partition (draw s fs.length) }
  let pages := (a.wants.drop a.got.length).foldl (fun (acc : Bool × Append × State) w =>
    if !acc.1 || acc.2.1.lacks n ≤ left then (false, acc.2)
    else match find acc.2.2 w.index n with
      | none => (false, acc.2)
      | some fs => (true, { acc.2.1 with got := acc.2.1.got ++ [fs], fromReserve := acc.2.1.fromReserve + draw acc.2.2 n }, took acc.2.2 fs)) (true, a, s)
  if pages.2.1.got.length < a.wants.length then pages.2
  else (List.range (a.tabNeed - a.tabs.length)).foldl (fun (acc : Append × State) i =>
    if acc.1.lacks n ≤ left then acc
    else match find acc.2 i 1 with
      | none => acc
      | some fs => ({ acc.1 with tabs := acc.1.tabs ++ fs, fromReserve := acc.1.fromReserve + draw acc.2 1 }, took acc.2 fs)) pages.2

/-- Step 1: frames off the free list (R126). -/
def State.takeOpen (s : State) (a : Append) (n : Nat) : Append × State :=
  State.takeWith (fun (s : State) (i k : Nat) => s.findOpen a.req.partition i k) s a n 0

/-- Step 4: frames of the reserve line for all but what is coming free, the draw reported to the tenant's metering (R126, R129). -/
def State.takeReserve (s : State) (a : Append) (n left : Nat) : Append × State :=
  let r := State.takeWith (fun (s : State) (i k : Nat) =>
    if k ≤ s.reserveLeft a.req.partition + s.openFrames a.req.partition then s.findFrames a.req.partition i k else none) s a n left
  (r.1, if a.fromReserve < r.1.fromReserve then r.2.meter a.req.partition a.req.tenant 0x13 1 else r.2)

/-- Puts a page into ascending page-index order. -/
def insIndex (l : List Page) (p : Page) : List Page :=
  match l with
  | [] => [p]
  | x :: r => if p.index < x.index then p :: x :: r else x :: insIndex r p

/-- Whether step 5 may take a page of its own sequence (R130). -/
def Seq.recyclable (q : Seq) (p : Page) : Bool :=
  p.tier == .hbm && !p.packed && p.index != 0 && !p.glob && !p.pinned && p.pins == 0 && q.pagePos (p.index + 1) + 64 * q.window ≤ q.sealedPos

/-- An append claims the frames of a page it has had dropped: they are its own once their shootdown has completed. Frames too few for a page of its format are
left to the free list (R69, R130). -/
def Append.claim (a : Append) (n : Nat) (fs : List Nat) : Append :=
  if a.got.length < a.wants.length then (if n ≤ fs.length then { a with got := a.got ++ [fs.take n], recycled := true } else { a with recycled := true })
  else { a with tabs := a.tabs ++ fs.take (a.tabNeed - a.tabs.length), recycled := true }

/-- Step 5: recycles out-of-window pages of the appending sequence in ascending page index until what it lacks is coming free (R130, log 40). -/
def State.recycle (s : State) (a : Append) (q : Seq) (n : Nat) : Append × State :=
  ((q.pages.filter q.recyclable).foldl insIndex ([] : List Page)).foldl (fun (acc : Append × State) p =>
    if acc.1.lacks n ≤ acc.2.comingFrames q.part then acc
    else
      let a1 := acc.1.claim n p.frames
      (a1, ((acc.2.onAppend a.id fun _ => a1).lose (keyOf q p) 7).bump 0x2302 7 q.part 1)) (a, s)

/-! ### Once the frames are there (R120, R122, R126) -/

/-- Pages of an append that stand on flash or on a peer, and so must first come back (R122). -/
def Seq.appendAway (q : Seq) (a : Append) : List PageKey :=
  a.body.layers.flatMap fun l => a.body.heads.flatMap fun k => (q.appendPages a.body).filterMap fun i =>
    (q.page l k i).bind fun p => if (p.tier == .flash || p.tier == .peer) && !a.refresh then some (keyOf q p) else none

/-- Goes on to scattering, by way of staging when a target page is away. -/
def State.toScatter (s : State) (id : Nat) : State :=
  match s.append id with
  | none => s
  | some a => match (s.seq a.handle).map fun q => q.appendAway a with
    | some (k :: _) =>
      let r := s.stagePage k .tile false
      r.2.onAppend id fun x => { x with phase := .staging r.1 }
    | _ => s.onAppend id fun x => { x with phase := .scattering }

/-- Gives an append's frames to its pages and tables: new pages are in HBM, raw and dirty, with no position yet (Table 2-8). A refresh keeps its frames
until it writes. -/
def State.placeAppend (s : State) (a : Append) : State :=
  match s.seq a.handle with
  | none => s
  | some q =>
    let now := s.us - a.acceptedUs
    let s1 := ((s.onAppend a.id fun _ => { a with holdUs := now, newPages := a.wants.length, got := if a.refresh then a.got else [], tabs := [] }).setTabs
      a.handle a.wants a.tabs)
    let s2 := if a.refresh then s1
      else (a.wants.zip a.got).foldl (fun s (x : PageKey × List Nat) => (s.wipeFrames x.2).storePage x.1 q.fmt 0 x.2 []) s1
    let s3 := if 0 < a.fromReserve then s2.bump 0x2302 6 q.part 1 else s2
    let s4 := if a.heldIn3 then s3.peak 0x2302 0x0C q.part now else s3
    (s4.onSeq a.handle fun x => { x with truncated := false }).toScatter a.id

/-- Whether frames an append claims are still being shot down (R69). -/
def State.claimsPending (s : State) (a : Append) : Bool :=
  s.hbm.shootdowns.any fun d => d.frames.any fun f => a.got.any (·.contains f) || a.tabs.contains f

/-- An append that lacks nothing goes on, once what it claims has been shot down. -/
def State.placeOrWait (s : State) (a : Append) : State :=
  if s.claimsPending a then s.onAppend a.id fun _ => { a with phase := .holding } else s.placeAppend a

/-- An append with the table frames its sequence's tables now ask for. -/
def State.withNeed (s : State) (a : Append) (q : Seq) : Append := { a with tabNeed := s.tabFrames q a.wants }

/-- Steps 1 and 2 of R126, then step 3: the append goes on, or holds with demotions started for what step 2 does not bring. -/
def State.allocAppend (s : State) (id : Nat) : State :=
  match s.append id with
  | none => s
  | some a => match s.seq a.handle with
    | none => s
    | some q =>
      let n := fmtFrames q.fmt
      let r := s.takeOpen (s.withNeed a q) n
      if r.1.lacks n = 0 then r.2.placeOrWait r.1
      else
        let s1 := r.2.reclaimFor q.part a.handle (r.1.lacks n)
        let short := r.1.lacks n - s1.comingFrames q.part
        let s2 := if a.heldIn3 || short = 0 then s1 else s1.bump 0x2302 5 q.part 1
        (s2.onAppend id fun _ => { r.1 with phase := .holding, heldIn3 := a.heldIn3 || short != 0 }).startDemotions q.part a.handle short

/-- An append that finds no frame: the sequence is truncated and cut back, at once or when the last tile past its sealed position and the appends accepted
before have gone (R131; the appends, log 148). -/
def State.exhausted (s : State) (a : Append) : State :=
  let s1 := (s.onSeq a.handle fun x => { x with truncated := true }).bump 0x2302 8 a.req.partition 1
  let s2 := s1.failFrom a.id (some .pageExhausted) 0
  match s2.seq a.handle with
  | some q2 => if s2.cutWaits q2 then s2 else s2.cut a.handle
  | none => s2

/-- Step 6 of R126, or what R132 answers. -/
def State.noFrame (s : State) (a : Append) : State := if a.bare then s.failFrom a.id (some .truncated) 0 else s.exhausted a

/-- Steps 1, 2, 4, 5 and 6 of R126. What steps 2 and 5 bring is waited for; nothing else is. -/
def State.forceAlloc (s : State) (id : Nat) : State :=
  match s.append id with
  | none => s
  | some a => match s.seq a.handle with
    | none => s
    | some q =>
      let n := fmtFrames q.fmt
      let r1 := s.takeOpen (s.withNeed a q) n
      let s2 := if r1.1.lacks n = 0 then r1.2 else r1.2.reclaimFor q.part a.handle (r1.1.lacks n)
      let r3 := s2.takeReserve r1.1 n (s2.comingFrames q.part)
      let r4 := if r3.2.comingFrames q.part < r3.1.lacks n && q.winPolicy then r3.2.recycle r3.1 q n else r3
      if r4.1.lacks n = 0 then r4.2.placeOrWait r4.1
      else
        let s5 := r4.2.onAppend id fun _ => { r4.1 with phase := .holding }
        if r4.1.lacks n ≤ s5.comingFrames q.part then s5 else s5.noFrame { r4.1 with phase := .holding }

/-- When an append's hold limit passes, under the epoch it was accepted in (R126, R148). -/
def State.holdUntil (s : State) (a : Append) : Nat := a.acceptedUs + s.actAt a.epoch 0x2301 2 a.req.partition

/-- Steps of R126 that an append may take now: those of its hold, or the last ones once the hold limit has passed or for a truncated sequence (R132). -/
def State.tryAlloc (s : State) (id : Nat) : State :=
  match s.append id with
  | none => s
  | some a => if a.bare || s.due (s.holdUntil a) then s.forceAlloc id else s.allocAppend id

/-- Starts the allocation of the first append of a sequence that waits for it; those accepted later wait behind it. -/
def State.beginAlloc (s : State) (id : Nat) : State :=
  match s.append id with
  | none => s
  | some a => match s.seq a.handle with
    | none => s
    | some q =>
      if q.capacity * 4096 < a.body.stop - q.posBase then s.onAppend id fun x => { x with phase := .growth }
      else (s.onAppend id fun x => { x with phase := .scattering, wants := q.appendWants a.body a.refresh }).tryAlloc id

/-- Whether an accepted append still waits for its frames. -/
def Append.allocating (a : Append) : Bool := a.phase == .holding || a.phase == .growth

/-! ### Acceptance (R120, R121, R132) -/

/-- Takes out an append that is refused, with its completion. -/
def State.refuseAppend (s : State) (a : Append) (st : Status) (pos : Nat) : State :=
  (s.onWork fun w => { w with appends := w.appends.filter (·.id != a.id) }).appendAnswer a st pos

/-- What refuses an append whose payload is at hand, the first of checks 4 to 8 of R120 that fails, with the position it names; none for one that is
accepted. -/
def State.appendFault (s : State) (a : Append) (q : Seq) : Option (Status × Nat) :=
  if q.ledgerLost then some (.lost, 0)
  else if q.truncated && (a.refresh || a.body.first ≠ q.sealedPos) then some (.truncated, 0)
  else if !a.shape || !q.appendFits a.body a.refresh || !ledgerAgrees (s.ledgerAhead q) a.body (appendTokens a.body a.payload) then some (.malformed, 0)
  else if a.refresh then none else (q.lostTarget a.body).map fun pos => (.lost, pos)

/-- Accepts an append: its frontiers advance and its allocation starts (R120, R126). -/
def State.acceptAppend (s : State) (a : Append) (q : Seq) : State :=
  let s1 := (s.onAppend a.id fun x => { x with phase := .scattering, acceptedUs := s.us, epoch := q.epoch, bare := q.truncated }).onSeq a.handle fun x =>
    if a.refresh then x
    else { x with frontiers := a.body.layers.foldl (fun f l => a.body.heads.foldl (fun f k => sset f (lhKey l k) a.body.stop) f) x.frontiers }
  (s1.pinHome a.handle).beginAlloc a.id

/-- Decides one append whose payload is at hand. -/
def State.acceptOne (s : State) (a : Append) : State :=
  match s.seq a.handle with
  | none => s.refuseAppend a .notOwner 0
  | some q => match s.appendFault a q with
    | some (st, pos) => s.refuseAppend a st pos
    | none => s.acceptAppend a q

/-- Decides the queued appends of a sequence in arrival order, as far as their payloads have been read, allocation before them has ended, and the cut of a
truncated sequence has been made. -/
def State.acceptPending (s : State) (h : Nat) : Nat → State
  | 0 => s
  | n + 1 =>
    let mine := s.work.appends.filter (·.handle == h)
    match mine.find? (!·.accepted) with
    | none => s
    | some a =>
      let cutDue := match s.seq h with
        | some q => q.truncated && s.cutWaits q
        | none => false
      if !a.ready || mine.any (·.allocating) || cutDue then s else (s.acceptOne a).acceptPending h n

def State.acceptAll (s : State) (h : Nat) : State := s.acceptPending h (s.work.appends.length + 1)

/-- An append that has passed the checks on its header joins its sequence's queue in arrival order: decided now, or once its RDMA READ has brought its payload
(R118, R120). One whose layout is wrong is not read. -/
def State.queueAppend (s : State) (m : Rx) (b : AppendBody) (refresh : Bool) (q : Seq) (i : Instr) : State :=
  let h := m.hdr.handle.toNat
  let id := (s.fresh).1
  let shape := s.appendShape m b
  let a : Append :=
    { id := id, req := reqOf m 0x30, body := b, refresh := refresh, handle := h, epoch := q.epoch, node := q.holder.getD 0, phase := .reading
      payload := b.payload, shape := shape, ready := !b.byRef || !shape, bare := false, done := false, got := [], tabs := [], wants := [], tabNeed := 0
      acceptedUs := s.us, holdUs := 0, heldIn3 := false, fromReserve := 0, recycled := false, newPages := 0 }
  let s1 := (s.fresh).2.onWork fun w => { w with appends := w.appends ++ [a] }
  match (if a.ready then none else s1.qp m.qp) with
  | some qp =>
    let svc := serviceOf (s1.qpRole qp) 0x30 9 false
    (s1.rdmaRead qp svc (classOf svc 0x30) q.tenant b.payloadAddr.toNat b.payloadKey.toNat b.payloadLen.toNat id i).meterBytes q.part q.tenant b.payloadLen.toNat
  | none => s1.acceptAll h

/-- Refuses an append before it is queued, with the body of Table 4-2 (R123). -/
def State.rejectAppend (s : State) (m : Rx) (st : Status) : State :=
  let sealed := if (s.checkHandle m.hdr m.hdr.handle.toNat).isSome then 0 else ((s.seq m.hdr.handle.toNat).map (·.sealedPos)).getD 0
  s.complete (reqOf m 0x30) st [packWord [(23, sealed), (23, 0), (18, 0)], 0] []

/-- An append received and let in: checks 2 and 3 of R120, then the queue; it touches the sequence it is accepted or refused for (R73, R76). -/
def State.runAppend (s : State) (m : Rx) (b : AppendBody) (refresh : Bool) (i : Instr) : State :=
  let h := m.hdr.handle.toNat
  match s.checkHandle m.hdr h with
  | some st => s.rejectAppend m st
  | none => match s.seq h with
    | none => s.rejectAppend m .notOwner
    | some q => if !s.holds m.qp q then s.rejectAppend m .notOwner else (s.touch h).queueAppend m b refresh q i

/-- The payload of a queued append has arrived (R118, R288). -/
def State.appendRead (s : State) (id : Nat) (bs : List Byte) : State :=
  match s.append id with
  | none => s
  | some a => (s.onAppend id fun x => { x with payload := bs, ready := true }).acceptAll a.handle

/-! ### Scattering (R109, R119, R122 to R125) -/

/-- Own pages an append writes. -/
def Seq.targets (q : Seq) (a : Append) : List Page :=
  a.body.layers.flatMap fun l => a.body.heads.flatMap fun k => (q.appendPages a.body).filterMap fun i => q.page l k i

/-- Writes one position of one layer and head into its page in the sequence's append format (R119, R180). -/
def State.writePosition (s : State) (q : Seq) (l k pos : Nat) (vals : List Byte) (fmt : Nat) : State :=
  match (s.seq q.handle).bind fun x => x.page l k ((pos - q.posBase) / 64) with
  | none => s
  | some p =>
    let vs := payloadVals fmt vals
    (positionWrites q.fmt ((pos - q.posBase) % 64) (vs.take 128) (vs.drop 128)).foldl (fun s x =>
      s.onHbm fun h => { h with mem := memWrites h.mem (p.frame * 1024 + x.1) x.2 }) s

/-- Writes every element of an append; a refresh writes only the pages it was given frames for. -/
def State.scatter (s : State) (q : Seq) (a : Append) : State :=
  let es := payloadBytes a.body.fmt.toNat * 256
  let data := a.payload.drop (ledgerBytes a.body)
  let heads := a.body.heads
  (a.body.layers.zip (List.range a.body.layers.length)).foldl (fun s (l : Nat × Nat) =>
    (heads.zip (List.range heads.length)).foldl (fun s (k : Nat × Nat) =>
      (List.range a.body.count).foldl (fun s j =>
        let pos := a.body.first + j
        if a.refresh && !a.wants.any (fun w => w.layer == l.1 && w.head == k.1 && w.index == (pos - q.posBase) / 64) then s
        else s.writePosition q l.1 k.1 pos ((data.drop (((l.2 * heads.length + k.2) * a.body.count + j) * es)).take es) a.body.fmt.toNat) s) s) s

/-- Sets dirty on the clean pages an append writes and frees their flash copies (R70). -/
def State.dirtyTargets (s : State) (q : Seq) (a : Append) : State :=
  s.each ((q.targets a).filter fun p => !p.dirty && p.tier == .hbm && !a.refresh) fun s p =>
    (s.freeCopy p).onPage (keyOf q p) fun x => { x with dirty := true, copy := none, copyFreed := some s.us }

/-- Positions an append writes in a page. -/
def Append.within (a : Append) (q : Seq) (i : Nat) : Nat := min a.body.stop (q.pagePos (i + 1)) - max a.body.first (q.pagePos i)

/-- Bytes a position takes in a page of a format. -/
def positionBytes (fmt : Nat) : Nat := 2 * (arrayBytes fmt / 64)

/-- Where an append writes: each page with its granule and the bytes written; a refresh writes only the lost pages. -/
def Seq.appendWrites (q : Seq) (a : Append) : List (PageKey × Nat × Nat) :=
  if a.refresh then (a.wants.zip a.got).map fun x => (x.1, frameGranule (x.2.headD 0), a.within q x.1.index * positionBytes q.fmt)
  else (q.targets a).map fun p => (keyOf q p, p.frame, a.within q p.index * positionBytes q.fmt)

/-- What an append costs its class: the walk of each page, its bursts, and those of its ledger entries (R29, R65, Table 1-7). -/
def State.appendCosts (s : State) (q : Seq) (a : Append) : List Cost :=
  let c := (s.homeCluster q).getD 0
  ((q.appendWrites a).flatMap fun x => [walkCost c q.part 1 (s.walkOf x.1).length, burstCost x.2.1 q.part 1 (cdiv x.2.2 64)])
    ++ (if a.body.ledgerPresent then (match q.ledgerFrames[a.body.first / 4096]? with
      | some f => [channelCost (frameChannel f) q.part 1 (cdiv (4 * a.body.count) 64)]
      | none => []) else [])

/-- Counts and meters what an append wrote (R384). -/
def State.noteAppend (s : State) (q : Seq) (a : Append) : State :=
  let c := (s.homeCluster q).getD 0
  let bytes := sumOf (fun x : PageKey × Nat × Nat => x.2.2) (q.appendWrites a)
  (((s.each (q.appendWrites a) fun s x => s.walked c q.part (s.walkOf x.1)).meterBursts q.part q.tenant (cdiv bytes 64)).meterMoved q.part q.tenant 1 bytes)

/-- Completes an append whose pages are all at hand: everything is written, its positions become visible, and sealing goes on (R122 to R125). Nothing is counted
for a page that a refresh covers and that is not lost (log 154). -/
def State.completeAppend (s : State) (q : Seq) (a : Append) : State :=
  let s1 := (s.noteAppend q a).dirtyTargets q a
  let s2 := if a.refresh then
      (a.wants.zip a.got).foldl (fun s (x : PageKey × List Nat) =>
        ((s.wipeFrames x.2).storePage x.1 q.fmt (min 64 (a.body.stop - q.pagePos x.1.index)) x.2 []).bump 0x2302 0x0D q.part 1) s1
    else s1
  let s3 := (s2.scatter q a).onWork fun w => { w with appends := w.appends.filter (·.id != a.id) }
  let s4 := if a.refresh then s3 else s3.each a.body.layers fun s l => s.each a.body.heads fun s k => s.fixValid q.handle l k
  let s5 := if a.body.ledgerPresent then s4.writeLedger q.handle a.body.first (appendTokens a.body a.payload) else s4
  let s6 := ((s5.seal q.handle).bump 0x2302 4 q.part 1).meter q.part q.tenant 5 (a.body.count * a.body.layers.length)
  let front := match s6.seq q.handle with
    | some x => if a.refresh then x.frontier (a.body.layers.headD 0) (a.body.heads.headD 0) else a.body.stop
    | none => a.body.stop
  s6.appendAnswer a .ok front

/-- Lowest position of a lost page among some, none without. -/
def lowestLost (ps : List (Seq × Page)) : Option Nat :=
  ps.foldl (fun a x => if x.2.lost then some (match a with | some v => min v (x.1.pagePos x.2.index) | none => x.1.pagePos x.2.index) else a) none

/-- Every element of an append may now be written: it completes once its charge is granted, or fails on a page lost meanwhile, or waits for a lock, a tile, a
page away, or the ledger entries of an append before it (R36, R109, R121, R122) (log 120). -/
def State.tryComplete (s : State) (a : Append) (q : Seq) : State :=
  let ts := q.targets a
  match (if a.refresh then none else lowestLost ((ts.filter (·.lost)).map fun p => (q, p))) with
  | some pos => s.failFrom a.id (some .lost) pos
  | none =>
    if ts.any (·.pins == 255) then s
    else if a.refresh && ts.any fun p => 0 < p.pins then s.bump 0x2202 0x13 ((s.homeCluster q).getD 0) (ts.countP fun p => 0 < p.pins)
    else if !(q.appendAway a).isEmpty then s.toScatter a.id
    else if a.body.ledgerPresent && q.ledger.length < a.body.first then s
    else s.charged (s.appendCosts q a) fun s => s.completeAppend q a

/-- Carries one accepted append on: frames it claims that have been shot down, or a completion that had to wait. -/
def State.turnAppend (s : State) (id : Nat) : State :=
  match s.append id with
  | none => s
  | some a => match s.seq a.handle with
    | none => s
    | some q =>
      if a.phase = .holding && a.lacks (fmtFrames q.fmt) = 0 && a.tabNeed = s.tabFrames q a.wants then s.placeOrWait a
      else if a.phase = .scattering && a.done then s.tryComplete a q else s

/-- Carries a sequence's accepted appends on, in order. -/
def State.pumpAppends (s : State) (h : Nat) : State :=
  s.each ((s.work.appends.filter fun a => a.handle == h && a.accepted).map (·.id)) fun s id => s.turnAppend id

end Sys2Proof.Machine
end

