-- ==== Sys2Proof/Machine/Stages.lean ====
section
/-!
DEFINITION. STAGE and DELIVER: named pages, pins, global bits, staging that ends, layers written, and the early ends (R74, R134, R136 to R147).
-/
namespace Sys2Proof

def DeliverBody.depthN (b : DeliverBody) : Nat := b.depth.toNat + 1
def DeliverBody.heads (b : DeliverBody) : List Nat := headSpan b.headMask.toNat
def DeliverBody.first (b : DeliverBody) : Nat := b.firstPos.toNat

end Sys2Proof

namespace Sys2Proof.Machine

/-! ### STAGE (R141, R142) -/

/-- Pages a run of layers, heads and positions names, each at the sequence that holds it. -/
def State.named (s : State) (h : Nat) (layers heads : List Nat) (lo hi base : Nat) : List (Seq × Page) :=
  if hi ≤ lo then []
  else layers.flatMap fun l => heads.flatMap fun k =>
    (List.range (cdiv (hi - base) 64 - (lo - base) / 64)).filterMap fun j => (s.walk h l k ((lo - base) / 64 + j)).bind fun x => x.2.map fun p => (x.1, p)

/-- STAGE completion body (R142). -/
def stageWords (staged inHbm : Nat) (lost : Option Nat) : List W64 :=
  [packWord [(32, staged), (32, inHbm)], packWord [(23, lost.getD 0), (41, 0)]]

def State.stageReq (s : State) (id : Nat) : Option StageReq := s.work.stageReqs.find? (·.id == id)

/-- Pages of a STAGE that have been lost since it was accepted. -/
def State.stageLost (s : State) (r : StageReq) : Option Nat :=
  let now := lowestLost (r.pages.filterMap fun k => (s.seq k.handle).bind fun q => (q.page k.layer k.head k.index).map fun p => (q, p))
  match r.lostPos, now with
  | some a, some b => some (min a b)
  | some a, none => some a
  | none, b => b

/-- Ends a STAGE: the first of `STALE_EPOCH`, `LOST` and `RETRY_LATER` that applies, else `OK` (R134, R142). -/
def State.endStage (s : State) (r : StageReq) (stale timeout : Bool) : State :=
  let lost := s.stageLost r
  let st : Status := if stale then .staleEpoch else if lost.isSome then .lost else if timeout then .retryLater else .ok
  let s1 := s.onWork fun w => { w with stageReqs := w.stageReqs.filter (·.id != r.id) }
  if r.early then s1 else s1.complete r.req st (stageWords r.staged r.inHbm lost) []

/-- Puts a page's pinned bit. -/
def State.setPinned (s : State) (k : PageKey) (v : Bool) : State := s.onPage k fun p => { p with pinned := v }

/-- Pages a STAGE names: those of its layers, heads and positions below the sealed position (R141). -/
def State.stagePages (s : State) (h : Nat) (q : Seq) (b : StageBody) : List (Seq × Page) :=
  s.named h (layerSpan b.firstLayer.toNat b.layerCount.toNat) ((headSpan b.headMask.toNat).filter fun k => q.headMask.testBit k)
    (max b.firstPos.toNat q.posBase) (min b.endPos.toNat (min q.sealedPos q.posLimit)) q.posBase

/-- Global pages the sequence would have after a STAGE's global field (R141). -/
def Seq.globalAfter (q : Seq) (own : List (Seq × Page)) (glob : Bool) : Nat :=
  if glob then q.globalPages + own.countP (fun x => !x.2.glob) else q.globalPages - own.countP fun x => x.2.glob

/-- Whether pinning these pages would pass the partition's limit, what stagings under way will pin counted (R74). -/
def State.pinsTooMany (s : State) (p : Nat) (ps : List (Seq × Page)) : Bool :=
  let more := ps.filter fun x => x.2.tier != .absent && !x.2.pinned && !s.work.stagings.any fun g => g.pin && g.page == keyOf x.1 x.2
  s.pinnedLimit p < s.pinnedFrames p + s.pinningFrames p + sumOf (fun x => x.2.holds) more

/-- The walks of some pages by a cluster, for a class; a request that is served at once owes what its class cannot pay (R65, log 144). -/
def State.walkPages (s : State) (c p cls : Nat) (ks : List PageKey) : State :=
  (s.each ks fun s k => s.walked c p (s.walkOf k)).owe (walkCost c p cls (sumOf (fun k => (s.walkOf k).length) ks))

/-- Sets the global bits a STAGE's global field asks for (R141). -/
def State.markGlobal (s : State) (h : Nat) (q : Seq) (b : StageBody) (own : List (Seq × Page)) : State :=
  if b.globalField = 0 then s
  else (s.each own fun s x => s.onPage (keyOf x.1 x.2) fun p => { p with glob := b.globalField == 1 }).onSeq h fun x =>
    { x with globalPages := q.globalAfter own (b.globalField == 1) }

/-- Clears the pinned bits of the pages named, those that stagings under way would set among them, and completes (R141, R142). -/
def State.clearPins (s : State) (req : Req) (ps : List (Seq × Page)) : State :=
  let lost := lowestLost ps
  let ks := ps.map fun x => keyOf x.1 x.2
  ((s.each ks fun s k => s.setPinned k false).onWork fun w => { w with stagings := mapIf (fun g => ks.contains g.page) (fun g => { g with pin := false }) w.stagings }).complete req (if lost.isSome then .lost else .ok)
    (stageWords 0 (ps.countP fun x => x.2.tier == .hbm) lost) []

/-- Stages the pages named that are away, pins with action 1, and completes now when nothing is away or early completion is asked for, else when the last
staging has ended (R141, R142). -/
def State.beginStage (s : State) (req : Req) (b : StageBody) (pin : Bool) (q : Seq) (h : Nat) (ps : List (Seq × Page)) : State :=
  let lost := lowestLost ps
  let here := ps.filter fun x => x.2.tier == .hbm
  let away := ps.filter fun x => x.2.tier == .flash || x.2.tier == .peer
  let s3 := if pin then s.each here fun s x => s.setPinned (keyOf x.1 x.2) true else s
  let r := away.foldl (fun (acc : List Nat × State) x =>
    let g := acc.2.stagePage (keyOf x.1 x.2) .request pin
    (acc.1 ++ [g.1], g.2)) ([], s3)
  let sr : StageReq :=
    { id := (r.2.fresh).1, req := req, epoch := q.epoch, handle := h, waits := r.1, pin := pin, staged := 0, inHbm := here.length
      lostPos := lost, pages := away.map fun x => keyOf x.1 x.2, startUs := s.us, early := b.early, ended := none }
  let s4 := if b.early then r.2.complete req (if lost.isSome then .lost else .ok) (stageWords 0 here.length lost) [] else r.2
  if r.1.isEmpty then (if b.early then s4 else s4.endStage sr false false)
  else (s4.fresh).2.onWork fun w => { w with stageReqs := w.stageReqs ++ [sr] }

/-- Layout of a STAGE and its global field (R141). -/
def Seq.stageFits (q : Seq) (m : Rx) (b : StageBody) : Bool :=
  m.hdr.bodyLen == 24 && b.globalField != 3 && (layerSpan b.firstLayer.toNat b.layerCount.toNat).all (· < q.layers) && b.headMask != 0

/-- Stages, pins or unpins what a STAGE names; `action` is Table 4-3's. -/
def State.runStage (s : State) (m : Rx) (b : StageBody) (action : Nat) : State :=
  let h := m.hdr.handle.toNat
  let req := reqOf m 0x32
  match s.checkHandle m.hdr h with
  | some st => s.answer req st
  | none => match s.seq h with
    | none => s.answer req .notOwner
    | some q =>
      let s := s.touchLinked 6 h
      if b.globalField != 0 && !s.holds m.qp q then s.answer req .notOwner
      else if q.ledgerLost then s.answer req .lost
      else if !q.stageFits m b then s.answer req .malformed
      else
        let ps := s.stagePages h q b
        let own := ps.filter fun x => x.1.handle == h
        if b.globalField == 1 && 64 < q.globalAfter own true then s.answer req .malformed
        else if action = 1 && s.pinsTooMany q.part ps then
          s.complete req .capacity (stageWords 0 (ps.countP fun x => x.2.tier == .hbm) (lowestLost ps)) []
        else
          let s2 := ((s.walkPages ((s.homeCluster q).getD 0) q.part 2 (ps.map fun x => keyOf x.1 x.2)).pinHome h).markGlobal h q b own
          if action = 2 then s2.clearPins req ps else s2.beginStage req b (action == 1) q h ps

/-- Completes every STAGE whose stagings have all ended (R142). -/
def State.endStages (s : State) : State :=
  s.each (s.work.stageReqs.filter fun r => r.waits.isEmpty) fun s r => s.endStage r false false

/-! ### A staging whose page has arrived (R72, R136, R202, Table 2-8) -/

/-- Writes a staged page to its place and makes the transition; what waits on it goes on. -/
def State.landStaging (s : State) (g : Staging) (q : Seq) (p : Page) (a : Nat) : State :=
  let s1 := (s.putBytes a g.image).onPage g.page fun x =>
    { x with tier := .hbm, frame := a, frames := g.frames, copy := if g.relay then none else some p.frame, dirty := g.relay, packed := x.packed && !g.relay
             pinned := x.pinned || g.pin, pins := 0 }
  let s2 := (s1.bump 0x2302 0x0E q.part 1).meter q.part q.tenant 8 1
  let n := g.image.length
  (if g.relay then s2 else (s2.meterMoved q.part q.tenant 2 n).meterBursts q.part q.tenant (cdiv n 64)).endStaging g.id true

/-- A staging whose page has come makes its transition once no lock stands and its bursts are charged, to the stage class or for a relay-in to the relay class
(R36, R68, R136, R274). Its place goes back when the page is no longer where it was. -/
def State.finishStaging (s : State) (g : Staging) : State :=
  match s.seq g.page.handle, s.page g.page, g.place with
  | some q, some p, some a =>
    if p.pins = 255 then s
    else if (if g.relay then p.tier == .peer else p.tier == .flash) then
      s.charged [burstCost a q.part (if g.relay then 3 else 2) (cdiv g.image.length 64)] fun s => s.landStaging g q p a
    else (s.dropPlace q.part g).endStaging g.id false
  | _, _, _ => (s.dropPlace (handlePart g.page.handle) g).endStaging g.id false

/-- Stagings whose pages have come and that had to wait. -/
def State.pumpStagings (s : State) : State := s.each (s.work.stagings.filter (·.due)) fun s g => s.finishStaging g

/-! ### DELIVER (R143 to R147) -/

def State.delivery (s : State) (id : Nat) : Option Delivery := s.work.deliveries.find? (·.id == id)
def State.onDelivery (s : State) (id : Nat) (f : Delivery → Delivery) : State :=
  s.onWork fun w => { w with deliveries := mapIf (·.id == id) f w.deliveries }

/-- Pages of one head in a slot, bytes of a page's stride and of a slot (R144). -/
def deliverPages (b : DeliverBody) (e : Nat) : Nat := cdiv (e - b.first) 64
def deliverStride (fmt : Nat) : Nat := fmtFrames fmt * 16384
def deliverSlot (b : DeliverBody) (fmt e : Nat) : Nat := b.heads.length * deliverPages b e * deliverStride fmt

/-- Whether the next layer must wait for PROGRESS (R145). -/
def Delivery.blocked (d : Delivery) : Bool := d.layer ≤ d.body.layerCount.toNat && d.consumed + d.body.depthN ≤ d.layer

/-- Notes since when a delivery waits for PROGRESS. -/
def State.deliverWait (s : State) (id : Nat) : State :=
  match s.delivery id with
  | none => s
  | some d =>
    if d.blocked then
      if d.waitSince.isSome then s
      else (s.onDelivery id fun x => { x with waitSince := some s.us }).bump 0x2302 0x11 d.req.partition 1
    else s.onDelivery id fun x => { x with waitSince := none }

/-- Limit of a DELIVER: the least visible frontier of its layers and heads, and its own and the sequence's position limits (R143). -/
def State.deliverLimit (s : State) (q : Seq) (b : DeliverBody) : Nat :=
  (layerSpan b.firstLayer.toNat b.layerCount.toNat).foldl (fun a l => b.heads.foldl (fun a k => min a (s.visible q l k)) a) (min b.posLimit.toNat q.posLimit)

/-- Layout of a DELIVER, and room in its region for its depth of slots (R143, R144). Layers at or past the layer count, and a head mask that is empty or names
a head outside the part, are refused with it: the spec names no status for them (log 155). -/
def Seq.deliverFits (q : Seq) (m : Rx) (b : DeliverBody) (e : Nat) : Bool :=
  m.hdr.bodyLen == 40 && (layerSpan b.firstLayer.toNat b.layerCount.toNat).all (· < q.layers) && b.headMask != 0 && b.heads.all (fun k => q.headMask.testBit k)
    && b.first % 64 == 0 && q.posBase ≤ b.first && b.depthN * deliverSlot b q.fmt e ≤ b.regionLen.toNat

/-- A DELIVER begins with no layer written and none consumed (R143, R145). -/
def State.beginDeliver (s : State) (m : Rx) (b : DeliverBody) (q : Seq) (e : Nat) : State :=
  let h := m.hdr.handle.toNat
  ((s.fresh).2.pinHome h).onWork fun w => { w with deliveries := w.deliveries ++
    [{ id := (s.fresh).1, req := reqOf m 0x33, body := b, handle := h, epoch := q.epoch, node := q.holder.getD 0, limit := e, layer := 0, consumed := 0
       waitSince := none, stageSince := none, ended := none }] }

/-- Accepts a DELIVER and fixes its limit (R143, R144) (log 93). -/
def State.runDeliver (s : State) (m : Rx) (b : DeliverBody) : State :=
  let h := m.hdr.handle.toNat
  let req := reqOf m 0x33
  match s.checkHandle m.hdr h with
  | some st => s.answer req st
  | none => match s.seq h with
    | none => s.answer req .notOwner
    | some q =>
      if !s.holds m.qp q then s.answer req .notOwner
      else let s := s.touchLinked 6 h
      if q.ledgerLost then s.answer req .lost
      else if !q.deliverFits m b (s.deliverLimit q b) then s.answer req .malformed
      else if s.work.deliveries.any (·.handle == h) then s.answer req .retryLater
      else s.beginDeliver m b q (s.deliverLimit q b)

/-- Element layout of a page as DELIVER writes it: unpacked, most significant byte first (R145, R185, R210). What lies past the delivered limit or the valid
count is what HBM holds there (log 156). -/
def State.deliverBytes (s : State) (q : Seq) (p : Page) : List Byte :=
  let t := s.tablesOf q.part p.gen p.fmt
  let raw := if p.packed then (expandImage p.fmt t.1 t.2 (s.hbmBytes p)).getD [] else s.hbmBytes p
  netPage p.fmt raw

/-- Pages of a delivery's next layer, in the order of its slot. -/
def State.layerPages (s : State) (d : Delivery) (q : Seq) : List (Seq × Page) :=
  d.body.heads.flatMap fun k => (List.range (deliverPages d.body d.limit)).filterMap fun j =>
    (s.walk d.handle (d.body.firstLayer.toNat + d.layer) k ((d.body.first - q.posBase) / 64 + j)).bind fun x => x.2.map fun p => (x.1, p)

/-- What reading a layer costs the attend class: each page's walk, pin and bursts (R65, R66, R145). -/
def State.layerCosts (s : State) (q : Seq) (ps : List (Seq × Page)) : List Cost :=
  let c := (s.homeCluster q).getD 0
  ps.flatMap fun x =>
    let k := keyOf x.1 x.2
    [walkCost c q.part 0 (s.walkOf k).length, burstCost (s.pairGranule k) q.part 0 1, burstCost x.2.frame q.part 0 (cdiv x.2.stored 64)]

/-- Sends a layer: one write for each page into its slot, the last with the immediate (R145). -/
def State.sendLayer (s : State) (d : Delivery) (q : Seq) (qp : Qp) (ps : List (Seq × Page)) : State :=
  let l := d.body.firstLayer.toNat + d.layer
  let slot := d.layer % d.body.depthN
  let base := d.body.regionAddr.toNat + slot * deliverSlot d.body q.fmt d.limit
  let imm := packBits [(8, l), (8, slot), (16, d.req.tag % 65536)]
  let writes := (ps.zip (List.range ps.length)).map fun x => (base + x.2 * deliverStride q.fmt, s.deliverBytes x.1.1 x.1.2)
  let ws := if writes.isEmpty then [(base, ([] : List Byte))] else writes
  let s1 := (ws.zip (List.range ws.length)).foldl (fun s x =>
    s.post qp 2 0 q.tenant (.write qp.num x.1.1 d.body.regionKey.toNat (if x.2 + 1 = ws.length then some imm else none) x.1.2)) s
  let bytes := sumOf (fun w : Nat × List Byte => w.2.length) ws
  let s2 := s1.each ps fun s x => s.walked ((s.homeCluster q).getD 0) q.part (s.walkOf (keyOf x.1 x.2))
  ((((s2.bump 0x2302 0x10 q.part ps.length).meterBytes q.part q.tenant bytes).meterBursts q.part q.tenant (cdiv bytes 64)).onDelivery d.id fun x =>
    { x with layer := x.layer + 1, stageSince := none }).deliverWait d.id

/-- Writes the next layer of a delivery, or finds why it cannot: a lost page, a Kerf page, pages away, which are staged, or pages that cannot be pinned for
reading, for which it waits (R66, R145, R147). -/
def State.writeLayer (s : State) (d : Delivery) : State :=
  match s.seq d.handle, s.routeQp d.req.qp with
  | some q, some qp =>
    let ps := s.layerPages d q
    match lowestLost ps with
    | some pos => s.endDelivery d .lost pos
    | none =>
      if ps.any (fun x => x.2.fmt == 11) && !d.body.kerfAllowed then s.endDelivery d .tolerance 0
      else
        let away := ps.filter fun x => x.2.tier != .hbm
        if !away.isEmpty then
          (s.each away fun s x => (s.stagePage (keyOf x.1 x.2) .tile false).2).onDelivery d.id fun x => { x with stageSince := some (x.stageSince.getD s.us) }
        else if ps.any fun x => 254 ≤ x.2.pins then s
        else s.charged (s.layerCosts q ps) fun s => s.sendLayer d q qp ps
  | _, _ => s

end Sys2Proof.Machine
end

