-- ==== Sys2Proof/Machine/Attends.lean ====
section
/-!
DEFINITION. ATTEND: message and row checks, limits, patterns, placement, tiles, pins, running partials, Scarf merges and completion (R66, R80 to R112).
-/
namespace Sys2Proof

def AttendBody.rowN (b : AttendBody) : Nat := b.rowCount.toNat + 1
def RowBody.groupN (r : RowBody) : Nat := r.group.toNat + 1
def RowBody.heads (r : RowBody) : List Nat := headSpan r.headMask.toNat
def RowBody.q (r : RowBody) : Nat := r.queryPos.toNat

end Sys2Proof

namespace Sys2Proof.Machine

/-! ### Sizes (R82, R83, R87) -/

/-- Bytes of a row's part of the query payload, and of its output region. -/
def rowQueryBytes (fmt : Nat) (r : RowBody) : Nat :=
  r.heads.length * (r.groupN * 128 + (if r.inlineKv then 256 else 0)) * payloadBytes fmt
def rowOutBytes (b : AttendBody) (r : RowBody) : Nat :=
  r.heads.length * r.groupN * (128 * payloadBytes b.oFmt.toNat + (if b.oMode = 1 then 8 else 0))
def attendOutBytes (b : AttendBody) : Nat := sumOf (rowOutBytes b) b.rows

/-- Offset of a row's part in the query payload, and of its output region. -/
def queryOffset (b : AttendBody) (i : Nat) : Nat := sumOf (rowQueryBytes b.qFmt.toNat) (b.rows.take i)
def outOffset (b : AttendBody) (i : Nat) : Nat := sumOf (rowOutBytes b) (b.rows.take i)

/-- Whether a whole ATTEND is well laid out (R80, R82, R83, R87, R284). -/
def State.attendShape (s : State) (m : Rx) (b : AttendBody) : Bool :=
  let p := m.hdr.partition.toNat
  let out := attendOutBytes b
  let half := match (s.qp m.qp).bind fun q => if q.mode = 0 then none else q.compRing.bind s.ring with
    | some r => b.oByRef || 2 * (16 + 32 + 16 + 8 * b.rows.length + out) ≤ r.length
    | none => true
  b.qFmt.toNat ≤ 4 && b.oFmt.toNat ≤ 4 && b.oMode.toNat ≤ 1 && b.layer.toNat ≤ 255 && b.rows.length == b.rowN
    && b.qLen.toNat == queryOffset b b.rows.length
    && (if b.qByRef then m.hdr.bodyLen.toNat == 48 + 32 * b.rowN
        else m.hdr.bodyLen.toNat == 48 + 32 * b.rowN + b.qLen.toNat && b.payload.length == b.qLen.toNat && m.hdr.bodyLen.toNat ≤ s.act 0x2201 8 p)
    && (b.oMode != 1 || b.oFmt.toNat ≤ 1) && (b.oByRef || out ≤ s.act 0x2201 9 p) && (!b.oByRef || out ≤ b.oAvail.toNat) && half

/-! ### Placement (R88, R89) -/

/-- Cluster list L of a row under the lists of an epoch (Table 3-5). -/
def State.clusterList (s : State) (e p home n : Nat) : List Nat :=
  let k := s.clustersOf e p
  let here := k.filter fun c => c / 8 == home / 8
  let there := k.filter fun c => c / 8 != home / 8
  if n ≤ 262144 then [home]
  else
    let own := home :: (here.filter (home < ·) ++ here.filter (· < home))
    if s.actAt e 0x2201 5 p < n && !there.isEmpty then own ++ there else own

/-- Core of page index `i` of head `k` for a row of length `n` (R88). -/
def State.coreOf (s : State) (q : Seq) (home n k i : Nat) : Option Nat :=
  let l := s.clusterList q.epoch q.part home n
  let c := l.getD (i / 512 % max 1 l.length) home
  let cs := s.coresIn q.epoch q.part c
  cs[(s.chainSlot 6 q.handle + k + i / max 1 (s.actAt q.epoch 0x2201 2 q.part)) % max 1 cs.length]?

/-! ### Patterns (R92 to R94, R97) -/

/-- Whether a page with an eligible position is in a row's pattern (R93). -/
def inPattern (winPolicy : Bool) (w q first i : Nat) (glob : Bool) : Bool := !winPolicy || i == 0 || glob || (q < first + 63 + w && first ≤ q)

/-- Pages of a row's pattern in one layer and head: owner and page, rising. -/
def State.patternOf (s : State) (q : Seq) (r : Row) (l k : Nat) : List (Seq × Page) :=
  (List.range (cdiv (r.limit - q.posBase) 64)).filterMap fun i =>
    (s.walk q.handle l k i).bind fun x => x.2.bind fun p =>
      if inPattern r.winPolicy (64 * r.window) r.body.q (q.pagePos i) i p.glob then some (x.1, p) else none

/-- Pages of a row's pattern in a layer over all its heads. -/
def State.rowPattern (s : State) (q : Seq) (r : Row) (l : Nat) : List (Seq × Page) := r.body.heads.flatMap fun k => s.patternOf q r l k

/-- Stored bytes of a page in HBM or on flash; none when neither is at hand. -/
def State.storedBytes (s : State) (p : Page) : Option (List Byte) :=
  match p.tier with
  | .hbm => some (s.hbmBytes p)
  | .flash => some (s.flashBytes p.frame p.flashPages)
  | _ => none

/-- Whether a Kerf page is known to be unusable by a row; of one on a peer nothing is known until it is here (R97). -/
def State.kerfUnusable (s : State) (r : RowBody) (p : Page) : Bool :=
  p.fmt == 11 && (match s.storedBytes p with
    | some bs => !(r.kerfAllowed && (kerfClasses bs).testBit r.tolClass.toNat)
    | none => false)

/-- What R97 decides for a row over the unusable Kerf pages of its pattern: nothing, `TOLERANCE`, the pages to refresh, or that a Kerf page on a peer has to
come first. -/
inductive KerfVerdict where
  | fine | tolerance | waits | refresh (pages : List (Seq × Page))

/-- Whether an unusable page qualifies for refresh (R97). -/
def State.kerfQualifies (s : State) (q : Seq) (r : RowBody) (x : Seq × Page) : Bool :=
  r.refreshFallback && s.actAt q.epoch 0x2201 0x0A q.part == 1 && x.1.handle == q.handle

def State.kerfVerdict (s : State) (q : Seq) (r : RowBody) (ps : List (Seq × Page)) : KerfVerdict :=
  let bad := ps.filter fun x => s.kerfUnusable r x.2
  if bad.isEmpty then .fine
  else if !bad.all (s.kerfQualifies q r) then .tolerance
  else if ps.any fun x => x.2.fmt == 11 && x.2.tier == .peer then .waits
  else .refresh bad

/-! ### Rows -/

def State.attend (s : State) (id : Nat) : Option Attend := s.work.attends.find? (·.id == id)
def State.onAttend (s : State) (id : Nat) (f : Attend → Attend) : State := s.onWork fun w => { w with attends := mapIf (·.id == id) f w.attends }
def State.onRow (s : State) (id i : Nat) (f : Row → Row) : State :=
  s.onAttend id fun a => { a with rows := a.rows.mapIdx fun j r => if j = i then f r else r }

/-- A row before its checks. -/
def newRow (b : RowBody) : Row :=
  { body := b, status := none, limit := 0, window := b.window.toNat, winPolicy := b.winPolicy, empty := false, clipped := false, clamped := false
    nonFinite := false, refresh := false, kerfUsed := false, fused := false, position := 0, homeCluster := 0 }

/-- Checks 1 to 3 of R85, made when the message is received: what its sender holds later does not matter to it (R77, R110). -/
def State.admitRow (s : State) (m : Rx) (r : RowBody) : Option Status :=
  match s.checkHandle m.hdr r.handle.toNat with
  | some st => some st
  | none => match s.seq r.handle.toNat with
    | none => some .notOwner
    | some q => if s.holds m.qp q then none else some .notOwner

/-- Query elements of a row's part of the payload, without its inline keys and values. -/
def queryVals (b : AttendBody) (i : Nat) (r : RowBody) (payload : List Byte) : List Val :=
  payloadVals b.qFmt.toNat ((payload.drop (queryOffset b i)).take (r.heads.length * r.groupN * 128 * payloadBytes b.qFmt.toNat))

/-- Checks 4 to 7 of R85. -/
def State.checkRow (s : State) (b : AttendBody) (q : Seq) (r : RowBody) (qs : List Val) : Option Status :=
  if q.ledgerLost then some .lost
  else if q.layers ≤ b.layer.toNat || r.groupN ≠ q.group || r.headMask == 0 || !r.heads.all (fun k => q.headMask.testBit k)
      || (r.winPolicy && (r.window = 0 || 4096 < r.window.toNat))
      || (r.inlineKv && r.q < r.heads.foldl (fun a k => min a (s.visible q b.layer.toNat k)) (2 ^ 23)) then some .malformed
  else if !qs.all Val.finite then some .malformed
  else if (s.clustersOf q.epoch q.part).isEmpty then some .domainOff
  else none

/-- Fixes a checked row's limit and flags at dispatch (R92, R98, R99, R108). -/
def State.dispatchRow (s : State) (q : Seq) (b : AttendBody) (r : Row) : Row :=
  let x := r.body
  let w := x.heads.foldl (fun a k => min a (s.visible q b.layer.toNat k)) (2 ^ 23)
  let key := if 4194304 ≤ x.keyLimit.toNat then 2 ^ 23 else x.keyLimit.toNat
  let causal := if x.inlineKv then x.q else x.q + 1
  let e := min (min key causal) (min w q.posLimit)
  let clamp := q.winPolicy && (!x.winPolicy || q.window < x.window.toNat)
  let inl := x.inlineKv && q.posBase ≤ x.q && x.q < min key q.posLimit
  { r with limit := e, clipped := e < min key causal, clamped := clamp, winPolicy := x.winPolicy || clamp, window := if clamp then q.window else x.window.toNat
           position := e, empty := e ≤ q.posBase && !inl, homeCluster := (s.homeCluster q).getD 0 }

/-- Whether a row's inline position takes part (R92). -/
def inlineActs (q : Seq) (r : RowBody) : Bool :=
  r.inlineKv && q.posBase ≤ r.q && r.q < min (if 4194304 ≤ r.keyLimit.toNat then 2 ^ 23 else r.keyLimit.toNat) q.posLimit

/-! ### Tiles (R72, R95, R107) -/

/-- Whether a tile may be held for partners: its page's sequence has linkers, or was reached through a link (R107). -/
def fusible (q owner : Seq) : Bool := owner.handle != q.handle || 0 < owner.linkers

/-- Tile entries of a cluster's scoreboard (R107). -/
def boardSize : Nat := 8192

/-- Whether a tile is not yet in a core. -/
def Tile.waits (t : Tile) : Bool := match t.st with
  | .issued _ => false
  | _ => true

/-- Tiles of a cluster that are on its scoreboard or wait to enter it. -/
def State.boardCount (s : State) (c : Nat) : Nat := s.work.tiles.countP fun t => t.core / 8 == c && t.waits

/-- Whether a tile has entered its cluster's scoreboard: tiles enter in the order of their rows, and leave for a core (R107). -/
def State.onBoard (s : State) (t : Tile) : Bool :=
  (s.work.tiles.takeWhile (·.id != t.id)).countP (fun u => u.core / 8 == t.core / 8 && u.waits) < boardSize

/-- Adds one tile to the scoreboard; a page away from HBM holds it while staging runs. -/
def State.addTile (s : State) (att row : Nat) (noFusion : Bool) (q owner : Seq) (p : Page) (core : Nat) (inl : Bool) : State :=
  let id := (s.fresh).1
  let k := keyOf owner p
  let away := !inl && (p.tier == .flash || p.tier == .peer)
  let r := if away then (s.fresh).2.stagePage k .tile false else (0, (s.fresh).2)
  let wait := !inl && fusible q owner && !noFusion && s.actAt q.epoch 0x2201 6 q.part ≠ 0
  let st : TileState := if away then (if p.tier == .peer then .relayed r.1 else .staged r.1) else if wait then .fuseWait else .ready
  let s1 := r.2.onWork fun w => { w with tiles := w.tiles ++
    [{ id := id, att := att, row := row, layer := p.layer, head := p.head, page := k, core := core, inline_ := inl, fusible := wait, st := st }] }
  let s2 := if away then (s1.bump 0x2202 0x0E (core / 8) 1).meter q.part q.tenant 7 1 else s1
  s2.peak 0x2202 0x12 (core / 8) (min boardSize (s2.boardCount (core / 8)))

/-- Releases held tiles whose group has reached the fuse group limit (R107). -/
def State.releaseFused (s : State) (e p : Nat) : State :=
  let full := fun (t : Tile) => s.actAt e 0x2201 7 p ≤ s.work.tiles.countP fun u => u.st == .fuseWait && u.page == t.page && u.core == t.core
  s.onWork fun w => { w with tiles := w.tiles.map fun t => if t.st == .fuseWait && full t then { t with st := .ready } else t }

/-- Accumulators of one head of a row: one for each core, each cluster and the home cluster, with the inputs each awaits (R90, R102). -/
def State.addAccums (s : State) (att row k g home : Nat) (cores : List Nat) : State :=
  let cs := sortNat cores
  let clusters := sortNat (cs.map (· / 8))
  let mk := fun (s : State) (level unit n : Nat) => (s.fresh).2.onWork fun w => { w with accums := w.accums ++
    [{ id := (s.fresh).1, att := att, row := row, head := k, level := level, unit := unit, expected := n, vals := List.replicate g QPartial.none_ }] }
  let s1 := cs.foldl (fun s c => mk s 0 c (cores.countP (· == c))) s
  let s2 := clusters.foldl (fun s c => mk s 1 c (cs.countP fun x => x / 8 == c)) s1
  mk s2 2 home clusters.length

/-- Layer-ahead staging (R140). -/
def State.layerAhead (s : State) (q : Seq) (r : Row) (l : Nat) : State :=
  let ls := (List.range (s.actAt q.epoch 0x2301 6 q.part)).filterMap fun j =>
    let x := l + 1 + j
    if x < q.layers then some x else if s.actAt q.epoch 0x2301 9 q.part = 1 then some (x % q.layers) else none
  s.each ls fun s l' => s.each r.body.heads fun s k =>
    s.each ((s.patternOf q r l' k).filter fun x => x.2.tier == .flash) fun s x => (s.stagePage (keyOf x.1 x.2) .ahead false).2

/-- Ends a row at dispatch. What the position field of its result says when the row is neither `OK` nor `LOST` for a page is not given: it is the effective
limit of a row that had one, else 0 (log 158). -/
def State.stopRow (s : State) (att i : Nat) (st : Status) (pos : Nat) (refresh : Bool) : State :=
  s.onRow att i fun r => { r with status := some st, position := pos, refresh := refresh }

/-- Page-entry blocks below the window that the scheduler reads to find a head's global pages, as the first page of each and the sequence that holds it (R93). -/
def State.globalBlocks (s : State) (q : Seq) (r : Row) (l k : Nat) : List PageKey :=
  if !r.winPolicy || q.globalPages = 0 then []
  else (List.range (cdiv (min (r.body.q + 1 - 64 * r.window - q.posBase) (r.limit - q.posBase)) 4096)).filterMap fun b =>
    (s.walk q.handle l k (64 * b)).map fun x => { handle := x.1.handle, layer := l, head := k, index := 64 * b }

/-- The scheduler reads those blocks: a walk and the 16 bursts of a block each, for the attend class (R91, R93, log 144). -/
def State.scanGlobals (s : State) (q : Seq) (r : Row) (l : Nat) : State :=
  let ks := r.body.heads.flatMap fun k => s.globalBlocks q r l k
  (s.walkPages r.homeCluster q.part 0 ks).oweAll (ks.map fun k => burstCost (s.pairGranule k) q.part 0 16)

/-- The tile of a row's inline position in one head (R101). -/
def inlinePage (q : Seq) (l k i : Nat) : Page :=
  { layer := l, head := k, index := i, tier := .absent, fmt := q.fmt, gen := 0, packed := false, dirty := false, pinned := false, glob := false, lost := false
    valid := 0, frame := 0, pins := 0, copy := none, frames := [], imageLen := 0, packTried := 0, kerfTried := 0, copyFreed := none }

/-- Puts a row's tiles on the scoreboard, with the accumulators they feed (R88 to R90, R107). -/
def State.addTiles (s : State) (att i : Nat) (b : AttendBody) (q : Seq) (r : Row) : State :=
  let l := b.layer.toNat
  let n := r.limit - q.posBase
  r.body.heads.foldl (fun s k =>
    let placed := (s.patternOf q r l k).filterMap fun y => (s.coreOf q r.homeCluster n k y.2.index).map fun c => (y, c)
    let own := if inlineActs q r.body then s.coreOf q r.homeCluster n k ((r.body.q - q.posBase) / 64) else none
    let cores := placed.map (·.2) ++ own.toList
    let s1 := if cores.isEmpty then s else s.addAccums att i k r.body.groupN r.homeCluster cores
    let s2 := placed.foldl (fun s y => s.addTile att i b.noFusion q y.1.1 y.1.2 y.2 false) s1
    match own with
    | some c => s2.addTile att i b.noFusion q q (inlinePage q l k ((r.body.q - q.posBase) / 64)) c true
    | none => s2) s

/-- Counts the pages a row skips (0x2202.04, .05). -/
def State.countSkips (s : State) (q : Seq) (r : Row) (l used : Nat) : State :=
  let elig := r.body.heads.length * cdiv (r.limit - q.posBase) 64
  let seen := sumOf (fun k => cdiv (s.visible q l k - q.posBase) 64) r.body.heads
  (s.bump 0x2202 4 r.homeCluster (seen - elig)).bump 0x2202 5 r.homeCluster (elig - used)

/-- Drops the Kerf pages a row's verdict has refreshed (R97). -/
def State.refreshPages (s : State) (ps : List (Seq × Page)) : State := s.each ps fun s x => s.lose (keyOf x.1 x.2) 6

/-- Dispatches one row that passed its checks: loss, Kerf pages, tiles and accumulators. -/
def State.placeRow (s : State) (att i : Nat) (b : AttendBody) (q : Seq) (r : Row) : State :=
  let l := b.layer.toNat
  let all := s.rowPattern q r l
  let s1 := (((s.onRow att i fun _ => r).scanGlobals q r l).countSkips q r l all.length)
  match lowestLost all with
  | some pos => s1.stopRow att i .lost pos false
  | none => match s1.kerfVerdict q r.body all with
    | .tolerance => s1.stopRow att i .tolerance r.limit false
    | .refresh ps => (s1.refreshPages ps).stopRow att i .lost ((lowestLost (ps.map fun x => (x.1, { x.2 with lost := true }))).getD 0) true
    | _ =>
      let s2 := s1.addTiles att i b q r
      let s3 := if all.any fun x => x.2.tier == .flash then s2.layerAhead q r l else s2
      let s4 := s3.releaseFused q.epoch q.part
      if s4.work.accums.any fun a => a.att == att && a.row == i then s4 else s4.onRow att i fun r => { r with status := some .ok }

/-- Checks and dispatches the next row of an ATTEND; none while the scoreboard of its home cluster is full (R85, R107, R108). -/
def State.dispatchNext (s : State) (a : Attend) : Option State :=
  match a.rows[a.next]? with
  | none => some s
  | some r => if r.status.isSome then some s else match s.seq r.body.handle.toNat with
    | none => some (s.stopRow a.id a.next .notOwner 0 false)
    | some q => match s.checkRow a.body q r.body (queryVals a.body a.next r.body a.queries) with
      | some st => some (s.stopRow a.id a.next st 0 false)
      | none =>
        if boardSize ≤ s.boardCount ((s.homeCluster q).getD 0) then none
        else
          let s2 := (s.touchLinked 6 q.handle).pinHome q.handle
          some (match s2.seq q.handle with
            | none => s2
            | some q2 => s2.placeRow a.id a.next a.body q2 (s2.dispatchRow q2 a.body r))

/-- Dispatches the rows of an ATTEND whose queries are at hand, in order, as far as the scoreboards take them. The fuel bounds their number. -/
def State.turnAttend (s : State) (id : Nat) : Nat → State
  | 0 => s
  | n + 1 => match s.attend id with
    | none => s
    | some a =>
      if !a.ready || a.rows.length ≤ a.next then s
      else match s.dispatchNext a with
        | none => s
        | some s1 => (s1.onAttend id fun x => { x with next := x.next + 1 }).turnAttend id n

/-- Carries on with the ATTENDs whose rows wait, oldest first (R107; where they wait, log 161). -/
def State.pumpAttends (s : State) : State :=
  s.each (s.work.attends.filter fun a => a.ready && a.next < a.rows.length) fun s a => s.turnAttend a.id (a.rows.length + 1)

/-- Whether every row of an ATTEND has been dispatched. -/
def Attend.dispatched (a : Attend) : Bool := a.rows.length ≤ a.next

/-- The record of an ATTEND received, its rows checked for handle and lease; every sequence they name and hold is touched (R73, R85). -/
def State.newAttend (s : State) (m : Rx) (b : AttendBody) (ready : Bool) : Nat × State :=
  let id := (s.fresh).1
  let s1 := s.each (b.rows.filter fun r => (s.admitRow m r).isNone) fun s r => s.touch r.handle.toNat
  (id, (s1.fresh).2.onWork fun w => { w with attends := w.attends ++
    [{ id := id, req := reqOf m 0x31, body := b, epoch := m.hdr.epoch.toNat, node := ((s.nodeOf m.qp).map (·.num)).getD 0
       rows := b.rows.map fun r => { newRow r with status := s.admitRow m r }, queries := b.payload, ready := ready, next := 0 }] })

/-- An ATTEND let in: its layout, then its query payload, then its rows (R80 to R85). -/
def State.runAttend (s : State) (m : Rx) (b : AttendBody) (i : Instr) : State :=
  if !s.attendShape m b then s.answer (reqOf m 0x31) .malformed
  else if b.qByRef then
    match s.qp m.qp with
    | none => s
    | some qp =>
      let svc := serviceOf (s.qpRole qp) 0x31 9 false
      let r := s.newAttend m b false
      (r.2.rdmaRead qp svc (classOf svc 0x31) m.hdr.tenant.toNat b.qAddr.toNat b.qKey.toNat b.qLen.toNat r.1 i).meterBytes qp.part m.hdr.tenant.toNat b.qLen.toNat
  else
    let r := s.newAttend m b true
    r.2.turnAttend r.1 (b.rows.length + 1)

/-- The query payload of an ATTEND has been read (R83, R288). -/
def State.attendRead (s : State) (id : Nat) (bs : List Byte) : State :=
  match s.attend id with
  | none => s
  | some a => (s.onAttend id fun x => { x with queries := bs, ready := true }).turnAttend id (a.rows.length + 1)

/-- Sequence whose older epoch an ATTEND has to wait for, the first in row order; `but` is one that has just left it (R249). -/
def State.attendWaits (s : State) (m : Rx) (b : AttendBody) (but : Option Nat) : Option Nat :=
  (b.rows.map (·.handle.toNat)).find? fun h => but != some h && (s.checkHandle m.hdr h).isNone && (match s.seq h with
    | some q => s.holds m.qp q && (!q.epochQueue.isEmpty || (m.hdr.epoch.toNat = s.epochs.active && q.epoch ≠ s.epochs.active && s.inFlight h true))
    | none => false)

/-- Lets an ATTEND in under R249: every sequence of its rows takes the active epoch when the message carries it (log 88). A row refused for its handle or its
lease has no effect on its sequence (R76). -/
def State.enterAttend (s : State) (m : Rx) (b : AttendBody) (but : Option Nat) (i : Instr) (run : State → State) : State :=
  match s.attendWaits m b but with
  | some h => s.onSeq h fun q => { q with epochQueue := q.epochQueue ++ [i] }
  | none =>
    run (if m.hdr.epoch.toNat = s.epochs.active then
      s.onSeqs fun l => mapIf (fun q => (b.rows.any fun r => r.handle.toNat == q.handle) && (s.checkHandle m.hdr q.handle).isNone && s.holds m.qp q)
        (fun q => { q with epoch := s.epochs.active }) l
    else s)

/-! ### Tiles that run (R66, R91, R96, R101, R104, R106) -/

def State.tile (s : State) (id : Nat) : Option Tile := s.work.tiles.find? (·.id == id)
def State.onTile (s : State) (id : Nat) (f : Tile → Tile) : State := s.onWork fun w => { w with tiles := mapIf (·.id == id) f w.tiles }

/-- Row of a tile. -/
def State.rowOf (s : State) (t : Tile) : Option (Attend × Row) := (s.attend t.att).bind fun a => (a.rows[t.row]?).map fun r => (a, r)

/-- Matrix issue cycles of one page against a row's query heads: 1,024 cells, the stored format's operand class, two passes of scores for FP32 queries
(Table 1-2, R100). -/
def issueCycles (fmt qFmt g : Nat) : Nat :=
  let half := 8 * g * (if [1, 2].contains fmt then 2 else 1) / (if [6, 7, 8, 10, 11].contains fmt then 2 else 1)
  half * (if qFmt = 0 then 3 else 2)

/-- Bytes of a row's queries and running partial of one head in a core buffer: its queries, an inline position, and m, l and o in binary32 (Table 1-3, R112). -/
def rowRoom (b : AttendBody) (r : RowBody) : Nat :=
  r.groupN * 128 * payloadBytes b.qFmt.toNat + (if r.inlineKv then 256 * payloadBytes b.qFmt.toNat else 0) + r.groupN * 520

/-- Rows and heads with a tile in a core, each once, and their working set there. -/
def State.rowsIn (s : State) (core : Nat) : List (Nat × Nat × Nat) :=
  (s.work.tiles.filter fun t => t.core == core && !t.waits).foldl (fun l t => addNew l (t.att, t.row, t.head)) []

/-- Bytes in use of a core buffer: the pages its groups read, each as stored, and the queries and partials of the rows with a tile in it (R112). -/
def State.coreUse (s : State) (core : Nat) : Nat :=
  sumOf (fun (g : Group) => if g.core = core then ((s.page g.page).map (·.stored)).getD 0 else 0) s.work.groups
    + sumOf (fun x => ((s.attend x.1).bind fun a => (a.rows[x.2.1]?).map fun r => rowRoom a.body r.body).getD 0) (s.rowsIn core)

/-- Whether a core buffer of 2 MiB has room for a tile that reads `n` bytes of a page. -/
def State.coreRoom (s : State) (t : Tile) (a : Attend) (r : Row) (n : Nat) : Bool :=
  s.coreUse t.core + n + (if (s.rowsIn t.core).contains (t.att, t.row, t.head) then 0 else rowRoom a.body r.body) ≤ 2097152

/-- What a tile names: the page of its own sequence, which a link may resolve elsewhere (R57, R60). -/
def Tile.named (t : Tile) (r : Row) : PageKey := { t.page with handle := r.body.handle.toNat }

/-- Levels the walker resolves for a tile: none on a look-aside hit (R65). -/
def State.tileWalk (s : State) (t : Tile) (r : Row) : List (List Nat) := if (s.xlat t.core (t.named r)).isSome then [] else s.walkOf (t.named r)

/-- The translation of a tile has been had, from its core's look-aside buffer or by a walk that fills it (R65, 0x2103). -/
def State.translated (s : State) (t : Tile) (r : Row) (q : Seq) (p : Page) : State :=
  let c := t.core / 8
  let s1 := if (s.xlat t.core (t.named r)).isSome then s.bump 0x2103 4 c 1 else (s.bump 0x2103 5 c 1).walked c q.part (s.tileWalk t r)
  s1.putXlat t.core { named := t.named r, page := t.page, seen := p.entryWord }

/-- What a translation and a pin cost a tile: walker lookups, and the burst of the operation on the entry pair (R65, R66). -/
def State.pinCosts (s : State) (t : Tile) (r : Row) (p : Nat) : List Cost :=
  [walkCost (t.core / 8) p 0 (s.tileWalk t r).length, burstCost (s.pairGranule t.page) p 0 1]

/-- A pin operation meets a count of 254 or 255: the tile tries again later, after a lock with a new walk (R66). -/
def State.pinFails (s : State) (t : Tile) (r : Row) (q : Seq) (p : Page) : State :=
  s.charged (s.pinCosts t r q.part) fun s =>
    let s1 := s.translated t r q p
    if p.pins = 255 then (s1.dropXlat t.core (t.named r)).bump 0x2103 6 (t.core / 8) 1 else s1.bump 0x2103 7 (t.core / 8) 1

/-- Whether a page's data is at hand in its tile's cluster buffer or in the page cache of its die (R16, R17, R307). -/
def State.pageNear (s : State) (core part : Nat) (p : Page) : Bool :=
  s.bufferHolds part (core / 8) p.frame (runCount p.stored) || s.pageCached part (core / 64) p.frame (runCount p.stored)

/-- Whether the entry a look-aside buffer gave is no longer the page's, so that what was fetched by it is discarded (R67). -/
def State.staleXlat (s : State) (t : Tile) (r : Row) (p : Page) : Bool := (s.xlat t.core (t.named r)).any fun x => x.seen != p.entryWord

/-- Eligible positions of a tile within its page (R94). -/
def eligibleIn (q : Seq) (r : Row) (first i valid : Nat) (glob : Bool) : List Nat :=
  (List.range 64).filter fun j =>
    let x := first + j
    q.posBase ≤ x && x < r.limit && j < valid && (!r.winPolicy || i == 0 || glob || (r.body.q < x + 64 * r.window && x ≤ r.body.q))

/-- Bytes of its page that a tile fetches: of a packed page only the blocks its positions need, all of it when other tiles may be fused with it (R106, log 142). -/
def State.wantedBytes (s : State) (t : Tile) (r : Row) (q : Seq) (p : Page) : Nat :=
  if p.packed && !t.fusible then neededBytes p.fmt (s.hbmBytes p) (eligibleIn q r (q.pagePos p.index) p.index p.valid p.glob) else p.stored

/-- Bursts that fetch a tile's page from HBM: none for a page at hand, twice over after a fetch under a stale entry. -/
def State.fetchBursts (s : State) (t : Tile) (r : Row) (q : Seq) (p : Page) : Nat :=
  if s.pageNear t.core q.part p then 0 else cdiv (s.wantedBytes t r q p) 64 * (1 + bit (s.staleXlat t r p))

/-- The page a tile has fetched stays in the page cache of its die, and in its slice's quarter of the cluster buffer when several tiles share it
(Table 1-3, R307). -/
def State.kept (s : State) (t : Tile) (part : Nat) (p : Page) : State :=
  let s1 := s.fillPage part (t.core / 64) p.frame (runCount p.stored)
  if t.fusible || s.work.tiles.any fun u => u.page == t.page && u.core != t.core && u.core / 8 == t.core / 8 then
    s1.fillQuarter part (coreSlice t.core) p.frame (runCount p.stored) else s1

/-- Puts a tile into a group whose copy is in its core's buffer (R106). -/
def State.joinGroup (s : State) (t : Tile) (r : Row) (g : Group) (q : Seq) (p : Page) (cycles : Nat) : State :=
  let s0 := s.translated t r q p
  let s1 := (s0.onTile t.id fun x => { x with st := .issued g.id }).onWork fun w => { w with groups := mapIf (·.id == g.id) (fun x =>
    { x with members := x.members ++ [t.id], served := x.served + 1, rows := x.rows ++ [(t.att, t.row)] }) w.groups }
  let s2 := s1.each ((t.att, t.row) :: g.rows) fun s r => s.onRow r.1 r.2 fun x => { x with fused := true }
  ((s2.bump 0x2202 2 (t.core / 8) 1).bump 0x2202 6 (t.core / 8) (bit (g.served == 1))).bump 0x2202 7 (t.core / 8) (if g.served = 1 then 2 else 1)
    |>.energy q.part q.tenant (s.rw 0x8001 1 0 * cycles + s.rw 0x8001 5 0 * (s.tileWalk t r).length)

/-- A tile's page is pinned once more and read into its core's buffer, for a group that begins with the tile (R66, R67, R91, R106). -/
def State.openGroup (s : State) (t : Tile) (r : Row) (q : Seq) (p : Page) (cycles : Nat) : State :=
  let id := (s.fresh).1
  let bursts := s.fetchBursts t r q p
  let lookups := (s.tileWalk t r).length
  let s0 := ((s.fresh).2.bump 0x2103 8 (t.core / 8) (bit (s.staleXlat t r p))).translated t r q p
  let s1 := ((s0.onPage t.page fun x => { x with pins := x.pins + 1 }).onTile t.id fun x => { x with st := .issued id }).onWork fun w =>
    { w with groups := w.groups ++ [{ id := id, core := t.core, page := t.page, members := [t.id], served := 1, rows := [(t.att, t.row)], tenants := [q.tenant] }] }
  let s2 := ((s1.kept t q.part p).bump 0x2202 2 (t.core / 8) 1).bump 0x2202 3 (t.core / 8) 1
  (((s2.meter q.part q.tenant 6 1).meterBursts q.part q.tenant (bursts + 1)).meterMoved q.part q.tenant 0 (64 * (bursts + 1))).energy q.part q.tenant
    (s.rw 0x8001 1 0 * cycles + s.rw 0x8001 5 0 * lookups)

/-- First position of the lowest-numbered lost page that a tile's row needs; `d` when none stands lost (Table 3-3, R96). -/
def State.lostPos (s : State) (t : Tile) (d : Nat) : Nat :=
  match s.rowOf t with
  | none => d
  | some (a, r) => ((s.seq r.body.handle.toNat).bind fun q => lowestLost (s.rowPattern q r a.body.layer.toNat)).getD d

/-- Ends a tile's row for a page that is lost (R96). -/
def State.loseRow (s : State) (t : Tile) (d : Nat) : State := s.endRow t.att t.row .lost (s.lostPos t d)

/-- Holds a tile whose page is away until it has been staged or relayed in (R72). -/
def State.holdTile (s : State) (t : Tile) (p : Page) (q : Seq) : State :=
  let g := s.stagePage t.page .tile false
  ((g.2.onTile t.id fun x => { x with st := if p.tier == .peer then .relayed g.1 else .staged g.1 }).bump 0x2202 0x0E (t.core / 8) 1).meter q.part q.tenant 7 1

/-- Issues a tile on a page in HBM that its row may use: it joins a group, or its page is pinned and fetched, everything it takes being charged first
(R36, R66, R91, R106, R112). -/
def State.startTile (s : State) (t : Tile) (a : Attend) (r : Row) (q : Seq) (p : Page) : State :=
  let cycles := issueCycles p.fmt a.body.qFmt.toNat r.body.groupN
  match s.work.groups.find? fun g => g.core == t.core && g.page == t.page && g.served < s.actAt q.epoch 0x2201 7 q.part with
  | some g =>
    if !s.coreRoom t a r 0 then s
    else s.charged [walkCost (t.core / 8) q.part 0 (s.tileWalk t r).length, issueCost t.core q.part cycles] fun s => s.joinGroup t r g q p cycles
  | none =>
    if 254 ≤ p.pins then s.pinFails t r q p
    else if !s.coreRoom t a r p.stored then s
    else s.charged (s.pinCosts t r q.part ++ [issueCost t.core q.part cycles, burstCost p.frame q.part 0 (s.fetchBursts t r q p)]) fun s =>
      s.openGroup t r q p cycles

/-- Issues the tile of an inline position, after the row's other tiles of its head and core. Its issue cycles, which the spec does not give, are those of a page's
64 positions, divided by 64 and rounded up (log 160). -/
def State.startInline (s : State) (t : Tile) (a : Attend) (r : Row) (q : Seq) : State :=
  if s.work.tiles.any fun u => u.att == t.att && u.row == t.row && u.head == t.head && u.core == t.core && u.id != t.id then s
  else if !s.coreRoom t a r 0 then s
  else s.charged [issueCost t.core q.part (cdiv (issueCycles q.fmt a.body.qFmt.toNat r.body.groupN) 64)] fun s =>
    (s.onTile t.id fun x => { x with st := .issued 0 }).bump 0x2202 2 (t.core / 8) 1

/-- Issues a tile that is on its scoreboard: a page lost, away or unusable stops it or holds it (R66, R72, R91, R96, R97, R106, R112) (log 92, 95). -/
def State.issueTile (s : State) (t : Tile) : State :=
  match s.rowOf t with
  | none => s.dropTile t
  | some (a, r) =>
    if r.status.isSome then s.dropTile t
    else if !s.onBoard t then s
    else match s.seq r.body.handle.toNat with
      | none => s.endRow t.att t.row .notOwner 0
      | some q =>
        if t.inline_ then s.startInline t a r q
        else match s.page t.page with
          | none => s.loseRow t 0
          | some p =>
            if p.lost then s.loseRow t (q.pagePos p.index)
            else if p.tier != .hbm then s.holdTile t p q
            else match (if p.fmt = 11 then s.kerfVerdict q r.body (s.rowPattern q r a.body.layer.toNat) else .fine) with
              | .tolerance => s.endRow t.att t.row .tolerance r.limit
              | .refresh ps => ((s.refreshPages ps).loseRow t (q.pagePos p.index)).onRow t.att t.row fun x => { x with refresh := true }
              | .waits => if s.kerfUnusable r.body p then s else s.startTile t a r q p
              | .fine => s.startTile t a r q p

/-- Query vectors of one head of a row: g of 128 values, and its inline keys and values. -/
def queryHeads (a : Attend) (row : Nat) (r : RowBody) (k : Nat) : List (List Val) × List Val :=
  let es := payloadBytes a.body.qFmt.toNat
  let part := payloadVals a.body.qFmt.toNat ((a.queries.drop (queryOffset a.body row)).take (rowQueryBytes a.body.qFmt.toNat r))
  let j := (r.heads.takeWhile (· != k)).length
  let qs := (part.drop (j * r.groupN * 128)).take (r.groupN * 128)
  let kv := if r.inlineKv then (part.drop (r.heads.length * r.groupN * 128 + j * 256)).take 256 else []
  if es = 0 then ([], []) else (chunks 128 r.groupN qs, kv)

def State.accum (s : State) (id : Nat) : Option Accum := s.work.accums.find? (·.id == id)
def State.onAccum (s : State) (id : Nat) (f : Accum → Accum) : State := s.onWork fun w => { w with accums := mapIf (·.id == id) f w.accums }

/-- Core accumulator of a tile. -/
def State.coreAccum (s : State) (t : Tile) : Option Accum :=
  s.work.accums.find? fun a => a.att == t.att && a.row == t.row && a.head == t.head && a.level == 0 && a.unit == t.core

/-- Takes a tile's inputs in: its accumulator awaits one less, and its group and pin go (R66, R101). -/
def State.finishTile (s : State) (t : Tile) (scale qf : Nat) (qs keys vals : List (List Val)) : State :=
  match s.coreAccum t with
  | none => s.dropTile t
  | some a =>
    let r := s.addToPartials scale qf a.vals qs keys vals
    (r.2.onAccum a.id fun x => { x with expected := x.expected - 1, vals := r.1 }).dropTile t

/-- Unpacked or Kerf bytes of a page in HBM: a coded page is expanded, none when it does not expand (R200). -/
def State.pageBytes (s : State) (part : Nat) (p : Page) : Option (List Byte) :=
  let t := s.tablesOf part p.gen p.fmt
  if p.packed then expandImage p.fmt t.1 t.2 (s.hbmBytes p) else some (s.hbmBytes p)

/-- A row whose every head has its final partial is done (R90). -/
def State.closeRow (s : State) (att row : Nat) : State :=
  let mine := s.work.accums.filter fun a => a.att == att && a.row == row
  if mine.all fun a => a.level == 2 && a.expected == 0 then
    s.onRow att row fun r => if r.status.isNone then { r with status := some .ok } else r
  else s

/-- Merges a complete partial into the accumulator above it (R90, R102). -/
def State.mergeUp (s : State) (a : Accum) : State :=
  let up := s.work.accums.find? fun x => x.att == a.att && x.row == a.row && x.head == a.head && x.level == a.level + 1 && (a.level == 1 || x.unit == a.unit / 8)
  match up with
  | none => s
  | some u =>
    let r := (u.vals.zip a.vals).foldl (fun (acc : List QPartial × State) x =>
      let y := acc.2.mergePartial x.1 x.2
      (acc.1 ++ [y.1], y.2)) ([], s)
    ((((r.2.onAccum u.id fun x => { x with vals := r.1, expected := x.expected - 1 }).onWork fun w => { w with accums := w.accums.filter (·.id != a.id) }).bump
      0x2202 0x10 (if a.level = 0 then a.unit / 8 else a.unit) 1)).closeRow a.att a.row

/-! ### Output (R86, R87, R98, R104) -/

/-- Output region of a row (R87, Table 3-4). -/
def State.rowOut (s : State) (a : Attend) (i : Nat) (r : Row) : List Byte :=
  r.body.heads.flatMap fun k =>
    (((s.work.accums.find? fun x => x.att == a.id && x.row == i && x.head == k && x.level == 2).map (·.vals)).getD
      (List.replicate r.body.groupN QPartial.none_)).flatMap (headOut a.body)

/-- Whether some head of a row has no valid key, or is not finite. -/
def State.rowFlags (s : State) (a : Attend) (i : Nat) (r : Row) : Bool × Bool :=
  let of_ := fun (k : Nat) => ((s.work.accums.find? fun x => x.att == a.id && x.row == i && x.head == k && x.level == 2).map (·.vals)).getD
    (List.replicate r.body.groupN QPartial.none_)
  (r.body.heads.any fun k => (of_ k).all (·.empty), r.body.heads.any fun k => (of_ k).any (·.nan))

/-- Row result (Table 3-3). -/
def Row.word (r : Row) : W64 :=
  let st := r.status.getD .ok
  packWord [(8, st.code), (1, bit (r.empty && st == .ok)), (1, bit r.clipped), (1, bit r.clamped), (1, bit (r.nonFinite && st == .ok)), (1, bit r.refresh),
    (1, bit r.kerfUsed), (1, bit r.fused), (8, 0), (23, r.position), (18, 0)]

/-- Counts a finished row at its home cluster; one that ended before it was placed is counted at cluster 0, of which the spec says nothing (Table 3-7, R383;
log 159). -/
def State.countRow (s : State) (r : Row) : State :=
  let h := r.body.handle.toNat
  let p := handlePart h
  let t := handleTenant h
  let base := ((s.seq h).map (·.posBase)).getD 0
  let c := r.homeCluster
  match r.status with
  | some .ok => (((((s.bump 0x2202 9 c 1).bump 0x2202 0x0A c (bit r.empty)).bump 0x2202 0x0B c (bit r.clipped)).meter p t 3 1).meter p t 4 (r.limit - base))
  | some .lost => (s.bump 0x2202 0x0C c 1).meter p t 0x21 1
  | some .tolerance => (s.bump 0x2202 0x0D c 1).meter p t 0x22 1
  | some .staleEpoch => s.bump 0x4006 0x0B p 1
  | _ => s

/-- Completes an ATTEND whose rows have all ended: outputs, then the completion on the same queue pair and in the same service (R86, R289) (log 94). -/
def State.completeAttend (s : State) (a : Attend) : State :=
  let r := (a.rows.zip (List.range a.rows.length)).foldl (fun (acc : List Row × List (Nat × List Byte) × State) (x : Row × Nat) =>
    let fl := acc.2.2.rowFlags a x.2 x.1
    let row := { x.1 with empty := fl.1, nonFinite := fl.2 }
    if x.1.status == some .ok then
      (acc.1 ++ [row], acc.2.1 ++ [(x.2, acc.2.2.rowOut a x.2 x.1)], acc.2.2)
    else if a.body.oByRef then (acc.1 ++ [row], acc.2.1, acc.2.2)
    else
      let o := acc.2.2.randomBytes (rowOutBytes a.body x.1.body)
      (acc.1 ++ [row], acc.2.1 ++ [(x.2, o.1)], o.2)) (([] : List Row), ([] : List (Nat × List Byte)), s)
  let rows := r.1
  let s1 := rows.foldl State.countRow r.2.2
  let bytes := sumOf (fun x : Nat × List Byte => x.2.length) r.2.1
  let s2 := s1.onWork fun w => { w with attends := w.attends.filter (·.id != a.id), accums := w.accums.filter (·.att != a.id) }
  let failed := rows.countP fun x => x.status != some .ok
  let words := [packWord [(16, rows.length), (16, failed), (32, 0)], BitVec.ofNat 64 bytes] ++ rows.map Row.word
  let s3 := match s2.routeQp a.req.qp with
    | none => s2
    | some qp =>
      if a.body.oByRef then
        let svc := serviceOf (s2.qpRole qp) 0x31 9 false
        r.2.1.foldl (fun (s : State) (x : Nat × List Byte) => s.rdmaWrite qp svc (classOf svc 0x31) a.req.tenant (a.body.oAddr.toNat + outOffset a.body x.1) a.body.oKey.toNat x.2) s2
      else s2
  ((s3.complete a.req .ok words (if a.body.oByRef then [] else r.2.1.flatMap (fun (x : Nat × List Byte) => x.2))).meterBytes a.req.partition a.req.tenant bytes)

/-- An ATTEND that ends before its rows were dispatched: every row returns the status, `STALE_EPOCH` where its epoch has ended (R84). -/
def State.endedAttend (s : State) (m : Rx) (b : AttendBody) (st : Status) : State :=
  if !s.attendShape m b then s.answer (reqOf m 0x31) .malformed
  else s.completeAttend { id := 0, req := reqOf m 0x31, body := b, epoch := m.hdr.epoch.toNat, node := 0, queries := [], ready := true, next := b.rows.length
                          rows := b.rows.map fun r => { newRow r with status := some st } }

end Sys2Proof.Machine
end

