-- ==== Sys2Proof/Machine/Turns.lean ====
section
/-!
DEFINITION. The end of a turn: HANDOFF, RELEASE, RELEASE_SECURE, the drain, and freeing (R62, R77, R133, R241, R259 to R262, R269).
-/
namespace Sys2Proof.Machine

/-- Work of a sequence in flight, under any epoch: what a release waits for. -/
def State.busy (s : State) (h : Nat) : Bool :=
  s.work.appends.any (·.handle == h) || s.work.stageReqs.any (·.handle == h) || s.work.deliveries.any (·.handle == h)
    || s.mortise.jobs.any (·.handle == h)
    || s.work.attends.any fun a => a.rows.any fun r => r.body.handle.toNat == h && r.status.isNone

/-- Whether pending tokens are laid out as their count says (Tables 8-8, 8-9). -/
def pendingFits (m : Rx) (count : Nat) (ts : List W32) : Bool :=
  count ≤ 16 && ts.length == count && m.hdr.bodyLen.toNat == 16 + cdiv count 2 * 8

/-- The lease leaves its holder: generation advanced, appends and attends of the old holder refused from now on (R77, R260). -/
def State.startDrain (s : State) (h : Nat) (toDecode : Bool) (f : Turn → Turn) : State :=
  s.onSeq h fun q => { q with holder := none, leaseGen := (q.leaseGen + 1) % 65536, lease := .draining toDecode
                              turn := f { q.turn with waitUntil := s.us + s.rw 0x2101 0x0B q.part } }

/-- HANDOFF let in (R77, R259). -/
def State.runHandoff (s : State) (m : Rx) (b : HandoffBody) : State :=
  let h := m.hdr.handle.toNat
  let req := reqOf m 0x12
  match s.checkHandle m.hdr h with
  | some st => s.answer req st
  | none => match s.seq h with
    | none => s.answer req .notOwner
    | some q =>
      if !s.holds m.qp q || b.leaseGen.toNat ≠ q.leaseGen then s.answer req .notOwner
      else if q.ledgerLost then s.answer req .lost
      else if !pendingFits m b.pendCount.toNat b.pending then s.answer req .malformed
      else
        ((s.startDrain h true fun t =>
          { t with handoffReq := some req, pending := b.pending, classic := b.classic, target := if b.target = 0xFFFF then none else some b.target.toNat }).bump
          0x4006 5 q.part 1).meter q.part q.tenant 0x18 1

/-- RELEASE with action 0 let in (R260). -/
def State.runEndTurn (s : State) (m : Rx) (b : ReleaseBody) : State :=
  let h := m.hdr.handle.toNat
  let req := reqOf m 0x13
  match s.checkHandle m.hdr h with
  | some st => s.answer req st
  | none => match s.seq h with
    | none => s.answer req .notOwner
    | some q =>
      if ((s.nodeOf m.qp).map (·.role)) == some 2 then s.answer req .accessDenied
      else if !s.holds m.qp q || b.leaseGen.toNat ≠ q.leaseGen then s.answer req .notOwner
      else if !pendingFits m b.pendCount.toNat b.pending then s.answer req .malformed
      else s.startDrain h false fun t => { t with releaseReq := some req, pending := b.pending, target := none }

/-- Pads the rows of an open superblock that are not whole, and closes it (R241). -/
def State.sealSb (s : State) (b : Superblock) : State :=
  ((List.range (cdiv b.point (b.width - 1))).foldl (fun s row => match s.sb b.island b.num with
    | some x => if s.rowFull x row then s else s.padRow b.island b.num row
    | none => s) s).closeSb b.island b.num

/-- Marks every superblock whose filter matches a handle: an open one is padded and closed (R241). -/
def State.secureMark (s : State) (h : Nat) : List (Nat × Nat) × State :=
  let hit := s.flash.sbs.filter fun b => (b.st == .open_ || b.st == .closed || b.st == .draining) && b.matches_ h
  (hit.map fun b => (b.island, b.num), s.each hit fun s b =>
    (if b.st == .open_ then s.sealSb b else s).onSb b.island b.num fun x => { x with marked := true })

/-- A release in FREEING whose sequence has no work in flight is carried out; `RELEASE_SECURE` then waits for its erasures (R62, R241, R262) (log 89). -/
def State.finishFreeing (s : State) (h : Nat) : State :=
  match s.seq h with
  | none => s
  | some q =>
    if q.lease != .freeing || s.busy h then s
    else match q.turn.releaseReq with
      | none => s.finishRelease h
      | some r =>
        if r.opcode = 0x14 then
          let mk := s.secureMark h
          if mk.1.isEmpty then mk.2.finishRelease h
          else ((mk.2.onSeq h fun x => { x with turn := { x.turn with releaseReq := none } }).finishRelease h).onFlash fun f =>
            { f with secure := f.secure ++ [{ handle := h, req := r, marked := mk.1, startUs := s.us, sealedPos := q.sealedPos }] }
        else s.finishRelease h

/-- RELEASE with action 1, and RELEASE_SECURE, let in (R62, R168, R241, R260). A lease in CHOOSING, OFFERED or DRAINING draws `RETRY_LATER` (log 42). -/
def State.runFree (s : State) (m : Rx) (b : ReleaseBody) (op : Nat) : State :=
  let h := m.hdr.handle.toNat
  let req := reqOf m op
  match s.checkHandle m.hdr h with
  | some st => s.answer req st
  | none => match s.seq h with
    | none => s.answer req .notOwner
    | some q =>
      let front := ((s.nodeOf m.qp).map (·.role)) == some 2
      if (op = 0x14 && b.action != 1) || b.pendCount != 0 || !pendingFits m 0 b.pending then s.answer req .malformed
      else if q.st == .retained then s.complete req .ok [packWord [(23, q.sealedPos), (41, 0)]] []
      else if front && q.holder.isSome then s.answer req .notOwner
      else if !front && (!s.holds m.qp q || b.leaseGen.toNat ≠ q.leaseGen) then s.answer req .notOwner
      else match q.lease with
        | .freeing => s.answer req .notOwner
        | .choosing _ => s.answer req .retryLater
        | .offered .. => s.answer req .retryLater
        | .draining _ => s.answer req .retryLater
        | _ =>
          let s1 := if op = 0x14 then s.dropPrefix h 0 else s
          (s1.onSeq h fun x => { x with lease := .freeing, holder := none, turn := { x.turn with releaseReq := some req } }).finishFreeing h

/-! ### The drain (R77, R133) -/

/-- Whether rows of a sequence have been received and not yet dispatched (R110). -/
def State.rowsComing (s : State) (h : Nat) : Bool :=
  s.work.attends.any fun a => (a.rows.drop a.next).any fun r => r.body.handle.toNat == h && r.status.isNone

/-- Whether a drain may end: no append of the old holder is left, every row of it has its visible position (log 157), every wholly written position has sealed
or the mirror timeout has passed, and no tile reads what would be cut. -/
def State.drainDone (s : State) (q : Seq) : Bool :=
  !s.work.appends.any (·.handle == q.handle) && !s.rowsComing q.handle && (s.allVisible q ≤ q.sealedPos || s.due q.turn.waitUntil) && !s.readsPast q

/-- A named target that is not eligible counts as one that has refused (R259). -/
def State.checkTarget (s : State) (h : Nat) : State :=
  match s.seq h with
  | none => s
  | some q => match q.turn.target with
    | none => s
    | some t =>
      if ((s.node t).map fun nd => s.eligible q .decode nd).getD false then s
      else s.onSeq h fun x => { x with turn := { x.turn with refused := x.turn.refused ++ [t], target := none } }

/-- Answers a RELEASE of action 0 that waited for its drain. -/
def State.answerEndTurn (s : State) (h : Nat) : State :=
  match s.seq h with
  | none => s
  | some q => match q.turn.releaseReq with
    | none => s
    | some r => (s.complete r .ok [packWord [(23, q.sealedPos), (41, 0)]] []).onSeq h fun x => { x with turn := { x.turn with releaseReq := none } }

/-- What follows a drain: unsealed positions are cut and the lease goes to decode or to the device (R133, R259, R260, R262). A re-admitted sequence's report
goes out when its prefill has ended, and its decode is offered when a generation node held it (R269). -/
def State.endDrain (s : State) (h : Nat) (toDecode : Bool) : State :=
  let s1 := s.cut h
  match s1.seq h with
  | none => s1
  | some q =>
    let again := q.turn.oldHandle ≠ 0
    let decode := if again then q.turn.thenDecode else toDecode
    let s2 := if again then (s1.turnReport h .ok).onSeq h fun x => { x with turn := { x.turn with oldHandle := 0, thenDecode := false } } else s1
    if decode then ((s2.answerEndTurn h).checkTarget h).choose h .decode
    else if again then
      ((s2.answerEndTurn h).answerHandoff h none .ok).onSeq h fun x => { x with lease := .idle, turn := { x.turn with pending := [], target := none, refused := [] } }
    else (s2.endTurn h .ok).answerEndTurn h

end Sys2Proof.Machine
end

