-- ==== Sys2Proof/Machine/Prefixes.lean ====
section
/-!
DEFINITION. Publication: joining, inserting and raising published entries, records, and their withdrawal (R173, R174, R176).
-/
namespace Sys2Proof.Machine

/-- Sequence that physically holds block `i` of a sequence, following its links (R60, R173). -/
def State.ownerAt (s : State) : Nat → Nat → Nat → Nat
  | 0, h, _ => h
  | n + 1, h, i => match s.seq h with
    | none => h
    | some q => if q.link ≠ 0 && 64 * i < q.linkLen then s.ownerAt n q.link i else h

/-- Public search key of a block of a sequence. -/
def Seq.publicKey (q : Seq) (fp : Nat) : SearchKey :=
  { fp := fp, variant := q.variant, tenant := q.tenant, part := q.part, published := true, fold := headFold q.headMask }

/-- Published entry for a block in the array or the second level. -/
def State.publishedEntry (s : State) (k : SearchKey) : Option Entry :=
  match bestMatch (s.matching (s.groupBanks k.fp s.mortise.mode) k) with
  | some x => some x.2.2
  | none => (s.secondSlot k).map (·.entry)

/-- Prefix node of a published entry that stands under R162: its holder is there, of the sequence's geometry. -/
def State.standingNode (s : State) (q : Seq) (e : Entry) : Option PrefixNode :=
  (s.prefixNode e.part e.payload).filter fun n => match s.seq n.holder with
    | none => false
    | some f => f.st != .ledgerLost && f.kvHeads == q.kvHeads && f.headMask == q.headMask && f.posBase == 0 && f.variant == q.variant

/-- Whether the ledger of a node's holder bears the blocks up to `i` out (R161). -/
def State.bornOut (s : State) (q : Seq) (i : Nat) (n : PrefixNode) : Bool :=
  match s.seq n.holder with
  | none => false
  | some f => f.ledger.take (64 * (i + 1)) == q.ledger.take (64 * (i + 1))

/-- Prefix node of a published entry that a search for block `i` may use (R161, R162, R173). -/
def State.verifiedNode (s : State) (q : Seq) (i : Nat) (e : Entry) : Option PrefixNode := (s.standingNode q e).filter fun n => s.bornOut q i n

/-- Whether a tenant holds a record for a fingerprint. -/
def State.hasRecord (s : State) (p t fp : Nat) : Bool := s.mortise.records.any fun r => r.part == p && r.tenant == t && r.fp == fp

/-- Class-3 published entries of a partition. -/
def State.heldEntries (s : State) (p : Nat) : Nat := s.mortise.nodes.countP fun n => n.part == p && n.published && n.cls == 3

/-- What a search's answer is worth to a PUBLISH: the entry and its node when verified. A stale entry is counted and deleted at the device row's class 7, a
mismatching one counted and deleted at the publisher's class; both are misses (R161, R162, R169). -/
def State.weighEntry (s : State) (q : Seq) (i : Nat) (e : Option Entry) : Option (Entry × PrefixNode) × State :=
  match e with
  | none => (none, s)
  | some e => match s.standingNode q e with
    | none => (none, (s.deleteEntry e.part e.payload 64 7).bump 0x2403 0x0C q.part 1)
    | some n =>
      if s.bornOut q i n then (some (e, n), s) else (none, (s.deleteEntry e.part e.payload q.part 6).bump 0x2403 6 q.part 1)

/-- Search of the public chain for a block: the array, then on a miss the second level (R155, R160, R173). -/
def State.publicSearch (s : State) (q : Seq) (i fp : Nat) : Option (Entry × PrefixNode) × State :=
  let a := s.arrayAnswer (q.publicKey fp) q.tenant
  let b := a.2.weighEntry q i a.1
  if b.1.isSome || s.buckets q.part = 0 then b
  else
    let c := b.2.secondAnswer (q.publicKey fp)
    c.2.weighEntry q i c.1

/-- A published entry for block `i` of a sequence, of a class. -/
def Seq.publicEntry (q : Seq) (cls i fp : Nat) : Entry :=
  { stamp := 0, fp := fp, variant := q.variant, tenant := 0, part := q.part, published := true, fold := headFold q.headMask
    priority := prefixPriority cls i, payload := 0, moving := false }

/-- Joins the entry a verified search found, raised to class 3 as one published insertion when the PUBLISH names that class (R173). -/
def State.joinEntry (s : State) (q : Seq) (cls i fp : Nat) (e : Entry) (n : PrefixNode) : State :=
  let joined := if s.hasRecord q.part q.tenant fp then n.publishers else n.publishers + 1
  if cls = 3 && n.cls = 2 then (s.removeEntry e.part e.payload).createEntry (q.publicEntry 3 i fp) i 3 n.holder joined
  else s.onNodeRec e.part e.payload fun x => { x with publishers := joined }

/-- Publishes one block: joins or raises the entry a verified search finds, else inserts one; then the tenant's record (R173). -/
def State.publishBlock (s : State) (q : Seq) (cls i fp : Nat) : State :=
  let r := (s.meterBursts q.part q.tenant 4).publicSearch q i fp
  let s1 := match r.1 with
    | none => r.2.createEntry (q.publicEntry cls i fp) i cls (r.2.ownerAt 6 q.handle i) 1
    | some x => r.2.joinEntry q cls i fp x.1 x.2
  if s1.hasRecord q.part q.tenant fp then s1
  else s1.onMortise fun m => { m with records := m.records ++ [{ part := q.part, tenant := q.tenant, fp := fp }] }

/-- Completion of PUBLISH and UNPUBLISH (Table 5-10). -/
def positionWord (n : Nat) : List W64 := [packWord [(23, n), (41, 0)]]

/-- Records the PUBLISHes under way in a partition have still to write, tenant and fingerprint. -/
def State.comingRecords (s : State) (p : Nat) : List (Nat × Nat) :=
  s.mortise.jobs.flatMap fun j => match s.seq j.handle with
    | none => []
    | some q => if q.part = p then ((j.fps.drop j.next).filter fun f => !s.hasRecord p q.tenant f).map fun f => (q.tenant, f) else []

/-- Blocks of a sequence, with their numbers, that a PUBLISH of class 3 would add to the class-3 entries. -/
def State.raises (s : State) (q : Seq) (fps : List Nat) (first : Nat) : List Nat :=
  ((fps.zip (List.range fps.length)).filter fun x => match (s.publishedEntry (q.publicKey x.1)).bind fun e => s.verifiedNode q (first + x.2) e with
    | some n => n.cls != 3
    | none => true).map (·.1)

/-- Fingerprints the class-3 PUBLISHes under way in a partition have still to add to its class-3 entries. -/
def State.comingHeld (s : State) (p : Nat) : List Nat :=
  s.mortise.jobs.flatMap fun j => match s.seq j.handle with
    | none => []
    | some q => if q.part = p && j.cls = 3 then s.raises q (j.fps.drop j.next) j.next else []

/-- Whether the partition's publication records and class-3 entries allow a PUBLISH of these fingerprints, beside those under way (R173, R176, R316). -/
def State.publishFits (s : State) (q : Seq) (cls : Nat) (fps : List Nat) : Bool :=
  let new := (fps.filter fun f => !s.hasRecord q.part q.tenant f).map fun f => (q.tenant, f)
  s.mortise.records.countP (·.part == q.part) + (s.comingRecords q.part ++ new).eraseDups.length ≤ s.act 0x2402 9 q.part
    && (cls != 3 || s.heldEntries q.part + (s.comingHeld q.part ++ s.raises q fps 0).eraseDups.length ≤ s.act 0x2402 7 q.part)

/-- What publishing a block costs: five search slots, and four bursts at the channel of the node it may write, to the publisher's class 6 (R169). -/
def State.publishCosts (s : State) (p : Nat) : List Cost :=
  [searchCost p 6 5, channelCost (s.tableChannel p (s.freeNode p)) p 6 4]

/-- A PUBLISH under way ends. -/
def State.endJob (s : State) (j : PubJob) (st : Status) (ws : List W64) : State :=
  (s.onMortise fun m => { m with jobs := m.jobs.filter (·.id != j.id) }).complete j.req st ws []

/-- Carries a PUBLISH on, block by block in order, as far as its charges go; it completes with its last block (R36, R173, R176). One whose array island falls out
ends with `RETRY_LATER` (log 43). -/
def State.turnJob (s : State) (id : Nat) : Nat → State
  | 0 => s
  | n + 1 => match s.mortise.jobs.find? (·.id == id) with
    | none => s
    | some j => match s.seq j.handle with
      | none => s.endJob j .notOwner []
      | some q =>
        if !s.mortiseUp then s.endJob j .retryLater []
        else match j.fps[j.next]? with
          | none => s.endJob j .ok (positionWord (64 * j.fps.length))
          | some fp => match s.chargeAll (mergeCosts (s.publishCosts q.part)) with
            | (_, some x) => s.markWait x
            | (s1, none) =>
              ((s1.publishBlock q j.cls j.next fp).onMortise fun m =>
                { m with jobs := mapIf (·.id == id) (fun x => { x with next := x.next + 1 }) m.jobs }).turnJob id n

/-- Carries on with every PUBLISH under way, oldest first. -/
def State.pumpJobs (s : State) : State := s.each s.mortise.jobs fun s j => s.turnJob j.id (j.fps.length + 2)

/-- PUBLISH let in (R173, R176); while the array island is fenced or in reset it draws `RETRY_LATER` (log 43). -/
def State.runPublish (s : State) (m : Rx) (b : PublishBody) : State :=
  let h := m.hdr.handle.toNat
  let req := reqOf m 0x21
  let l := b.length.toNat
  match s.checkHandle m.hdr h with
  | some st => s.answer req st
  | none => match s.seq h with
    | none => s.answer req .notOwner
    | some q =>
      if q.ledgerLost then s.answer req .lost
      else if m.hdr.bodyLen != 8 || l % 64 != 0 || l == 0 || q.sealedPos < l || b.cls.toNat < 2 || q.posBase != 0 then s.answer req .malformed
      else match s.publicSalt q.part with
        | none => s.answer req .accessDenied
        | some salt =>
          let fps := chainFrom salt q.variant q.ledger (l / 64) 0 0
          if !s.publishFits q b.cls.toNat fps then s.answer req .capacity
          else if !s.mortiseUp then s.answer req .retryLater
          else
            let f := s.fresh
            (f.2.onMortise fun m => { m with jobs := m.jobs ++ [{ id := f.1, req := req, handle := h, cls := b.cls.toNat, fps := fps, next := 0 }] }).turnJob
              f.1 (fps.length + 1)

/-- Withdraws one block's record (R174). -/
def State.unpublishBlock (s : State) (q : Seq) (fp : Nat) : State :=
  if !s.hasRecord q.part q.tenant fp then s
  else
    let s1 := s.onMortise fun m => { m with records := m.records.filter fun r => !(r.part == q.part && r.tenant == q.tenant && r.fp == fp) }
    match s1.publishedEntry (q.publicKey fp) with
    | none => s1
    | some e => match s1.prefixNode e.part e.payload with
      | none => s1
      | some n =>
        if n.publishers ≤ 1 then s1.deleteEntry e.part e.payload q.part 6
        else s1.onNodeRec e.part e.payload fun x => { x with publishers := x.publishers - 1 }

/-- UNPUBLISH let in: the named sequence's public chain from a position on (R174, R176). -/
def State.runUnpublish (s : State) (m : Rx) (first : Nat) : State :=
  let h := m.hdr.handle.toNat
  let req := reqOf m 0x22
  match s.checkHandle m.hdr h with
  | some st => s.answer req st
  | none => match s.seq h with
    | none => s.answer req .notOwner
    | some q =>
      if q.ledgerLost then s.answer req .lost
      else if m.hdr.bodyLen != 8 || first % 64 != 0 || q.posBase != 0 then s.answer req .malformed
      else match s.publicSalt q.part with
        | none => s.complete req .ok (positionWord first) []
        | some salt =>
          let fps := (chainFrom salt q.variant q.ledger (q.sealedPos / 64) 0 0).drop (first / 64)
          (s.each fps fun s f => s.unpublishBlock q f).complete req .ok (positionWord first) []

end Sys2Proof.Machine
end

