-- ==== Sys2Proof/Machine/Summary.lean ====
section
/-!
DEFINITION. The device-wide conditions that software and the board see: the safe power level, throttling, the guarantee conditions, the fault summary, and
the in-band interrupts they raise (R356, R379, R386, R399).
-/
namespace Sys2Proof.Machine

/-! ### The safe power level (R399) -/

/-- Causes of the safe power level, 0x7810.03: input, regulator input, rail. -/
def State.safeCauses (s : State) : Nat := bit s.power.throttleN + 2 * bit s.power.vrFault + 4 * bit (s.power.railTrip || !s.power.avsFault.isEmpty)

def State.safeLevel (s : State) : Bool := s.safeCauses ≠ 0

/-- Whether any device-wide throttle is active (R333). -/
def State.throttled (s : State) : Bool := s.power.thermal || s.safeLevel || s.islands.any fun i => islandKind i.num == 3 && i.st != .absent && i.throttle < 65535

/-- Notes for the congestion level that a device-wide throttle was active in this interval. -/
def State.noteThrottle (s : State) : State := if s.throttled then s.onPower fun p => { p with throttledSince := true } else s

/-! ### Guarantee conditions and fault summary (R379, 0x7000.01, 0x7040.01) -/

/-- Bit per condition of R379 that does not hold, in its order. -/
def State.unmet (s : State) : Nat :=
  let temp := fun (n : Nat) => s.power.sensors.getD n 250
  let hot := (List.range 2).any (fun n => 1050 < temp n) || (List.range 12).any fun n => 950 < temp (n + 2)
  bit (hot || s.power.railTrip || !s.power.avsFault.isEmpty)
    + 2 * bit (s.act 0x2013 7 1 == 0 || s.act 0x2013 7 3 == 0)
    + 4 * bit (24 < s.rw 0x7060 1 0)
    + 8 * bit (168 < s.rw 0x3100 0x0F 0)
    + 16 * bit (s.seqs.any fun q => q.st == .live && !s.namesPartner q.part)
    + 32 * bit (s.seqs.any (·.unmirrored))

/-- 0x7000.01. -/
def State.summary (s : State) : Nat :=
  2 ^ 31 * bit (s.dev.phase == .fatal) + 2 ^ 30 * bit s.safeLevel + 2 ^ 29 * bit (s.unmet != 0) + 2 ^ 28 * bit (!s.faults.fences.isEmpty)
    + 2 ^ 27 * bit s.faults.bootFault + min 65535 s.faults.severeCount

/-! ### In-band interrupts (R356) -/

def State.interrupt (s : State) (byte : Nat) : State := s.onMgmt fun m => { m with out := m.out ++ [.i3cInterrupt byte] }

/-- Takes what the interrupts last told as told. -/
def State.seeNow (s : State) : State :=
  s.onMgmt fun m => { m with seenSummary := s.summary, seenThrottled := s.throttled }

/-- Raises the in-band interrupts for what has changed since they last told, while they are enabled. -/
def State.alert (s : State) : State :=
  if s.rw 0x1220 4 0 ≠ 1 then s
  else
    let s1 := if s.summary = s.mgmt.seenSummary then s else s.interrupt 1
    let s2 := if s.throttled == s.mgmt.seenThrottled then s1 else s1.interrupt 2
    if s2.mgmt.out.length = s.mgmt.out.length then s else s2.seeNow

end Sys2Proof.Machine
end

