-- ==== Sys2Proof/Machine/Settle.lean ====
section
/-!
DEFINITION. What follows by itself once a command has had its effect: queued requests of a sequence that has left its older epoch, releases without
work in flight, STAGEs whose stagings have ended, appends whose turn has come, deferred cuts, and home clusters (R62, R121, R131, R142, R249, R397).
-/
namespace Sys2Proof.Machine

/-- Message behind a request that queues at its sequence (R249). -/
def queuedRx (i : Instr) : Option Rx :=
  match i with
  | .handoff m _ => some m
  | .releaseEndTurn m _ => some m
  | .releaseFree m _ => some m
  | .releaseSecure m _ => some m
  | .publish m _ => some m
  | .unpublish m _ => some m
  | .append m _ => some m
  | .refreshAppend m _ => some m
  | .attend m _ => some m
  | .stage m _ => some m
  | .stageAndPin m _ => some m
  | .clearPinned m _ => some m
  | .deliver m _ => some m
  | _ => none

/-- Opcode of a request that queues at its sequence. -/
def queuedOp (i : Instr) : Nat :=
  match i with
  | .handoff .. => 0x12
  | .releaseEndTurn .. => 0x13
  | .releaseFree .. => 0x13
  | .releaseSecure .. => 0x14
  | .publish .. => 0x21
  | .unpublish .. => 0x22
  | .append .. => 0x30
  | .refreshAppend .. => 0x30
  | .attend .. => 0x31
  | .deliver .. => 0x33
  | _ => 0x32

/-- Ends a queued request with a status: an ATTEND row by row, an APPEND with its words (R84, R123, R249). -/
def State.endQueued (s : State) (i : Instr) (st : Status) : State :=
  match i with
  | .attend m b => s.endedAttend m b st
  | .append m _ => s.rejectAppend m st
  | .refreshAppend m _ => s.rejectAppend m st
  | _ => match queuedRx i with
    | some m => s.answer (reqOf m (queuedOp i)) st
    | none => s

/-- Runs a request that waited for its sequence to leave an older epoch (R249). An ATTEND that another of its sequences keeps waiting queues there. -/
def State.runQueued (s : State) (h : Nat) (i : Instr) : State :=
  if !((queuedRx i).map fun m => s.epochLive m.hdr.epoch.toNat).getD true then s.endQueued i .staleEpoch
  else match i with
  | .handoff m b => s.runHandoff m b
  | .releaseEndTurn m b => s.runEndTurn m b
  | .releaseFree m b => s.runFree m b 0x13
  | .releaseSecure m b => s.runFree m b 0x14
  | .publish m b => s.runPublish m b
  | .unpublish m f => s.runUnpublish m f.toNat
  | .append m b => s.runAppend m b false i
  | .refreshAppend m b => s.runAppend m b true i
  | .attend m b => s.enterAttend m b (some h) i fun s => s.runAttend m b i
  | .stage m b => s.runStage m b 0
  | .stageAndPin m b => s.runStage m b 1
  | .clearPinned m b => s.runStage m b 2
  | .deliver m b => s.runDeliver m b
  | _ => s

/-- Runs a sequence's queued requests in order, now that it has left its older epoch. -/
def State.drainQueue (s : State) (h : Nat) : Nat → State
  | 0 => s
  | n + 1 =>
    match s.seq h with
    | none => s
    | some q => match q.epochQueue with
      | [] => s
      | i :: rest =>
        if !s.ready q then s
        else ((s.onSeq h fun x => { x with epoch := s.epochs.active, epochQueue := rest }).runQueued h i).drainQueue h n

/-- Whether a truncated sequence still holds what its deferred cut discards (R131). -/
def Seq.uncut (q : Seq) : Bool :=
  q.truncated && (q.sealedPos < q.ledger.length || q.frontiers.any (fun x => q.sealedPos < x.2) || q.pages.any fun p => !p.lost && q.sealedPos < q.pagePos p.index + p.valid)

/-- What follows for one sequence. -/
def State.settleSeq (s : State) (h : Nat) : State :=
  let s1 := match s.seq h with
    | some q => s.drainQueue h q.epochQueue.length
    | none => s
  let s2 := s1.finishFreeing h
  let s3 := match s2.seq h with
    | some q => if q.uncut && !s2.cutWaits q then s2.cut h else if q.fitted then s2 else s2.fitFixed h
    | none => s2
  let s4 := (s3.pumpAppends h).acceptAll h
  match s4.seq h with
  | some q => if q.home.isSome && !s4.busy h then s4.onSeq h fun x => { x with home := none } else s4
  | none => s4

/-- Waiting stagings for whose pages there are frames now (R136, R137). -/
def State.placeableStagings (s : State) : List Staging :=
  s.waitingStagings.filter fun g => match s.page g.page with
    | some p => (if p.packed then cdiv p.imageLen 16384 else fmtFrames p.fmt) ≤ s.openFrames (handlePart g.page.handle)
    | none => true

/-- Whether a cluster holds a tile or an accepted append (R396). -/
def State.clusterBusy (s : State) (c : Nat) : Bool :=
  s.work.tiles.any (fun t => t.core / 8 == c) || s.work.appends.any fun a => ((s.seq a.handle).bind s.homeCluster) == some c

/-- Notes since when each cluster has been idle. -/
def State.noteIdle (s : State) : State :=
  s.onPower fun p => { p with idleSince := p.idleSince.mapIdx fun c t => if s.clusterBusy c then none else some (t.getD s.us) }

/-- Pages of a pool's closed superblocks that are no longer valid. -/
def State.invalidPages (s : State) (i : Nat) (tlc : Bool) : Nat :=
  sumOf (fun b : Superblock => s.sbSlots b - (s.validIn i b.num).length) (s.flash.sbs.filter fun b => b.island == i && b.tlc == tlc && b.st == .closed)

/-- Whether a pool lacks the room that makes its island read-only (R239). -/
def State.poolFull (s : State) (i : Nat) (tlc : Bool) : Bool :=
  s.sbsFree i tlc ≤ s.watermark tlc 2 && s.invalidPages i tlc < s.flash.pagesPerBlock * 15 * (if tlc then 3 else 1)

/-- Flash islands enter and leave read-only (R239). A pool without a superblock, the TLC pool at archive fraction 0, is none. -/
def State.noteReadOnly (s : State) : State :=
  s.each (List.range (flashIslandCount s.dev.part)) fun s i =>
    let pools := [false, true].filter fun t => !t || 0 < s.tlcTotal i
    s.onFisland i fun f =>
      if f.readOnly then { f with readOnly := !(pools.all fun t => s.watermark t 0 ≤ s.sbsFree i t) }
      else { f with readOnly := pools.any fun t => s.poolFull i t }

/-- A key erase whose tenant holds no live sequence any longer: its prefix entries, publication records, key and cache entry go, and the flash copies of what
is only retained are unreadable (R325). -/
def State.eraseKey (s : State) (k : TenantKey) : State :=
  let left := s.seqs.filter fun q => q.part == k.part && q.tenant == k.tenant
  let s1 := s.each (left.flatMap fun q => (q.pages.filter fun p => p.tier == .flash && !p.lost).map fun p => keyOf q p) fun s x => s.losePage x 3 srcCrypto
  let s2 := s1.each (s1.mortise.nodes.filter fun n => n.part == k.part && handleTenant n.holder == k.tenant) fun s n => s.deleteEntry n.part n.index n.part 1
  (s2.onMortise fun m => { m with records := m.records.filter fun r => !(r.part == k.part && r.tenant == k.tenant) }).onSec fun x => { x with
    keys := x.keys.filter fun y => !(y.part == k.part && y.tenant == k.tenant), cache := x.cache.filter (· != (k.part, k.tenant)) }

/-- Key erases whose sequences have all been freed. -/
def State.finishErases (s : State) : State :=
  s.each (s.sec.keys.filter fun k => k.erasing && !s.seqs.any fun q => q.part == k.part && q.tenant == k.tenant && q.st != .retained) fun s k => s.eraseKey k

/-- What follows every command while the device serves. -/
def State.settleWork (s : State) : State :=
  if !s.serving then s
  else
    let s1 := s.endStages
    let s2 := s1.each (s1.seqs.map (·.handle)) fun s h => s.settleSeq h
    let s3 := ((s2.pumpLookups.pumpJobs.pumpInsertions.each s2.placeableStagings fun s g => s.placeStaging g.id).pumpStagings).pumpReads.pumpPrograms.pumpDies
    s3.pumpAttends.finishErases.noteReadOnly.noteIdle

/-- What follows every command: the work that goes on by itself, and the interrupts it raises. -/
def State.settle (s : State) : State := s.settleWork.alert

/-- What a command answers. -/
abbrev Result := Host.Outcome State Fault Refusal

/-- Runs an event of the data path, then what follows it; a device that does not serve meets none (R372, R404, R406, log 44). -/
def State.event (s : State) (run : State → State) : Result := .next (if s.serving then (run s).settle else s)

/-- Whether an outstanding request is a PLACE, a ROLE_ADVICE, a LEDGER_SYNC, a RELAY, a PEER_PROBE, or a mailbox message. -/
def AskKind.isPlace : AskKind → Bool
  | .place _ => true
  | _ => false
def AskKind.isAdvice : AskKind → Bool
  | .advice _ => true
  | _ => false
def AskKind.isSync : AskKind → Bool
  | .sync .. => true
  | _ => false
def AskKind.isRelay : AskKind → Bool
  | .relay _ => true
  | _ => false
def AskKind.isProbe : AskKind → Bool
  | .probe _ => true
  | _ => false
def AskKind.isMailbox : AskKind → Bool
  | .mailbox _ _ => true
  | _ => false

/-- The outstanding request of one kind that a completion answers: the node's, by tag (R247). -/
def State.askOf (s : State) (q : Qp) (r : Reply) (mine : AskKind → Bool) : Option Ask :=
  s.broker.asks.find? fun a => a.tag == r.tag.toNat && q.node == some a.node && mine a.kind

/-- An outstanding request ends. -/
def State.dropAsk (s : State) (a : Ask) : State := s.onBroker fun b => { b with asks := b.asks.filter (· != a) }

/-- A completion received for a request of the device: the request it names by tag, on a queue pair of the node asked, ends (R247). -/
def State.reply (s : State) (r : Reply) (mine : AskKind → Bool) (run : Ask → State → State) : State :=
  match s.qp r.qp with
  | none => s
  | some q =>
    if !s.serving || !q.connected then s
    else
      let s1 := s.heard q
      match s1.askOf q r mine with
      | none => s1
      | some a => (run a (s1.dropAsk a)).settle

/-- A request received, let in under R249, run, and settled. -/
def State.request (s : State) (m : Rx) (op refBytes : Nat) (i : Instr) (run : State → State) : State :=
  (s.receive m op .checked refBytes false fun s => s.enter m m.hdr.handle.toNat i run).settle

end Sys2Proof.Machine
end

