-- ==== Sys2Proof/Machine/AppendCmds.lean ====
section
/-!
DEFINITION. The commands of chapter 4: APPEND, STAGE, DELIVER, PROGRESS, and the events of their progress (R120 to R147).
-/
namespace Sys2Proof.Machine

/-! ### APPEND (R116 to R132) -/

/-- Bytes an APPEND brings by reference (R296). -/
def appendRefBytes (b : AppendBody) : Nat := if b.byRef then b.payloadLen.toNat else 0

/-- APPEND (R120). -/
def execAppend (m : Rx) (b : AppendBody) (s : State) : Result :=
  .next (s.request m 0x30 (appendRefBytes b) (.append m b) fun s => s.runAppend m b false (.append m b))

/-- A refresh APPEND (R125). -/
def execRefreshAppend (m : Rx) (b : AppendBody) (s : State) : Result :=
  .next (s.request m 0x30 (appendRefBytes b) (.refreshAppend m b) fun s => s.runAppend m b true (.refreshAppend m b))

/-- The last element of an append is written (R122 to R125). -/
def execAppendCompletion (id : Nat) (s : State) : Result :=
  s.event fun s => match s.append id with
    | none => s
    | some a => match s.seq a.handle with
      | none => s
      | some q => if a.phase = .scattering then (s.onAppend id fun x => { x with done := true }).tryComplete a q else s

/-- A frame has come free while an append holds: steps 1 and 2 again, or steps 4 to 6 when the hold limit has passed (R126). -/
def execFrameFreedForAppend (id : Nat) (s : State) : Result :=
  s.event fun s => match s.append id with
    | none => s
    | some a => if a.phase = .holding then s.tryAlloc id else s

/-- The append hold limit has passed: steps 4 to 6 for an append that holds; one that still waits for a growth, or for frames to stage a page into, ends as
step 6 does (R58, R122, R126, R129 to R131; log 152). -/
def State.expireHold (s : State) (a : Append) : State :=
  match a.phase with
  | .holding => s.forceAlloc a.id
  | .growth => s.noFrame a
  | .staging g => if (s.staging g).any (·.place.isNone) then s.noFrame a else s
  | _ => s

/-- The append hold limit passes (R126). -/
def execAppendHoldExpiry (id : Nat) (s : State) : Result :=
  s.event fun s => match s.append id with
    | none => s
    | some a => if s.due (s.holdUntil a) then s.expireHold a else s

/-! ### STAGE (R136 to R142) -/

/-- STAGE, action 0 (R141). -/
def execStage (m : Rx) (b : StageBody) (s : State) : Result := .next (s.request m 0x32 0 (.stage m b) fun s => s.runStage m b 0)

/-- STAGE, action 1: stage and pin (R74, R142). -/
def execStageAndPin (m : Rx) (b : StageBody) (s : State) : Result := .next (s.request m 0x32 0 (.stageAndPin m b) fun s => s.runStage m b 1)

/-- STAGE, action 2: clear the pinned bit (R141). -/
def execClearPinned (m : Rx) (b : StageBody) (s : State) : Result := .next (s.request m 0x32 0 (.clearPinned m b) fun s => s.runStage m b 2)

/-- A staging whose page has been read and verified is written to its frames (R136). -/
def execStagingDone (id : Nat) (s : State) : Result :=
  s.event fun s => match s.staging id with
    | none => s
    | some g => if g.verified && g.place.isSome then (s.onStaging id fun x => { x with due := true }).finishStaging g else s

/-- Releases the tiles that a staging holds: their rows return `RETRY_LATER` and the staging goes on (R138). -/
def State.releaseHeld (s : State) (id : Nat) : State :=
  let held := s.work.tiles.filter fun t => t.st == .staged id || t.st == .relayed id
  s.each held fun s t => match s.rowOf t with
    | some (_, r) => if r.status.isNone then (s.endRow t.att t.row .retryLater r.limit).bump 0x2302 0x0F (handlePart t.page.handle) 1 else s
    | none => s

/-- Epoch of the request whose tiles a staging holds, the active one without any (R148). -/
def State.heldEpoch (s : State) (id : Nat) : Nat :=
  (((s.work.tiles.find? fun t => t.st == .staged id || t.st == .relayed id).bind fun t => s.work.attends.find? (·.id == t.att)).map (·.epoch)).getD s.epochs.active

/-- The stage timeout of a staging that holds tiles, of a STAGE, or of a DELIVER's staging (R138, R142, R147) (log 101). -/
def execStageTimeout (id : Nat) (s : State) : Result :=
  s.event fun s =>
    let limit := fun (e p : Nat) => 1000 * s.actAt e 0x2301 7 p
    match s.staging id, s.stageReq id, s.delivery id with
    | some g, _, _ => if s.due (g.startUs + limit (s.heldEpoch id) (handlePart g.page.handle)) then s.releaseHeld id else s
    | none, some r, _ => if s.due (r.startUs + limit r.epoch r.req.partition) then (s.endStage r false true).bump 0x2302 0x0F r.req.partition 1 else s
    | none, none, some d => match d.stageSince with
      | some t => if s.due (t + limit d.epoch d.req.partition) then (s.endDelivery d .retryLater 0).bump 0x2302 0x0F d.req.partition 1 else s
      | none => s
    | none, none, none => s

/-! ### DELIVER and PROGRESS (R143 to R147) -/

/-- DELIVER (R143). -/
def execDeliver (m : Rx) (b : DeliverBody) (s : State) : Result := .next (s.request m 0x33 0 (.deliver m b) fun s => s.runDeliver m b)

/-- The next layer of a delivery may be written; one under an epoch that is no longer live ends instead (R134, R145, R147). -/
def execDeliverLayerWrite (id : Nat) (s : State) : Result :=
  s.event fun s => match s.delivery id with
    | none => s
    | some d =>
      if !s.epochLive d.epoch then s.endDelivery d .staleEpoch 0
      else if d.body.layerCount.toNat < d.layer || d.blocked then s
      else s.writeLayer d

/-- PROGRESS of the sender's own DELIVER (R146). -/
def State.runProgress (s : State) (m : Rx) (tag count : Nat) : State :=
  let mine := s.work.deliveries.find? fun d => d.req.tag == tag && ((s.nodeOf m.qp).map (·.num)) == some d.node
  match mine with
  | none => s.answer (reqOf m 0x34) .malformed
  | some d =>
    if m.hdr.bodyLen != 8 then s.answer (reqOf m 0x34) .malformed
    else (s.onDelivery d.id fun x => { x with consumed := max x.consumed count }).deliverWait d.id

/-- PROGRESS (R146); a stale one is discarded (R134). -/
def execProgress (m : Rx) (tag : W32) (count : W16) (s : State) : Result :=
  .next (s.receive m 0x34 .checked 0 true fun s => s.runProgress m tag.toNat count.toNat).settle

/-- A wait for PROGRESS exceeds the delivery idle limit (R147). -/
def execDeliveryIdleTimeout (id : Nat) (s : State) : Result :=
  s.event fun s => match s.delivery id with
    | none => s
    | some d => match d.waitSince with
      | some t => if d.blocked && s.due (t + 1000 * s.actAt d.epoch 0x2301 0x0B d.req.partition) then s.endDelivery d .retryLater 0 else s
      | none => s

/-- The last write of the last layer is done: the delivery completes (R147). -/
def execDeliverCompletion (id : Nat) (s : State) : Result :=
  s.event fun s => match s.delivery id with
    | none => s
    | some d => if d.body.layerCount.toNat < d.layer then s.endDelivery d .ok 0 else s

end Sys2Proof.Machine
end

