-- ==== Sys2Proof/Machine/AttendCmds.lean ====
section
/-!
DEFINITION. The commands of chapter 3: ATTEND, and the progress of its tiles and partials (R85, R86, R96, R101, R102, R107, R112).
-/
namespace Sys2Proof.Machine

/-- ATTEND (R80 to R85). -/
def execAttend (m : Rx) (b : AttendBody) (s : State) : Result :=
  .next (s.receive m 0x31 .checked (if b.qByRef then b.qLen.toNat else 0) false fun s =>
    s.enterAttend m b none (.attend m b) fun s => s.runAttend m b (.attend m b)).settle

/-- A tile at the head of its core's queue is issued (R66, R112). -/
def execTileIssue (tile : Nat) (s : State) : Result :=
  s.event fun s => match s.tile tile with
    | none => s
    | some t => if t.st = .ready then s.issueTile t else s

/-- The fuse wait of a held tile ends (R107). -/
def execFuseWaitExpiry (tile : Nat) (s : State) : Result :=
  s.event fun s => match s.tile tile with
    | none => s
    | some t => if t.st = .fuseWait then (s.onTile tile fun x => { x with st := .ready }).bump 0x2202 8 (t.core / 8) 1 else s

/-- Key and value elements of one position of a page. -/
def positionVals (fmt : Nat) (bs : List Byte) (j : Nat) : List Val × List Val :=
  ((List.range 128).map fun c => storedVal fmt bs (j * 128 + c), (List.range 128).map fun c => storedVal fmt bs (8192 + j * 128 + c))

/-- An inline key and value rounded to a sequence's append format (R92, R119). -/
def roundedPosition (fmt : Nat) (kv : List Val) : List Val × List Val :=
  let mem := (positionWrites fmt 0 (kv.take 128) (kv.drop 128)).foldl (fun (m : List Host.Cell) (w : Nat × List Byte) => memWrites m w.1 w.2) []
  positionVals fmt (memReads mem 0 (rawBytes fmt)) 0

/-- Tiles of a page's group go back to the scoreboard (R96). -/
def State.requeueGroup (s : State) (g : Nat) : State :=
  match s.work.groups.find? (·.id == g) with
  | none => s
  | some x =>
    (s.unpin x.page).onWork fun w => { w with
      groups := w.groups.filter (·.id != g)
      tiles := w.tiles.map fun t => if t.st = .issued g then { t with st := .ready } else t }

/-- A page whose fetch failed its check: a clean one is read back from flash into a new frame, charged as the staging a row starts, and its tiles fetch anew; a
dirty one is dropped with reason 1, and the tiles that read it lose their rows (R75, R91, R96). -/
def State.fetchFailed (s : State) (t : Tile) (p : Page) : State :=
  let ch := frameChannel (granuleFrame p.frame)
  let part := handlePart t.page.handle
  let s1 := s.report (srcChannel ch) 0x04 none (some part) 0 (p.frame * 1024)
  let g := match t.st with | .issued g => g | _ => 0
  match (if p.dirty then none else p.copy) with
  | some lpn =>
    ((((s1.bump 0x2202 0x0F (t.core / 8) 1).requeueGroup g).onPage t.page fun x => { x with pins := 255 }).startRead lpn p.flashPages part 2 (.restore t.page))
  | none =>
    let pos := match s.seq t.page.handle with | some o => o.pagePos p.index | none => 0
    let mates := s1.work.tiles.filter fun u => u.page == t.page && u.st == t.st
    (s1.losePage t.page 1 (srcChannel ch)).each mates fun s u => s.loseRow u pos

/-- Counts what the expander passes for one tile: of a packed page, the blocks its positions need, and the cycles the engine stalled for them, a free value
(R199, R200, 0x2504; log 68). -/
def State.countExpand (s : State) (core : Nat) (p : Page) (js : List Nat) : State :=
  if p.packed then
    let bs := neededBlocks p.fmt js
    let r := bs.countP fun x => (indexEntry p.fmt (s.hbmBytes p) x).testBit 31
    ((s.bump 0x2504 2 core (bs.length - r)).bump 0x2504 3 core r).bumpFree 0x2504 5 core (2 ^ 32)
  else s.bump 0x2504 4 core p.stored

/-- Takes a tile's page in: the contribution of its eligible positions, with the expander's counts, and the row's Kerf flag when some took part (R94, R96,
R101). -/
def State.computePage (s : State) (t : Tile) (a : Attend) (r : Row) (q o : Seq) (p : Page) (bs : List Byte) (qs : List (List Val)) : State :=
  let js := eligibleIn q r (o.pagePos p.index) p.index p.valid p.glob
  let kv := js.map fun j => positionVals p.fmt bs j
  let s2 := if p.fmt = 11 && !js.isEmpty then s.onRow t.att t.row fun x => { x with kerfUsed := true } else s
  (s2.countExpand t.core p js).finishTile t a.body.scale.toNat a.body.qFmt.toNat qs (kv.map (·.1)) (kv.map (·.2))

/-- Runs one issued tile on its page or inline position (R94, R96, R101). -/
def State.computeTile (s : State) (t : Tile) (a : Attend) (r : Row) (v : HbmVerdict) : State :=
  let qs := queryHeads a t.row r.body t.head
  match s.seq r.body.handle.toNat with
  | none => s.endRow t.att t.row .notOwner 0
  | some q =>
    if t.inline_ then
      let kv := roundedPosition q.fmt qs.2
      s.finishTile t a.body.scale.toNat a.body.qFmt.toNat qs.1 [kv.1] [kv.2]
    else match s.seq t.page.handle, s.page t.page with
      | some o, some p =>
        if p.lost then s.loseRow t (o.pagePos p.index)
        else if p.tier != .hbm then s.requeueGroup (match t.st with | .issued g => g | _ => 0)
        else match (if v == .uncorrectable then none else s.pageBytes o.part p) with
          | none => s.fetchFailed t p
          | some bs =>
            let s1 := if v == .correctable then s.report (srcChannel (frameChannel (granuleFrame p.frame))) 0x03 none (some o.part) 0 (p.frame * 1024) else s
            s1.computePage t a r q o p bs qs.1
      | _, _ => s.loseRow t 0

/-- An issued tile's page has been read, with the verdict of its check (R96, R101). -/
def execTileCompute (tile : Nat) (verdict : HbmVerdict) (s : State) : Result :=
  s.event fun s => match s.tile tile with
    | none => s
    | some t => match s.rowOf t, t.st with
      | some (a, r), .issued _ => if r.status.isSome then s.dropTile t else s.computeTile t a r verdict
      | _, _ => s

/-- A complete partial reaches the accumulator above it (R90, R102). -/
def execScarfMerge (partial_ : Nat) (s : State) : Result :=
  s.event fun s => match s.accum partial_ with
    | none => s
    | some a => if a.expected = 0 && a.level < 2 then s.mergeUp a else s

/-- Every row of an ATTEND has ended (R86). -/
def execAttendCompletion (id : Nat) (s : State) : Result :=
  s.event fun s => match s.attend id with
    | none => s
    | some a => if a.dispatched && a.rows.all (·.status.isSome) then s.completeAttend a else s

end Sys2Proof.Machine
end

