-- ==== Sys2Proof/Machine/Placing.lean ====
section
/-!
DEFINITION. Turns: ADMIT, PLACE and its answers, HANDOFF, RELEASE and the drain; LOOKUP, PUBLISH and UNPUBLISH (R133, R163, R173 to R176, R255 to R262).
-/
namespace Sys2Proof.Machine

/-! ### ADMIT (R255 to R257) -/

/-- Layout of the tokens of an ADMIT or LOOKUP whose fixed part has `fixed` bytes: inline within a limit, or by reference (R175, R255) (log 98). -/
def tokensFit (m : Rx) (fixed count : Nat) (byRef : Bool) (len : Nat) (tokens : List W32) (limit : Nat) : Bool :=
  1 ≤ count && count ≤ 4194304 && len == 4 * count
    && (if byRef then m.hdr.bodyLen.toNat == fixed && tokens.isEmpty
        else m.hdr.bodyLen.toNat == fixed + 8 * cdiv count 2 && tokens.length == count && m.hdr.bodyLen.toNat ≤ limit)

/-- Check 3 of R256 for a new sequence, or for a new turn of `old`. -/
def State.admitShape (s : State) (m : Rx) (b : AdmitBody) (old : Option Seq) : Bool :=
  let p := m.hdr.partition.toNat
  let first := (old.map (·.sealedPos)).getD 0
  tokensFit m 112 b.tokenCount.toNat b.byRef b.tokenLen.toNat b.tokens (s.rw 0x4001 5 0)
    && b.wordZero && b.context.length == 8 && b.posBase.toNat % 64 == 0 && b.limit ≤ 4194304 && b.posBase.toNat < b.limit
    && b.posBase.toNat < b.declared.toNat && b.declared.toNat ≤ b.limit && first + b.tokenCount.toNat + 1 ≤ b.declared.toNat
    && b.headMask != 0 && (headSpan b.headMask.toNat).all (· < b.headN)
    && (s.broker.nodes.any fun n => n.part == p && (n.allTenants || n.tenant == m.hdr.tenant.toNat) && n.variants.contains b.variant.toNat)
    && (match old with
      | none => true
      | some q => b.variant.toNat == q.variant && b.layerN == q.layers && b.headN == q.kvHeads && b.groupN == q.group && b.fmt.toNat == q.fmt
          && b.winPolicy == q.winPolicy && b.window.toNat == q.window && b.svc.toNat == q.turn.svc && b.headMask.toNat == q.headMask
          && b.posBase.toNat == q.posBase)

/-- Check 2 of R256: the lease must be IDLE. -/
def Seq.turnStatus (q : Seq) : Option Status :=
  if q.st == .retained then some .notOwner
  else match q.lease with
    | .held _ => some .notOwner
    | .freeing => some .notOwner
    | .idle => if q.ledgerLost then some .lost else if q.truncated then some .truncated else none
    | _ => some .retryLater

/-- Flash need and fixed frames of an ADMIT (R257). -/
def AdmitBody.needs (b : AdmitBody) : Nat × Nat :=
  (flashNeed b.layerN b.partHeads b.posBase.toNat b.declared.toNat b.fmt.toNat (if b.winPolicy then b.window.toNat else 0),
   fixedNeed b.layerN b.partHeads b.posBase.toNat b.declared.toNat b.fmt.toNat)

/-- Checks 1 to 5 of R256, in order. -/
def State.checkAdmit (s : State) (m : Rx) (b : AdmitBody) : Option Status :=
  let p := m.hdr.partition.toNat
  let h := m.hdr.handle.toNat
  let old := if h = 0 then none else s.seq h
  if (s.tenantKey p m.hdr.tenant.toNat).all (·.erasing) then some .accessDenied
  else match (if h = 0 then none else match s.checkHandle m.hdr h with
      | some st => some st
      | none => old.bind Seq.turnStatus) with
    | some st => some st
    | none =>
      if !s.admitShape m b old then some .malformed
      else if b.svc == 1 && s.act 0x4002 6 p ≠ 1 then some .accessDenied
      else if !s.hasCapacity p h (AdmitBody.needs b).1 (AdmitBody.needs b).2 (h == 0) || (h = 0 && (s.freeSlot p).isNone) then some .capacity
      else none

/-- An ADMIT accepted: the sequence or the turn begins, its tokens enter the ledger and go to the partner, and its lookup follows (R255, R256, R262). -/
def State.acceptAdmit (s : State) (m : Rx) (b : AdmitBody) (tokens : List W32) : State :=
  let p := m.hdr.partition.toNat
  let t := m.hdr.tenant.toNat
  let h := m.hdr.handle.toNat
  let node := s.nodeOf m.qp
  let wait := s.us + 1000 * s.rw 0x4001 3 0
  let turn := newTurn ((node.map (·.num)).getD 0xFFFF) ((node.map (·.ident)).getD 0) b.svc.toNat
  match (if h = 0 then none else s.seq h) with
  | none => match s.freeSlot p with
    | none => s.answer (reqOf m 0x10) .capacity
    | some slot =>
      let r := s.newSeq p t slot b tokens (turn tokens.length wait b.context (some (reqOf m 0x10)))
      r.2.admitLookup r.1 (!b.noLookup)
  | some q =>
    let s1 := (s.onSeq h fun x => { x with
      posLimit := b.declared.toNat, fixedFrames := (AdmitBody.needs b).2, lease := .choosing .prefill, ledger := x.ledger.take x.sealedPos ++ tokens
      lastTouch := s.ms, turn := { turn (x.sealedPos + tokens.length) wait b.context (some (reqOf m 0x10)) with svc := x.turn.svc } }).fitFixed h
    match s1.seq h with
    | none => s1
    | some x => (s1.sync x .tokens q.sealedPos x.ledger.length).admitLookup h false

/-- An ADMIT with its tokens at hand. -/
def State.runAdmit (s : State) (m : Rx) (b : AdmitBody) (tokens : List W32) : State :=
  match s.checkAdmit m b with
  | some st => (if st == .capacity then s.bump 0x4006 3 m.hdr.partition.toNat 1 else s).answer (reqOf m 0x10) st
  | none => s.acceptAdmit m b tokens

/-- Reads tokens given by reference (R255, R288). -/
def State.readTokens (s : State) (m : Rx) (op addr key len : Nat) (i : Instr) : State :=
  match s.qp m.qp with
  | none => s
  | some q =>
    let svc := serviceOf (s.qpRole q) op 9 false
    (s.rdmaRead q svc (classOf svc op) m.hdr.tenant.toNat addr key len 0 i).meterBytes q.part m.hdr.tenant.toNat len

/-- ADMIT (R255 to R257). -/
def execAdmit (m : Rx) (b : AdmitBody) (s : State) : Result :=
  .next (s.receive m 0x10 .checked (if b.byRef then b.tokenLen.toNat else 0) false fun s =>
    if b.byRef && (s.checkAdmit m b).isNone then s.readTokens m 0x10 b.tokenAddr.toNat b.tokenKey.toNat b.tokenLen.toNat (.admitTurn m b)
    else s.runAdmit m b b.tokens).settle

/-! ### PLACE (R258, R262) -/

/-- A node's answer to a PLACE: `OK` accepts, any other status refuses (R258). -/
def execPlaceCompletion (r : Reply) (s : State) : Result :=
  .next (s.reply r AskKind.isPlace fun a s => match a.kind with
    | .place h => match (s.seq h).map (fun (q : Seq) => q.lease) with
      | some (.offered ph n tag) =>
        if tag = a.tag then (if r.status = 0 then s.acceptPlace h n tag ph else s.refusePlace h n tag ph) else s
      | _ => s
    | _ => s)

/-- No completion of a PLACE within the accept timeout counts as a refusal (R258). -/
def execAcceptTimeout (handle : W64) (s : State) : Result :=
  s.event fun s => match s.seq handle.toNat with
    | none => s
    | some q => match q.lease with
      | .offered ph n tag => if s.due q.turn.acceptUntil then s.refusePlace handle.toNat n tag ph else s
      | _ => s

/-- The lookups of an admission are given up. -/
def State.dropLookups (s : State) (h : Nat) : State := s.onMortise fun m => { m with lookups := m.lookups.filter fun l => !l.for_.admits h }

/-- The placement wait ends in CHOOSING (R256, R261, R262). -/
def State.waitEnds (s : State) (h : Nat) (q : Seq) (ph : TurnPhase) : State :=
  match ph with
  | .prefill =>
    if q.turn.admitReq.isSome then
      ((s.bump 0x4006 4 q.part 1).dropLookups h).refuseAdmit h .retryLater
    else s.endTurn h .retryLater
  | .decode => (s.answerHandoff h none .ok).endTurn h .retryLater

/-- The placement wait of a sequence ends (R256, R261, R262). -/
def execPlacementWaitExpiry (handle : W64) (s : State) : Result :=
  s.event fun s => match s.seq handle.toNat with
    | none => s
    | some q => match q.lease with
      | .choosing ph => if s.due q.turn.waitUntil then s.waitEnds handle.toNat q ph else s
      | _ => s

/-! ### HANDOFF, RELEASE, RELEASE_SECURE (R77, R133, R259, R260) -/

/-- HANDOFF (R77, R259). -/
def execHandoff (m : Rx) (b : HandoffBody) (s : State) : Result := .next (s.request m 0x12 0 (.handoff m b) fun s => s.runHandoff m b)

/-- RELEASE, action 0 (R260). -/
def execReleaseEndTurn (m : Rx) (b : ReleaseBody) (s : State) : Result := .next (s.request m 0x13 0 (.releaseEndTurn m b) fun s => s.runEndTurn m b)

/-- RELEASE, action 1 (R62, R260). -/
def execReleaseFree (m : Rx) (b : ReleaseBody) (s : State) : Result := .next (s.request m 0x13 0 (.releaseFree m b) fun s => s.runFree m b 0x13)

/-- RELEASE_SECURE (R241, R260). -/
def execReleaseSecure (m : Rx) (b : ReleaseBody) (s : State) : Result := .next (s.request m 0x14 0 (.releaseSecure m b) fun s => s.runFree m b 0x14)

/-- The drain after a HANDOFF or an end of turn ends (R77, R133, R262). -/
def execDrainComplete (handle : W64) (s : State) : Result :=
  s.event fun s => match s.seq handle.toNat with
    | none => s
    | some q => match q.lease with
      | .draining d => if s.drainDone q then s.endDrain handle.toNat d else s
      | _ => s

/-! ### LOOKUP, PUBLISH, UNPUBLISH (R173 to R176) -/

/-- LOOKUP with its tokens at hand (R160, R175). -/
def State.runLookupFor (s : State) (m : Rx) (b : LookupBody) (tokens : List W32) : State :=
  let l := s.newLookup (.lookup (reqOf m 0x20)) m.hdr.partition.toNat m.hdr.tenant.toNat b.variant.toNat b.headMask.toNat 0 tokens b.privateChain b.publicChain
  l.2.startLookup l.1

/-- LOOKUP (R175). -/
def execLookup (m : Rx) (b : LookupBody) (s : State) : Result :=
  .next (s.receive m 0x20 .checked (if b.byRef then b.tokenLen.toNat else 0) false fun s =>
    if m.hdr.handle != 0 || b.headMask == 0
        || !tokensFit m 32 b.tokenCount.toNat b.byRef b.tokenLen.toNat b.tokens (s.act 0x2402 0x0A m.hdr.partition.toNat) then
      s.answer (reqOf m 0x20) .malformed
    else if b.byRef then s.readTokens m 0x20 b.tokenAddr.toNat b.tokenKey.toNat b.tokenLen.toNat (.lookup m b)
    else s.runLookupFor m b b.tokens).settle

/-- PUBLISH (R173, R176). -/
def execPublish (m : Rx) (b : PublishBody) (s : State) : Result := .next (s.request m 0x21 0 (.publish m b) fun s => s.runPublish m b)

/-- UNPUBLISH (R174, R176). -/
def execUnpublish (m : Rx) (first : BitVec 23) (s : State) : Result := .next (s.request m 0x22 0 (.unpublish m first) fun s => s.runUnpublish m first.toNat)

/-- A second-level search of a lookup that has been issued answers (R160, R172). -/
def execSecondLevelSearchDone (id : Nat) (s : State) : Result :=
  s.event fun s => match s.mortise.lookups.find? (·.id == id) with
    | none => s
    | some lk =>
      if lk.phase != .secondRuns then s
      else
        let r := s.secondDone lk
        if r.1.phase == .secondRuns then r.2.keepLookup r.1 else (r.2.keepLookup r.1).turnLookup r.1

end Sys2Proof.Machine
end

