-- ==== Sys2Proof/Machine/Fabric.lean ====
section
/-!
DEFINITION. Connections, rings, the device's reads, acknowledgements, congestion, flow control and dropped frames (R277 to R288, R298 to R304).
-/
namespace Sys2Proof.Machine

/-! ### Connections (R280, R281, R286) -/

/-- Lowest-numbered free queue pair of a partition's lowest-numbered slice that is not draining and has one (R280, R305). -/
def State.freeQp (s : State) (p : Nat) : Option Nat :=
  (sortNat ((s.usableSlices p).map (·.num))).findSome? fun sl =>
    (List.range 256).findSome? fun i => if (s.qp (256 * sl + i)).isNone then some (256 * sl + i) else none

/-- The same for rings, but those of `not_` (R280, R305). -/
def State.freeRing (s : State) (p : Nat) (not_ : Option Nat) : Option Nat :=
  (sortNat ((s.usableSlices p).map (·.num))).findSome? fun sl =>
    (List.range 128).findSome? fun i => if (s.ring (128 * sl + i)).isNone && not_ != some (128 * sl + i) then some (128 * sl + i) else none

/-- Ring a mode 2 REQ shares, when it may (R280). -/
def State.sharedRing (s : State) (r : CmReq) : Option Ring :=
  (s.ring r.shareRing.toNat).bind fun x =>
    if x.kind == .completion && x.part == r.partition.toNat && x.srcGid == r.srcGid && x.qps.length < 64 then some x else none

/-- A power of two times a base. -/
def slotBytes (r : CmReq) : Nat := 256 * 2 ^ r.slotSize.toNat
def slotTotal (r : CmReq) : Nat := 16 * 2 ^ r.slotCount.toNat

/-- Whether a REQ's own fields are legal (Table 9-3). -/
def reqLegal (r : CmReq) : Bool :=
  r.partition.toNat ≤ 63 && r.mode != 3 && [1024, 2048, 4096].contains r.mtu
    && (r.mode == 0 || (r.slotSize.toNat ≤ 8 && r.slotCount.toNat ≤ 8))
    && (r.mode != 1 || (r.ringLen.toNat % 4096 = 0 && 65536 ≤ r.ringLen.toNat && r.ringLen.toNat ≤ 67108864))

/-- The conditions of R280 on the partition's grant, its VLAN and its port share, at a logical port in use. -/
def State.reqGranted (s : State) (r : CmReq) : Bool :=
  let p := r.partition.toNat
  s.lpInUse r.lp && !s.fenced (srcLp r.lp) && !s.fenced (srcPort (r.lp / 4)) && r.gidIndex < 16
    && (s.act (0x6400 + p) (0x20 + r.lp) 0).testBit r.gidIndex
    && s.rw 0x5004 4 (r.lp * 65536 + r.gidIndex) == r.vlan && s.act (0x6400 + p) (0x10 + r.lp) 0 != 0

/-- A queue pair as it connects (R280, R298, R300, R304). -/
def State.newQp (s : State) (n : Nat) (r : CmReq) (cmd comp : Option Nat) : Qp :=
  let rate := s.lineRate r.lp * 1000000
  { num := n, st := .connecting, part := r.partition.toNat, lp := r.lp, mode := r.mode.toNat, node := none, mtu := min r.mtu (s.rw 0x5002 5 r.lp)
    srcGid := r.srcGid, vlan := r.vlan, pcp := s.rw 0x5003 3 r.partition.toNat, dscp := s.rw 0x5003 4 r.partition.toNat, cmdRing := cmd, compRing := comp
    unacked := [], sentCount := 0, ackedCount := 0, retries := 0, rnrRetries := 0, rxUnacked := 0, rxLastUs := s.us, rc := rate, rt := rate, alpha := 65536
    incr := 0, tokens := 8192 * 2 ^ 24, passed := false, bytesSince := 0, cnpUs := none, readsOut := 0, lastUs := s.us, ackUs := s.us, alphaUs := s.us
    incrUs := s.us, rnrHold := false
    prm := ((List.range 6).map fun i => (0x5030 * 256 + i + 1, s.rw 0x5030 (i + 1) 0)) ++ (List.range 8).map fun i => (0x5031 * 256 + i + 1, s.rw 0x5031 (i + 1) 0) }

/-- A parameter of 0x5030 or 0x5031 in force on a queue pair (R304). -/
def Qp.param (q : Qp) (ix sub : Nat) : Nat := sget q.prm (ix * 256 + sub) 0

/-- A command ring: a 64-byte header and its slots in HBM, at an address and under a key of the device's choice, which are free values (log 48). -/
def State.newCommandRing (s : State) (n qp : Nat) (r : CmReq) : Ring × State :=
  let a := s.free
  let k := (a.2).free
  ({ num := n, kind := .command, part := r.partition.toNat, srcGid := r.srcGid, qps := [qp], slotSize := slotBytes r, slots := slotTotal r, producer := 0
     busy := [], waiting := [], consumed := 0, addr := a.1.toNat, key := k.1.toNat % 2 ^ 32, length := 64 + slotBytes r * slotTotal r, written := 0
     consumer := 0, held := [] }, k.2)

def newCompletionRing (n qp : Nat) (r : CmReq) : Ring :=
  { num := n, kind := .completion, part := r.partition.toNat, srcGid := r.srcGid, qps := [qp], slotSize := 0, slots := 0, producer := 0, busy := [], waiting := []
    consumed := 0, addr := r.ringAddr.toNat, key := r.ringKey.toNat, length := r.ringLen.toNat, written := 0, consumer := 0, held := [] }

/-- REP private data (Table 9-3). -/
def repWords (cmd : Ring) (comp : Nat) : List W64 :=
  [BitVec.ofNat 64 cmd.addr, packWord [(32, cmd.key), (8, 0), (24, comp)]]

/-- Opens a queue pair with its rings, or none when R280 gives no REP. -/
def State.openQp (s : State) (r : CmReq) : Option State :=
  let p := r.partition.toNat
  if !reqLegal r || !s.reqGranted r then none
  else match s.freeQp p with
    | none => none
    | some n =>
      if r.mode = 0 then
        some ((s.onNet fun x => { x with qps := x.qps ++ [s.newQp n r none none] }).control r.lp (.cmRep n [0, 0]))
      else match s.freeRing p none with
        | none => none
        | some c =>
          let mk := fun (comp : Nat) (rings : List Ring → List Ring) =>
            let cr := s.newCommandRing c n r
            ((cr.2.onNet fun x => { x with
              qps := x.qps ++ [s.newQp n r (some c) (some comp)]
              rings := rings (x.rings ++ [cr.1]) }).control r.lp (.cmRep n (repWords cr.1 comp)))
          if r.mode = 1 then (s.freeRing p (some c)).map fun d => mk d fun l => l ++ [newCompletionRing d n r]
          else (s.sharedRing r).map fun d => mk d.num (mapIf (·.num == d.num) fun y => { y with qps := y.qps ++ [n] })

/-- CM_REQ (R280, R281). -/
def execCmReq (r : CmReq) (s : State) : Result :=
  s.event fun s => match s.openQp r with
    | some s1 => s1
    | none => s.control r.lp (.cmRej r.lp)

/-- CM_RTU: the connection is established (R280). -/
def execCmRtu (qp : Nat) (s : State) : Result :=
  s.event fun s => s.onQp qp fun q => if q.st = .connecting then { q with st := .connected, lastUs := s.us } else q

/-- CM_DISCONNECT: the queue pair enters the error state; one in that state already is freed (R286, log 49). -/
def execCmDisconnect (qp : Nat) (s : State) : Result :=
  s.event fun s => match s.qp qp with
    | none => s
    | some q =>
      let s1 := s.control q.lp (.cmDrep qp)
      if q.st = .error then s1.onNet fun x => { x with qps := x.qps.filter (·.num != qp) } else s1.qpError qp false

/-! ### What arrives (R282, R283, R285, R287, R302) -/

/-- Packets of a transfer. -/
def Qp.packets (q : Qp) (n : Nat) : Nat := max 1 (cdiv n q.mtu)

/-- Acknowledges what a queue pair has received (R302). -/
def State.sendAck (s : State) (q : Qp) : State := (s.onQp q.num fun x => { x with rxUnacked := 0 }).control q.lp (.ack q.num)

/-- Counts packets received; enough of them are acknowledged at once (R302). -/
def State.rxPackets (s : State) (q : Qp) (n : Nat) : State :=
  let s1 := s.onQp q.num fun x => { x with rxUnacked := x.rxUnacked + n, rxLastUs := s.us }
  if q.param 0x5030 5 ≤ q.rxUnacked + n then s1.sendAck q else s1

/-- ACK_COALESCING_TIMEOUT: 2 µs after the last unacknowledged packet (R302). -/
def execAckCoalescingTimeout (qp : Nat) (s : State) : Result :=
  s.event fun s => match s.qp qp with
    | none => s
    | some q => if q.connected && 0 < q.rxUnacked && s.due (q.rxLastUs + 2) then s.sendAck q else s

/-- An operation of a node draws a remote access NAK, and its queue pair the error state (R282, R286, R287). -/
def State.refuseAccess (s : State) (q : Qp) : State := (s.control q.lp (.nakAccess q.num 0)).qpError q.num true

/-- Request named by the header bytes of a message, for a completion without its command (R245). -/
def reqOfBytes (qp : Nat) (bs : List Byte) : Req :=
  let w := fun (i n : Nat) => beNat ((bs.drop i).take n)
  { qp := qp, opcode := w 2 1, tag := w 12 4, partition := w 4 1, tenant := w 5 2, handle := w 16 8, bytes := bs.length }

/-- Header of a message, from its bytes (Table 8-1). -/
def hdrOfBytes (bs : List Byte) : Hdr :=
  let f := fun (i n hi lo : Nat) => beNat ((bs.drop i).take n) / 2 ^ lo % 2 ^ (hi - lo + 1)
  { version := BitVec.ofNat 4 (f 0 8 63 60), completion := f 0 8 59 59 = 1, device := f 0 8 58 58 = 1
    reserved := BitVec.ofNat 34 (f 0 8 57 48 * 2 ^ 24 + f 0 8 7 0 * 2 ^ 16 + f 8 8 47 32)
    status := BitVec.ofNat 8 (f 0 8 39 32), partition := BitVec.ofNat 8 (f 0 8 31 24), tenant := BitVec.ofNat 16 (f 0 8 23 8)
    epoch := BitVec.ofNat 16 (f 8 8 63 48), tag := BitVec.ofNat 32 (f 8 8 31 0), handle := BitVec.ofNat 64 (f 16 8 63 0)
    bodyLen := BitVec.ofNat 32 (f 24 8 63 32), check := BitVec.ofNat 32 (f 24 8 31 0) }

/-- Opcodes of Table 8-2. -/
def listedOps : List Nat := [0x01, 0x02, 0x03, 0x10, 0x11, 0x12, 0x13, 0x14, 0x20, 0x21, 0x22, 0x30, 0x31, 0x32, 0x33, 0x34, 0x40, 0x50, 0x60, 0x61, 0x62]

/-- Whether the first body word of a request holds a reserved code: an action of RELEASE or STAGE, a global field of STAGE, a kind of LEDGER_SYNC or RELAY
(Tables 4-3, 8-9, 8-14, 8-15). -/
def reservedCode (op w : Nat) : Bool :=
  if op = 0x13 || op = 0x14 then 2 ≤ w / 2 ^ 62
  else if op = 0x32 then w / 2 ^ 46 % 4 = 3 || w / 2 ^ 43 % 4 = 3
  else if op = 0x60 then 4 < w / 2 ^ 60
  else if op = 0x61 then 3 < w / 2 ^ 60
  else false

/-- Whether a request of a node is one that no command of this device's opcode table runs: its opcode is unlisted or only the device's own, or a code of its
body is reserved (R11). -/
def codeless (bs : List Byte) : Bool :=
  let op := beNat ((bs.drop 2).take 1)
  32 ≤ bs.length && !(hdrOfBytes bs).completion
    && (!listedOps.contains op || op = 0x11 || op = 0x50 || (40 ≤ bs.length && reservedCode op (beNat ((bs.drop 32).take 8))))

/-- Answers a request with a reserved code: `MALFORMED`, by the check of R246 that meets it (R11). -/
def State.refuseCode (s : State) (q : Qp) (length : Nat) (bs : List Byte) : State :=
  let m : Rx := { qp := q.num, length := length, hdr := hdrOfBytes bs }
  let op := beNat ((bs.drop 2).take 1)
  if !listedOps.contains op then
    let st : Status := if m.hdr.check != hdrCheck m.hdr op then .integrity else .malformed
    (s.noteRefusal q m.hdr st).answer (reqOf m op) st
  else s.vet q m op (if 0x60 ≤ op then .unchecked else .checked) 0 false fun s => s.answer (reqOf m op) .malformed

/-- A message whose first slot is right takes its slots and waits for the command that runs it; one that no command runs is taken at once and refused
(R11, R282; log 104). -/
def State.ringTake (s : State) (q : Qp) (r : Ring) (w : RingWrite) (n : Nat) : State :=
  let skipped := if w.slot ≠ r.producer then r.slots - r.producer else 0
  if codeless w.bytes then
    (s.onRing r.num fun x => { x with producer := (w.slot + n) % x.slots, consumed := (x.consumed + skipped + n) % 2 ^ 32 }).refuseCode q w.length w.bytes
  else s.onRing r.num fun x => { x with
    producer := (w.slot + n) % x.slots, busy := ((List.range n).map (w.slot + ·)).foldl insNat x.busy, waiting := x.waiting ++ [(w.slot, n, w.bytes)]
    consumed := (x.consumed + skipped) % 2 ^ 32 }

/-- RING_MESSAGE_WRITE (R282). The write lies at slot `slot`; its immediate must name that slot, and the slot must follow the last message or be slot 0
when the message does not fit before the end (log 104). -/
def execRingMessageWrite (w : RingWrite) (s : State) : Result :=
  s.event fun s => match s.qp w.qp with
    | none => s
    | some q => match (if q.connected then q.cmdRing.bind s.ring else none) with
      | none => s
      | some r =>
        let n := cdiv w.length r.slotSize
        if n = 0 || r.slots < w.slot + n || ((List.range n).map (w.slot + ·)).any r.busy.contains then s.refuseAccess q
        else
          let fits := r.producer + n ≤ r.slots
          let s1 := (s.heard q).rxPackets q (q.packets w.length)
          if w.imm.toNat / 2 ^ 20 = w.slot && (w.slot = r.producer || (w.slot = 0 && !fits)) then s1.ringTake q r w n
          else (s1.onRing r.num fun x => { x with producer := (w.slot + n) % x.slots, consumed := (x.consumed + n) % 2 ^ 32 }).answer
            (reqOfBytes q.num w.bytes) .malformed

/-- RING_CONSUMER_UPDATE: the greatest value counts (R283). -/
def execRingConsumerUpdate (qp : Nat) (value : W64) (s : State) : Result :=
  s.event fun s => match s.qp qp with
    | none => s
    | some q => match (if q.connected then q.compRing else none) with
      | none => s
      | some r => (s.rxPackets q 1).onRing r fun x => { x with consumer := max x.consumer value.toNat }

/-- SEND_RECEIVED: into the receive pool, or an RNR NAK (R285). -/
def execSendReceived (qp length : Nat) (s : State) : Result :=
  s.event fun s => match s.qp qp with
    | none => s
    | some q =>
      if !q.connected || q.mode ≠ 0 then s
      else if s.act 0x5003 2 q.part < sget s.net.pool q.part 0 + length then s.control q.lp (.rnrNak q.num (q.param 0x5030 4))
      else (s.rxPackets q (q.packets length)).onNet fun x => { x with pool := sadd x.pool q.part length }

/-- NODE_READ_OR_WRITE_REFUSED (R287). -/
def execNodeReadOrWriteRefused (qp : Nat) (isRead : Bool) (s : State) : Result :=
  s.event fun s => match s.qp qp with
    | none => s
    | some q => if !q.connected then s else if isRead then s.control q.lp (.nakInvalid q.num) else s.refuseAccess q

/-! ### Completion rings (R284) -/

/-- Descriptor of a completion entry (Table 9-4). -/
def entryWords (r : Ring) (pad : Bool) (units qp consumer : Nat) : List W64 :=
  [packWord [(1, bit (r.written / r.length % 2 == 0)), (3, bit pad), (16, units), (20, 0), (24, qp)], packWord [(32, consumer), (32, 0)]]

/-- Writes one entry on a queue pair. -/
def State.writeEntry (s : State) (r : Ring) (q : Qp) (svc cls tenant bytes : Nat) (m : Option Msg) : State :=
  let consumer := ((q.cmdRing.bind s.ring).map (·.consumed)).getD 0
  (s.post q svc cls tenant (.ringEntry q.num r.num (r.written % r.length) (entryWords r m.isNone (bytes / 64) q.num consumer) m)).onRing r.num fun x =>
    { x with written := x.written + bytes }

/-- Free bytes of a completion ring (R284). -/
def Ring.room (r : Ring) : Nat := r.length + r.consumer - r.written

/-- COMPLETION_RING_WRITE: the first entry held, after a pad entry where it does not fit before the end (R284). -/
def execCompletionRingWrite (ring : Nat) (s : State) : Result :=
  s.event fun s => match s.ring ring with
    | none => s
    | some r => match r.held with
      | [] => s
      | (n, relay, m) :: _ => match s.qp n with
        | none => s.onRing ring fun x => { x with held := x.held.drop 1 }
        | some q =>
          let bytes := cdiv (16 + m.bytes) 64 * 64
          let svc := serviceOf (s.qpRole q) m.opcode relay m.device
          let cls := classOf svc m.opcode
          let tail := r.length - r.written % r.length
          let s1 := if bytes ≤ tail then s else if tail ≤ r.room then s.writeEntry r q svc cls m.tenant tail none else s
          match s1.ring ring with
          | none => s1
          | some r1 =>
            if bytes ≤ r1.room && bytes ≤ r1.length - r1.written % r1.length then
              (s1.writeEntry r1 q svc cls m.tenant bytes (some m)).onRing ring fun x => { x with held := x.held.drop 1 }
            else s1

/-! ### Reads of the device (R83, R118, R255, R288) -/

/-- Tokens of a payload, four bytes each. -/
def tokensOf (bs : List Byte) : List W32 := (chunks 4 (bs.length / 4) bs).map fun g => BitVec.ofNat 32 (beNat g)

/-- A read's data is at hand, and the request that waited goes on; one whose epoch is no longer live ends with `STALE_EPOCH` (R249, R310). -/
def State.readDone (s : State) (r : DevRead) (bs : List Byte) : State :=
  match r.why with
  | .append .. => s.appendRead r.owner bs
  | .refreshAppend .. => s.appendRead r.owner bs
  | .attend .. => s.attendRead r.owner bs
  | .admitTurn m b => s.runAdmit m b (tokensOf bs)
  | .lookup m b => s.runLookupFor m b (tokensOf bs)
  | _ => s

/-- RDMA_READ_COMPLETE (R286, R288). -/
def execRdmaReadComplete (id : Nat) (result : ReadResult) (s : State) : Result :=
  s.event fun s => match s.net.reads.find? fun r => r.id == id && r.issued with
    | none => s
    | some r => match result with
      | .accessError => s.qpError r.qp true
      | .data bs => (s.endRead r).readDone r (bs.take r.len)

/-! ### Acknowledgement and retransmission (R274, R285, R302) -/

/-- Frees the peer pages whose images an acknowledgement has confirmed (R274). -/
def State.freeAcked (s : State) (q : Nat) (count : Nat) : State :=
  let done := s.broker.peerPages.filter fun p => match p.freeAt with
    | some (n, c) => n == q && c ≤ count
    | none => false
  (s.each done fun s p => s.shootDown p.part p.frames).onBroker fun b => { b with peerPages := b.peerPages.filter fun p => !done.contains p }

/-- Packets of a queue pair are acknowledged. -/
def State.ackPackets (s : State) (q : Qp) (n : Nat) : State :=
  let k := min n q.unacked.length
  (s.onQp q.num fun x => { x with unacked := x.unacked.drop k, ackedCount := x.ackedCount + k, retries := 0, rnrRetries := 0, rnrHold := false, ackUs := s.us }).freeAcked
    q.num (q.ackedCount + k)

/-- Resends from the oldest unacknowledged packet, ahead of what waits for egress (R302) (log 108). -/
def State.resend (s : State) (q : Qp) : State :=
  if q.unacked.isEmpty || s.net.egress.any (fun e => e.qp == q.num && (match e.wire with | .resend .. => true | _ => false)) then s
  else
    let svc := serviceOf (s.qpRole q) 0 9 false
    let e : Egress :=
      { id := (s.fresh).1, lp := q.lp, qp := q.num, service := svc, cls := 7, part := q.part, tenant := 0, frames := q.unacked, begun := false
        wire := .resend q.num (q.unacked.foldl (· + ·) 0), frees := none }
    (((s.fresh).2.onNet fun x => { x with egress := e :: x.egress }).onQp q.num fun x => { x with ackUs := s.us }).bump 0x5040 9 q.num q.unacked.length

/-- One more retry, or the error state when they are exhausted (R286, R302). -/
def State.retry (s : State) (q : Qp) : State :=
  if q.param 0x5030 2 ≤ q.retries then (s.reportUnit (srcLp q.lp) 0x26 0 0).qpError q.num false
  else (s.onQp q.num fun x => { x with retries := x.retries + 1 }).resend q

/-- ACK_RECEIVED (R302). -/
def execAckReceived (qp : Nat) (kind : AckKind) (s : State) : Result :=
  s.event fun s => match s.qp qp with
    | none => s
    | some q =>
      if !q.connected then s
      else match kind with
        | .ack n => s.ackPackets q n
        | .nakSequence => s.retry q
        | .nakAccess => s.qpError qp true

/-- ACK_TIMEOUT: 4.096 µs × 2^t without an acknowledgement (R302). -/
def execAckTimeout (qp : Nat) (s : State) : Result :=
  s.event fun s => match s.qp qp with
    | none => s
    | some q =>
      if q.connected && !q.unacked.isEmpty && 4096 * 2 ^ q.param 0x5030 1 ≤ 1000 * (s.us - q.ackUs) then s.retry q else s

/-- RNR_NAK_RECEIVED: the send is tried again under the RNR retry count, and later completions wait (R285). -/
def execRnrNakReceived (qp : Nat) (s : State) : Result :=
  s.event fun s => match s.qp qp with
    | none => s
    | some q =>
      if !q.connected then s
      else if q.param 0x5030 3 ≠ 7 && q.param 0x5030 3 ≤ q.rnrRetries then s.qpError qp false
      else (s.onQp qp fun x => { x with rnrRetries := x.rnrRetries + 1, rnrHold := true }).resend q

/-! ### Congestion (R299, R300) -/

/-- CE_PACKET_RECEIVED (R299). -/
def execCePacketReceived (qp : Nat) (s : State) : Result :=
  s.event fun s => match s.qp qp with
    | none => s
    | some q =>
      let wait := match q.cnpUs with
        | some t => s.us < t + q.param 0x5030 6
        | none => false
      if !q.connected || wait then s
      else (((s.onQp qp fun x => { x with cnpUs := some s.us }).control q.lp (.cnp qp)).bump 0x5002 0x12 q.lp 1)

/-- CNP_RECEIVED (R300) (log 105). -/
def execCnpReceived (qp : Nat) (s : State) : Result :=
  s.event fun s => match s.qp qp with
    | none => s
    | some q =>
      if !q.connected then s
      else
        let g := q.param 0x5031 1
        ((s.onQp qp fun x => { x with
          rt := x.rc, rc := max (q.param 0x5031 8 * 1000000) (x.rc * (131072 - x.alpha) / 131072), alpha := (65536 - g) * x.alpha / 65536 + g, incr := 0
          alphaUs := s.us, incrUs := s.us, bytesSince := 0 }).bump 0x5002 0x13 q.lp 1).bump 0x5040 0x0A qp 1

/-- RATE_INCREASE_EVENT: T_i has expired, or B bytes have been sent (R300). -/
def execRateIncreaseEvent (qp : Nat) (s : State) : Result :=
  s.event fun s => match s.qp qp with
    | none => s
    | some q =>
      if !q.connected || !(s.due (q.incrUs + q.param 0x5031 3) || q.param 0x5031 4 ≤ q.bytesSince) then s
      else
        let i := q.incr + 1
        let f := q.param 0x5031 5
        let up := if 2 * f < i then q.param 0x5031 7 else if f < i then q.param 0x5031 6 else 0
        let rt := min (q.rt + up * 1000000) (s.lineRate q.lp * 1000000)
        s.onQp qp fun x => { x with incr := i, rt := rt, rc := (rt + x.rc) / 2, incrUs := s.us, bytesSince := 0 }

/-- ALPHA_TIMER_EXPIRY: K has elapsed without a CNP (R300). -/
def execAlphaTimerExpiry (qp : Nat) (s : State) : Result :=
  s.event fun s => match s.qp qp with
    | none => s
    | some q =>
      if q.connected && s.due (q.alphaUs + q.param 0x5031 2) then
        s.onQp qp fun x => { x with alpha := (65536 - q.param 0x5031 1) * x.alpha / 65536, alphaUs := s.us }
      else s

/-! ### Priority flow control and dropped frames (R279, R301, R303) -/

def State.lp (s : State) (n : Nat) : Option LogicalPort := s.net.lps.find? (·.num == n)
def State.onLp (s : State) (n : Nat) (f : LogicalPort → LogicalPort) : State := s.onNet fun x => { x with lps := mapIf (·.num == n) f x.lps }

/-- Runs an event of a logical port in use. -/
def State.portEvent (s : State) (n : Nat) (run : State → LogicalPort → State) : Result :=
  s.event fun s => match (if s.lpInUse n then s.lp n else none) with
    | none => s
    | some p => run s p

/-- PFC_FRAME_RECEIVED: pauses and releases the priorities it enables (R301). -/
def execPfcFrameReceived (lp : Nat) (pause enable : BitVec 8) (s : State) : Result :=
  s.portEvent lp fun s _ =>
    ((List.range 8).foldl (fun s i =>
      if !enable.toNat.testBit i then s
      else s.onLp lp fun p =>
        if pause.toNat.testBit i then
          (if p.paused.any (·.1 == i) || p.ignored.contains i then p else { p with paused := sset p.paused i s.us })
        else { p with paused := sdel p.paused i, ignored := p.ignored.filter (· != i) }) s).bump 0x5002 0x0F lp 1

/-- INGRESS_BUFFER_THRESHOLD: the port's share of the 8 MiB ingress buffer, and the PFC frame it draws (R301). -/
def execIngressBufferThreshold (lp share : Nat) (s : State) : Result :=
  s.portEvent lp fun s p =>
    let s1 := s.onLp lp fun x => { x with share := min share 8388608 }
    let prio := s.rw 0x5010 4 0
    if s.rw 0x5002 6 lp < share && !p.xoff then ((s1.onLp lp fun x => { x with xoff := true }).control lp (.pfc lp prio true)).bump 0x5002 0x10 lp 1
    else if share < s.rw 0x5002 7 lp && p.xoff then ((s1.onLp lp fun x => { x with xoff := false }).control lp (.pfc lp prio false)).bump 0x5002 0x10 lp 1
    else s1

/-- PAUSE_WATCHDOG: a priority paused for longer than the watchdog is released and its PFC ignored (R301). -/
def execPauseWatchdog (lp priority : Nat) (s : State) : Result :=
  s.portEvent lp fun s p => match p.paused.find? (·.1 == priority) with
    | none => s
    | some (_, t) =>
      if 1000 * s.rw 0x5010 5 0 < s.us - t then
        (((s.onLp lp fun x => { x with paused := sdel x.paused priority, ignored := x.ignored ++ [priority] }).bump 0x5002 0x11 lp 1).reportUnit (srcLp lp) 0x25
          0 0)
      else s

/-- FRAME_CHECK_DROP (R303). -/
def execFrameCheckDrop (lp : Nat) (check : FrameCheck) (s : State) : Result :=
  s.portEvent lp fun s _ => match check with
    | .fcs => (s.bump 0x5002 0x0A lp 1).reportUnit (srcLp lp) 0x21 0 0
    | .icrc => (s.bump 0x5002 0x0B lp 1).reportUnit (srcLp lp) 0x22 0 0

/-- UNSUPPORTED_FRAME_DROP (R279); a global PAUSE frame is counted and ignored. -/
def execUnsupportedFrameDrop (lp : Nat) (frame : UnsupportedFrame) (s : State) : Result :=
  s.portEvent lp fun s _ => match frame with
    | .globalPause => s.bump 0x5002 0x0D lp 1
    | .other => s.bump 0x5002 0x0D lp 1

end Sys2Proof.Machine
end

