-- ==== Sys2Proof/Machine/Egress.lean ====
section
/-!
DEFINITION. Egress of a logical port: the control queue, the shapers of three levels, deficit round-robin and the windows (R289 to R295).
-/
namespace Sys2Proof.Machine

/-- Tokens carry 24 fractional bits (R290). -/
def tokenUnit : Int := 16777216

/-- A shaper in force: its rate, 0 for unshaped, and its depth in bytes (R290). -/
structure Shaper where
  rate : Nat
  depth : Nat
  deriving DecidableEq, Repr

/-- Whether a frame of cost `x` passes (R293): within the tokens, or as the first of its window past a shaper shallower than the frame. -/
def Shaper.passes (sh : Shaper) (b : Bucket) (x : Nat) : Bool :=
  sh.rate = 0 || (x : Int) * tokenUnit ≤ b.tokens || (sh.depth < x && !b.passed && 0 ≤ b.atStart)

/-- Takes a frame's cost; an unshaped element keeps no account (R290, R293, log 50). -/
def Shaper.take (sh : Shaper) (b : Bucket) (x : Nat) : Bucket :=
  if sh.rate = 0 then b else { b with tokens := b.tokens - x * tokenUnit, passed := true }

/-- A window's refill of tokens (R292). -/
def refillTokens (t : Int) (rho depth : Nat) : Int := min (t + rho) (depth * tokenUnit)

/-- Start of a window (R292). -/
def Shaper.window (sh : Shaper) (lw : Nat) (b : Bucket) : Bucket :=
  let t := if sh.rate = 0 then b.tokens else refillTokens b.tokens (sh.rate * lw * 16777216 / 12800) sh.depth
  { tokens := t, atStart := t, passed := false }

/-- Clamp at a period boundary that changes a shaper (R295). -/
def clampTokens (t : Int) (depth : Nat) : Int := max (-(depth * tokenUnit)) (min t (depth * tokenUnit))

def Shaper.clamp (sh : Shaper) (b : Bucket) : Bucket := { b with tokens := clampTokens b.tokens sh.depth }

def Shaper.full (sh : Shaper) : Bucket := { tokens := sh.depth * tokenUnit, atStart := sh.depth * tokenUnit, passed := false }

/-- Port shaper of a logical port (0x5002). -/
def State.portShaper (s : State) (lp : Nat) : Shaper := { rate := s.netAct (lpDie lp) 0x5002 3 lp, depth := s.netAct (lpDie lp) 0x5002 4 lp }

/-- Service shaper (0x5021). -/
def State.serviceShaper (s : State) (lp v : Nat) : Shaper :=
  { rate := s.netAct (lpDie lp) 0x5021 3 (lp * 65536 + v), depth := s.netAct (lpDie lp) 0x5021 4 (lp * 65536 + v) }

/-- Profile a subscriber entry has: its tenant's, or profile 0 for an overflow entry (R291). -/
def State.subProfile (s : State) (x : Subscriber) : Nat := if x.overflow then 0 else s.profileOf x.die x.part x.tenant

/-- Subscriber shaper (0x5022). -/
def State.subShaper (s : State) (x : Subscriber) : Shaper :=
  { rate := s.netAct x.die 0x5022 3 (s.subProfile x * 65536 + x.service), depth := s.netAct x.die 0x5022 4 (s.subProfile x * 65536 + x.service) }

/-- Congestion limiter of a queue pair: R_c and 8,192 bytes (Table 9-6). -/
def Qp.limiter (q : Qp) : Bucket := { tokens := q.tokens, atStart := q.tokens, passed := q.passed }

/-- Whether a frame passes the limiter: before the first of a window its tokens are those of the window's start. -/
def Qp.passes (q : Qp) (x : Nat) : Bool := Shaper.passes { rate := q.rc, depth := 8192 } q.limiter x

/-! ### Subscriber entries (R291) -/

/-- Whether a subscriber entry is the one of an egress entry, its own or its partition's overflow entry. -/
def subIs (e : Egress) (spill : Bool) (x : Subscriber) : Bool :=
  x.lp == e.lp && x.service == e.service && x.part == e.part && x.overflow == spill && (spill || x.tenant == e.tenant)

/-- Subscriber entry an egress entry uses. -/
def State.subOf (s : State) (e : Egress) : Option Subscriber :=
  match s.net.subs.find? (subIs e false) with
  | some x => some x
  | none => s.net.subs.find? (subIs e true)

/-- Gives an egress entry's tenant a subscriber entry: from the pool, or its partition's overflow entry while the pool is empty. -/
def State.ensureSub (s : State) (e : Egress) : State :=
  if s.net.subs.any (subIs e false) then s
  else
    let spill := 16384 ≤ s.net.subs.countP fun x => x.die == lpDie e.lp && !x.overflow
    if spill && s.net.subs.any (subIs e true) then s
    else
      let x : Subscriber := { die := lpDie e.lp, lp := e.lp, service := e.service, part := e.part, tenant := e.tenant, overflow := spill
                              bucket := { tokens := 0, atStart := 0, passed := false }, deficit := 0, lastQp := 0 }
      s.onNet fun n => { n with subs := n.subs ++ [{ x with bucket := (s.subShaper x).full }] }

/-- Returns the entries with no frame waiting and full tokens to their pool. -/
def State.dropIdleSubs (s : State) (die : Nat) : State :=
  let idle := fun (x : Subscriber) => x.die == die && !s.net.egress.any (fun e => s.subOf e == some x)
    && (s.subShaper x).depth * tokenUnit ≤ x.bucket.tokens
  s.onNet fun n => { n with subs := n.subs.filter fun x => !idle x }

/-! ### Choosing a frame (R294) -/

def Wire.isResend (w : Wire) : Bool := match w with | .resend .. => true | _ => false
def Wire.isSend (w : Wire) : Bool := match w with | .message .. => true | _ => false

/-- The message a queue pair may offer in a service: a retransmission first, then the message it has begun, else its first there; after an RNR NAK no
new message (R285, R294, R302). -/
def State.offered (s : State) (q : Qp) (v : Nat) : Option Egress :=
  let mine := s.net.egress.filter fun e => e.qp == q.num
  let e := match mine.find? (·.wire.isResend) with
    | some r => some r
    | none => match mine.find? (fun x : Egress => x.begun) with
      | some b => some b
      | none => mine.find? (·.service == v)
  e.bind fun e => if e.service = v && !(q.rnrHold && e.wire.isSend) then some e else none

/-- Cost of the next frame of a message (R293). -/
def Egress.cost (e : Egress) : Nat := e.frames.headD 0 + 20

/-- Queue pairs from one number on, in round-robin order. -/
def roundFrom (qs : List Qp) (last : Nat) : List Qp := qs.filter (last < ·.num) ++ qs.filter (·.num ≤ last)

/-- What a frame is charged to its partition and class (R289). -/
def Egress.charges (e : Egress) : Cost := { island := netIsland (lpDie e.lp), res := e.lp % 8, row := e.part, cls := e.cls, units := cdiv e.cost 64 }

/-- Whether the budget of a frame's partition and class covers it (R289). -/
def State.frameCharge (s : State) (e : Egress) : Option State := s.charge e.charges

/-- Whether shapers, limiter and pauses let a message's next frame go, its budget apart. -/
def State.frameShaped (s : State) (p : LogicalPort) (x : Subscriber) (q : Qp) (e : Egress) : Bool :=
  q.connected && !p.paused.any (·.1 == q.pcp) && (s.subShaper x).passes x.bucket e.cost
    && (s.serviceShaper p.num e.service).passes (p.services.getD e.service p.port) e.cost && (s.portShaper p.num).passes p.port e.cost && q.passes e.cost

/-- The messages a subscriber offers, its queue pairs in round-robin order (log 51). -/
def State.subOffers (s : State) (p : LogicalPort) (x : Subscriber) : List (Qp × Egress) :=
  (roundFrom (s.net.qps.filter (·.lp == p.num)) x.lastQp).filterMap fun q =>
    (s.offered q x.service).bind fun e => if s.subOf e == some x then some (q, e) else none

/-- The frame a subscriber would send now. -/
def State.subHead (s : State) (p : LogicalPort) (x : Subscriber) : Option (Qp × Egress) :=
  (s.subOffers p x).find? fun qe => s.frameShaped p x qe.1 qe.2 && (s.frameCharge qe.2).isSome

/-- Deficit round-robin: the element served, the cost, and the elements in their next order with their deficits. An element whose frame exceeds its
deficit takes its quantum and goes to the back; one with no frame that can pass goes to the back with its deficit kept (R294). -/
def drr {α : Type} (quantum : α → Nat) (cost : α → Option Nat) : Nat → List (α × Int) → Option (α × List (α × Int))
  | 0, _ => none
  | _, [] => none
  | n + 1, (e, d) :: r => match cost e with
    | some c => if (c : Int) ≤ d then some (e, (e, d - c) :: r) else drr quantum cost n (r ++ [(e, d + quantum e)])
    | none => drr quantum cost n (r ++ [(e, d)])

/-- Subscribers of a service in their order, each with its deficit, and the one that sends. -/
def State.pickSub (s : State) (p : LogicalPort) (v : Nat) : Option (Subscriber × List (Subscriber × Int)) :=
  let xs := s.net.subs.filter fun x => x.lp == p.num && x.service == v
  drr (fun x => 4096 * s.netAct x.die 0x5022 5 (s.subProfile x * 65536 + x.service)) (fun x => (s.subHead p x).map fun qe => qe.2.cost)
    (4 * xs.length) (xs.map fun x => (x, if (s.subOffers p x).isEmpty then 0 else x.deficit))

/-- Frame a service would send. -/
def State.svcHead (s : State) (p : LogicalPort) (v : Nat) : Option (Qp × Egress) := (s.pickSub p v).bind fun x => s.subHead p x.1

/-- Whether any message of a service waits at a logical port. -/
def State.svcWaits (s : State) (lp v : Nat) : Bool := s.net.egress.any fun e => e.lp == lp && e.service == v

/-- The service of one level that sends. -/
def State.pickSvc (s : State) (p : LogicalPort) (level : Nat) : Option (Nat × List (Nat × Int)) :=
  let vs := p.svcOrder.filter fun v => s.netAct (lpDie p.num) 0x5021 5 (p.num * 65536 + v) == level
  drr (fun v => 4096 * s.netAct (lpDie p.num) 0x5021 6 (p.num * 65536 + v)) (fun v => (s.svcHead p v).map fun qe => qe.2.cost) (4 * vs.length)
    (vs.map fun v => (v, if s.svcWaits p.num v then p.svcDeficit.getD v 0 else 0))

/-- Levels 0 to 3 in order. -/
def State.pickLevel (s : State) (p : LogicalPort) : Option (Nat × List (Nat × Int)) := (List.range 4).findSome? fun l => s.pickSvc p l

/-! ### Sending -/

/-- Records the order and deficits a choice leaves. -/
def State.noteChoice (s : State) (p : LogicalPort) (svcs : List (Nat × Int)) (subs : List (Subscriber × Int)) : State :=
  let order := svcs.map (·.1) ++ p.svcOrder.filter fun v => !svcs.any (·.1 == v)
  let s1 := s.onLp p.num fun x =>
    { x with svcOrder := order
             svcDeficit := svcs.foldl (fun (l : List Int) (a : Nat × Int) => l.set a.1 a.2) x.svcDeficit }
  s1.onNet fun n =>
    { n with subs := (n.subs.filter fun x => !subs.any (·.1 == x)) ++ subs.map fun a => { a.1 with deficit := a.2 } }

/-- Takes a frame's cost from the shapers and the limiter on its path. -/
def State.takeTokens (s : State) (p : LogicalPort) (x : Subscriber) (q : Qp) (e : Egress) : State :=
  let c := e.cost
  let s1 := s.onLp p.num fun y =>
    { y with port := (s.portShaper p.num).take y.port c
             services := y.services.set e.service ((s.serviceShaper p.num e.service).take (y.services.getD e.service y.port) c) }
  let s2 := s1.onNet fun n => { n with subs := mapIf (subIs e x.overflow) (fun y => { y with bucket := (s.subShaper x).take y.bucket c, lastQp := q.num }) n.subs }
  s2.onQp q.num fun y => { y with tokens := y.tokens - c * tokenUnit, passed := true }

/-- Counts a frame sent; a packet of the device's own stream now waits for its acknowledgement, a read for its response (R288, R300, R302). -/
def State.countFrame (s : State) (x : Subscriber) (q : Qp) (e : Egress) : State :=
  let l := e.frames.headD 0
  let s1 := ((s.bump 0x5002 8 e.lp l).bump 0x5100 (3 + e.service) (e.part * 65536 + e.tenant) l)
  let s2 := if x.overflow then s1.bump 0x5003 7 e.part 1 else s1
  let fresh := match e.wire with | .resend .. => false | .read .. => false | _ => true
  if fresh then s2.onQp q.num fun y =>
    { y with unacked := y.unacked ++ [l], sentCount := y.sentCount + 1, bytesSince := y.bytesSince + l, ackUs := if y.unacked.isEmpty then s.us else y.ackUs }
  else s2

/-- A message's frame leaves; with the last one the message has been sent (R274, R384). -/
def State.advance (s : State) (q : Qp) (e : Egress) : State :=
  match e.frames.tail with
  | [] =>
    let s1 := (s.onNet fun n => { n with egress := n.egress.filter (·.id != e.id) }).emit e.lp e.wire
    let s2 := match e.frees with
      | none => s1
      | some r => s1.onBroker fun b => { b with peerPages := mapIf (·.ref == r) (fun y => { y with freeAt := some (q.num, q.sentCount + 1) }) b.peerPages }
    (match e.wire with
      | .message _ m => s2.meterBytes e.part e.tenant m.bytes
      | .ringEntry _ _ _ _ (some m) => s2.meterBytes e.part e.tenant m.bytes
      | _ => s2)
  | rest => s.onNet fun n => { n with egress := mapIf (·.id == e.id) (fun y => { y with frames := rest, begun := true }) n.egress }

/-- Sends the chosen frame of a service. -/
def State.sendFrame (s : State) (p : LogicalPort) (v : Nat) (svcs : List (Nat × Int)) : State :=
  match s.pickSub p v with
  | none => s
  | some (x, subs) => match s.subHead p x with
    | none => s
    | some (q, e) => match s.frameCharge e with
      | none => s
      | some s1 => ((((s1.takeTokens p x q e).noteChoice p svcs (subs.map fun a =>
          (if a.1 == x then { a.1 with bucket := (s.subShaper x).take x.bucket e.cost, lastQp := q.num } else a.1, a.2))).countFrame x q e).advance q e).dropIdleSubs (lpDie p.num)

/-- Messages that only their budget holds back wait under R36. -/
def State.markEgress (s : State) (p : LogicalPort) : State :=
  let held := (s.net.subs.filter (·.lp == p.num)).flatMap fun x => (s.subOffers p x).filter fun qe => s.frameShaped p x qe.1 qe.2
  s.each held fun s qe => s.markWait qe.2.charges

/-- Priority of a control frame; PFC frames are never paused, and a rejection has no queue pair to take one from (R289, R299, R301). -/
def State.controlPriority (s : State) (w : Wire) : Option Nat :=
  let of := fun (n : Nat) => (s.qp n).map (·.pcp)
  match w with
  | .cnp _ => some (s.rw 0x5010 2 0)
  | .ack q => of q
  | .nakInvalid q => of q
  | .nakAccess q _ => of q
  | .rnrNak q _ => of q
  | .cmRep q _ => of q
  | .cmDrep q => of q
  | _ => none

/-- First control frame whose priority is not paused. -/
def State.controlHead (s : State) (p : LogicalPort) : Option (Nat × Wire) :=
  (p.control.zipIdx.find? fun w => match s.controlPriority w.1 with
    | some c => !p.paused.any (·.1 == c)
    | none => true).map fun w => (w.2, w.1)

/-- EGRESS_FRAME_SEND (R289, R294). -/
def execEgressFrameSend (lp : Nat) (s : State) : Result :=
  s.portEvent lp fun s p =>
    if p.link ≠ 2 then s
    else match s.controlHead p with
      | some (i, w) => (s.onLp lp fun x => { x with control := x.control.eraseIdx i }).emit lp w
      | none =>
        let s1 := s.each (s.net.egress.filter (·.lp == lp)) fun s e => s.ensureSub e
        match s1.pickLevel p with
        | some (v, svcs) => s1.sendFrame p v svcs
        | none => s1.markEgress p

/-! ### Windows (R292, R295) -/

/-- Policer parameters of a policer entry: byte rate and burst, message rate and burst (R291, Table 9-6). -/
def State.policerShapers (s : State) (x : Policer) : Shaper × Shaper :=
  let item := (if x.overflow then 0 else s.profileOf x.die x.part x.tenant) * 65536
  ({ rate := s.netAct x.die 0x5022 6 item, depth := s.netAct x.die 0x5022 7 item },
    { rate := s.netAct x.die 0x5022 8 item, depth := s.netAct x.die 0x5022 9 item })

/-- Tokens of a policer at a window's start; `per` is what one unit of rate is worth over 12,800 or 1,600,000,000 cycles (R292, R295). -/
def policerWindow (old new : Shaper) (lw per : Nat) (t : Int) : Int :=
  let c := if old = new then t else clampTokens t new.depth
  if new.rate = 0 then c else refillTokens c (new.rate * lw * 16777216 / per) new.depth

/-- Every bucket of a network island refilled at a window's start; those whose parameters differ from what `old` had are clamped first (R295). -/
def State.openWindow (s : State) (old : State) (die : Nat) : State :=
  let lw := s.netAct die 0x5020 1 0
  let turn := fun (o n : Shaper) (b : Bucket) => n.window lw (if o = n then b else n.clamp b)
  let ports := fun (p : LogicalPort) =>
    { p with port := turn (old.portShaper p.num) (s.portShaper p.num) p.port
             services := p.services.zipIdx.map fun b => turn (old.serviceShaper p.num b.2) (s.serviceShaper p.num b.2) b.1 }
  let pol := fun (x : Policer) =>
    let o := old.policerShapers x
    let n := s.policerShapers x
    { x with bytes := policerWindow o.1 n.1 lw 12800 x.bytes, msgs := policerWindow o.2 n.2 lw 1600000000 x.msgs }
  let idle := fun (x : Policer) =>
    let n := s.policerShapers x
    x.die == die && n.1.depth * tokenUnit ≤ x.bytes && n.2.depth * tokenUnit ≤ x.msgs
  (s.onNet fun n =>
    { n with lps := mapIf (fun p => lpDie p.num == die) ports n.lps
             subs := mapIf (·.die == die) (fun x => { x with bucket := turn (old.subShaper x) (s.subShaper x) x.bucket }) n.subs
             qps := mapIf (fun q => lpDie q.lp == die)
               (fun q => { q with tokens := refillTokens q.tokens (q.rc * lw * 16777216 / 12800000000) 8192, passed := false }) n.qps
             policers := (mapIf (·.die == die) pol n.policers).filter fun x => !idle x }).dropIdleSubs die

/-- SHAPER_WINDOW_BOUNDARY (R292). -/
def execShaperWindowBoundary (die : Nat) (s : State) : Result :=
  s.event fun s => if s.diePresent die then s.openWindow s die else s

end Sys2Proof.Machine
end

