-- ==== Sys2Proof/Machine/Moves.lean ====
section
/-!
DEFINITION. Pages that move: the age scanner, packing, copies to flash, Kerf encoding and archiving, drains, evacuation, shootdowns, head-table growth, and
the packer's code tables (R52, R58, R68 to R73, R127, R128, R187 to R198, R208, R212, R220, R238, R240, R312).
-/
namespace Sys2Proof.Machine

/-! ### Ages (R73, R192, R208) -/

/-- Whether the Kerf transition of a page is due (R71, R208). -/
def State.kerfDue (s : State) (q : Seq) (p : Page) : Bool :=
  s.act 0x2502 2 q.part == 1 && p.tier == .flash && !p.lost && p.fmt != 11 && q.tail != some p.index
    && ageCrossed s.ms q.lastTouch (s.ageOf q.part .kerf) p.kerfTried

/-- Whether the archive transition of a page is due (R71, Table 2-8). -/
def State.archiveDue (s : State) (q : Seq) (p : Page) : Bool :=
  p.tier == .flash && !p.lost && q.tail != some p.index && s.act 0x3001 4 0 != 0 && ageReached s.ms q.lastTouch (s.ageOf q.part .archive)
    && !s.inTlc p.frame

/-- The transition by age of a page that is due now, the farthest of Table 2-8 first; demotion and write-back pause without flash room
(R71, R73, R212, R238, R240). -/
def State.dueMove (s : State) (q : Seq) (p : Page) : Option MoveKind :=
  let reached := fun k => ageReached s.ms q.lastTouch (s.ageOf q.part k)
  let paused := s.flashReadOnly || s.quotaFull q.part
  if p.lost then none
  else if p.tier == .flash then
    (if s.flashReadOnly then none else if s.kerfDue q p then some .kerf else if s.archiveDue q p then some .archive else none)
  else if p.tier != .hbm then none
  else if !p.pinned && reached (.demote 2) && ((!p.dirty && p.copy.isSome) || !paused) then some (.demote 2)
  else if p.dirty && p.valid == 64 && reached .writeBack && !paused then some .writeBack
  else if !p.packed && packable p.fmt && p.valid == 64 && q.tail != some p.index && s.act 0x2501 2 q.part == 1
      && ageCrossed s.ms q.lastTouch (s.ageOf q.part .pack) p.packTried then some .pack
  else none

/-- Starts the read a Kerf or archive move needs (R208). -/
def State.readForMove (s : State) (q : Seq) (p : Page) (kind : MoveKind) : State :=
  let k := keyOf q p
  match kind with
  | .kerf => (s.startRead p.frame p.flashPages q.part 2 (.kerf k)).onPage k fun x => { x with kerfTried := s.ms }
  | .archive => s.startRead p.frame p.flashPages q.part 2 (.archive k)
  | _ => s

/-- Whether a page's pin count keeps a move off: any count does, but a write-back, which moves no page, only meets the lock (R68, Table 2-8). -/
def barred (kind : MoveKind) (p : Page) : Bool := if kind == .writeBack then p.pins == 255 else p.pins != 0

/-- Starts a page's move; a page that is pinned by a tile or moving is skipped (R68). -/
def State.startMove (s : State) (q : Seq) (p : Page) (kind : MoveKind) : State :=
  if barred kind p then s.bump 0x2104 0x0D 0 1
  else if s.work.moves.any fun m => m.page == keyOf q p then s
  else (s.addMove (keyOf q p) kind).readForMove q p kind

/-- Starts every transition of a sequence's pages that is due, its batches taking their units (R73, R220). -/
def State.scanSeq (s : State) (q : Seq) : State :=
  let s1 := (s.onSeq q.handle fun x => { x with scanned := some s.ms }).each q.pages fun s p => match s.dueMove q p with
    | some k => s.startMove q p k
    | none => s
  s1.assignBatch q.handle (fun k => k == .demote 2 || k == .writeBack) .coarse

/-- Whether the scan interval since the scanner's last visit of a sequence has passed (R73, 0x2101.0A; log 165). -/
def State.scanDue (s : State) (q : Seq) : Bool := match q.scanned with
  | none => true
  | some t => t + s.rw 0x2101 0x0A q.part ≤ s.ms

/-- AGE_SCAN_VISIT: a visit that is due, within the management budget of the device row, of which it takes one slot (R73; log 162). -/
def execAgeScanVisit (handle : W64) (s : State) : Result :=
  s.event fun s => match s.seq handle.toNat with
    | none => s
    | some q => if s.scanDue q then s.charged [managementCost 64 7 1] fun s => s.scanSeq q else s

/-! ### One move (R68) -/

def State.move (s : State) (id : Nat) : Option Move := s.work.moves.find? (·.id == id)
def State.onMove (s : State) (id : Nat) (f : Move → Move) : State := s.onWork fun w => { w with moves := mapIf (·.id == id) f w.moves }

/-- Gives a move up: the logical pages its batch gave it are freed. -/
def State.dropMove (s : State) (m : Move) (p : Option Page) : State :=
  let s1 := match m.lpn, p with
    | some l, some x => s.freeLpn l (m.flashPages x)
    | some l, none => s.freeLpn l 1
    | none, _ => s
  s1.endMove m.page

/-- Records the write sequence of a unit's first row in its coarse entry (Table 7-3). -/
def State.unitSeq (s : State) (i sb slot lpn : Nat) : State :=
  match s.sb i sb with
  | none => s
  | some b =>
    let mine := fun (c : CoarseEntry) => c.unit == lpn / 256 && c.sb == sb && b.row c.start == b.row slot
    let first := (s.flash.pages.find? fun x => x.island == i && x.sb == sb && x.slot == slot).map (·.wseq)
    s.onFlash fun f => { f with coarse := mapIf mine (fun c => { c with wseq := first.getD c.wseq }) f.coarse }

/-- Whether a placed move must wait: the slots of its unit are programmed in order, and one before its own is still to come (R216, R220). -/
def State.slotWaits (s : State) (m : Move) : Bool :=
  match m.place with
  | none => false
  | some (i, n, slot) => s.work.moves.any fun y => !y.begun && y.place.any fun z => z.1 == i && z.2.1 == n && z.2.2 / 256 == slot / 256 && z.2.2 < slot

/-- A move's programs have been issued, for the logical pages that begin at `l`. -/
def State.beginProgram (s : State) (m : Move) (l k : Nat) : State := (s.noteWrites k 0).onMove m.id fun x => { x with begun := true, lpn := some l }

/-- Programs a page's copy as its batch placed it, in slot order, or as fine pages; it waits while its class may issue no program (R213, R216, R220, R233). -/
def State.programMove (s : State) (m : Move) (q : Seq) (p : Page) (cls : Nat) (archive : Bool) (why : ProgramFor) (bs : List Byte) : State :=
  let k := p.flashPages
  let i := match m.place with
    | some x => x.1
    | none => s.nextIsland
  if s.slotWaits m then s
  else match s.chargeProgram i q.part cls archive k with
    | none => s.markWait (flashCost i q.part cls (k * s.programCycles i archive))
    | some s1 => match m.lpn, m.place with
      | some l, some (_, n, slot) => ((s1.programData i n slot q p l why bs).unitSeq i n slot l).beginProgram m l k
      | _, _ => match s1.programFine i (if archive then .archive else .fine) q p why bs with
        | none => s
        | some r => r.2.beginProgram m r.1 k

/-- Copies a page to flash, or finishes at once with the copy it has: its lock is taken first when it is not full (R68, R70). -/
def State.copyOut (s : State) (m : Move) (q : Seq) (p : Page) (cls : Nat) : State :=
  match (if p.dirty then none else p.copy) with
  | some l => (s.toFlash m.page l).dropMove m (some p)
  | none =>
    let s1 := s.programMove m q p cls false (.demote m.page) (s.hbmBytes p)
    if p.valid < 64 && ((s1.move m.id).map (·.begun)).getD false then s1.onPage m.page fun x => { x with pins := 255 } else s1

/-- Counts a page's symbols into its partition's accumulator (R193). -/
def State.gather (s : State) (p fmt : Nat) (raw : List Byte) : State :=
  s.onPacker p fun x => { x with acc := (symbolCounts fmt raw).foldl (fun a y => sadd a y.1 y.2) x.acc, accPages := x.accPages + 1 }

/-- What reading a page of HBM costs a move: its bursts, to the partition's stage class at the page's channel (R193, R312). -/
def State.readCost (_ : State) (q : Seq) (p : Page) : Cost := burstCost p.frame q.part 2 (cdiv p.stored 64)

/-- The packer's first pass over a page: its symbols are counted, and the page is not tried again before its time (R192, R193). -/
def State.passOver (s : State) (m : Move) (q : Seq) (p : Page) (raw : List Byte) : State :=
  (((s.gather q.part p.fmt raw).onPage m.page fun x => { x with packTried := s.ms }).endMove m.page).meterBursts q.part q.tenant (cdiv raw.length 64)

/-- A packed image replaces its page's frames: entry written, the old place shot down, the flash copy freed (R68, R70, Table 2-8). -/
def State.storePacked (s : State) (m : Move) (q : Seq) (p : Page) (gen a : Nat) (img : List Byte) : State :=
  (((((s.putBytes a img).shootPage q.part m.page p).freeCopy p).onPage m.page fun x =>
    { x with packed := true, gen := gen, frame := a, frames := [], imageLen := img.length, dirty := true, copy := none
             copyFreed := if p.copy.isSome then some s.us else x.copyFreed }).bump 0x2104 0x0C 0 1).meterBursts q.part q.tenant (cdiv img.length 64)

/-- Packs a page with the newest tables, or leaves it unpacked; the pass over it is charged either way (R191 to R194). -/
def State.packPage (s : State) (m : Move) (q : Seq) (p : Page) : State :=
  let gen := (s.packer q.part).newest
  let raw := s.hbmBytes p
  let t := s.tablesOf q.part gen p.fmt
  let img := codedImage p.fmt gen t.1 t.2 raw
  let run := fun (s : State) => s.takeRun q.part p.index (runCount img.1.length) 0
  if !packWorth p.fmt img.1 then s.charged [s.readCost q p] fun s => (s.passOver m q p raw).bump 0x2501 0x0C q.part 1
  else match run s with
    | none => s.charged [s.readCost q p] fun s => (s.passOver m q p raw).bump 0x2104 0x0D 0 1
    | some x => s.charged [s.readCost q p, burstCost x.1 q.part 2 (cdiv img.1.length 64)] fun s => match run s with
      | none => s
      | some (a, s2) =>
        ((((s2.passOver m q p raw).storePacked m q p gen a img.1).bump 0x2501 0x0B q.part 1).bump 0x2501 0x0D q.part img.2).bump 0x2501 0x0E
          q.part raw.length |>.bump 0x2501 0x0F q.part img.1.length

/-- Places for a page elsewhere in HBM, out of an extent: the granule address, its frames unless it is packed, and the state with them taken (R51). -/
def State.newPlace (s : State) (q : Seq) (p : Page) (avoid : Nat) : Option (Nat × List Nat × State) :=
  if p.packed then (s.takeRun q.part p.index (runCount p.imageLen) avoid).map fun x => (x.1, [], x.2)
  else (s.findOpen q.part p.index (fmtFrames p.fmt)).map fun fs => (frameGranule (fs.headD 0), fs, s.takeFrames fs)

/-- Re-places a page elsewhere in HBM, out of `avoid`, and goes on with `k` when that is done, or leaves it waiting for its charge; none when there is no room
(R52, R68, R312). -/
def State.rePlace (s : State) (q : Seq) (p : Page) (avoid : Nat) (k : State → State) : Option State :=
  let n := cdiv p.stored 64
  (s.newPlace q p avoid).map fun x => s.charged [s.readCost q p, burstCost x.1 q.part 2 n] fun s => match s.newPlace q p avoid with
    | none => s
    | some (a, fs, s2) => k (((((s2.putBytes a (s.hbmBytes p)).shootPage q.part (keyOf q p) p).onPage (keyOf q p) fun y =>
        { y with frame := a, frames := fs }).bump 0x2104 0x0C 0 1).meterBursts q.part q.tenant (2 * n))

/-- Whether a page lies in a channel of a slice that its partition drains (R311). -/
def State.onDraining (s : State) (p : Page) : Bool :=
  p.tier == .hbm && ((s.sliceOf (channelSlice (frameChannel (granuleFrame p.frame)))).map (·.st == .draining)).getD false

/-- Demotes a page of a draining slice for which HBM has no room, with the batch of its sequence's drain (R220, R312). -/
def State.drainOut (s : State) (m : Move) (q : Seq) (p : Page) : State :=
  let s1 := if m.lpn.isNone then s.assignBatch m.page.handle (· == .drain) .coarse else s
  match s1.move m.id with
  | none => s1
  | some x => s1.copyOut x q p 2

/-- Moves a page out of a draining slice: elsewhere in HBM, else to flash, else dropped with reason 4 or 5 (R312). -/
def State.drainPage (s : State) (m : Move) (q : Seq) (p : Page) : State :=
  if !s.onDraining p then s.dropMove m (some p)
  else match s.rePlace q p 0 fun s => s.dropMove m (some p) with
    | some s1 => s1
    | none =>
      if !p.dirty && p.copy.isSome then s.copyOut m q p 2
      else if s.flashReadOnly then ((s.bump 0x3007 5 q.part 1).lose m.page 4).dropMove m (some p)
      else if s.quotaFull q.part then ((s.bump 0x3007 6 q.part 1).lose m.page 5).dropMove m (some p)
      else s.drainOut m q p

/-- Makes one move (R68) (log 78). -/
def State.makeMove (s : State) (m : Move) (q : Seq) (p : Page) : State :=
  match m.kind with
  | .pack => s.packPage m q p
  | .writeBack => s.programMove m q p 2 false (.writeBack m.page) (s.hbmBytes p)
  | .demote c => s.copyOut m q p c
  | .kerf => s.programMove m q { p with fmt := 11, packed := false, gen := 0, imageLen := 9216 } 2 false (.kerf m.page) m.image
  | .archive => s.programMove m q p 2 true (.archive m.page) m.image
  | .drain => s.drainPage m q p

/-- A move skipped for a pin gives its place in its unit up, so that the slots after it need not wait (R68, R220). -/
def State.skipMove (s : State) (m : Move) : State :=
  let s1 := s.bump 0x2104 0x0D 0 1
  match m.place with
  | some (i, n, slot) => s1.unplace i n [slot]
  | none => s1

/-- PAGE_MOVE (R68). A page whose pin count is nonzero is skipped until the next try. -/
def execPageMove (id : Nat) (s : State) : Result :=
  s.event fun s => match s.move id with
    | none => s
    | some m =>
      match s.seq m.page.handle, s.page m.page with
      | some q, some p =>
        if m.begun || !m.ready then s
        else if p.lost || !s.moveStands m q p then s.dropMove m (some p)
        else if barred m.kind p then s.skipMove m
        else s.makeMove m q p
      | _, _ => s.dropMove m none

/-- SHOOTDOWN_COMPLETE: what it names is in no buffer any longer, and its places may be taken again (R69). -/
def execShootdownComplete (id : Nat) (s : State) : Result :=
  s.event fun s => match s.hbm.shootdowns.find? (·.id == id) with
    | none => s
    | some d => s.shootdownDone d

/-- Pages a packed extent holds. -/
def State.extentPages (s : State) (e : Extent) : List (Seq × Page) :=
  s.seqs.flatMap fun q => (q.pages.filter fun p => p.tier == .hbm && p.packed && frameGranule e.base ≤ p.frame && p.frame < frameGranule e.base + 2048).map
    fun p => (q, p)

/-- EXTENT_EVACUATION: the pages of a packed extent below its partition's threshold are re-placed under the move rules; the extent is freed with the last
shootdown (R52, R68). -/
def execExtentEvacuation (extent : Nat) (s : State) : Result :=
  s.event fun s => match s.extent extent with
    | none => s
    | some e =>
      if 100 * s.liveIn e < s.rw 0x2101 0x0C e.part * 2048 then
        s.each (s.extentPages e) fun s x => if x.2.pins ≠ 0 then s.bump 0x2104 0x0D 0 1 else (s.rePlace x.1 x.2 e.id id).getD s
      else s

/-- A sequence's head tables of doubled capacity, when there are frames for them; the old ones are shot down and then free (R58). -/
def State.growHeads (s : State) (q : Seq) : State :=
  let s1 := (s.onSeq q.handle fun x => { x with capacity := min 1024 (2 * x.capacity) }).fitFixed q.handle
  if ((s1.seq q.handle).map Seq.fitted).getD false then s1 else s

/-- HEAD_TABLE_GROWTH: capacity doubles once the sealed position reaches three quarters of it, and appends that waited for it go on (R58). -/
def execHeadTableGrowth (handle : W64) (s : State) : Result :=
  s.event fun s => match s.seq handle.toNat with
    | none => s
    | some q =>
      if q.capacity < 1024 && 3 * q.capacity * 4096 ≤ 4 * (q.sealedPos - q.posBase) then
        let s1 := s.growHeads q
        match s1.work.appends.find? fun a => a.handle == q.handle && a.phase == .growth with
        | some a => if ((s1.seq q.handle).map (·.capacity)) == some q.capacity then s1 else s1.beginAlloc a.id
        | none => s1
      else s

/-! ### Code tables (R194 to R198) -/

/-- Whether a flash page is the first of a packed copy whose location has been written and which no entry names yet. -/
def FlashPage.coming (x : FlashPage) (p gen : Nat) : Bool :=
  x.kind == .data && x.part == p && x.packed && x.gen == gen && x.valid && 0 < x.count && (match x.why with
    | .none_ => false
    | .relocate .. => false
    | .relocateUnit .. => false
    | _ => true)

/-- Stored copies that name a slot of a partition: those of page entries and shadows, those written whose entry is still to come, and those whose shootdown has
not completed (R194, R198). -/
def State.slotCount (s : State) (p gen : Nat) : Nat :=
  sumOf (fun (q : Seq) => if q.part = p then q.pages.countP fun x => x.packed && x.gen == gen && (x.tier == .hbm || x.tier == .flash) else 0) s.seqs
    + sumOf (fun (q : Seq) => if q.part = p then q.pages.countP fun x => x.packed && x.gen == gen && x.tier == .hbm && x.copy.isSome else 0) s.seqs
    + s.flash.pages.countP (·.coming p gen)
    + sumOf (fun (d : Shootdown) => if d.part = p then d.gens.countP (· == gen) else 0) s.hbm.shootdowns

/-- Slot a new set goes into: count 0, not the newest, installed longest ago (R196). -/
def State.tableSlot (s : State) (k : Packer) : Option Nat :=
  (((List.range k.slots.length).zip k.slots).filter fun x => x.1 != k.newest && s.slotCount k.part x.1 == 0).foldl
    (fun (acc : Option (Nat × TableSlot)) x => match acc with
      | none => some x
      | some y => if x.2.installed < y.2.installed then some x else some y) none |>.map (·.1)

/-- TABLE_BUILD: the accumulator has gathered the table build count, and a set is built, which takes one management slot of the partition's class 6 (log 162),
or the build is deferred (R195, R197). -/
def execTableBuild (partition : Nat) (s : State) : Result :=
  s.event fun s =>
    let k := s.packer partition
    let n := s.act 0x2501 3 partition
    if n = 0 || k.accPages < k.accTried + n || k.pending.isSome then s
    else match s.tableSlot k with
      | none => (s.onPacker partition fun x => { x with accTried := x.accPages }).bump 0x2501 0x0A partition 1
      | some i => s.charged [managementCost partition 6 1] fun s =>
        (s.onPacker partition fun x => { x with pending := some (i, buildTables x.acc), acc := [], accPages := 0, accTried := 0 }).bump 0x2501 9 partition 1

/-- TABLE_SET_INSTALLED: every island has acknowledged the set, and its slot is the newest (R196). -/
def execTableSetInstalled (partition : Nat) (s : State) : Result :=
  s.event fun s =>
    let k := s.packer partition
    match k.pending with
    | none => s
    | some (i, t) => s.onPacker partition fun x =>
        { x with pending := none, newest := i, installs := x.installs + 1, slots := setAt x.slots i { tables := t, installed := x.installs + 1 } }

end Sys2Proof.Machine
end

