-- ==== Sys2Proof/Machine/FlashCmds.lean ====
section
/-!
DEFINITION. The flash islands' events: confirmations, pads, reads and their ladder, block failures, garbage collection, erasure, the journal, checkpoints,
patrol, secure releases and die temperatures; and HBM patrol scrub (R49, R96, R213 to R242, R378).
-/
namespace Sys2Proof.Machine

/-- Runs an event of a flash island of the configuration that is not disabled. -/
def State.flashEvent (s : State) (num : Nat) (run : Nat → State → State) : Result :=
  s.event fun s =>
    if (num = 15 || (num = 33 && s.dev.part == .al)) && ((s.fisland (flashIndex num)).map fun f => !f.disabled).getD false then run (flashIndex num) s else s

/-- The data or parity pages of a row have passed: its pages are confirmed (R216). -/
def execFlashProgramConfirm (island superblock row : Nat) (s : State) : Result :=
  s.flashEvent island fun i s => s.confirmRows i superblock row

/-- A row begun and not filled in time is padded, and its parity programmed (R216). -/
def execRowPadTimeout (island superblock row : Nat) (s : State) : Result :=
  s.flashEvent island fun i s => if s.padDue i superblock row then s.padRow i superblock row else s

/-! ### Reads (R217, R224, R226) -/

/-- Bin of the corrected-bit histogram (0x3102). -/
def correctedBin (c : Nat) : Nat :=
  if c = 0 then 0 else if c ≤ 8 then 1 else if c ≤ 16 then 2 else if c ≤ 32 then 3 else if c ≤ 48 then 4 else if c ≤ 64 then 5 else if c ≤ 96 then 6 else 7

/-- Address a flash die's record carries (R361). -/
def flashAddress (b : Superblock) (slot : Nat) : Nat :=
  packBits [(10, b.dieOf slot), (15, ((b.members[b.memberOf slot]?).map (·.2)).getD 0), (13, b.row slot), (10, 0)]

/-- Counts a read and reports what R361 to R364 have it report. A page out of reach is rebuilt at once and goes through no step of the ladder (R217). -/
def State.noteRead (s : State) (b : Superblock) (slot : Nat) (v : FlashVerdict) : State :=
  let steps := if s.slotAway b slot then 0 else match v with | .pass n _ => n | .unreadable => 8
  let s1 := s.each (List.range steps) fun s k => s.bump 0x3102 2 (8 + k) 1
  match v with
  | .pass n c =>
    if n ≥ 8 then (s1.bump 0x3100 0x0D 0 1).reportUnit (srcDie (b.dieOf slot)) 0x12 0 (flashAddress b slot)
    else
      let s2 := s1.bump 0x3102 2 (correctedBin c) 1
      if s.rw 0x3100 0x10 0 < c then s2.reportUnit (srcDie (b.dieOf slot)) 0x10 c (flashAddress b slot) else s2
  | .unreadable => s1.reportUnit (srcDie (b.dieOf slot)) 0x11 8 (flashAddress b slot)

/-- What the steps of the ladder after a page's first read cost: the added times of Table 7-7 to the read's own class, and a reconstruction to the device row's
class 4 (R213, R226). -/
def State.ladderCosts (s : State) (b : Superblock) (slot p c : Nat) (v : FlashVerdict) : List Cost :=
  let n := match v with | .pass n _ => n | .unreadable => 8
  if s.slotAway b slot then []
  else [flashCost b.island p c (s.cyclesOf b.island ((if b.tlc then 2 else 1) * (30000 * min n 6 + if 7 ≤ n then 100000 else 0)))]
    ++ if 8 ≤ n then [s.rebuildCost b] else []

/-- A clean page in HBM that failed its check is restored from its copy's bytes in a new frame, the old place shot down; without a frame it stays on flash
(R68, R96, Table 2-9). -/
def State.restoreClean (s : State) (k : PageKey) (lpn : Nat) (bs : List Byte) : State :=
  match s.seq k.handle, s.page k with
  | some q, some p =>
    if p.tier != .hbm || p.pins != 255 then s
    else match s.newPlace q p 0 with
      | some (a, fs, s1) => (((s1.shootPage q.part k p).putBytes a bs).onPage k fun x => { x with frame := a, frames := fs, pins := 0 }).bump 0x2104 0x0E 0 1
      | none => s.toFlash k lpn
  | _, _ => s

/-- Encodes a page read for the Kerf transition and keeps it for its batch, or leaves the page as it was (R203 to R208). -/
def State.kerfRead (s : State) (m : Move) (q : Seq) (p : Page) (bs : List Byte) : State :=
  let t := s.tablesOf q.part p.gen p.fmt
  match (if p.packed then expandImage p.fmt t.1 t.2 bs else some bs) with
  | none => s.dropMove m (some p)
  | some raw =>
    if !pageFinite p.fmt p.valid raw then (s.bump 0x2502 7 q.part 1).dropMove m (some p)
    else
      let e := kerfEncode p.fmt p.valid (s.act 0x2502 4 q.part) s.ms raw
      if !e.classes.testBit (s.act 0x2502 3 q.part) then (s.bump 0x2502 6 q.part 1).dropMove m (some p)
      else
        (((s.bump 0x2502 5 q.part 1).bump 0x2502 8 q.part e.outliers).peak 0x2502 9 q.part
          (if e.amax = 0 then 0 else encFp32.round (e.kappa * 2 ^ 160 / e.amax) 0)).onMove m.id fun x => { x with ready := true, image := e.bytes }

/-- A flash page read for a Kerf or archive move is at hand; the last of its sequence's batch fixes the batch's units (R220). -/
def State.moveRead (s : State) (k : PageKey) (kind : MoveKind) (bs : List Byte) : State :=
  match s.work.moves.find? (fun m => m.page == k && m.kind == kind), s.seq k.handle, s.page k with
  | some m, some q, some p =>
    let s1 := if p.tier != .flash then s.dropMove m (some p)
      else if kind == .kerf then s.kerfRead m q p bs
      else s.onMove m.id fun x => { x with ready := true, image := bs }
    if s1.work.moves.any fun x => x.page.handle == k.handle && x.kind == kind && !x.ready then s1
    else s1.assignBatch k.handle (· == kind) (if kind == .kerf then .coarse else .archive)
  | _, _, _ => s

/-- Ends a read whose page is unreadable (R96, R136, R226) (log 103). -/
def State.readFails (s : State) (r : FlashRead) (die : Nat) : State :=
  match r.why with
  | .staging id => (s.failStaging id 3 (srcDie die)).bump 0x3100 0x0A 0 1
  | .restore k => (match s.page k with
    | some p => if p.tier == .hbm && p.pins = 255 then s.losePage k 1 (srcDie die) else s
    | none => s)
  | .kerf k => (match s.work.moves.find? (·.page == k) with
    | some m => (s.dropMove m none).flashLost k die
    | none => s)
  | .archive k => (match s.work.moves.find? (·.page == k) with
    | some m => (s.dropMove m none).flashLost k die
    | none => s)

/-- Hands a read page to what it was read for. -/
def State.readArrives (s : State) (r : FlashRead) : State :=
  let bs := s.flashBytes r.lpn r.n
  let cut := fun (k : PageKey) => match s.page k with
    | some p => bs.take p.stored
    | none => bs
  match r.why with
  | .staging id => s.onStaging id fun g => { g with verified := true, image := cut g.page }
  | .restore k => s.restoreClean k r.lpn (cut k)
  | .kerf k => s.moveRead k .kerf (cut k)
  | .archive k => s.moveRead k .archive bs

/-- Takes one logical page of a read in: counted, its ladder charged, and the die it was lost on when it is unreadable (R224, R226). A page the maps do not name,
or whose tag is not acceptable, is unreadable. -/
def State.endFlashRead (s : State) (r : FlashRead) (lpn : Nat) (verdict : FlashVerdict) : Option Nat × State :=
  match s.slotOf lpn with
  | none => (some 0, s)
  | some x => match s.sb x.island x.sb with
    | none => (some 0, s)
    | some b =>
      let v := s.readVerdict b x.slot verdict
      ((match v with
        | .pass _ _ => none
        | .unreadable => some (b.dieOf x.slot)), (s.noteRead b x.slot v).oweAll (s.ladderCosts b x.slot r.part r.cls v))

/-- Ends the reads of several pages, and says why the first of them that failed did. -/
def State.endFlashReads (s : State) (r : FlashRead) (verdict : FlashVerdict) (l : List Nat) : Option Nat × State :=
  l.foldl (fun (acc : Option Nat × State) lpn => ((acc.1.or (acc.2.endFlashRead r lpn verdict).1), (acc.2.endFlashRead r lpn verdict).2)) (none, s)

/-- A flash read that has been issued ends: every logical page accepted, by whatever step of the ladder, or one unreadable (R224, R226). -/
def execFlashReadComplete (id : Nat) (verdict : FlashVerdict) (s : State) : Result :=
  s.event fun s => match s.flash.reads.find? fun r => r.id == id && r.issued with
    | none => s
    | some r =>
      let s1 := s.onFlash fun f => { f with reads := f.reads.filter (·.id != id) }
      match s1.endFlashReads r verdict (s1.lpnSpan r.lpn r.n) with
      | (none, s2) => s2.readArrives r
      | (some d, s2) => s2.readFails r d

/-! ### Block failures (R235 to R237) -/

/-- Blocks set aside on a die that are not in use, and those that became spares since, by block key (R231, R235). -/
def State.spares (s : State) (i g ch : Nat) : List Nat :=
  (((List.range (sparesPerDie s.flash)).map fun j => blockKey i g ch (s.flash.blocksPerDie - sparesPerDie s.flash + j)).filter fun k =>
    !s.flash.spareTaken.contains k) ++ s.flash.spareAdded.filter fun k => k / 32768 == blockKey i g ch 0 / 32768

/-- Spare with the least wear, lowest number first (R231). -/
def State.bestSpare (s : State) (i g ch : Nat) : Option Nat :=
  (sortNat (s.spares i g ch)).foldl (fun (acc : Option Nat) k => match acc with
    | none => some k
    | some a => if s.wear k < s.wear a then some k else some a) none

/-- Retires a member of a superblock: a spare of its die takes its place, or the superblock narrows to 15, or it is dismantled (R235). -/
def State.retireMember (s : State) (i n member : Nat) : State :=
  match s.sb i n with
  | none => s
  | some b => match b.members[member]? with
    | none => s
    | some (ch, blk) =>
      let g := n / 32768
      let s1 := (s.onFlash fun f => { f with retired := f.retired ++ [blockKey i g ch blk] }).journal i
        [{ kind := 8, lpn := (16 * i + ch) * 32 + g, sb := n, slot := blk, wseq := 0 }]
      match s1.bestSpare i g ch with
      | some k => (s1.onFlash fun f => { f with
          spareTaken := if f.spareAdded.contains k then f.spareTaken else f.spareTaken ++ [k]
          spareAdded := f.spareAdded.filter (· != k) }).onSb i n fun x => { x with members := x.members.set member (ch, k % 32768), failed := none }
      | none =>
        let rest := b.members.eraseIdx member
        if b.width = 16 then s1.onSb i n fun x => { x with members := rest, failed := none }
        else ((s1.onFlash fun f => { f with spareAdded := f.spareAdded ++ rest.map fun m => blockKey i g m.1 m.2 }).onSb i n fun x =>
          { x with st := .retired, members := [], failed := none }).onFisland i fun f => { f with lostSbs := f.lostSbs + 1 }

/-- A member block of a superblock under erasure fails to erase (R235). -/
def execFlashEraseFailure (island superblock member : Nat) (s : State) : Result :=
  s.flashEvent island fun i s => match s.sb i superblock with
    | none => s
    | some b => match b.members[member]? with
      | none => s
      | some (ch, blk) =>
        let d := (16 * i + ch) * 32 + superblock / 32768
        if (b.st == .draining || b.marked) && s.erasable i superblock then
          ((s.retireMember i superblock member).bump 0x3100 0x0B 0 1).reportUnit (srcDie d) 0x13 0 (packBits [(10, d), (15, blk), (13, 0), (10, 0)])
        else s

/-- A slot whose program failed: its superblock is closed and draining, and reports it (R236). -/
def State.programFails (s : State) (i n slot : Nat) (b : Superblock) : State :=
  ((if b.st == .open_ then s.closeSb i n else s).onSb i n fun y => { y with st := .draining, failed := some (b.memberOf slot) }).reportUnit
    (srcDie (b.dieOf slot)) 0x14 0 (flashAddress b slot)

/-- A page program fails: the superblock is closed and draining, the row is padded, and the page goes to the next slot of its stream (R236). -/
def execFlashProgramFailure (island superblock slot : Nat) (s : State) : Result :=
  s.flashEvent island fun i s => match s.sb i superblock with
    | none => s
    | some b => match s.flash.pages.find? fun x => x.island == i && x.sb == superblock && x.slot == slot && !x.confirmed with
      | none => s
      | some x =>
        let s1 := s.programFails i superblock slot b
        if x.kind == .pad then s1 else match s1.sb i superblock with
          | some b1 => s1.replaceProgram b1 x
          | none => s1

/-- Source page of a relocation under way. -/
def State.sourceOf (s : State) (x : FlashPage) : Option FlashPage :=
  match x.why with
  | .relocate sb slot => s.flash.pages.find? fun y => y.island == x.island && y.sb == sb && y.slot == slot && y.valid
  | _ => none

/-- Cycles of a copy by garbage collection: the read of its page, or of the row it is rebuilt from, and a pSLC program (R213, R217). -/
def State.copyCycles (s : State) (b : Superblock) (x : FlashPage) : Nat :=
  (if s.slotAway b x.slot then (b.width - 1) * s.readCycles b.island b.tlc else s.readCycles b.island b.tlc) + s.programCycles b.island false

/-- A collection target whose member fails: what it received and had not confirmed goes again to another, and its own member's pages move (R237). -/
def State.targetFails (s : State) (i superblock member : Nat) (b : Superblock) : State :=
  let here := fun (x : FlashPage) => x.island == i && x.sb == superblock
  let open_ := s.flash.pages.filter fun x => here x && !x.confirmed
  let units := s.flash.pages.filterMap fun x => if here x && !x.valid then (match x.why with
    | .relocateUnit sb _ => some (sb, x.lpn / 256)
    | _ => none) else none
  let s1 := (s.onFlash fun f => { f with pages := f.pages.filter fun x =>
      !(here x && !x.confirmed) && !(here x && !x.valid && (match x.why with | .relocateUnit .. => true | _ => false)) }).onSb i superblock
    fun y => { y with st := .draining, failed := some member }
  let again := fun (s : State) (x : FlashPage) => ((s.relocate x).map fun y => y.owe (flashCost i 64 4 (s.copyCycles b x))).getD s
  let s2 := s1.each (open_.filterMap s.sourceOf) again
  let s3 := s2.each units.eraseDups fun s u => (s.relocateUnit i u.1 ((s.validIn i u.1).filter fun x => !lpnFine x.lpn && x.lpn / 256 == u.2)).getD s
  s3.each ((s3.validIn i superblock).filter fun x => x.confirmed && b.memberOf x.slot == member) again

/-- A block that takes garbage-collection copies fails: unconfirmed copies go to a new superblock, and confirmed pages of the block move again (R237). -/
def execGcTargetFailure (island superblock member : Nat) (s : State) : Result :=
  s.flashEvent island fun i s => match s.sb i superblock with
    | none => s
    | some b =>
      if b.stream != .gc || b.failed.isSome || (b.st != .open_ && b.st != .closed) || b.width ≤ member then s
      else
        s.targetFails i superblock member b

/-! ### Free space (R222, R232, R234, R241) -/

/-- The copies that empty a superblock: whole units as units, every other page alone (R222). -/
def State.gcJobs (s : State) (i n : Nat) : List (List FlashPage) :=
  let vs := (s.validIn i n).filter fun x => x.confirmed && !s.copying x
  let units := (s.flash.coarse.filter fun c => !c.split && 256 = vs.countP fun x => !lpnFine x.lpn && x.lpn / 256 == c.unit).map (·.unit)
  let inUnit := fun (x : FlashPage) => !lpnFine x.lpn && units.contains (x.lpn / 256)
  (units.map fun u => vs.filter fun x => inUnit x && x.lpn / 256 == u) ++ (vs.filter fun x => !inUnit x).map fun x => [x]

/-- One copy job of a collection: its pages move together where they are a whole unit, once the collector's budget pays for the copy; says whether it moved
(R222). -/
def State.gcJob (s : State) (i : Nat) (b : Superblock) (foreground : Bool) (job : List FlashPage) : Bool × State :=
  let x := flashCost i 64 4 (sumOf (s.copyCycles b) job)
  match s.chargeTo foreground x with
  | none => (false, s.markWait x)
  | some s1 => match (if job.length = 256 then s1.relocateUnit i b.num job else job.head?.bind s1.relocate) with
    | none => (false, s)
    | some s2 => (true, s2)

/-- Relocates what a superblock still holds, as far as charges and slots go; in the foreground the ceiling of the class is the island's whole capacity
(R213, R222, R232). -/
def State.gcSb (s : State) (i n : Nat) (foreground : Bool) : State :=
  match s.sb i n with
  | none => s
  | some b => ((s.gcJobs i n).foldl (fun (acc : Bool × State) job => if acc.1 then acc.2.gcJob i b foreground job else acc) (true, s)).2

/-- Fine pages of one sequence that whole units could take (R220, R222). -/
def State.finePagesOf (s : State) (q : Seq) : List (Page × Nat) :=
  (q.pages.filter fun p => p.tier == .flash && !p.lost && lpnFine p.frame && !s.fineOnly q p && p.pins == 0
    && !s.work.moves.any fun m => m.page == keyOf q p).map fun p => (p, p.flashPages)

/-- Whether the fine map is more than 90 % full (R222). -/
def State.fineFull (s : State) : Bool := s.flash.fineCap * 9 < s.flash.fine.length * 10

/-- A cold sequence's fine pages for one coarse unit: as many in order as fill its 256 logical pages (R220, R222). -/
def State.unitOf (s : State) (q : Seq) : List (Page × Nat) :=
  let ps := (s.finePagesOf q).foldl (fun (acc : List (Page × Nat)) x => if sumOf (·.2) acc + x.2 ≤ 256 then acc ++ [x] else acc) []
  if sumOf (·.2) ps < 256 then [] else ps

/-- Rewrites a cold sequence's fine pages into a new coarse unit; each page takes its copy once that is confirmed (R222). -/
def State.consolidate (s : State) (i : Nat) (q : Seq) : Option State :=
  (s.takeSlots i .gc 256 256).map fun t =>
    let u := t.2.2.takeUnit i
    let s2 := u.2.onFlash fun f => { f with coarse := f.coarse ++
      [{ unit := u.1, split := false, tlc := false, sb := t.1, start := t.2.1, wseq := 0, live := List.range 256 }] }
    let s3 := ((s.unitOf q).foldl (fun (acc : Nat × State) x =>
      (acc.1 + x.2, acc.2.programData i t.1 (t.2.1 + acc.1) q x.1 (u.1 * 256 + acc.1) (.consolidate (keyOf q x.1)) (s.flashBytes x.1.frame x.2))) (0, s2)).2
    (s3.unitSeq i t.1 t.2.1 (u.1 * 256)).bump 0x3002 6 0 256

/-- Whether a superblock holds fine pages of cold sequences (R127, R222). -/
def State.holdsCold (s : State) (b : Superblock) : Bool :=
  (s.validIn b.island b.num).any fun x => lpnFine x.lpn && (((s.ownerOf x.lpn).bind fun k => s.seq k.handle).map s.cold).getD false

/-- Victim of R232: the closed superblock of the pool with the fewest valid pages, closed earliest among equals; while the fine map is more than 90 % full,
one that holds fine pages of cold sequences goes first (R222). Journal superblocks still needed are not victims. -/
def State.gcVictim (s : State) (i : Nat) (tlc : Bool) : Option Superblock :=
  let live := fun (b : Superblock) => s.flash.pages.any fun x => x.island == i && x.sb == b.num && x.kind != .data && x.kind != .pad && x.valid
  let held := fun (b : Superblock) => (s.validIn i b.num).length
  let all := s.flash.sbs.filter fun b => b.island == i && b.tlc == tlc && b.st == .closed && !b.marked && !live b
  let first := if s.fineFull then all.filter s.holdsCold else []
  (if first.isEmpty then all else first).foldl (fun (acc : Option Superblock) b => match acc with
    | none => some b
    | some a => if held b < held a || (held b = held a && b.closedAt < a.closedAt) then some b else some a) none

/-- Consolidates a cold sequence's fine pages when the fine map is more than 90 % full, charged as garbage collection (R213, R222). -/
def State.consolidateCold (s : State) (i : Nat) (tlc : Bool) : State :=
  if tlc || !s.fineFull then s
  else match s.seqs.find? fun q => s.cold q && !(s.unitOf q).isEmpty with
    | none => s
    | some q =>
      let x := flashCost i 64 4 (256 * (s.readCycles i false + s.programCycles i false))
      match s.chargeTo (decide (s.sbsFree i tlc < s.watermark tlc 1)) x with
      | none => s.markWait x
      | some s1 => (s1.consolidate i q).getD s

/-- GARBAGE_COLLECTION: secure releases first, then superblocks that drain already, then a new victim while f < h (R232, R236, R241). -/
def execGarbageCollection (island : Nat) (tlc : Bool) (s : State) : Result :=
  s.flashEvent island fun i s =>
    let f := s.sbsFree i tlc
    let fore := decide (f < s.watermark tlc 1)
    let busy := fun (b : Superblock) => b.island == i && b.tlc == tlc && !(s.validIn i b.num).isEmpty
    let s1 := s.consolidateCold i tlc
    match s1.flash.sbs.find? fun b => busy b && b.marked with
    | some b => s1.gcSb i b.num false
    | none => match s1.flash.sbs.find? fun b => busy b && b.st == .draining with
      | some b => s1.gcSb i b.num fore
      | none =>
        if s.watermark tlc 0 ≤ f then s1
        else match s1.gcVictim i tlc with
          | none => s1
          | some b => ((s1.onSb i b.num fun x => { x with st := .draining }).bump 0x3004 7 0 1).gcSb i b.num fore

/-- Erases a superblock, or retires it, and counts it towards the secure release it belongs to. -/
def State.eraseVictim (s : State) (i n : Nat) (b : Superblock) : State :=
  let s1 := match b.failed with
    | some m => (s.retireMember i n m).bump 0x3100 0x0C 0 1
    | none => s
  let s2 := if ((s1.sb i n).map (·.st)) == some .retired then
      s1.onFlash fun f => { f with pages := f.pages.filter fun x => !(x.island == i && x.sb == n) }
    else s1.eraseSb i n
  if b.marked then (s2.bump 0x3008 2 0 1).onFlash fun f => { f with secure := f.secure.map fun r => { r with marked := r.marked.filter (· != (i, n)) } } else s2

/-- VICTIM_ERASE: a superblock whose pages are confirmed elsewhere, with its journal flushed and no read left in it, goes to its free pool; a block whose
program failed is retired first (R234, R236, R241). -/
def execVictimErase (island superblock : Nat) (s : State) : Result :=
  s.flashEvent island fun i s => match s.sb i superblock with
    | none => s
    | some b =>
      if (b.st == .draining || b.marked) && s.erasable i superblock then
        s.charged [flashCost i 64 4 (b.width * s.eraseCycles i b.tlc)] fun s => s.eraseVictim i superblock b
      else s

/-- SECURE_RELEASE_COMPLETE: the last marked superblock is erased, and the release completes (R241). -/
def execSecureReleaseComplete (handle : W64) (s : State) : Result :=
  s.event fun s => match s.flash.secure.find? fun r => r.handle == handle.toNat && r.marked.isEmpty with
    | none => s
    | some r => ((s.onFlash fun f => { f with secure := f.secure.filter fun x => !(x.handle == r.handle && x.marked.isEmpty) }).complete r.req .ok
        [packWord [(23, r.sealedPos), (41, 0)]] []).peak 0x3008 3 0 ((s.us - r.startUs) / 1000)

/-! ### Journal and checkpoints (R228, R229) -/

/-- Bytes of a journal record (Table 7-8). -/
def JournalRec.bytes (r : JournalRec) : List Byte :=
  leBytes 8 (packBits [(4, r.kind), (40, r.lpn), (20, 0)]) ++ leBytes 8 (packBits [(20, r.sb), (17, r.slot), (27, 0)])
    ++ leBytes 8 (packBits [(48, r.wseq), (16, 0)])

/-- A journal page (Table 7-8). -/
def journalPage (seq ckpt high : Nat) (rs : List JournalRec) : List Byte :=
  let head := leBytes 8 seq ++ leBytes 8 (packBits [(48, ckpt), (16, rs.length)]) ++ leBytes 8 (packBits [(48, high), (16, 0)]) ++ List.replicate 32 0
  let body := rs.flatMap JournalRec.bytes ++ List.replicate ((680 - rs.length) * 24) 0
  head ++ leBytes 8 (crc32c (head ++ body)) ++ body

/-- A page of the journal's stream. -/
def systemPage (kind : TagKind) (bs : List Byte) : FlashPage := { padPage with kind := kind, valid := true, bytes := bs }

/-- Programs one page of the journal's stream, when it has a slot (log 102). -/
def State.programSystem (s : State) (i : Nat) (x : FlashPage) : Option State :=
  (s.takeSlots i .journal 1 1).map fun t => t.2.2.programSlot i t.1 t.2.1 x 0

/-- What `n` pages of the journal's stream cost: the device row's class 7 (R213). -/
def State.systemCost (s : State) (i n : Nat) : Cost := flashCost i 64 7 (n * s.programCycles i false)

/-- Greatest write sequence confirmed on an island. -/
def State.highSeq (s : State) (i : Nat) : Nat := s.flash.pages.foldl (fun m x => if x.island == i && x.confirmed then max m x.wseq else m) 0

/-- What a flush of an island writes: its pending records, closed by a write point for each open superblock (R228). -/
def State.flushRecs (s : State) (i : Nat) (f : FlashIsland) : List JournalRec :=
  f.pendingJournal ++ (s.flash.sbs.filter fun b => b.island == i && b.st == .open_).map fun b => { kind := 9, lpn := 0, sb := b.num, slot := b.point, wseq := 0 }

/-- Writes one journal page. -/
def State.writeJournal (s : State) (i ckpt : Nat) (rs : List JournalRec) : Option State :=
  let q := (((s.fisland i).map (·.journalSeq)).getD 0) + 1
  (s.onFisland i fun x => { x with journalSeq := q }).programSystem i (systemPage .journal (journalPage q ckpt (s.highSeq i) rs))

/-- Writes an island's pending records, its pages charged; nothing where they have no slots. -/
def State.writeRecs (s : State) (i ckpt : Nat) (rs : List JournalRec) : State :=
  ((chunks 680 (cdiv rs.length 680) rs).foldl (fun (acc : Option State) c => acc.bind fun s1 => s1.writeJournal i ckpt c)
    (some (s.onFisland i fun x => { x with pendingJournal := [], lastFlushUs := s.us }))).elim s fun s1 => s1.bump 0x3003 3 0 1

/-- Flushes an island's pending records, once their pages can be charged (R228). -/
def State.flushJournal (s : State) (i : Nat) : State :=
  match s.fisland i with
  | none => s
  | some f => s.charged [s.systemCost i (cdiv (s.flushRecs i f).length 680)] fun s => s.writeRecs i f.checkpointSeq (s.flushRecs i f)

/-- Flushes them without waiting for the charge (R406, log 144). -/
def State.flushNow (s : State) (i : Nat) : State :=
  match s.fisland i with
  | none => s
  | some f => (s.owe (s.systemCost i (cdiv (s.flushRecs i f).length 680))).writeRecs i f.checkpointSeq (s.flushRecs i f)

/-- JOURNAL_FLUSH: after 8,192 updates, after 100 ms with one pending, or before an erasure that waits for it (R228). -/
def execJournalFlush (island : Nat) (s : State) : Result :=
  s.flashEvent island fun i s => match s.fisland i with
    | none => s
    | some f =>
      let waits := s.flash.sbs.any fun b => b.island == i && (b.st == .draining || b.marked) && (s.validIn i b.num).isEmpty
      if !f.pendingJournal.isEmpty && (8192 ≤ f.pendingJournal.length || s.due (f.lastFlushUs + 100000) || waits) then s.flushJournal i else s

/-- CHECKPOINT: after the checkpoint interval an image is written, and once it is confirmed a root record names it and what went before is free (R228)
(log 139). -/
def execCheckpoint (island : Nat) (s : State) : Result :=
  s.flashEvent island fun i s => match s.fisland i with
    | none => s
    | some f =>
      if f.checkpointRunning then
        match s.flash.pages.find? fun x => x.island == i && x.kind == .checkpoint && x.wseq == f.checkpointSeq && x.confirmed with
        | none => s
        | some _ => ((s.onFisland i fun x => { x with checkpointRunning := false, rooted := true }).onClock fun c => { c with saved := c.tod }).onFlash fun g => { g with pages := g.pages.map fun x =>
            if x.island == i && (x.kind == .journal || x.kind == .checkpoint) && x.wseq < f.checkpointSeq then { x with valid := false } else x }
      else if s.rw 0x3003 2 0 ≤ f.updates then
        s.charged [s.systemCost i 1] fun s => (s.programSystem i (systemPage .checkpoint [])).elim s fun s1 =>
          let w := (((s1.flash.pages.filter fun x => x.island == i && x.kind == .checkpoint).getLast?).map (·.wseq)).getD f.checkpointSeq
          (s1.onFisland i fun x => { x with checkpointRunning := true, checkpointSeq := w, updates := 0, tempSaved := x.tempSeconds }).journal i
            [{ kind := 10, lpn := 0, sb := 0, slot := 0, wseq := w }]
      else s

/-! ### Patrol and temperatures (R227, R242, R378) -/

/-- Notes that patrol has read a slot; the pass completes with the last valid page (R227). -/
def State.patrolled (s : State) (x : Nat × Nat × Nat) : State :=
  let s1 := s.onFlash fun f => { f with patrolSeen := if f.patrolSeen.contains x then f.patrolSeen else f.patrolSeen ++ [x] }
  if s1.flash.pages.all fun y => y.kind != .data || !y.valid || !y.confirmed || s1.flash.patrolSeen.contains (y.island, y.sb, y.slot) then
    (s1.onFlash fun f => { f with patrolSeen := [] }).note 0x3100 0x11 0 s.ms
  else s1

/-- What a patrol read of a page leads to: a page that needed the ladder, or corrected too much, is rewritten in class 5; an unreadable one is lost (R213, R227). -/
def State.patrolVerdict (s : State) (b : Superblock) (x : FlashPage) (v : FlashVerdict) : State :=
  match v with
  | .pass n c =>
    if n ≥ 1 || s.rw 0x3100 0x10 0 < c then
      (s.relocate x).elim s fun s1 => (s1.owe (flashCost x.island 64 5 (s.programCycles x.island false))).bump 0x3100 0x12 0 1
    else s
  | .unreadable => (match s.ownerOf x.lpn with
    | some k => s.flashLost k (b.dieOf x.slot)
    | none => s)

/-- FLASH_PATROL_READ, charged to the device row's class 5 (R39, R213, R227). -/
def execFlashPatrolRead (island superblock slot : Nat) (verdict : FlashVerdict) (s : State) : Result :=
  s.flashEvent island fun i s =>
    match s.sb i superblock, s.flash.pages.find? (fun x => x.island == i && x.sb == superblock && x.slot == slot && x.kind == .data && x.valid && x.confirmed) with
    | some b, some x =>
      if s.act 0x2013 7 3 = 0 then s
      else
        let v := s.readVerdict b slot verdict
        s.charged [flashCost i 64 5 (s.readCycles i b.tlc)] fun s =>
          (((s.noteRead b slot v).oweAll (s.ladderCosts b slot 64 5 v)).patrolled (i, superblock, slot)).patrolVerdict b x v
    | _, _ => s

/-- 5 °C bin of a temperature in tenths of a degree (0x3103). -/
def tempBin (t : Int) : Nat := if t < 0 then 0 else if 1000 ≤ t then 21 else t.toNat / 50 + 1

/-- DIE_TEMPERATURE_SAMPLE: each second the dies' temperatures, and the hottest die's bin in the history (R242). -/
def execDieTemperatureSample (island : Nat) (temps : List Int) (s : State) : Result :=
  s.flashEvent island fun i s =>
    s.onFisland i fun f => if !s.due (f.sampledUs + 1000000) then f else { f with
      temps := temps
      sampledUs := s.us
      tempSeconds := match temps with
        | [] => f.tempSeconds
        | t :: r => sadd f.tempSeconds (tempBin (r.foldl max t)) 1 }

/-- A page in HBM whose unit cannot be read: clean it is read back from flash, dirty it is lost with reason 1; a page under a tile is left to the tile's own
fetch (R75, R96). -/
def State.hbmPageFails (s : State) (k : PageKey) (p : Page) (src : Nat) : State :=
  if p.pins ≠ 0 then s
  else match (if p.dirty then none else p.copy) with
    | some l => (s.onPage k fun x => { x with pins := 255 }).startRead l p.flashPages (handlePart k.handle) 2 (.restore k)
    | none => s.losePage k 1 src

/-- A ledger frame that cannot be read: the partner's mirror restores it when all of it has been acknowledged, or the sequence is ledger lost (R49). -/
def State.ledgerFails (s : State) (q : Seq) (j : Nat) : State :=
  let s1 := s.report srcBroker 0x33 (some (q.part, q.tenant)) none 0 0
  if s.namesPartner q.part && min q.ledger.length (4096 * (j + 1)) ≤ q.acked then s1
  else s1.onSeq q.handle fun x => { x with st := .ledgerLost }

/-- Whether a page holds a byte address in HBM. -/
def Page.holdsAddr (p : Page) (a : Nat) : Bool := p.tier == .hbm && p.frame * 1024 ≤ a && a < p.frame * 1024 + p.stored

/-- Counts a patrol read of a channel; a pass that is complete is noted (R378). -/
def State.patrolUnit (s : State) (channel : Nat) : State :=
  let s1 := s.onHbm fun h => { h with patrolSeen := sadd h.patrolSeen channel 1 }
  let chs := (List.range 384).filter fun c => s.diePresent (c / 192) && !s.channelFenced c
  if chs.all fun c => channelBytes / 256 ≤ sget s1.hbm.patrolSeen c 0 then (s1.onHbm fun h => { h with patrolSeen := [] }).note 0x7060 2 0 s.ms else s1

/-- HBM_PATROL_READ: a 256-byte unit is read; a correctable one is rewritten, an uncorrectable one reported and handled as a read failure (R378) (log 106). -/
def execHbmPatrolRead (channel unit : Nat) (verdict : HbmVerdict) (s : State) : Result :=
  s.event fun s =>
    let a := channel * channelBytes + unit * 256
    let src := srcChannel channel
    if !s.diePresent (channel / 192) || 384 ≤ channel || channelBytes ≤ unit * 256 || s.channelFenced channel then s
    else s.charged [channelCost channel 64 5 4] fun s =>
      let s2 := s.patrolUnit channel
      match verdict with
      | .clean => s2
      | .correctable => (s2.bump 0x7060 3 0 1).reportUnit src 0x03 0 a
      | .uncorrectable =>
        let s3 := s2.reportUnit src 0x04 0 a
        match s.seqs.findSome? fun q => (q.pages.find? (·.holdsAddr a)).map fun p => (keyOf q p, p) with
        | some (k, p) => s3.hbmPageFails k p src
        | none =>
          let f := channel * channelFrames + unit * 256 / 16384
          match s.seqs.findSome? fun q => (q.ledgerFrames.findIdx? (· == f)).map fun j => (q, j) with
          | some (q, j) => s3.ledgerFails q j
          | none => s3

end Sys2Proof.Machine
end

