-- ==== Sys2Proof/Machine/Fences.lean ====
section
/-!
DEFINITION. Fencing: what each unit's fence does to the work and the data on it, and fatal faults (R28, R96, R217, R372, R374, R375).
-/
namespace Sys2Proof.Machine

/-- Unit that a source code names when it is fenced: an island code names the unit the island serves, the array engine its island, a logical port its port,
and whatever lies in the management island that island (R375, R376, log 53). -/
def canonUnit (c : Nat) : Nat :=
  if c = srcEngine then srcIsland 17
  else if 0x0A0 ≤ c && c ≤ 0x0C1 then
    match islandKind (c - 0x0A0) with
    | 0 => srcCluster (islandCluster (c - 0x0A0))
    | 1 => srcStack (if c - 0x0A0 < 14 then c - 0x0A0 - 8 else c - 0x0A0 - 20)
    | _ => c
  else if 0x2A0 ≤ c && c < 0x2B0 then srcPort ((c - 0x2A0) / 4)
  else if c = 0x852 then srcBridge
  else if 0x851 ≤ c then srcIsland 16
  else c

/-- Whether a unit belongs to the configuration (R4, R362). -/
def State.unitPresent (s : State) (c : Nat) : Bool := s.diePresent (sourceDie c) && (c != srcBridge || s.dev.part == .al)

/-! ### Fatal faults (R372) -/

/-- A fatal fault: `FAULT_ALIVE` stops, nothing more is sent, and every link goes down (R372). -/
def State.goFatal (s : State) : State :=
  ((s.onDev fun d => { d with phase := .fatal }).onFaults fun f => { f with alive := 2 }).onNet fun n =>
    { n with lps := n.lps.map fun p => if p.link = 4 then p else { p with link := 0 } }

/-! ### Work on a unit (R374) -/

/-- Ends with `RETRY_LATER` every row that has a tile on one of some cores or its home on one of some clusters. -/
def State.endRowsOn (s : State) (core cluster : Nat → Bool) : State :=
  let hit := s.work.attends.flatMap fun a => (a.rows.zipIdx.filter fun r =>
    r.1.status.isNone && a.dispatched && (cluster r.1.homeCluster || s.work.tiles.any fun t => t.att == a.id && t.row == r.2 && core t.core)).map fun r => (a.id, r.2)
  s.each hit fun s x => s.endRow x.1 x.2 .retryLater 0

/-- Abandons the moves whose lock is held; the lock is cleared and the entry stays as it was. -/
def State.dropMoves (s : State) (mine : PageKey → Bool) : State :=
  s.each (s.work.moves.filter fun m => mine m.page && ((s.page m.page).map fun p => p.pins == 255).getD false) fun s m =>
    (s.dropMove m (s.page m.page)).onPage m.page fun p => if p.pins = 255 then { p with pins := 0 } else p

/-- Sets the state of islands. One that stops or comes back has no period under way: it takes the newest budget table, and its budgets begin with its next boundary (R40, log 163). -/
def State.markIslands (s : State) (is : List Nat) (st : IslandState) : State :=
  s.onIslands fun l => mapIf (fun i => is.contains i.num && i.st != .absent) (fun i => { i.takeTable with st := st, relock := none, wish := none }) l

/-- Clears a cluster: its buffers are invalid, its rows and appends end, its moves are abandoned, and its sequences rehome (R17, R88, R374). The caller has put the cluster out of use,
and `homed` are the sequences whose home it was. -/
def State.clearCluster (s : State) (c : Nat) (homed : List Nat) : State :=
  let s1 := (s.clearCache c).endRowsOn (fun k => k / 8 == c) (· == c)
  let s2 := s1.each homed fun s h => s.failAccepted h (some .retryLater)
  (s2.dropMoves fun k => homed.contains k.handle).onSeqs fun l => l.map fun q => if q.home = some c then { q with home := none } else q

/-- Sequences homed at a cluster. -/
def State.homedAt (s : State) (c : Nat) : List Nat := (s.seqs.filter fun q => s.homeCluster q == some c).map (·.handle)

/-! ### HBM (R96, R375) -/

/-- Tiles that were reading a page go back to the scoreboard and issue again (R72, R96). -/
def State.recallTiles (s : State) (k : PageKey) : State :=
  let gs := (s.work.groups.filter (·.page == k)).map (·.id)
  let back := fun (t : Tile) => match t.st with
    | .issued g => gs.contains g
    | _ => false
  s.onWork fun w => { w with tiles := mapIf back (fun t => { t with st := .ready }) w.tiles, groups := w.groups.filter fun g => g.page != k }

/-- A page on a channel that is fenced: dirty it is dropped with reason 2, clean it is on flash (R375). -/
def State.offChannel (s : State) (k : PageKey) (src : Nat) : State :=
  match s.page k with
  | none => s
  | some p =>
    let s1 := s.recallTiles k
    match (if p.dirty then none else p.copy) with
    | some l => s1.toFlash k l
    | none => s1.losePage k 2 src

/-- Frames of a list that lie in a channel. -/
def inChannel (ch : Nat) (fs : List Nat) : Bool := fs.any fun f => frameChannel f == ch

/-- Whether an address lies in a channel. -/
def onChannel (ch a : Nat) : Bool := frameChannel (granuleFrame (a / 1024)) == ch

/-- Whether a table or an entry a page is found through lies in a channel (R57, R58). -/
def Seq.unlocated (q : Seq) (ch : Nat) (p : Page) : Bool :=
  (((q.tab .descriptor).map fun t => t.addr 0).any (onChannel ch)) || (((q.tab .layers).map fun t => t.addr (8 * p.layer)).any (onChannel ch))
    || (q.headEntryAddr p.layer p.head (p.index / 64)).any (onChannel ch) || (q.pairAddr p.layer p.head p.index).any (onChannel ch)

/-- Positions of the frames of a list that lie in a channel. -/
def framePlaces (ch : Nat) (fs : List Nat) : List Nat := (fs.zipIdx.filter fun f => frameChannel f.1 == ch).map (·.2)

/-- Ledger, descriptor and tables of a sequence on a channel that is fenced: restored and rebuilt from the partner's mirror record, and the pages it no
longer locates dropped with reason 2; without a partner the sequence is ledger lost (R49, R375, log 54). -/
def State.fixedOffChannel (s : State) (h ch : Nat) : State :=
  match s.seq h with
  | none => s
  | some q =>
    let led := framePlaces ch q.ledgerFrames
    let tabs := framePlaces ch q.tableFrames
    if led.isEmpty && tabs.isEmpty then s
    else
      let s1 := s.each led fun s j => s.ledgerFails q j
      let s2 := if tabs.isEmpty || (s.namesPartner q.part && !q.unmirrored) then s1 else s1.onSeq h fun x => { x with st := .ledgerLost }
      let s3 := s2.each (q.pages.filter fun p => !p.lost && !tabs.isEmpty && q.unlocated ch p) fun s p => s.losePage (keyOf q p) 2 (srcChannel ch)
      let away := fun (fs : List Nat) => fs.filter fun f => frameChannel f != ch
      ((s3.onHbm fun m => { m with used := m.used.filter fun f => !(frameChannel f == ch && (q.ledgerFrames ++ q.tableFrames).contains f) }).onSeq h fun x =>
        { x with ledgerFrames := away x.ledgerFrames, tableFrames := away x.tableFrames, tabs := x.tabs.filter fun t => !inChannel ch t.frames }).fitFixed h

/-- A staging whose frames lie in a channel that is fenced looks for others, and reads its page again. -/
def State.stagingOffChannel (s : State) (ch : Nat) (g : Staging) : State :=
  let on := inChannel ch g.frames || (g.frames.isEmpty && (g.place.map fun a => frameChannel (granuleFrame a) == ch).getD false)
  if !on then s
  else
    let s1 := s.dropPlace (handlePart g.page.handle) g
    (s1.onStaging g.id fun x => { x with frames := [], place := none, verified := false, image := [] }).onFlash fun f =>
      { f with reads := f.reads.filter fun r => r.why != .staging g.id }

/-- Everything that a fenced HBM channel held (R374, R375) (log 109). -/
def State.clearChannel (s : State) (ch : Nat) : State :=
  let src := srcChannel ch
  let here := fun (p : Page) => p.tier == .hbm && frameChannel (granuleFrame p.frame) == ch
  let keys := s.seqs.flatMap fun q => (q.pages.filter here).map fun p => keyOf q p
  let hit := s.work.appends.filter fun a => inChannel ch (a.got.flatten ++ a.tabs) || a.wants.any keys.contains
  let s1 := s.each (sortNat (hit.map (·.handle))) fun s h => s.failAccepted h (some .retryLater)
  let s2 := s1.dropMoves keys.contains
  let s3 := s2.each keys fun s k => s.offChannel k src
  let s4 := s3.each (s3.seqs.map (·.handle)) fun s h => s.fixedOffChannel h ch
  let s5 := s4.each s4.work.stagings fun s g => s.stagingOffChannel ch g
  s5.onBroker fun b => { b with peerPages := b.peerPages.filter fun p => !inChannel ch p.frames }

/-! ### Ports (R286, R375) -/

/-- A logical port goes down and its queue pairs enter the error state. -/
def State.portDown (s : State) (lp link : Nat) : State :=
  let s1 := s.onLp lp fun p => if p.link = 4 then p else { p with link := link, control := [], paused := [], ignored := [], xoff := false }
  s1.each ((s.net.qps.filter fun q => q.lp == lp && q.st != .error).map (·.num)) fun s q => s.qpError q false

/-- Logical ports of a port. -/
def portLps (p : Nat) : List Nat := (List.range 4).map (4 * p + ·)

/-- Puts a port into a mode: its logical ports in that mode train, the others are absent (R277). -/
def State.setPortMode (s : State) (p mode : Nat) (down : Nat → Bool) : State :=
  (s.onNet fun n => { n with modes := n.modes.set p mode }).each (portLps p) fun s lp =>
    s.onLp lp fun x => { x with link := if !lpInMode mode lp then 4 else if down lp then 3 else if s.dev.phase == .fatal then 0 else 1 }

/-- A lane that fails takes its logical port down in mode 2; in modes 0 and 1 the port trains again in mode 1 without the lane's pair (R375). -/
def State.clearLane (s : State) (n : Nat) : State :=
  let p := n / 4
  if s.net.modes.getD p 0 = 2 then s.portDown n 3
  else
    let lost := 4 * p + 2 * (n % 4 / 2)
    (s.portDown lost 3).setPortMode p 1 (· == lost)

/-! ### Every unit (Table 12-5) -/

/-- Gives up every partition that holds a slice on die 1, and asks its partner to re-admit what it mirrors (R269, R375). -/
def State.giveUp (s : State) : State :=
  let ps := (List.range 64).filter fun p => (s.slicesOf p).any fun x => 32 ≤ x.num
  s.each ps fun s p =>
    let s1 := s.onEpochs fun e => { e with givenUp := insNat e.givenUp p }
    if s.namesPartner p then s1.ask (s.partner p) 0x60 9 p 0 0 (packWord [(4, 4), (60, 0)] :: List.replicate 16 0) [] none else s1

/-- What lies in a unit is put out of use; the fence itself already stands, and dies that it puts out of reach are emptied as R217 says from then on. `homes` are the sequences homed at each cluster before it stood. -/
def State.clearUnit (s : State) (u : Nat) (homes : List (Nat × List Nat)) : State :=
  let homed := fun (c : Nat) => ((homes.find? (·.1 == c)).map (·.2)).getD []
  let cluster := fun (s : State) (c : Nat) => (s.markIslands [clusterIsland c] .fenced).clearCluster c (homed c)
  let stack := fun (s : State) (st : Nat) => (s.markIslands [stackIsland st] .fenced).each ((List.range 32).map (32 * st + ·)) fun s ch => s.clearChannel ch
  let port := fun (s : State) (p : Nat) => s.each ((portLps p).filter s.lpInUse) fun s lp => s.portDown lp 3
  if u < 0x080 then s.endRowsOn (· == u) (fun _ => false)
  else if u < 0x090 then cluster s (u - 0x080)
  else if u = srcIsland 14 || u = srcIsland 32 then (s.markIslands [u - 0x0A0] .fenced).each [(if u = srcIsland 14 then 0 else 2), (if u = srcIsland 14 then 1 else 3)] port
  else if 0x0A0 ≤ u && u ≤ 0x0C1 then s.markIslands [u - 0x0A0] .fenced
  else if 0x100 ≤ u && u < 0x280 then s.clearChannel (u - 0x100)
  else if 0x280 ≤ u && u ≤ 0x28B then stack s (u - 0x280)
  else if 0x290 ≤ u && u < 0x2A0 then s.clearLane (u - 0x290)
  else if 0x2B0 ≤ u && u < 0x2B4 then port s (u - 0x2B0)
  else if 0x800 ≤ u && u < 0x840 then s.each ((s.bank (u - 0x800)).slots.map (·.2)) fun s e => s.removeEntry e.part e.payload
  else if u = srcBridge then
    (((((List.range 8).map (8 + ·)).foldl cluster s).each ((List.range 6).map (6 + ·)) stack).each [2, 3] port).markIslands ((List.range 16).map (18 + ·)) .fenced
      |>.giveUp
  else s

/-- Fences a unit: a unit already fenced keeps its fence, and any fence of die 0's management is fatal (R369, R372, R374, R375). -/
def State.fenceUnit (s : State) (src : Nat) : State :=
  let u := canonUnit src
  if u = srcIsland 16 then s.goFatal
  else if !s.unitPresent u || s.fenced u then s
  else
    let homes := (List.range 16).map fun c => (c, s.homedAt c)
    (s.onFaults fun f => { f with fences := f.fences ++ [{ source := u, since := s.ms }] }).clearUnit u homes

/-! ### Repairs (R28, R375) -/

/-- A failing lane of an HBM channel is replaced by one of its 4 spare lanes, kind 0x06; with none left, kind 0x07 (R375, log 55). -/
def State.repairLane (s : State) (ch : Nat) : State :=
  if sget s.hbm.lanesUsed ch 0 < 4 then (s.onHbm fun h => { h with lanesUsed := sadd h.lanesUsed ch 1 }).reportUnit (srcChannel ch) 0x06 0 0
  else s.reportUnit (srcChannel ch) 0x07 0 0

/-- A lane group of the Truss bridge fails: two are spared, and below 32 the bridge is fenced (R28). -/
def State.failLaneGroup (s : State) (n : Nat) : State :=
  let s1 := s.onFaults fun f => { f with laneGroups := f.laneGroups + n }
  if 66 < s1.faults.laneGroups + 32 then s1.fenceUnit srcBridge else s1

end Sys2Proof.Machine
end

