-- ==== Sys2Proof/Machine/Collector.lean ====
section
/-!
DEFINITION. The fault collector: records, escalation, reactions, severe signals and what the islands' fault queues send (R361 to R373).
-/
namespace Sys2Proof.Machine

/-! ### Reactions (Table 12-3, R369, R375) -/

/-- A rail that is shared or of die 0, by number (Table 14-5). -/
def railFatal (r : Nat) : Bool := r % 2 = 0 || 16 ≤ r

/-- Reaction of a kind for a source; `stop` is the stop a Truss handshake names as unresponsive. -/
def State.react (s : State) (src kind : Nat) (stop : Option Nat) : State :=
  if [0x01, 0x02, 0x04, 0x05, 0x07, 0x08, 0x11, 0x15, 0x16, 0x17, 0x20, 0x23, 0x24, 0x35, 0x36, 0x40, 0x51].contains kind then s.fenceUnit src
  else if kind = 0x03 then (if 0x100 ≤ src && src < 0x280 then s.repairLane (src - 0x100) else s)
  else if kind = 0x50 || kind = 0x53 then s.goFatal
  else if kind = 0x52 then
    let s1 := s.onPower fun p => { p with railTrip := true, railUntil := s.us }
    (if railFatal (src - 0x880) then s1.goFatal else s1.fenceUnit srcBridge).noteThrottle
  else if kind = 0x54 then
    (match stop with
    | some i => if src = srcIsland 16 then s.goFatal else s.fenceUnit (srcIsland i)
    | none => s.goFatal)
  else s

/-! ### Collecting a record (R361, R366, R368 to R370) -/

/-- Frame index of an HBM address within a partition (R331). -/
def State.frameIndex (s : State) (p a : Nat) : Nat :=
  ((s.channelsOf p false).findIdx? (· == a / channelBytes)).getD 0 * channelFrames + a % channelBytes / 16384

/-- A record about a partition in confidential mode hides its address, and an access violation its master (R331, R366). -/
def State.hideRecord (s : State) (r : SourceRecord) : SourceRecord :=
  if r.partitionValid && s.act (0x6400 + r.partition.toNat) 2 0 = 1 then
    { r with
      address := BitVec.ofNat 48 (15 * 2 ^ 44 + s.frameIndex r.partition.toNat r.address.toNat % 2 ^ 32)
      detail := if r.kind = 0x31 then 0 else r.detail }
  else r

/-- Events a record stands for: its own and those its detail carries under R364. -/
def State.eventsOf (s : State) (r : SourceRecord) : Nat :=
  1 + (if s.kindClass r.kind.toNat = 0 && s.rw 0x7020 3 r.kind.toNat ≠ 0 then r.detail.toNat else 0)

/-- The last N events of one source and kind, newest first. -/
def State.eventLog (s : State) (src kind : Nat) : List Nat := ((s.faults.events.find? fun e => e.source == src && e.kind == kind).map (·.counts)).getD []

def State.setEventLog (s : State) (src kind : Nat) (l : List Nat) : State :=
  s.onFaults fun f => { f with events := f.events.filter (fun e => !(e.source == src && e.kind == kind)) ++ [{ source := src, kind := kind, counts := l }] }

/-- Whether N events span at most the window. -/
def inWindow (l : List Nat) (n window : Nat) : Bool :=
  n ≤ l.length && l.foldl max 0 - l.foldl min (l.headD 0) ≤ window * 4096

/-- Counts a record's events for escalation: whether it is escalated, and the state (R368). -/
def State.escalate (s : State) (r : SourceRecord) : Bool × State :=
  let k := r.kind.toNat
  let n := s.rw 0x7020 3 k
  if n = 0 then (false, s)
  else
    let l := (List.replicate (min n (s.eventsOf r)) r.localCount.toNat ++ s.eventLog r.source.toNat k).take n
    if inWindow l n (s.rw 0x7020 4 k) then (true, (s.setEventLog r.source.toNat k []).bump 0x7030 4 r.source.toNat 1)
    else (false, s.setEventLog r.source.toNat k l)

/-- Target of 0x6020 that a source code stands for (log 67). -/
def accessTarget (src : Nat) : Nat :=
  match islandKind (sourceIsland src) with
  | 1 => islandStack (sourceIsland src)
  | 3 => if sourceIsland src = 15 then 12 else 13
  | 5 => 14
  | _ => if src = srcCrypto then 17 else if src = srcBroker then 16 else 15

/-- What the event behind a record changes besides the record: a link goes down, a violation is counted at its target and for its partition (R319). -/
def State.eventEffect (s : State) (r : SourceRecord) : State :=
  if r.kind = 0x31 then
    let s1 := s.bump 0x6020 5 (accessTarget r.source.toNat) 1
    if r.partitionValid then s1.bump (0x6400 + r.partition.toNat) 0x32 0 1 else s1
  else if r.kind = 0x24 && 0x2A0 ≤ r.source.toNat && r.source.toNat < 0x2B0 then
    s.onLp (r.source.toNat - 0x2A0) fun p => if p.link = 2 || p.link = 1 then { p with link := 0 } else p
  else s

/-- The collector takes a record: it is numbered, counted, kept, and reacted to. -/
def State.collectWith (s : State) (r0 : SourceRecord) (stop : Option Nat) : State :=
  let r := s.hideRecord r0
  let k := r.kind.toNat
  let e := s.escalate r
  let base := s.kindClass k
  let cls := if e.1 then max base 2 else base
  let rec_ : FaultRec := { src := r, seqno := s.faults.seqno + 1, cls := cls, escalated := e.1, time := s.ms }
  let s1 := ((e.2.onFaults fun f => { f with
    seqno := f.seqno + 1
    history := (rec_ :: f.history).take 64
    firstError := if f.firstError.isNone && 1 ≤ cls then some rec_ else f.firstError
    severeCount := if 2 ≤ cls then min 65535 (f.severeCount + 1) else f.severeCount }).bump 0x7020 5 k (s.eventsOf r)).bump 0x7030 3 r.source.toNat (s.eventsOf r)
  let s2 := if r.tenantValid && base = 1 then s1.meter r.partition.toNat r.tenant.toNat 0x20 1 else s1
  let s3 := s2.eventEffect r0
  if cls = 3 then s3.goFatal
  else if cls = 2 && (e.1 || s.rw 0x7020 3 k = 0) then s3.react r.source.toNat k stop
  else s3

def State.collect (s : State) (r : SourceRecord) : State := s.collectWith r none

/-- A record the collector itself writes about a unit, past any fault queue. -/
def State.collectUnit (s : State) (src kind detail : Nat) (stop : Option Nat) : State :=
  (s.free).2.collectWith
    { source := BitVec.ofNat 12 src, kind := BitVec.ofNat 8 kind, partition := 0, partitionValid := false, tenant := 0, tenantValid := false
      detail := BitVec.ofNat 16 (min detail 65535), address := 0, localCount := s.localCount (sourceIsland src) } stop

/-- A block detects an event: its record goes on its way, and a lane group of the Truss bridge that failed is replaced, whether or not R364 holds its record back
(R28, R364). -/
def State.detect (s : State) (i : Nat) (r : SourceRecord) : State :=
  let s1 := s.sendRecord i r
  if r.kind = 0x41 && r.source.toNat = srcBridge then s1.failLaneGroup 1 else s1

/-- FAULT_RECORD: a block's record enters its island's queue, and the oldest record of an island's queue reaches the collector (R361 to R369). -/
def execFaultRecord (a : FaultArrival) (s : State) : Result :=
  .next (if !s.managed then s
    else
      let s1 := match a with
        | .detected i r => if isSource r.source.toNat && isKind r.kind.toNat && s.unitPresent r.source.toNat then s.detect i r else s
        | .queued _ => s
      let i := match a with | .detected i _ => i | .queued i => i
      match (s1.faultQueue i).recs with
      | [] => s1
      | r :: rest => ((s1.setQueue { s1.faultQueue i with recs := rest }).collect r).settle)

/-- FAULT_QUEUE_DROP_REPORT: with space again, one record of kind 0x42 carries the count of those dropped (R365). -/
def execFaultQueueDropReport (island : Nat) (s : State) : Result :=
  .next (let q := s.faultQueue island
    if !s.managed || q.dropped = 0 || 16 ≤ q.recs.length then s
    else ((s.setQueue { q with dropped := 0 }).reportUnit (srcIsland island) 0x42 q.dropped 0).bump 0x7010 6 0 q.dropped)

/-! ### Severe signals (R27, R367, R373) -/

/-- Source, kind and named stop of a pair (Table 12-4). -/
def pairOf (p : SeverePair) : Nat × Nat × Option Nat :=
  match p with
  | .lockstep => (0x860, 0x50, none)
  | .clockLoss i => (srcIsland i, 0x51, none)
  | .rail n => (srcRail n, 0x52, none)
  | .thermalTrip n => (srcSensor n, 0x53, none)
  | .handshake w stop => (srcIsland w, 0x54, stop)

/-- Whether a pair exists on the configuration (Table 12-4, R419). -/
def State.pairExists (s : State) (p : SeverePair) : Bool :=
  match p with
  | .lockstep => true
  | .clockLoss i => i < 34 && (s.dev.part == .al || i < 18)
  | .rail n => n < 18 && (s.dev.part == .al || n % 2 = 0 || 16 ≤ n)
  | .thermalTrip n => n < 14 && (s.dev.part == .al || n = 0 || (2 ≤ n && n < 8))
  | .handshake w _ => w < 34 && (s.dev.part == .al || w < 18)

/-- A pair is asserted, or its wire is broken: then kind 0x55, with the reaction of the pair's own signal (R367, log 56). -/
def State.severe (s : State) (p : SeverePair) (broken : Bool) : State :=
  let x := pairOf p
  if broken then (s.collectUnit x.1 0x55 0 none).react x.1 x.2.1 x.2.2
  else
    let s1 := match p with
      | .clockLoss i => s.onIsland i fun y => { y with lockLosses := y.lockLosses + 1 }
      | _ => s
    s1.collectUnit x.1 x.2.1 0 x.2.2

/-- SEVERE_SIGNAL (R367). -/
def execSevereSignal (pair : SeverePair) (broken : Bool) (s : State) : Result :=
  .next (if s.managed && s.pairExists pair then (s.severe pair broken).settle else s)

/-- TRUSS_HANDSHAKE_TIMEOUT: a handshake unacknowledged within 0x2022 raises the severe signal of the waiting island (R27, R375). -/
def execTrussHandshakeTimeout (waiter : Nat) (stop : Option Nat) (s : State) : Result :=
  .next (if s.managed && s.pairExists (.handshake waiter stop) then
      ((s.bump 0x2021 5 waiter 1).severe (.handshake waiter stop) false).settle
    else s)

end Sys2Proof.Machine
end

