-- ==== Sys2Proof/Machine/Islands.lean ====
section
/-!
DEFINITION. Islands: period boundaries, clocks and their limits (R21, R22, R29, R40, R42, R233, R295, R399, R431, R432).
-/
namespace Sys2Proof.Machine

/-! ### Clock limits (R432) -/

/-- Reading of a thermal sensor in tenths of a degree: dies 0 and 1, then stacks 0 to 11. -/
def State.sensor (s : State) (n : Nat) : Int := s.power.sensors.getD n 250

/-- Sensors of a die: its own and its six stacks'. -/
def dieSensors (die : Nat) : List Nat := die :: (List.range 6).map fun st => 2 + 6 * die + st

/-- Whether a sensor in its minimum-clock row holds an island there: a die every island of the die, a stack its own island and the die's clusters
(Table 14-10). -/
def heldBy (i n : Nat) : Bool :=
  if n < 2 then islandDie i == n
  else (islandKind i == 1 && islandStack i == n - 2) || (islandKind i == 0 && islandDie i == (n - 2) / 6)

/-- Limits of an island's clock besides Table 14-10: top clock, operator cap, power cap and safe level, kHz. -/
def State.otherLimit (s : State) (i : Nat) : Nat :=
  let a := min (Reset.topClock i) (s.rw 0x2001 5 i)
  let b := if islandKind i = 0 then min a s.power.capKHz else a
  max (minClock i) (if s.safeLevel then minClock i else b)

/-- Limit of Table 14-10. -/
def State.thermalLimit (s : State) (x : Island) : Option Nat :=
  if s.power.hot.any fun h => heldBy x.num h.1 then some (minClock x.num) else x.thermalCap

/-- Clock an island is to run at: the lowest limit that applies, never below its minimum (R22, R432). -/
def State.clockTarget (s : State) (x : Island) : Nat :=
  max (minClock x.num) (min (s.otherLimit x.num) ((s.thermalLimit x).getD (s.otherLimit x.num)))

/-! ### Thermal steps (R431) -/

/-- Thresholds of stepping for an island: whether a sensor is high enough to lower its clock, or low enough to raise it. Clusters follow their die's sensor,
HBM controller islands their stack's. -/
def State.stepSense (s : State) (i : Nat) : Bool × Bool :=
  match islandKind i with
  | 0 => (950 ≤ s.sensor (islandDie i), s.sensor (islandDie i) < 920)
  | 1 => (900 ≤ s.sensor (2 + islandStack i), s.sensor (2 + islandStack i) < 870)
  | _ => (false, false)

/-- One step of 25 MHz down at most each 1 ms, or up at most each 10 ms, at a period boundary. -/
def State.thermalStep (s : State) (x : Island) : Island :=
  let lim := s.otherLimit x.num
  let now := x.thermalCap.getD lim
  if (s.stepSense x.num).1 && s.due (x.lastStepUs + 1000) then { x with thermalCap := some (max (minClock x.num) (min now lim - 25000)), lastStepUs := s.us }
  else if (s.stepSense x.num).2 && x.thermalCap.isSome && s.due (x.lastStepUs + 10000) then
    { x with thermalCap := if lim ≤ now + 25000 then none else some (now + 25000), lastStepUs := s.us }
  else x

/-- Whether a sensor stands in a row that lowers or sets a clock. -/
def State.sensorThrottles (s : State) (n : Nat) : Bool := if n < 2 then 950 ≤ s.sensor n else 900 ≤ s.sensor n

/-- Thermal throttling ends when no clock is limited by Table 14-10 any longer. -/
def State.endThermal (s : State) : State :=
  if s.power.thermal && s.power.hot.isEmpty && s.islands.all (·.thermalCap.isNone) && !(List.range 14).any s.sensorThrottles then
    s.onPower fun p => { p with thermal := false } else s

/-! ### Waking gated clusters (R392, R396) -/

/-- Clusters that hold a slice of a partition: its mailboxes' domain (R392). -/
def State.domain (s : State) (p : Nat) : List Nat := sortNat ((s.slicesOf p).map fun x => sliceCluster x.num)

def State.islandSt (s : State) (i : Nat) : IslandState := ((s.island i).map (·.st)).getD .absent

/-- Starts waking gated clusters that are not held off (R392, R396). -/
def State.wake (s : State) (cs : List Nat) : State :=
  s.onPower fun p => { p with waking := p.waking ++ (cs.filter fun c =>
    s.islandSt (clusterIsland c) == .gated && !p.heldOff.contains c && !p.waking.any (·.1 == c)).map fun c => (c, s.us) }

/-- Scoreboard entries of a partition's running clusters. -/
def State.scoreboard (s : State) (p : Nat) : Nat := s.work.tiles.countP fun t => handlePart t.page.handle == p && (s.clustersOf s.epochs.active p).contains (t.core / 8)

/-- Clusters a period boundary wakes: gated ones of a partition whose scoreboards hold more than its wake threshold (R396). -/
def State.wakeBusy (s : State) : State :=
  s.each ((List.range 64).filter fun p => !(s.slicesOf p).isEmpty && s.act 0x7811 5 p < s.scoreboard p) fun s p => s.wake (s.domain p)

/-! ### Period boundary (R29, R40) -/

/-- Flash throttle r of the next period in 1/65,535 (R233). -/
def State.flashThrottle (s : State) (i : Nat) : Nat :=
  let f := s.sbsFree i false
  let l := s.watermark false 1
  let c := s.watermark false 2
  if l ≤ f then 65535 else if f ≤ c then 0 else 65535 * (f - c) / (l - c)

/-- Bandwidth of an island's Truss stop each way, in bytes per millisecond (Table 1-6). -/
def stopRate (i : Nat) : Nat :=
  match islandKind i with
  | 0 => 2000000000
  | 1 => 2048000000
  | 2 => 200000000
  | 3 => 57600000
  | _ => 64000000

/-- Counts what the Truss and the links carried in a period, which no command tells: free values within a period of 4,096 cycles and the bandwidths of Table 1-6
(R24; 0x2020, 0x2021, 0x5002; log 68). -/
def State.countTruss (s : State) (x : Island) : State :=
  let cap := fun (rate : Nat) => rate * 4096 / x.clk + 1
  let s1 := (((s.bumpFree 0x2021 2 x.num (cap (stopRate x.num))).bumpFree 0x2021 3 x.num (cap (stopRate x.num))).bumpFree 0x2021 4 x.num 4097)
  let s2 := if x.num = 16 && s.diePresent 1 && !s.fenced srcBridge then (s1.bumpFree 0x2020 3 0 (cap 4000000000)).bumpFree 0x2020 4 0 (cap 4000000000) else s1
  if islandKind x.num = 2 then
    s2.each ((List.range 8).map (8 * islandDie x.num + ·)) fun s n =>
      if s.lpInUse n then (s.bumpFree 0x5002 0x0C n 4097).bumpFree 0x5002 0x0E n 4097 else s
  else s2

/-- The budgets, table and count of an island's next period (R29, R33 to R41). The first boundary after a relock resumes budgets and count, and ends no period
of its own (R21, log 163). -/
def State.turnPeriod (s : State) (x : Island) : State :=
  let next := x.shadowTable.getD x.table
  let uses := (List.range (resourceCount x.num)).flatMap fun r => s.turnUses x next r
  let waited := x.uses.any (·.waited)
  let ran := bit !x.paused
  ((if x.paused then s else s.countTruss x).onIsland x.num fun y => { y.takeTable with periods := y.periods + ran, paused := false, uses := uses }).onPower fun p =>
    { p with totalPeriods := p.totalPeriods + ran, waitedPeriods := p.waitedPeriods + bit waited }

/-- What a period boundary does in one kind of island: a cluster island may wake gated clusters, a network island takes the committed shaper parameters and opens a window, a flash island sets its
throttle (R233, R295, R396). -/
def State.turnKind (s : State) (i : Nat) : State :=
  match islandKind i with
  | 0 => s.wakeBusy
  | 2 =>
    let die := islandDie i
    (s.onNet fun n => { n with params := n.params.set die s.objs.active }).openWindow s die
  | 3 =>
    let r := s.flashThrottle (flashIndex i)
    let s1 := s.onIsland i fun x => { x with throttle := r }
    if r < 65535 then (s1.bump 0x3004 0x0A 0 1).noteThrottle else s1
  | _ => s

/-- An island asked for a clock: a fall relocks its PLL at once, a rise first waits until its core rail has been set and read back for the clock
(R21, R421, log 163). -/
def Island.changeClock (x : Island) (k : Nat) : Island :=
  let to_ := if x.clk < k then min k (max x.clk x.railFor) else k
  let y := { x with wish := if to_ < k then some k else none }
  if to_ = x.clk then y else { y with st := .clockChanging, relock := some to_ }

/-- Takes up a clock change at the boundary (R21, R431). -/
def State.turnClock (s : State) (i : Nat) : State :=
  let s1 := (s.onIslands fun l => mapIf (·.num == i) (fun x => s.thermalStep x) l).endThermal
  match s1.island i with
  | none => s1
  | some x => s1.onIsland i fun y => y.changeClock (s1.clockTarget x)

/-- PERIOD_BOUNDARY (R29 to R41, R233, R295, R431). An island that is stopped only takes the newest budget table (R40, log 163). -/
def execPeriodBoundary (island : Nat) (s : State) : Result :=
  .next (if !s.managed then s
    else match s.island island with
    | none => s
    | some x => match x.st with
      | .running => (((s.turnPeriod x).turnKind island).turnClock island).settle
      | .absent | .clockChanging => s
      | .gated | .fenced | .resetting => s.onIsland island Island.takeTable)

/-- CLOCK_RELOCK_DONE: the island runs on at its new clock; its budgets resume at its next boundary (R21). The array's cycles so far were counted at the old
clock (R170). -/
def execClockRelockDone (island : Nat) (s : State) : Result :=
  .next (if !s.managed then s
    else (if island = 17 then s.markCycles else s).onIsland island fun x => match x.st, x.relock with
      | .clockChanging, some k => { x with st := .running, clk := k, relock := none, paused := true }
      | _, _ => x)

end Sys2Proof.Machine
end

