-- ==== Sys2Proof/Machine/Mailboxes.lean ====
section
/-!
DEFINITION. Mailboxes, cluster gating and the power cap (R388 to R399).
-/
namespace Sys2Proof.Machine

/-! ### Mailboxes (R388 to R394) -/

/-- Item of a mailbox's objects: partition, 64 for management, and number. -/
def boxItem (p n : Nat) : Nat := p * 65536 + n

def State.mailbox (s : State) (p n : Nat) : Option Mailbox := s.mailboxes.find? fun b => b.part == p && b.num == n

/-- Empties a mailbox. -/
def State.emptyBox (s : State) (p n : Nat) : State := s.onMailboxes fun l => l.filter fun b => !(b.part == p && b.num == n)

/-- Binding in force: kind and receiver; a management mailbox has kind 0 (R388). -/
def State.boxKind (s : State) (p n : Nat) : Nat := if p = 64 then 0 else s.act 0x7801 3 (boxItem p n)

/-- Whether a mailbox's domain is off (R392). -/
def State.domainOff (s : State) (p : Nat) : Bool :=
  p < 64 && (s.domain p).all fun c =>
    s.clusterFenced c || s.power.heldOff.contains c || s.islandSt (clusterIsland c) == .resetting

/-- The wake event of a mailbox. -/
def State.wakeEvent (s : State) (p : Nat) : State := if p < 64 then s.wake (s.domain p) else s

/-- Mailbox an address lies in: partition (64 for management), number and offset; none outside the mailbox window (R389). -/
def boxAt (part : Nat) (addr key : Nat) : Option (Nat × Nat × Nat) :=
  let base := 0x4D42000000000000
  if key ≠ 0x4D42 || addr < base then none
  else
    let a := addr - base
    if a < 16384 then some (part, a / 256, a % 256)
    else if 0x10000 ≤ a && a < 0x10000 + 4096 then some (64, (a - 0x10000) / 256, a % 256)
    else none

/-- Completion of a mailbox write, on the queue pair that carried it only (R391). -/
def State.boxAnswer (s : State) (r : Option Req) (st : Status) (words : List W64) : State :=
  match r with
  | none => s
  | some r => if ((s.qp r.qp).map Qp.connected).getD false then s.complete r st words [] else s

/-- A held message is taken (R391). -/
def State.takeBox (s : State) (b : Mailbox) : State :=
  ((s.emptyBox b.part b.num).bump 0x7802 5 (boxItem b.part b.num) 1).boxAnswer b.senderReq .ok
    [packWord [(8, if b.part = 64 then 64 + b.num else b.num), (56, 0)]]

/-- A held message is discarded (R391). -/
def State.discardBox (s : State) (b : Mailbox) (st : Status) : State := (s.emptyBox b.part b.num).boxAnswer b.senderReq st []

/-- Sends a message on a queue pair of the device's own, under a tag of another party's choice. -/
def State.forwardTo (s : State) (nd : Node) (b : Mailbox) (h : Hdr) : State :=
  match s.nodeQp nd.num with
  | none => s.discardBox b .retryLater
  | some q =>
    ((s.onMailboxes fun l => mapIf (fun x => x.part == b.part && x.num == b.num) (fun x => { x with delivering := true }) l).onBroker fun k =>
      { k with asks := k.asks ++ [{ tag := h.tag.toNat, node := nd.num, kind := .mailbox b.part b.num, untilUs := b.untilUs }] }).sendMsg q 9
        { opcode := 0x40, completion := false, device := true, status := .ok, partition := h.partition.toNat, tenant := h.tenant.toNat
          epoch := s.epochs.active, tag := h.tag.toNat, handle := 0, words := [packWord [(12, b.sender), (1, bit b.fromOperator), (8, b.num), (43, 0)]]
          data := b.body }

/-- Forwards a message held under kind 1, or discards it (R391). -/
def State.forwardBox (s : State) (b : Mailbox) : State :=
  match b.hdr, s.nodeByIdent b.part b.ident with
  | some h, some nd => if nd.allTenants || nd.tenant == h.tenant.toNat then s.forwardTo nd b h else s.discardBox b .accessDenied
  | _, _ => s.discardBox b .retryLater

/-- Puts a message into an empty mailbox, raises the wake event, and forwards it under kind 1 (R388, R390, R391). -/
def State.fillBox (s : State) (p n : Nat) (h : Hdr) (body : List Byte) (oper : Bool) (sender : Nat) (req : Option Req) : State :=
  let b : Mailbox :=
    { part := p, num := n, full := true, delivering := false, kind := s.boxKind p n, fromOperator := oper, sender := sender, senderReq := req, hdr := some h
      body := body, ident := s.act 0x7801 4 (boxItem p n), untilUs := s.us + 1000 * s.rw 0x7800 5 0 }
  let s1 := (s.onMailboxes fun l => l ++ [b]).wakeEvent p
  if b.kind = 1 then s1.forwardBox b else s1

/-- Steps 1 and 2 of R390: an invalid request, or a domain that is off, which a write with immediate learns by its completion; else `run` on the mailbox. An
address outside the window is no mailbox (R287) (log 111). -/
def State.boxEntry (s : State) (w : MailboxWrite) (answers : Bool) (run : State → Qp → Nat → Nat → State) : State :=
  match s.qp w.qp with
  | none => s
  | some q =>
    if !q.connected then s
    else match boxAt q.part w.addr.toNat w.key.toNat with
      | none => s.refuseAccess q
      | some (p, n, off) =>
        let s1 := (s.heard q).rxPackets q (max 1 w.packets)
        if w.packets ≠ 1 || 256 < off + w.length then s1.control q.lp (.nakInvalid q.num)
        else if s1.domainOff p then
          let s2 := ((s1.bump 0x7802 6 (boxItem p n) 1).control q.lp (.nakAccess q.num 7)).qpError q.num true
          if answers then s2.answer (reqOf { qp := q.num, length := w.length, hdr := w.hdr } 0x40) .domainOff else s2
        else run s1 q p n

/-- Whether a sender may write a mailbox: a management mailbox lists its writer partitions (R390). -/
def State.mayWrite (s : State) (part p n : Nat) : Bool := p < 64 || (s.act 0x7801 5 (boxItem 64 n)).testBit part

/-- The check of R246's steps 1 to 5 and of the immediate that a mailbox write fails, if any: a sender that may not write the mailbox fails step 3 (R390). -/
def State.boxFault (s : State) (q : Qp) (w : MailboxWrite) (p n : Nat) : Option Status :=
  match s.checkHeader q w.hdr w.length 0x40 .checked with
  | some st => some (if !s.mayWrite q.part p n && (st == .attestPending || st == .retryLater || st == .staleEpoch) then .accessDenied else st)
  | none =>
    if !s.mayWrite q.part p n then some .accessDenied
    else if w.imm.toNat % 256 ≠ (if p = 64 then 64 + n else n) || w.addr.toNat % 256 ≠ 0 || 224 < w.body.length || w.hdr.handle != 0 then some .malformed
    else none

/-- Steps 3 to 5 of R390. -/
def State.boxMessage (s : State) (w : MailboxWrite) (q : Qp) (p n : Nat) : State :=
  let item := boxItem p n
  let req := reqOf { qp := q.num, length := w.length, hdr := w.hdr } 0x40
  if s.boxKind p n ≠ 2 && (s.mailbox p n).isSome then (s.control q.lp (.rnrNak q.num (q.param 0x5030 4))).bump 0x7802 7 item 1
  else
    let s1 := (s.bump 0x5100 9 (q.part * 65536 + w.hdr.tenant.toNat) w.length).bump 0x5002 9 q.lp w.length
    match s1.boxFault q w p n with
    | some st => (s1.noteRefusal q w.hdr st).boxAnswer (some req) st []
    | none =>
      let r := s1.police (lpDie q.lp) q.part w.hdr.tenant.toNat w.length false
      if !r.1 then
        (if r.2.1 = 1 then r.2.2.bump 0x5100 0x0B (q.part * 65536 + w.hdr.tenant.toNat) 1
          else (r.2.2.noteRefusal q w.hdr .policed).boxAnswer (some req) .policed [])
      else
        let s2 := r.2.2.meterBytes q.part w.hdr.tenant.toNat w.length
        if s.boxKind p n = 2 then
          (s2.wakeEvent p).boxAnswer (some req) .ok [packWord [(8, n), (56, 0)]]
        else s2.fillBox p n w.hdr w.body false (q.node.getD 0) (some req)

/-- MAILBOX_WRITE: a write with immediate (R389, R390; log 166). -/
def execMailboxWrite (w : MailboxWrite) (s : State) : Result :=
  s.event fun s => s.boxEntry w true fun s q p n => s.boxMessage w q p n

/-- MAILBOX_DOORBELL: a plain write, which only raises the wake event (R389, R390). -/
def execMailboxDoorbell (w : MailboxWrite) (s : State) : Result :=
  s.event fun s => s.boxEntry w false fun s _ p _ => s.wakeEvent p

/-- MAILBOX_RECEIVER_COMPLETION (R391). -/
def execMailboxReceiverCompletion (r : Reply) (s : State) : Result :=
  .next (s.reply r AskKind.isMailbox fun a s =>
    match a.kind with
    | .mailbox p n => (match s.mailbox p n with
      | some b => if r.status = 0 then s.takeBox b else s.discardBox b .retryLater
      | none => s)
    | _ => s)

/-- MAILBOX_DELIVERY_TIMEOUT: no completion within 0x7800.05 (R391). -/
def execMailboxDeliveryTimeout (partition box : Nat) (s : State) : Result :=
  s.event fun s => match s.mailbox partition box with
    | none => s
    | some b =>
      if b.delivering && s.due b.untilUs then
        (s.onBroker fun k => { k with asks := k.asks.filter fun a => a.kind != .mailbox partition box }).discardBox b .retryLater
      else s

/-- The operator reads a kind-0 message, which takes it (R391). -/
def State.operatorTake (s : State) (p n : Nat) : State :=
  match s.mailbox p n with
  | some b => if b.kind = 0 then s.takeBox b else s
  | none => s

/-- Bytes the operator reads in 0x7802.04: the held message (R391). -/
def State.boxBytes (s : State) (p n : Nat) : List Byte :=
  match s.mailbox p n with
  | some b => if b.kind = 0 then (b.hdr.map fun h => wordBytes (hdrWords h 0x40)).getD [] ++ b.body else []
  | none => []

/-- Header of an operator's message: the selected partition and tenant, tag 0 (R393). -/
def operatorHeader (p t len : Nat) : Hdr :=
  { version := 1, completion := false, device := false, reserved := 0, status := 0, partition := BitVec.ofNat 8 p, tenant := BitVec.ofNat 16 t, epoch := 0
    tag := 0, handle := 0, bodyLen := BitVec.ofNat 32 len, check := 0 }

/-- The operator sends a message through 0x7803.04 (R393). -/
def State.operatorSend (s : State) (p n t : Nat) (body : List Byte) : DStatus × State :=
  if s.boxKind p n ≠ 1 then (.malformed, s)
  else if (s.mailbox p n).isSome then (.busy, s)
  else if s.domainOff p then (.domainOff, s.bump 0x7802 6 (boxItem p n) 1)
  else (.ok, s.fillBox p n (operatorHeader p t body.length) body true 0 none)

/-- Status word (Table 13-1). -/
def State.boxStatus (s : State) (p n : Nat) : Nat :=
  match s.mailbox p n with
  | none => 0
  | some b => packBits [(1, 1), (1, bit b.delivering), (2, b.kind), (1, bit b.fromOperator), (2, 0), (9, 32 + b.body.length), (12, b.sender), (36, 0)]

/-! ### Gating (R396 to R398) -/

/-- Partitions that hold a slice in a cluster. -/
def State.clusterParts (s : State) (c : Nat) : List Nat :=
  sortNat ((s.epochs.slices.filter fun x => sliceCluster x.num == c).filterMap (·.owner))

/-- Whether a cluster may be gated now (R396, R398). -/
def State.mayGate (s : State) (c : Nat) : Bool :=
  let ps := s.clusterParts c
  match s.power.idleSince.getD c none with
  | none => false
  | some t =>
    s.power.heldOff.contains c || (ps.all (fun p => s.act 0x7811 2 p == 1 && s.act 0x7811 4 p ≤ ((s.clustersOf s.epochs.active p).filter (· != c)).length)
      && s.due (t + 1000 * ps.foldl (fun m p => max m (s.act 0x7811 3 p)) 0))

/-- CLUSTER_GATE: the cluster stops and its buffers and page cache part are invalid (R17, R396, R398). -/
def execClusterGate (cluster : Nat) (s : State) : Result :=
  s.event fun s =>
    if cluster < 16 && s.islandSt (clusterIsland cluster) == .running && !s.clusterFenced cluster && s.mayGate cluster then
      ((s.clearCache cluster).markIslands [clusterIsland cluster] .gated).onPower fun p => { p with gatings := sadd p.gatings cluster 1 }
    else s

/-- CLUSTER_WAKE: a cluster that is being woken runs again, stale, under the newest budget table (R40, R377, R396). -/
def execClusterWake (cluster : Nat) (s : State) : Result :=
  s.event fun s => match s.power.waking.find? (·.1 == cluster) with
    | none => s
    | some (_, t) =>
      ((s.onIsland (clusterIsland cluster) fun i => if i.st = .gated then { i.takeTable with st := .running } else i).note
        0x7812 6 cluster (s.us - t)).onPower fun p =>
          { p with waking := p.waking.filter (·.1 != cluster), wakes := sadd p.wakes cluster 1 }

/-- A write of 0x7812.03 (R398). -/
def State.holdOff (s : State) (c : Nat) (on : Bool) : State :=
  s.onPower fun p => if on then { p with heldOff := insNat p.heldOff c, waking := p.waking.filter (·.1 != c) }
    else { p with heldOff := p.heldOff.filter (· != c) }

/-! ### Power cap (R399) -/

/-- POWER_CAP_STEP: one step of 25 MHz per 10 ms, down above the cap and up more than 5 % below it (R399) (log 110). -/
def execPowerCapStep (s : State) : Result :=
  .next (
    let cap := s.rw 0x7810 2 0
    let w := s.power.telemetry.powerMilliW
    if !s.managed || !s.due (s.power.lastCapUs + 10000) then s
    else s.onPower fun p => { p with
      lastCapUs := s.us
      capKHz :=
        if cap = 0 then 2500000
        else if cap * 1000 < w then max 800000 (p.capKHz - 25000)
        else if w < cap * 950 then min 2500000 (p.capKHz + 25000)
        else p.capKHz })

/-- Power level, 0x7810.01 (R399). -/
def State.powerLevel (s : State) : Nat := if s.safeLevel then 2 else if s.rw 0x7810 2 0 ≠ 0 then 1 else 0

end Sys2Proof.Machine
end

