-- ==== Sys2Proof/Machine/Endings.lean ====
section
/-!
DEFINITION. Requests in flight that a limit ends: at the drain limit of an epoch, at the hold limit of a firmware switch, one second into an orderly shutdown
(R84, R134, R310, R406, R409).
-/
namespace Sys2Proof.Machine

/-- Epoch under which a message that waits for an RDMA READ runs: an ADMIT or LOOKUP runs under the active one (R249). -/
def State.readEpoch (s : State) (i : Instr) : Nat :=
  match i with
  | .append m _ => m.hdr.epoch.toNat
  | .refreshAppend m _ => m.hdr.epoch.toNat
  | .attend m _ => m.hdr.epoch.toNat
  | _ => s.epochs.active

/-- Whether a message that waits for an RDMA READ has a record of its own, an APPEND's or an ATTEND's, that answers for it. -/
def recorded (i : Instr) : Bool :=
  match i with
  | .append .. => true
  | .refreshAppend .. => true
  | .attend .. => true
  | _ => false

/-- Ends the messages without a record that wait for an RDMA READ under some epochs. -/
def State.endReads (s : State) (mine : Nat → Bool) (st : Status) : State :=
  s.each (s.net.reads.filter fun r => mine (s.readEpoch r.why) && !recorded r.why) fun s r =>
    match readReq r.why with
    | some q => (s.endRead r).answer q st
    | none => s.endRead r

/-- Ends the reads of a record's payload. -/
def State.endOwned (s : State) (id : Nat) : State := s.each (s.net.reads.filter fun r => r.owner == id) fun s r => s.endRead r

/-- Ends the appends of some epochs. With an accepted one end those of its sequence accepted after it (R121, R134); one that has not been accepted ends alone. -/
def State.endAppends (s : State) (mine : Nat → Bool) (st : Status) : State :=
  s.each (s.work.appends.filter fun a => mine a.epoch) fun s a =>
    if a.accepted then s.failFrom a.id (some st) 0
    else if (s.append a.id).isSome then ((s.endOwned a.id).dropAppend a).appendAnswer a st 0 else s

/-- Ends the rows of some epochs that have not completed, dispatched or not, and completes the messages that this leaves with none (R84, R86, R249). -/
def State.endAttends (s : State) (mine : Nat → Bool) (st : Status) : State :=
  s.each s.work.attends fun s a =>
    let hit := (a.rows.zipIdx.filter fun r => r.1.status.isNone && mine (s.rowEpoch r.1)).map (·.2)
    let s1 := s.each hit fun s i => s.endRow a.id i st 0
    match s1.attend a.id with
    | some x => if !hit.isEmpty && x.rows.all (·.status.isSome) then (s1.endOwned a.id).completeAttend x else s1
    | none => s1

/-- Ends the STAGEs and DELIVERs of some epochs (R134). -/
def State.endTransfers (s : State) (mine : Nat → Bool) (st : Status) : State :=
  let s1 := s.each (s.work.stageReqs.filter fun r => mine r.epoch) fun s r => s.endStage r (st == .staleEpoch) true
  s1.each (s1.work.deliveries.filter fun d => mine d.epoch) fun s d => s.endDelivery d st 0

/-- Requests and rows of some epochs that have not completed: what 0x6000.04 and 0x6000.0A count. -/
def State.requestsUnder (s : State) (mine : Nat → Bool) : Nat :=
  s.net.reads.countP (fun r => mine (s.readEpoch r.why) && !recorded r.why) + s.work.appends.countP (fun a => mine a.epoch)
    + sumOf (fun a : Attend => a.rows.countP fun r => r.status.isNone && mine (s.rowEpoch r)) s.work.attends
    + s.work.stageReqs.countP (fun r => mine r.epoch) + s.work.deliveries.countP (fun d => mine d.epoch)

/-- Ends what runs under some epochs. -/
def State.endUnder (s : State) (mine : Nat → Bool) (st : Status) : State :=
  (((s.endReads mine st).endAppends mine st).endAttends mine st).endTransfers mine st

/-- Answers the requests a turn record keeps: an admission that is not placed is refused, a drain goes on without its requester (R256, R259, R260). -/
def State.endTurnReqs (s : State) (h : Nat) (st : Status) : State :=
  match s.seq h with
  | none => s
  | some q =>
    let s1 := match q.lease with
      | .offered _ _ tag => s.endOffer h tag
      | _ => s
    let s2 := if q.turn.admitReq.isSome then
        (s1.onMortise fun m => { m with lookups := m.lookups.filter fun l => !l.for_.admits h }).refuseAdmit h st
      else match q.lease with
        | .offered .prefill _ _ => s1.endTurn h st
        | .choosing .prefill => s1.endTurn h st
        | .offered .decode _ _ => (s1.answerHandoff h none st).endTurn h st
        | .choosing .decode => (s1.answerHandoff h none st).endTurn h st
        | _ => s1.answerHandoff h none st
    match s2.seq h with
    | none => s2
    | some x => match x.turn.releaseReq with
      | some r => (s2.complete r st [packWord [(23, x.sealedPos), (41, 0)]] []).onSeq h fun y => { y with turn := { y.turn with releaseReq := none } }
      | none => s2

/-- Ends every request in flight with `RETRY_LATER` (R406, R409; which requests that takes in, log 57). -/
def State.endRequests (s : State) : State :=
  let s1 := s.endUnder (fun _ => true) .retryLater
  let s2 := s1.each s1.mortise.lookups fun s l => match l.for_ with
    | .lookup r => s.answer r .retryLater
    | .probe r => s.answer r .retryLater
    | .admission _ => s
  let s3 := s2.onMortise fun m => { m with lookups := m.lookups.filter fun l => match l.for_ with | .admission _ => true | _ => false }
  let s4 := (s3.each s3.mortise.jobs fun s j => s.endJob j .retryLater []).each (s3.seqs.map (·.handle)) fun s h =>
    let s1 := match s.seq h with
      | some q => (s.each q.epochQueue fun s i => s.endQueued i .retryLater).onSeq h fun x => { x with epochQueue := [] }
      | none => s
    s1.endTurnReqs h .retryLater
  let s5 := (s4.each s4.flash.secure fun s x => s.answer x.req .retryLater).onFlash fun f => { f with secure := [] }
  s5.each (s5.mailboxes.filter fun b => b.full && b.senderReq.isSome) fun s b => s.discardBox b .retryLater

/-- Whether any request is in flight. -/
def State.requestsLeft (s : State) : Bool :=
  0 < s.requestsUnder (fun _ => true) || !s.work.attends.isEmpty || !s.mortise.lookups.isEmpty || !s.mortise.jobs.isEmpty || !s.flash.secure.isEmpty
    || s.mailboxes.any (fun b => b.full && b.senderReq.isSome)
    || s.seqs.any fun q => !q.epochQueue.isEmpty || q.turn.admitReq.isSome || q.turn.handoffReq.isSome || q.turn.releaseReq.isSome

end Sys2Proof.Machine
end

