-- ==== Sys2Proof/Machine/Nodes.lean ====
section
/-!
DEFINITION. Nodes and role advice: REGISTER, HEARTBEAT, DEREGISTER, departures, ROLE_ADVICE (R250 to R254, R263 to R267).
-/
namespace Sys2Proof.Machine

/-! ### REGISTER (R250, R251) -/

/-- Layout of a REGISTER (Table 8-4, R251). -/
def registerFits (m : Rx) (b : RegisterBody) : Bool :=
  m.hdr.bodyLen == 112 && b.role.toNat ≤ 3 && b.ident != 0 && b.variants.length == b.variantCount.toNat
    && (if b.role.toNat ≤ 1 then 1 ≤ b.variantCount.toNat && b.variantCount.toNat ≤ 32 else b.variantCount == 0)
    && (b.regionLen == 0 || 65536 ≤ b.regionLen.toNat) && (b.role != 0 || b.prefillRate != 0) && (b.role != 1 || b.decodeCapacity != 0)

/-- First and one past the last node number of a partition's node block (0x6400.05). -/
def State.nodeBlock (s : State) (p : Nat) : Nat × Nat :=
  (s.act (0x6400 + p) 5 0 / 65536, s.act (0x6400 + p) 5 0 / 65536 + s.act (0x6400 + p) 5 0 % 65536)

/-- Whether a partition may use a node number: a closed one those of its block, any other those of no closed one's (R316) (log 22). -/
def State.numberOpen (s : State) (p n : Nat) : Bool :=
  let mine := fun (x : Nat) => s.act (0x6400 + x) 3 0 == 1
  let has := fun (x : Nat) => (s.nodeBlock x).1 ≤ n && n < (s.nodeBlock x).2
  if mine p then has p else !(List.range 64).any fun x => mine x && has x

/-- Lowest node number free for a partition: not in use and not freed within the last second (R250). -/
def State.freeNumber (s : State) (p : Nat) : Option Nat :=
  (List.range 4096).find? fun n => !s.broker.nodes.any (·.num == n) && !s.broker.freed.any (fun x => x.1 == n && s.us < x.2 + 1000000) && s.numberOpen p n

/-- What a REGISTER sets on a node's record. -/
def Node.set (n : Node) (tenant : Nat) (b : RegisterBody) : Node :=
  { n with role := b.role.toNat, switchable := b.switchable, classic := b.classic, allTenants := b.allTenants, tenant := tenant
           variants := b.variants.map (·.toNat), payloadFormats := b.payloadFormats.toNat % 32, deliveredFormats := b.deliveredFormats.toNat
           prefillRate := b.prefillRate.toNat, decodeCapacity := b.decodeCapacity.toNat, regionAddr := b.regionAddr.toNat, regionKey := b.regionKey.toNat
           regionLen := b.regionLen.toNat, ident := b.ident.toNat }

/-- Completion of a REGISTER (Table 8-4). -/
def State.registerWords (s : State) (n : Node) : List W64 :=
  [packWord [(16, n.num), (32, n.joinKey), (16, 0)], packWord [(16, s.rw 0x4001 1 0), (16, s.rw 0x4001 2 0), (32, 0)]]

/-- Whether a node holds a lease. -/
def State.leases (s : State) (n : Nat) : Nat := s.seqs.countP (·.holder == some n)

/-- A partner that registers again is sent a create for every unmirrored sequence of the partition (R268). -/
def State.resync (s : State) (p : Nat) : State :=
  s.each (s.seqs.filter fun q => q.part == p && q.unmirrored && q.st != .ledgerLost) fun s q => s.sync q .create 0 q.ledger.length

/-- After a node's record has been written: advice that it has followed ends, a partner is resynchronised, and waiting placements try again (R258, R265, R268). -/
def State.registered (s : State) (n : Nat) : State :=
  match s.node n with
  | none => s
  | some nd =>
    let s1 := s.onBroker fun b => { b with advices := b.advices.map fun a => match a.out with
      | some (x, role, _, _) => if x = n && role = nd.role then { a with out := none } else a
      | none => a }
    let s2 := if nd.role = 3 && s.partner nd.part = n then s1.resync nd.part else s1
    s2.retryPlaces nd.part

/-- Record of a node that registers under a new number (R250). -/
def State.newNode (s : State) (q : Qp) (tenant n : Nat) (b : RegisterBody) : Node :=
  Node.set
    { num := n, part := q.part, role := 0, switchable := false, classic := false, allTenants := false, tenant := 0, variants := [], payloadFormats := 0
      deliveredFormats := 0, prefillRate := 0, decodeCapacity := 0, regionAddr := 0, regionKey := 0, regionLen := 0, regionUsed := []
      joinKey := (s.free).1.toNat % 2 ^ 32, ident := 0, regQp := q.num, queued := 0, active := 0, warm := [], placedTokens := 0, placedSeqs := 0
      lastUs := s.us, beatUs := s.us, lastMs := s.ms, accepted := 0, refused := 0 } tenant b

/-- Binds a queue pair to a node (R250). -/
def State.bindQp (s : State) (q n : Nat) : State := s.onQp q fun x => { x with node := some n }

/-- Enrols a node under a new number, with a join key drawn for it (R250). -/
def State.enrol (s : State) (q : Qp) (tenant n : Nat) (b : RegisterBody) : State :=
  ((s.free).2.onBroker fun x => { x with nodes := x.nodes ++ [s.newNode q tenant n b], freed := x.freed.filter (·.1 != n) }).bindQp q.num n

/-- Completes a REGISTER that set node `n`'s record, and what follows it (Table 8-4). -/
def State.welcome (s : State) (m : Rx) (n : Nat) : State :=
  match s.node n with
  | some nd => (s.complete (reqOf m 0x01) .ok (s.registerWords nd) []).registered n
  | none => s

/-- Another node of the partition is still registered under the identifier (R251). -/
def State.identTaken (s : State) (q : Qp) (b : RegisterBody) : Bool := s.broker.nodes.any fun x => x.part == q.part && x.ident == b.ident.toNat

/-- REGISTER, its checks passed by R246 (R250, R251). -/
def State.runRegister (s : State) (m : Rx) (b : RegisterBody) : State :=
  let req := reqOf m 0x01
  match s.qp m.qp with
  | none => s
  | some q =>
    if !registerFits m b then s.answer req .malformed
    else if b.allTenants && s.act 0x4002 0x0B q.part ≠ 1 then s.answer req .accessDenied
    else
      match s.qpNode q with
      | some nd =>
        if s.broker.nodes.any fun x => x.part == q.part && x.ident == b.ident.toNat && x.num != nd.num then s.answer req .accessDenied
        else if b.role.toNat ≠ nd.role && 0 < s.leases nd.num then s.answer req .retryLater
        else (s.onNode nd.num fun x => x.set m.hdr.tenant.toNat b).welcome m nd.num
      | none =>
        if b.join then
          match s.node b.joinNode.toNat with
          | some nd => if nd.part = q.part && nd.joinKey = b.joinKey.toNat then (s.bindQp q.num nd.num).welcome m nd.num else s.answer req .accessDenied
          | none => s.answer req .accessDenied
        else if s.identTaken q b then s.answer req .accessDenied
        else match s.freeNumber q.part with
          | none => s.answer req .capacity
          | some n => (s.enrol q m.hdr.tenant.toNat n b).welcome m n

/-- REGISTER (R250, R251). -/
def execRegister (m : Rx) (b : RegisterBody) (s : State) : Result :=
  .next (s.receive m 0x01 .unchecked 0 false fun s => s.runRegister m b).settle

/-! ### HEARTBEAT (R252) -/

/-- Puts a HEARTBEAT's report into its node's record, and its placements since the last one to 0 (R252, R264). -/
def State.beat (s : State) (n : Nat) (b : HeartbeatBody) : State :=
  s.onNode n fun x => { x with
    queued := b.queued.toNat, active := b.active.toNat, warm := (b.warm.take b.warmCount.toNat).map (·.toNat), placedTokens := 0, placedSeqs := 0
    beatUs := s.us }

def State.runHeartbeat (s : State) (m : Rx) (b : HeartbeatBody) : State :=
  let req := reqOf m 0x02
  match s.nodeOf m.qp with
  | none => s
  | some nd =>
    if m.hdr.bodyLen != 24 || 8 < b.warmCount.toNat then s.answer req .malformed
    else ((s.beat nd.num b).complete req .ok [packWord [(2, s.power.congestion), (14, 0), (16, s.leases nd.num), (32, 0)]] []).retryPlaces nd.part

/-- HEARTBEAT (R252). -/
def execHeartbeat (m : Rx) (b : HeartbeatBody) (s : State) : Result :=
  .next (s.receive m 0x02 .unchecked 0 false fun s => s.runHeartbeat m b).settle

/-! ### DEREGISTER (R254) -/

/-- A node leaves: its leases return, the completion goes out on the queue pair it came on, and the node is forgotten (R253, R254). -/
def State.leave (s : State) (m : Rx) (nd : Node) : State :=
  let req := reqOf m 0x03
  let s1 := (s.onBroker fun b => { b with nodes := b.nodes.filter (·.num != nd.num) }).returnLeases nd
  match s.qp m.qp with
  | some q => (s1.sendMsg q 9 { opcode := 0x03, completion := true, device := false, status := .ok, partition := req.partition, tenant := req.tenant
                                epoch := s.epochs.active, tag := req.tag, handle := req.handle, words := [], data := [] }).forgetNode nd.num
  | none => s1.forgetNode nd.num

def State.runDeregister (s : State) (m : Rx) (leases : Bool) : State :=
  let req := reqOf m 0x03
  match s.nodeOf m.qp with
  | none => s
  | some nd =>
    if m.hdr.bodyLen != 8 then s.answer req .malformed
    else if !leases && 0 < s.leases nd.num then s.answer req .retryLater
    else s.leave m nd

/-- DEREGISTER with bit 63 clear (R254). -/
def execDeregister (m : Rx) (s : State) : Result := .next (s.receive m 0x03 .unchecked 0 false fun s => s.runDeregister m false).settle

/-- DEREGISTER with bit 63 set: the node's leases return as under R253 (R254). -/
def execDeregisterReturnLeases (m : Rx) (s : State) : Result := .next (s.receive m 0x03 .unchecked 0 false fun s => s.runDeregister m true).settle

/-! ### Departures (R253, R267) -/

/-- A node that has sent nothing for the lease timeout, or whose queue pairs are all in error, is gone; timers rest during a firmware switch (R253). -/
def execLeaseTimeout (node : Nat) (s : State) : Result :=
  s.event fun s => match s.node node with
    | none => s
    | some nd => if s.fw.hold.isNone && (s.due (nd.lastUs + 1000 * s.rw 0x4001 1 0) || (s.nodeQps node).isEmpty) then s.nodeGone node else s

/-- A peer that has sent no HEARTBEAT for the peer timeout is gone (R267). -/
def execPeerTimeout (node : Nat) (s : State) : Result :=
  s.event fun s => match s.node node with
    | none => s
    | some nd => if nd.role = 3 && s.fw.hold.isNone && s.due (nd.beatUs + 1000 * s.rw 0x4005 1 0) then s.nodeGone node else s

/-- At the heartbeat interval this device sends every peer its HEARTBEAT; it has no prefill queue, sequences or variants of its own to report (R267, Table 8-5; log 165). -/
def execPeerHeartbeatSend (s : State) : Result :=
  s.event fun s => if !s.due (s.broker.peerBeat + 1000 * s.rw 0x4001 2 0) then s
    else (s.each (s.broker.nodes.filter (·.role == 3)) fun s n => s.ask n.num 0x02 9 n.part n.tenant 0 [0, 0, 0] [] none).onBroker fun b =>
      { b with peerBeat := s.us }

/-! ### Role advice (R265) -/

/-- Advice record of a partition. -/
def State.advice (s : State) (p : Nat) : Advice :=
  (s.broker.advices.find? (·.part == p)).getD { part := p, up := 0, down := 0, out := none, declined := [], at_ := 0 }

def State.setAdvice (s : State) (a : Advice) : State :=
  s.onBroker fun b => { b with advices := b.advices.filter (·.part != a.part) ++ [a] }

/-- u_p and u_g as fractions; an empty sum counts as 0 (R265). -/
def State.loads (s : State) (p : Nat) : (Nat × Nat) × (Nat × Nat) :=
  let ns := s.broker.nodes.filter (·.part == p)
  let prompt := ns.filter (·.role == 0)
  let gen := ns.filter (·.role == 1)
  let r := sumOf (·.prefillRate) prompt * s.act 0x4003 3 p
  let m := sumOf (·.decodeCapacity) gen
  ((if r = 0 then (0, 1) else (1000 * sumOf (fun n : Node => n.queued + n.placedTokens) prompt, r)),
   (if m = 0 then (0, 1) else (sumOf (fun n : Node => n.active + n.placedSeqs) gen, m)))

/-- A load in 1/1,024, saturating (Table 8-12). -/
def loadField (x : Nat × Nat) : Nat := min 65535 (1024 * x.1 / x.2)

/-- Least of some nodes by a measure, ties to the lowest number. -/
def leastNode (f : Node → Nat) (l : List Node) : Option Node :=
  l.foldl (fun acc n => match acc with
    | none => some n
    | some a => if f n < f a || (f n = f a && n.num < a.num) then some n else some a) none

/-- Sends ROLE_ADVICE to a node (Table 8-12). -/
def State.sendAdvice (s : State) (p : Nat) (nd : Node) (role : Nat) (u : (Nat × Nat) × (Nat × Nat)) : State :=
  let tag := (s.freshTag).1
  let hold := s.act 0x4003 6 p
  ((s.ask nd.num 0x50 9 p nd.tenant 0
    [packWord [(4, role), (4, role), (16, loadField u.1), (16, loadField u.2), (24, 0)], packWord [(32, hold), (32, 0)]] []
    (some (.advice p, s.us + 1000 * hold))).setAdvice { s.advice p with out := some (nd.num, role, tag, s.us + 1000 * hold) }).bump 0x4006 9 p 1

/-- One evaluation of a partition's role advice (R265). -/
def State.evaluateAdvice (s : State) (p : Nat) : State :=
  if s.act 0x4003 9 p ≠ 1 || !s.due ((s.advice p).at_ + 1000 * s.act 0x4003 2 p) then s
  else
    let u := s.loads p
    let x : Int := (1024 : Int) * (u.1.1 * u.2.2) - 1024 * (u.2.1 * u.1.2)
    let edge : Int := s.act 0x4003 4 p * (u.1.2 * u.2.2)
    let a := s.advice p
    let a1 := { a with up := if edge ≤ x then a.up + 1 else 0, down := if x ≤ -edge then a.down + 1 else 0
                       declined := a.declined.filter fun d => s.us < d.2
                       at_ := s.us }
    let s1 := s.setAdvice a1
    let open_ := fun (n : Node) => n.part == p && n.switchable && !a1.declined.any (·.1 == n.num)
    let count := fun (r : Nat) => s.broker.nodes.countP fun n => n.part == p && n.role == r
    if a1.out.isSome then s1
    else if s.act 0x4003 5 p ≤ a1.up && s.act 0x4003 8 p < count 1 then
      match leastNode (fun n => n.active + n.placedSeqs) (s.broker.nodes.filter fun n => open_ n && n.role == 1) with
      | some n => s1.sendAdvice p n 0 u
      | none => s1
    else if s.act 0x4003 5 p ≤ a1.down && s.act 0x4003 7 p < count 0 then
      match leastNode (fun n => n.queued + n.placedTokens) (s.broker.nodes.filter fun n => open_ n && n.role == 0) with
      | some n => s1.sendAdvice p n 1 u
      | none => s1
    else s1

/-- Evaluation at the advice interval of one partition (R265). -/
def execAdviceEvaluation (partition : Nat) (s : State) : Result := s.event fun s => s.evaluateAdvice partition

/-- A node's answer to ROLE_ADVICE: any status but `OK` declines it (R265). -/
def execRoleAdviceCompletion (r : Reply) (s : State) : Result :=
  .next (s.reply r AskKind.isAdvice fun a s => match a.kind with
    | .advice p => if r.status = 0 then s else s.declineAdvice p a.node
    | _ => s)

/-- The advice hold ends: outstanding advice to the node ends, and a node that declined may be advised again (R265). -/
def execAdviceHoldEnd (partition node : Nat) (s : State) : Result :=
  s.event fun s =>
    let a := s.advice partition
    let out := match a.out with
      | some (n, _, _, until_) => if n = node && s.due until_ then none else a.out
      | none => none
    s.setAdvice { a with out := out, declined := a.declined.filter fun d => !(d.1 == node && s.due d.2) }

end Sys2Proof.Machine
end

