-- ==== Sys2Proof/Machine/Commit.lean ====
section
/-!
DEFINITION. The composition map: checking and accepting a commit, epochs, and slices that move (R308 to R316, R332, R340 to R342).
-/
namespace Sys2Proof.Machine

/-! ### The shadow set (R338, R340) -/

/-- Shadow value of an `RWS` object. -/
def State.shadow (s : State) (ix sub item : Nat) : Nat := s.inMap s.objs.shadow ix sub item

/-- Partition a map assigns a slice to. -/
def State.assignedIn (s : State) (m : SMap) (sl : Nat) : Option Nat :=
  if 63 < s.inMap m 0x6010 (sl + 1) 0 then none else some (s.inMap m 0x6010 (sl + 1) 0)

/-- Slices a map assigns to a partition. -/
def State.slicesIn (s : State) (m : SMap) (p : Nat) : List Nat := (List.range 64).filter fun sl => s.assignedIn m sl == some p

/-- Partitions that hold a slice in a map. -/
def State.partsIn (s : State) (m : SMap) : List Nat := (List.range 64).filter fun p => !(s.slicesIn m p).isEmpty

/-- Exported capacity under a map (0x3001.03): the data slots of all superblocks, less over-provisioning, less h superblocks per pool (log 58). -/
def State.exported (s : State) (m : SMap) : Nat :=
  let slots := s.flash.pagesPerBlock * 15
  sumOf (fun i =>
    let tlc := s.sbTotal i * s.inMap m 0x3001 4 0 / 65536
    let all := (s.sbTotal i - tlc) * slots + tlc * 3 * slots
    all - all * s.inMap m 0x3001 2 0 / 65536 - s.inMap m 0x3004 1 0 * slots - (if tlc = 0 then 0 else s.inMap m 0x3004 4 0 * 3 * slots))
    (List.range (flashIslandCount s.dev.part))

/-! ### Checks (R308, Table 10-2): each answers its detail when it fails -/

/-- Whether a partition holds a live or retained sequence or a registered node. -/
def State.inhabited (s : State) (p : Nat) : Bool := s.seqs.any (·.part == p) || s.broker.nodes.any (·.part == p)

def State.refusal1 (s : State) : Option Nat :=
  match s.epochs.slices.find? fun x => x.st == .draining || x.st == .zeroing with
  | some x => some x.num
  | none => if s.epochs.prev.isSome then some 0 else none

/-- Budget sums (R32). -/
def State.refusal2 (s : State) (t : TableSrc) (ps : List Nat) : Option Nat :=
  match ps.find? fun p => 65536 < sumOf (fun c => s.share t 0 p c) (List.range 8) with
  | some p => some p
  | none =>
    if s.islands.any fun x => x.st != .absent && (List.range (resourceCount x.num)).any fun r =>
      65536 < s.entitlement t x.num r 64 + sumOf (fun p => s.entitlement t x.num r p) ps
    then some 0x2011 else none

/-- Slot limits (R46). -/
def State.refusal3 (s : State) (ps : List Nat) : Option Nat :=
  if (if s.dev.part == .al then 1048576 else 524288) < sumOf (fun p => s.shadow 0x2101 2 p) ps then some 0x2101 else none

/-- Slices assigned in the shadow set. -/
def State.shadowSlices (s : State) : List Nat := (List.range 64).filter fun sl => (s.assignedIn s.objs.shadow sl).isSome

/-- Flash quotas (R238). -/
def State.refusal4 (s : State) : Option Nat :=
  if s.exported s.objs.shadow < sumOf (fun sl => s.shadow 0x6012 (sl + 1) 0) s.shadowSlices then some 0x6012 else none

/-- Die-time shares. -/
def State.refusal5 (s : State) : Option Nat :=
  if 65536 < sumOf (fun sl => s.shadow 0x6011 (sl + 1) 0) s.shadowSlices then some 0x6011 else none

/-- Port shares on one logical port; the detail is their index. -/
def State.refusal6 (s : State) (ps : List Nat) : Option Nat :=
  if (List.range 16).any fun lp => 65536 < sumOf (fun p => s.shadow (0x6400 + p) (0x10 + lp) 0) ps then some 0x6400 else none

/-- Absent slices (R4). -/
def State.refusal7 (s : State) : Option Nat :=
  s.epochs.slices.findSome? fun x => if x.st == .absent && (s.assignedIn s.objs.shadow x.num).isSome then some x.num else none

/-- HBM frames of a partition that loses slices. -/
def State.refusal8 (s : State) : Option Nat :=
  (List.range 64).find? fun p =>
    let own := (s.slicesOf p).map (·.num)
    let keep := own.filter fun sl => s.assignedIn s.objs.shadow sl == some p
    let f := ((keep.flatMap sliceChannels).filter fun ch => !s.channelFenced ch).length * channelFrames
    keep.length < own.length && f - f / 128 < s.framesInUse p

/-- Closed partitions (R315). -/
def State.refusal9 (s : State) (ps : List Nat) : Option Nat :=
  let uses := fun (p lp : Nat) => s.shadow (0x6400 + p) (0x10 + lp) 0 != 0 || s.shadow (0x6400 + p) (0x20 + lp) 0 != 0
  ps.find? fun p => s.shadow (0x6400 + p) 3 0 == 1 &&
    ((s.slicesIn s.objs.shadow p).any (fun sl => (List.range 64).any fun y => sliceCluster y == sliceCluster sl && s.assignedIn s.objs.shadow y != some p)
      || (List.range 16).any (fun lp => uses p lp && ps.any fun x => x != p && uses x lp)
      || s.shadow (0x6400 + p) 5 0 % 65536 == 0)

/-- Security modes and closed flags (R332). -/
def State.refusal10 (s : State) : Option Nat :=
  (List.range 64).find? fun p =>
    (s.shadow (0x6400 + p) 2 0 != s.act (0x6400 + p) 2 0 || s.shadow (0x6400 + p) 3 0 != s.act (0x6400 + p) 3 0)
      && !((s.slicesOf p).isEmpty && !(s.slicesIn s.objs.shadow p).isEmpty) && s.inhabited p

/-- Last slices. -/
def State.refusal11 (s : State) : Option Nat :=
  (List.range 64).find? fun p => !(s.slicesOf p).isEmpty && (s.slicesIn s.objs.shadow p).isEmpty && s.inhabited p

/-- Key authorities. -/
def State.refusal12 (s : State) (ps : List Nat) : Option Nat := ps.find? fun p => s.shadow (0x6400 + p) 2 0 == 1 && s.shadow (0x6400 + p) 6 0 == 0

/-- Node blocks. -/
def State.refusal13 (s : State) : Option Nat :=
  let block := fun (p : Nat) => (s.shadow (0x6400 + p) 5 0 / 65536, s.shadow (0x6400 + p) 5 0 % 65536)
  (List.range 64).find? fun p => (block p).2 != 0 &&
    (4096 < (block p).1 + (block p).2 || (List.range p).any fun x => (block x).2 != 0 && (block x).1 < (block p).1 + (block p).2 && (block p).1 < (block x).1 + (block x).2)

/-- The lowest-numbered reason that refuses a commit of the shadow set, with its detail (R308, Table 10-2; details, log 59). -/
def State.checkCommit (s : State) : Option (Nat × Nat) :=
  let owners := (List.range 64).map fun sl => s.assignedIn s.objs.shadow sl
  let t : TableSrc := { map := s.objs.shadow, owners := owners }
  let ps := s.partsIn s.objs.shadow
  ([s.refusal1, s.refusal2 t ps, s.refusal3 ps, s.refusal4, s.refusal5, s.refusal6 ps, s.refusal7, s.refusal8, s.refusal9 ps, s.refusal10, s.refusal11,
    s.refusal12 ps, s.refusal13].zipIdx.findSome? fun x => x.1.map fun d => (x.2 + 1, d))

/-! ### What an accepted commit does -/

/-- Writes the budget tables that each island takes at its next period boundary (R40): the active set, and the slices each partition has in effect. An
island that is stopped has no period to end and takes them at once (log 163). -/
def State.writeTables (s : State) : State :=
  let t : TableSrc := { map := s.objs.active, owners := s.epochs.slices.map (·.owner) }
  s.onIslands fun l => l.map fun i => match i.st with
    | .absent => i
    | .running | .clockChanging => { i with shadowTable := some t }
    | .gated | .fenced | .resetting => { i with table := t, shadowTable := none }

/-- A slice after a commit: one that leaves its partition drains, one that joins from unassigned is zeroed (R311, R313). -/
def State.movedSlice (s : State) (x : Slice) : Slice :=
  let to_ := s.assignedIn s.objs.active x.num
  if x.st == .absent then x
  else match x.owner with
    | some _ => if x.owner == to_ then x else { x with st := .draining, joins := to_ }
    | none => match to_ with
      | some _ => { x with st := .zeroing, joins := to_ }
      | none => x

/-- New HBM keys for a partition that gains its first slice (R314). -/
def State.newKeys (s : State) (p : Nat) : State :=
  (s.fresh).2.onEpochs fun e => { e with hbmKeys := sset e.hbmKeys p (s.fresh).1 }

/-- Ledger and table frames of a partition in slices that drain are moved first, 256 bursts a frame, for its stage class (R312, log 144). -/
def State.drainFixed (s : State) (chs : List Nat) (h : Nat) : State :=
  match s.seq h with
  | none => s
  | some q =>
    let out := fun (fs : List Nat) => fs.filter fun f => chs.contains (frameChannel f)
    let stay := fun (fs : List Nat) => fs.filter fun f => !chs.contains (frameChannel f)
    let gone := out (q.ledgerFrames ++ q.tableFrames)
    if gone.isEmpty then s
    else (((s.oweAll (gone.map fun f => channelCost (frameChannel f) q.part 2 256)).shootDown q.part gone).onSeq h fun x =>
      { x with ledgerFrames := stay x.ledgerFrames, tableFrames := stay x.tableFrames
               tabs := x.tabs.filter fun t => !t.frames.any fun f => chs.contains (frameChannel f) }).fitFixed h

/-- Pages stored for a peer in slices that drain find other frames, or are dropped (R312; log 60). -/
def State.drainPeerPages (s : State) (chs : List Nat) : State :=
  s.each (s.broker.peerPages.filter fun x => x.frames.any fun f => chs.contains (frameChannel f)) fun s x =>
    let s1 := s.dropFrames x.part x.frames
    match s1.findOpen x.part 0 x.frames.length with
    | some fs => ((s1.takeFrames fs).putBytes (frameGranule (fs.headD 0)) (memReads s.hbm.mem (frameGranule (x.frames.headD 0) * 1024) x.image.content.length)).onBroker
        fun b => { b with peerPages := mapIf (·.ref == x.ref) (fun y => { y with frames := fs }) b.peerPages }
    | none => s1.onBroker fun b => { b with peerPages := b.peerPages.filter (·.ref != x.ref) }

/-- Starts moving out every page that still lies in a slice that drains (R312). -/
def State.drainPages (s : State) : State :=
  s.each (s.seqs.flatMap fun q => (q.pages.filter s.onDraining).map fun p => keyOf q p) fun s k =>
    if s.work.moves.any fun m => m.page == k && m.kind == .drain then s
    else (s.each (s.work.moves.filter fun m => m.page == k && !m.begun) fun s m => s.dropMove m (s.page k)).addMove k .drain

/-- A commit that changes the public salt of a partition deletes its published entries and publication records (R150). -/
def State.newSalt (s : State) (x : Nat × List Byte) : State :=
  let zero := x.2.all (· == 0)
  let new := if zero then none else some x.2
  if s.publicSalt x.1 == new then s
  else
    let s1 := s.each (s.mortise.nodes.filter fun n => n.part == x.1 && n.published) fun s n => s.deleteEntry n.part n.index 64 7
    (s1.onMortise fun m => { m with records := m.records.filter (·.part != x.1) }).onObjs fun o =>
      { o with salts := o.salts.filter (·.1 != x.1) ++ (if zero then [] else [x]) }

/-- What the change of one partition's objects leads to at the commit: second-level buckets (R172), a partner (R48, R124), confidential mode (R332). -/
def State.partitionChange (s : State) (old : SMap) (p : Nat) : State :=
  let was := fun (ix sub item : Nat) => s.inMap old ix sub item
  let s1 := if was 0x2402 8 p = s.act 0x2402 8 p then s
    else s.each (s.mortise.second.filter (·.part == p)) fun s x => s.deleteEntry p x.entry.payload 64 7
  let s2 := if was 0x4002 7 p = s.partner p then s1
    else if s.namesPartner p then s1.resync p
    else s1.each ((s1.seqs.filter (·.part == p)).map (·.handle)) fun s h => (s.onSeq h fun q => { q with unmirrored := true }).seal h
  if was (0x6400 + p) 2 0 = 1 && s.act (0x6400 + p) 2 0 = 0 then
    s2.each ((s2.slicesOf p).flatMap fun x => sliceChannels x.num) fun s ch => s.onHbm fun h => { h with mem := memZero h.mem (ch * channelBytes) channelBytes }
  else s2

/-- Carries out an accepted commit (R309 to R314, R340) (log 74). -/
def State.acceptCommit (s : State) : State :=
  let old := s.objs.active
  let s1 := (s.onObjs fun o => { o with active := o.shadow, prev := o.active, saltsNext := [] }).onEpochs fun e => { e with
    prevOwners := e.slices.map (·.owner), returned := []
    prev := some e.active, active := if 65535 ≤ e.active then 1 else e.active + 1, commitUs := s.us, lastCommitMs := s.ms, accepted := e.accepted + 1 }
  let first := (List.range 64).filter fun p => (s.slicesOf p).isEmpty && !(s.slicesIn s1.objs.active p).isEmpty
  let s2 := (s1.each first fun s p => s.newKeys p).onEpochs fun e => { e with
    slices := e.slices.map s1.movedSlice
    givenUp := e.givenUp.filter fun p => (s.slicesIn s1.objs.active p).any (32 ≤ ·) }
  let s3 := s2.each s.objs.saltsNext fun s x => s.newSalt x
  let s4 := s3.each (List.range 64) fun s p => s.partitionChange old p
  let s5 := s4.onSeqs fun l => l.map fun q => if s4.inFlight q.handle false then q else { q with epoch := s4.epochs.active }
  let chs := (s5.epochs.slices.filter (·.st == .draining)).flatMap fun x => sliceChannels x.num
  let s6 := ((s5.each (s5.seqs.map (·.handle)) fun s h => s.drainFixed chs h).drainPeerPages chs).drainPages
  s6.writeTables

/-- A commit that reaches the device, its checks passed by the dictionary (R308, R340, R343) (log 121). -/
def State.commit (s : State) : DStatus × State :=
  if s.fw.hold.isSome then (.attestPending, s)
  else match s.checkCommit with
    | some (r, d) => (if r = 1 then .commitBusy else .commitRefused, s.onEpochs fun e => { e with refuseReason := r, refuseDetail := d })
    | none => (.ok, s.acceptCommit.settle)

/-- Discards the shadow set (R340); public salts written and not committed go with it. -/
def State.discard (s : State) : State := s.onObjs fun o => { o with shadow := o.active, saltsNext := [] }

/-! ### Epochs that end (R310) -/

/-- Sequences under an older epoch take the active one, and the older is live no longer (R249, R310). -/
def State.endEpoch (s : State) : State :=
  (s.onSeqs fun l => l.map fun q => { q with epoch := s.epochs.active }).onEpochs fun e => { e with prev := none }

/-- DRAIN_LIMIT_EXPIRY: the work still under the previous epoch is aborted with `STALE_EPOCH` (R84, R134, R310). -/
def execDrainLimitExpiry (s : State) : Result :=
  s.event fun s =>
    if s.epochs.prev.isNone || !s.due (s.epochs.commitUs + 1000 * s.rw 0x6000 5 0) then s
    else
      let old := fun (e : Nat) => e != s.epochs.active
      ((s.endUnder old .staleEpoch).endEpoch).onEpochs fun e => { e with aborted := e.aborted + s.requestsUnder old }

/-- EPOCH_DRAIN_END: nothing runs under the previous epoch, every island has swapped its table, and no slice drains (R310). -/
def execEpochDrainEnd (s : State) : Result :=
  s.event fun s =>
    if s.epochs.prev.isNone || 0 < s.requestsUnder (fun e => e != s.epochs.active) || s.islands.any (·.shadowTable.isSome)
        || s.epochs.slices.any (·.st == .draining) || s.seqs.any (fun q => q.epoch != s.epochs.active && s.inFlight q.handle true) then s
    else s.endEpoch

/-! ### Slices (R311 to R314) -/

/-- Whether work of its partition still runs on a slice's cores or frames in its channels are in use (R313). -/
def State.sliceBusy (s : State) (n : Nat) : Bool :=
  s.work.tiles.any (fun t => (sliceCores n).contains t.core) || s.work.accums.any (fun a => a.level == 0 && (sliceCores n).contains a.unit)
    || 0 < s.framesIn (sliceChannels n)

/-- Queue pairs of a slice enter the error state and its rings go (R305, R311). -/
def State.endSliceQps (s : State) (n : Nat) : State :=
  s.each ((s.net.qps.filter fun q => 256 * n ≤ q.num && q.num < 256 * n + 256 && q.st != .error).map (·.num)) fun s q => s.qpError q false

/-- What a partition that has lost its last slice leaves behind is gone: its HBM keys, packer state, subscriber and policer entries (R306, R314). -/
def State.dropPartition (s : State) (p : Nat) : State :=
  (((s.onEpochs fun e => { e with hbmKeys := sdel e.hbmKeys p }).onPackers fun l => l.filter (·.part != p)).onNet fun n => { n with
    subs := n.subs.filter (·.part != p), policers := n.policers.filter (·.part != p) })

/-- The buffers of a slice that enters zeroing are cleared, and its owner's lines in the cluster's caches when it keeps no other slice there (R313). -/
def State.clearLines (s : State) (slice : Nat) : State :=
  match (s.sliceOf slice).bind (·.owner) with
  | none => s
  | some p => s.clearSliceLines slice p (s.epochs.slices.any fun y => y.num != slice && sliceCluster y.num == sliceCluster slice && y.owner == some p && y.st != .zeroing)

/-- SLICE_DRAIN_DONE: the slice leaves draining and is zeroed (R311, R313). -/
def execSliceDrainDone (slice : Nat) (s : State) : Result :=
  s.event fun s => match s.sliceOf slice with
    | none => s
    | some x =>
      if x.st != .draining then s
      else if s.sliceBusy slice then s.drainPages
      else ((s.endSliceQps slice).clearLines slice).onEpochs fun e => { e with slices := mapIf (·.num == slice) (fun y => { y with st := .zeroing, owner := none }) e.slices }

/-- Partitions whose reset still zeroes a slice (R403). -/
def State.resetZeroing (s : State) (p : Nat) : Bool := s.epochs.slices.any fun x => x.forReset && x.st == .zeroing && x.owner == some p

/-- The six channels of a slice are zero. -/
def State.zeroSlice (s : State) (slice : Nat) : State :=
  s.each (sliceChannels slice) fun s ch => s.onHbm fun h => { h with mem := memZero h.mem (ch * channelBytes) channelBytes }

/-- A zeroed slice is its partition's, or unassigned. -/
def State.assignSlice (s : State) (slice : Nat) (to_ : Option Nat) : State :=
  s.onEpochs fun e => { e with slices := mapIf (·.num == slice) (fun y =>
    { y with st := if to_.isSome then .assigned else .unassigned, owner := to_, joins := none, forReset := false }) e.slices }

/-- Partitions left without a slice are gone, and with them the keys of the channels. -/
def State.dropUnowned (s : State) (slice : Nat) : State :=
  let gone := (s.epochs.hbmKeys.map (·.1)).filter fun p => p < 64 && !s.epochs.slices.any fun y => y.owner == some p || y.joins == some p
  (s.each gone fun s p => s.dropPartition p).onEpochs fun e => { e with hbmKeys := (sliceChannels slice).foldl (fun m ch => sdel m (128 + ch)) e.hbmKeys }

/-- ZEROING_DONE: the six channels are zero, the slice is assigned, and the budget tables are computed again (R313, R314, R403). -/
def execZeroingDone (slice : Nat) (s : State) : Result :=
  s.event fun s => match s.sliceOf slice with
    | none => s
    | some x =>
      if x.st != .zeroing then s
      else
        let s3 := (((s.zeroSlice slice).assignSlice slice (if x.forReset then x.owner else x.joins)).dropUnowned slice).writeTables
        match x.owner with
        | some p => if x.forReset && !s3.resetZeroing p then s3.onDev fun d => { d with resetInProgress := 0 } else s3
        | none => s3

/-! ### Reservation (R342) -/

/-- RESERVATION_LIMIT_EXPIRY: the reservation ends; the shadow set stays as it is (R342). -/
def execReservationLimitExpiry (s : State) : Result :=
  .next (if !s.managed then s
    else match s.objs.reservation with
      | some (_, t) => if s.due t then s.onObjs fun o => { o with reservation := none } else s
      | none => s)

end Sys2Proof.Machine
end

