-- ==== Sys2Proof/Machine/Resets.lean ====
section
/-!
DEFINITION. Resets and boot (R400 to R406, R411, R424, R434): what each level clears and keeps, and how boot ends.
-/
namespace Sys2Proof.Machine

/-- What lies outside the block and decides how a write of an acting object ends; what a command does not say is a free value (log 61). -/
structure Outside where
  boot : Option BootReport
  image : Option (Bool × Bool × W64)
  switch : Option SwitchReport
  passes : Option Bool
  deriving DecidableEq, Repr

/-- Nothing said of what lies outside. -/
def Outside.unsaid : Outside := { boot := none, image := none, switch := none, passes := none }

/-! ### Boot (R404, R405, R434) -/

/-- Numbers below `n` whose bit is set in a word from a bit on. -/
def bitsFrom (w at_ n : Nat) : List Nat := (List.range n).filter fun i => w.testBit (at_ + i)

/-- A boot whose outcome no command says: each outcome is a free value (log 61). -/
def State.freeBoot (s : State) : BootReport × State :=
  let w := (s.free).1.toNat
  ({ romOk := w.testBit 0, areaOk := w.testBit 1, pufOk := w.testBit 2, activeImageOk := w.testBit 3, otherImageOk := w.testBit 4
     failedStacks := bitsFrom w 16 12, nandOk := w.testBit 5, failedPorts := bitsFrom w 8 4, rootValid := bitsFrom w 12 2, mfgEn := w.testBit 6 }, (s.free).2)

/-- `RW` values that survive every reset level: 0x1200 to 0x1202, 0x3000.06 and 0x3002.02 (R358). -/
def keptKey (k : Nat) : Bool :=
  let ix := k / 256 % 65536
  (0x1200 ≤ ix && ix ≤ 0x1202) || (ix == 0x3000 && k % 256 == 6) || (ix == 0x3002 && k % 256 == 2)

/-- Counters that survive a device reset with the fault history (R370) (log 75). -/
def keptCounter (k : Nat) : Bool := [0x7010, 0x7020, 0x7030].contains (k / 256 % 65536)

/-- The flash tier as the islands' rebuild leaves it: no page is claimed, what was not confirmed was never written, and open superblocks are closed
(R230, R402). -/
def Flash.rebuilt (f : Flash) (cap fine us : Nat) (power : Bool) : Flash :=
  { f with
    islands := f.islands.map fun i => { i with
      readOnly := false, disabled := false, pendingJournal := [], lastFlushUs := us, updates := 0, checkpointRunning := false, sampledUs := us
      tempSeconds := if power then i.tempSaved else i.tempSeconds }
    dataRate := min 3600 cap
    fineCap := if power then fine else f.fineCap
    sbs := f.sbs.map fun b => if b.st == .open_ then { b with st := .closed } else b
    pages := (f.pages.filter (·.confirmed)).map fun x => if x.kind == .data then { x with valid := false } else x
    coarse := [], fine := [], reads := [], secure := [], patrolSeen := [], writeLog := [] }

/-- An input after a power-on reset: its level stays, its history is gone. -/
def Input.restart (i : Input) : Input := { i with since := 0, changes := [], assertions := 0 }

/-- The device with everything cleared that Table 13-4 clears at a power-on or device reset, and everything kept that it keeps; boot has not begun
(log 115). -/
def State.cleared (s : State) (power : Bool) : State :=
  let part := s.dev.part
  let us := if power then 0 else s.us
  { dev := { s.dev with
      phase := .bootStopped, bootStep := 0, failedStep := 0, bootSource := 0, bootDuration := 0, resetInProgress := 0, shutdownAt := none
      lastReset := if power then 0 else 2 ^ 28, deviceResets := if power then 0 else s.dev.deviceResets + 1 }
    clock := if power then { us := 0, tod := s.clock.saved, written := false, writes := 0, saved := s.clock.saved } else s.clock
    objs := { active := [], prev := [], shadow := [], rw := s.objs.rw.filter fun x => keptKey x.1
              counters := if power then [] else s.objs.counters.filter fun x => keptCounter x.1
              reservation := none, salts := [], saltsNext := [] }
    islands := (List.range 34).map (Reset.island part)
    epochs := { active := 1, prev := none, commitUs := us, lastCommitMs := 0, accepted := 0, refuseReason := 0, refuseDetail := 0, aborted := 0
                slices := (List.range 64).map (Reset.slice part), prevOwners := List.replicate 64 none, returned := [], hbmKeys := s.epochs.hbmKeys.filter (·.1 == 64), givenUp := [] }
    seqs := []
    slotGens := []
    hbm := Reset.hbm
    caches := (List.range 16).map Reset.cache
    work := { attends := [], tiles := [], groups := [], accums := [], appends := [], stagings := [], stageReqs := [], deliveries := [], moves := [] }
    mortise := { banks := [], mode := 2, target := none, cycles := 0, cyclesUs := us, nodes := [], second := [], records := [], insertions := [], lookups := []
                 jobs := [] }
    packers := []
    flash := (s.staleDies fun _ => true).flash.rebuilt (s.rw 0x3000 6 0) (s.rw 0x3002 2 0) us power
    broker := { nodes := [], freed := [], advices := [], mirrors := [], peerPages := [], asks := [], relays := [], gone := [], nextRef := s.broker.nextRef, peerBeat := us }
    net := { qps := [], rings := [], lps := (List.range 16).map fun n => Reset.logicalPort n false, modes := [0, 0, 0, 0], egress := [], subs := []
             policers := [], reads := [], pool := [], params := [[], []], sent := s.net.sent }
    sec := { keys := s.sec.keys, cache := [], sessions := (List.range 8).map Reset.attSession, links := [], nonce := [] }
    mgmt := { creds := if power then s.mgmt.creds.map fun c => { c with failures := 0, lockedUntil := 0, lockUs := none, recent := [] } else s.mgmt.creds
              sessions := [], handshakes := [], nextSession := s.mgmt.nextSession, applied := s.mgmt.applied, i3cAddr := 0, i3c := Reset.access
              seenSummary := s.mgmt.seenSummary, seenThrottled := s.mgmt.seenThrottled, out := s.mgmt.out }
    faults := { seqno := if power then 0 else s.faults.seqno
                history := if power then [] else s.faults.history
                firstError := if power then none else s.faults.firstError
                severeCount := if power then 0 else s.faults.severeCount
                events := [], fences := [], queues := [], aliveLevel := false, alive := 0, bootFault := false
                inputs := if power then s.faults.inputs.map Input.restart else s.faults.inputs, laneGroups := 0 }
    mailboxes := []
    power := { Reset.power with
      throttleN := s.power.throttleN, vrFault := s.power.vrFault, railTrip := if power then false else s.power.railTrip
      railUntil := if power then 0 else s.power.railUntil, avsFault := if power then [] else s.power.avsFault
      avsOkSince := if power then 0 else s.power.avsOkSince, throttleOff := us, vrOff := us, lastCapUs := us, idleSince := List.replicate 16 (some us)
      railMv := if power then [800, 800] else s.power.railMv, railSetUs := [us, us], sensors := s.power.sensors, hot := if power then [] else s.power.hot
      telemetry := s.power.telemetry, energyJ := if power then 0 else s.power.energyJ, thermal := if power then false else s.power.thermal
      congestionUs := us }
    fw := { s.fw with pending := if s.fw.pending = 3 then 2 else s.fw.pending, hold := none }
    meters := if power then { s.meters with live := s.meters.saved } else s.meters
    pending := s.pending }

/-- Records a boot fault of a step (kind 0x60). -/
def State.bootFaultAt (s : State) (src step : Nat) : State :=
  (s.collectUnit src 0x60 step none).onFaults fun f => { f with bootFault := true }

/-- Boot stops at a step: the device is reached only over I3C (R405). -/
def State.stopBoot (s : State) (step : Nat) : State :=
  (s.onDev fun d => { d with phase := .bootStopped, bootStep := 0xFF, failedStep := step }).bootFaultAt srcBoot step

/-- Values of an image that belong to objects of some access. -/
def imagePart (m : SMap) (mine : Acc → Bool) : SMap :=
  (m.filter fun x => ((objRow (x.1 / 256 % 65536) (x.1 % 256)).map fun r => mine r.acc).getD false).foldl (fun a x => sset a x.1 x.2) []

/-- Step 5: the active half, or the other when it fails, is loaded with its Woeno image (R358, R405); false when both fail (log 131). -/
def State.loadImage (s : State) (b : BootReport) : Bool × State :=
  let failed := fun (s : State) => s.collectUnit srcBoot 0x61 0 none
  let other := fun (s : State) => s.onFw fun f => { f with active := 1 - f.active }
  let load := fun (s : State) =>
    let m := s.fw.halves.getD s.fw.active []
    ((s.onObjs fun o => { o with active := imagePart m (· == .rws), shadow := imagePart m (· == .rws)
                                 rw := o.rw.foldl (fun a x => sset a x.1 x.2) (imagePart m (· == .rw)) }).onDev fun d =>
      { d with bootSource := s.fw.active, bootStep := 5 }).onFaults fun f => { f with alive := 1 }
  if b.activeImageOk then (true, load s)
  else if b.otherImageOk then (true, load (other (failed s)))
  else (false, failed (failed s))

/-- A die's rail as its boot sets it for the top clocks: what its speed monitors call for then is a free value (R420, log 163). -/
def State.setRail (s : State) (die : Nat) : State :=
  (s.free).2.onPower fun p => { p with railMv := p.railMv.set die (650 + (s.free).1.toNat % 201), railSetUs := p.railSetUs.set die s.us }

/-- Step 7: the stacks that do not train are fenced, kind 0x08 (R405). -/
def State.bootStacks (s : State) (b : BootReport) : State :=
  s.each (b.failedStacks.filter fun n => n < 12 && s.diePresent (n / 6)) fun s n => (s.collectUnit (srcStack n) 0x08 0 none).fenceUnit (srcStack n)

/-- Formats a flash island (R434). -/
def State.formatFlash (s : State) (i : Nat) : State :=
  (s.onFlash fun f => { f with
    sbs := f.sbs.filter (·.island != i), pages := f.pages.filter (·.island != i), keyWrapped := true
    islands := f.islands.mapIdx fun k x => if k = i then { x with rooted := true, wseq := 0, journalSeq := 0, checkpointSeq := 0, closings := 0 } else x })

/-- Step 8: the flash tier is rebuilt, formatted, or stays disabled with a boot fault (R212, R230, R405, R434). -/
def State.bootFlash (s : State) (b : BootReport) (adopted discarded : Nat) : State :=
  let is := List.range (flashIslandCount s.dev.part)
  let lost := is.filter fun i => !b.rootValid.contains i
  let off := fun (s : State) => (s.onFlash fun f => { f with islands := f.islands.map fun x => { x with disabled := true, readOnly := true } }).bootFaultAt srcBoot 8
  let s := (((s.free).2.note 0x3003 6 0 ((s.free).1.toNat % 184)).note 0x3003 7 0 adopted).note 0x3003 8 0 discarded
  if !b.nandOk then off s
  else if !lost.isEmpty && s.flash.keyWrapped then off s
  else s.each lost fun s i => s.formatFlash i

/-- Step 9: links train in the modes asked for, and a port that fails is fenced (R277, R405). -/
def State.bootPorts (s : State) (b : BootReport) : State :=
  let here := (List.range 4).filter fun p => s.diePresent (p / 2)
  let s1 := s.each here fun s p =>
    let mode := s.rw 0x5001 2 p
    (s.onNet fun n => { n with modes := n.modes.set p mode }).each (portLps p) fun s lp =>
      s.onLp lp fun x => { x with link := if lpInMode mode lp then 2 else 4 }
  s1.each (here.filter b.failedPorts.contains) fun s p => (s.bootFaultAt (srcPort p) 9).fenceUnit (srcPort p)

/-- Step 10: the map of the image is in force as epoch 1, each partition with new keys (R309, R314). -/
def State.bootMap (s : State) : State :=
  let assign := fun (x : Slice) => match x.st, s.assignedIn s.objs.active x.num with
    | .unassigned, some p => { x with st := .assigned, owner := some p }
    | _, _ => x
  let s1 := s.onEpochs fun e => { e with slices := e.slices.map assign }
  (s1.each (s1.partsIn s1.objs.active) fun s p => s.newKeys p).writeTables

/-- A held `RESET_N` that was stuck or chattered is recorded at the next boot with the held time, in a unit the spec does not give: a free value (Table 12-7,
log 73). -/
def State.recordOwed (s : State) : State :=
  match s.faults.inputs[2]? with
  | some i => (match i.owed with
    | some k => ((s.free).2.collectUnit (srcInput 2) k ((s.free).1.toNat % 65536) none).onFaults fun f => { f with inputs := f.inputs.set 2 { i with owed := none, stuck := false, chatter := false } }
    | none => s)
  | none => s

/-- The management port takes its configuration from 0x1200 (R344). -/
def State.loadPort (s : State) : State :=
  let conf := [2, 4, 5, 6, 7, 8, 9, 10, 11].foldl (fun (a : SMap) k => sset a (okey 0x1200 k 0) (s.rw 0x1200 k 0)) []
  s.onMgmt fun m => { m with applied := conf }

/-- The boot ROM starts: steps 2 to 10 as the board lets them end (R404, R405). The durations are free values within their bounds (log 61); `adopted` and
`discarded` are the flash pages the rebuild finds unjournaled and unconfirmed (R230). -/
def State.runBoot (s : State) (b : BootReport) (adopted discarded : Nat) : State :=
  if !b.romOk then s.stopBoot 2
  else if !b.areaOk then s.stopBoot 3
  else if !b.pufOk then s.stopBoot 4
  else
    let r := s.loadPort.loadImage b
    if !r.1 then (r.2.onDev fun d => { d with phase := .awaitingImage, bootStep := 0xF0 }).bootFaultAt srcBoot 5
    else
      let s1 := (((((((r.2.loadPort.setRail 0).setRail 1).bootStacks b).bootFlash b adopted discarded).bootPorts b).bootMap).free).2
      let ms := (Config.freeValue (s1.dev.freeCount - 1)).toNat % 1211
      let s2 := (s1.onDev fun d => { d with phase := .running, bootStep := 10, bootDuration := ms }).recordOwed
      (if s2.rw 0x1220 4 0 = 1 then (List.range 5).foldl (fun s _ => s.interrupt 3) s2 else s2).seeNow

/-- A device or power-on reset, and the boot that follows it (R401, R403, R404) (log 112). -/
def State.reboot (s : State) (b : BootReport) (power : Bool) : State :=
  let s1 := s.cleared power
  let s2 := if power then (s1.newKeys 64).onDev fun d => { d with manufacturing := b.mfgEn } else s1
  s2.runBoot b (sumOf (fun i => i.pendingJournal.countP fun r => r.kind == 1 || r.kind == 2) s.flash.islands) (s.flash.pages.countP fun x => !x.confirmed)

/-! ### Partition reset (R403) -/

/-- Takes the attention rows of a partition off the cores; no completion is sent, its queue pairs being in error (R111, R403). -/
def State.resetRows (s : State) (p : Nat) : State :=
  let mine := (s.work.attends.filter (·.req.partition == p)).map (·.id)
  let s1 := s.each (s.work.tiles.filter fun t => mine.contains t.att) fun s t => (s.dropTile t).bump 0x2202 0x11 (t.core / 8) 1
  s1.onWork fun w => { w with accums := w.accums.filter fun a => !mine.contains a.att, attends := w.attends.filter fun a => !mine.contains a.id }

/-- Takes everything else of a partition out of flight. -/
def State.resetWork (s : State) (p : Nat) : State :=
  let mine := fun (h : Nat) => handlePart h == p
  let s1 := s.each (sortNat ((s.work.appends.filter fun a => mine a.handle).map (·.handle))) fun s h => (s.failAccepted h none).dropQueued h none
  let s2 := s1.dropMoves fun k => mine k.handle
  let ids := (s2.work.stagings.filter fun g => mine g.page.handle).map (·.id)
  let s3 := s2.each (s2.work.stagings.filter fun g => mine g.page.handle) fun s g => s.dropPlace p g
  let page := fun (k : PageKey) => mine k.handle
  let readOf := fun (r : FlashRead) => match r.why with
    | .staging id => ids.contains id
    | .restore k => page k
    | .kerf k => page k
    | .archive k => page k
  ((((s3.onWork fun w => { w with
      stagings := w.stagings.filter fun g => !mine g.page.handle
      stageReqs := w.stageReqs.filter fun r => !mine r.handle
      deliveries := w.deliveries.filter fun d => !mine d.handle
      moves := w.moves.filter fun m => !mine m.page.handle }).onFlash fun f => { f with
      secure := f.secure.filter fun x => !mine x.handle
      reads := f.reads.filter fun r => !readOf r }).onMortise fun m => { m with
      lookups := m.lookups.filter (·.part != p), insertions := m.insertions.filter (·.entry.part != p), jobs := m.jobs.filter fun j => !mine j.handle })).onBroker fun b => { b with
      relays := b.relays.filter (·.part != p) }

/-- Sends the partner a `LEDGER_SYNC` free for a sequence, on a queue pair that the reset then puts in error, so it goes out at once (R403). -/
def State.resetSync (s : State) (q : Seq) : State :=
  if !s.serving || !s.namesPartner q.part then s
  else match s.nodeQp (s.partner q.part) with
    | none => s
    | some x => (s.freshTag).2.emit x.lp (.message x.num
        { opcode := 0x60, completion := false, device := true, status := .ok, partition := q.part, tenant := q.tenant, epoch := s.epochs.active
          tag := (s.freshTag).1, handle := q.handle, words := q.syncWords .free 0 0 ((q.holder.map s.identOf).getD 0), data := [] })

/-- Frees a sequence of a partition that is reset. -/
def State.resetSeq (s : State) (h : Nat) : State :=
  match s.seq h with
  | none => s
  | some q => ((s.resetSync q).dropPrefix h 0).dropSeq h

/-- What of the broker and the network a partition holds is gone, its queue pairs in error; a mailbox's message draws no completion. -/
def State.resetNet (s : State) (p : Nat) : State :=
  let ns := (s.broker.nodes.filter (·.part == p)).map (·.num)
  let qs := (s.net.qps.filter (·.part == p)).map (·.num)
  ((((s.each ns fun s n => ((s.bump 0x4006 6 p 1).forgetNode n).note 0x4004 2 n 2).onBroker fun b => { b with
      advices := b.advices.filter (·.part != p), mirrors := b.mirrors.filter (·.part != p), peerPages := b.peerPages.filter (·.part != p)
      asks := b.asks.filter fun a => !ns.contains a.node, gone := b.gone.filter (·.part != p) }).onNet fun n => { n with
      qps := mapIf (·.part == p) (fun q => { q with st := .error, node := none, readsOut := 0, unacked := [], rxUnacked := 0, cmdRing := none, compRing := none }) n.qps
      reads := n.reads.filter fun r => !qs.contains r.qp
      egress := n.egress.filter fun e => !qs.contains e.qp
      rings := n.rings.filter (·.part != p) }).onMailboxes fun l => l.filter (·.part != p)).onMortise fun m => { m with
      banks := m.banks.map fun b => { b with slots := b.slots.filter fun x => x.2.part != p }
      nodes := m.nodes.filter (·.part != p), second := m.second.filter (·.part != p), records := m.records.filter (·.part != p) }

/-- A partition reset: its state goes, and its channels are zeroed with its own keys before it ends (R403, R313). -/
def State.resetPartition (s : State) (p : Nat) : State :=
  let s1 := (s.resetRows p).resetWork p
  let frames := (s1.broker.peerPages.filter (·.part == p)).flatMap (·.frames)
  let s2 := ((s1.each ((s1.seqs.filter (·.part == p)).map (·.handle)) fun s h => s.resetSeq h).dropFrames p frames).each (s1.slicesOf p) fun s x =>
    s.clearSliceLines x.num p false
  ((((s2.resetNet p).onPackers fun l => l.filter (·.part != p)).onHbm fun h => { h with
      extents := h.extents.filter (·.part != p), reserveTaken := sdel h.reserveTaken p }).onEpochs fun e => { e with
      slices := mapIf (fun x => x.owner == some p && x.st == .assigned) (fun x => { x with st := .zeroing, joins := some p, forReset := true }) e.slices }).onDev
      fun d => { d with resetInProgress := 4 * 2 ^ 28 + p }

/-! ### Cluster, port and die resets (R403) -/

/-- Fences of some units end. -/
def State.unfence (s : State) (mine : Nat → Bool) : State := s.onFaults fun f => { f with fences := f.fences.filter fun x => !mine x.source }

/-- A cluster reset: the effects of R374, then the cluster returns (R377, R403) (log 113). -/
def State.resetCluster (s : State) (c : Nat) : State :=
  let homed := s.homedAt c
  let s1 := (s.markIslands [clusterIsland c] .resetting).clearCluster c homed
  (((s1.unfence fun u => u == srcCluster c || (u < 0x080 && u / 8 == c)).markIslands [clusterIsland c] .running).onIsland (clusterIsland c) fun i =>
    { i with periods := 0 }).clusterBack c

/-- A port reset: its queue pairs end under R286 and its links train again, which ends the reset (R403). -/
def State.resetPort (s : State) (p : Nat) : State :=
  let s1 := s.each ((portLps p).filter s.lpInUse) fun s lp => s.portDown lp 0
  let s2 := s1.unfence fun u => u == srcPort p || (0x290 ≤ u && u < 0x2A0 && (u - 0x290) / 4 == p) || (0x2A0 ≤ u && u < 0x2B0 && (u - 0x2A0) / 4 == p)
  (s2.setPortMode p (s2.net.modes.getD p 0) fun _ => false).onDev fun d => { d with resetInProgress := 5 * 2 ^ 28 + p }

/-- Whether a die reset may run: die 1 is there and none of its slices is assigned (R400). -/
def State.dieFree (s : State) : Bool :=
  s.dev.part == .al && s.epochs.slices.all fun x => x.num < 32 || (x.owner.isNone && x.joins.isNone)

/-- A die reset of die 1: its queue pairs end, its units are cleared and retested, and flash island 33 rebuilds its maps (R401, R403) (log 119). -/
def State.resetDie (s : State) (b : BootReport) : State :=
  let bridge := s.fenced srcBridge
  let s1 := s.each [8, 9, 10, 11, 12, 13, 14, 15] fun s lp => if s.lpInUse lp then s.portDown lp 0 else s
  let s2 := ((s1.staleDies (512 ≤ ·)).setRail 1).unfence fun u => u != srcBridge && sourceDie u == 1
  let is := (List.range 16).map (18 + ·)
  let s3 := (((s2.each [8, 9, 10, 11, 12, 13, 14, 15] fun s c => (s.clearCache c).clusterBack c).onIslands fun l => mapIf (fun i => is.contains i.num) (fun i =>
      { Reset.island s.dev.part i.num with st := if bridge then .fenced else .running, table := i.table, shadowTable := i.shadowTable }) l).onNet fun n => { n with
      subs := n.subs.filter (·.die != 1), policers := n.policers.filter (·.die != 1) }).onFlash fun f => { f with
      pages := f.pages.filter fun x => !(x.island == 1 && !x.confirmed)
      sbs := mapIf (fun x => x.island == 1 && x.st == .open_) (fun x => { x with st := .closed }) f.sbs
      islands := f.islands.mapIdx fun k x => if k = 1 then { x with readOnly := false, disabled := !b.nandOk, pendingJournal := [], checkpointRunning := false } else x }
  if bridge then s3
  else
    let s4 := s3.each (b.failedStacks.filter fun n => 6 ≤ n && n < 12) fun s n => (s.collectUnit (srcStack n) 0x08 0 none).fenceUnit (srcStack n)
    let s5 := s4.each [2, 3] fun s p => (portLps p).foldl (fun s lp => if s.lpInUse lp then s.onLp lp fun x => { x with link := 2 } else s) s
    s5.each ([2, 3].filter b.failedPorts.contains) fun s p => s.fenceUnit (srcPort p)

/-! ### The request (R400) -/

/-- What a reset request answers, and the reset it starts (R400, Table 13-3). Only a device reset may be asked for over I3C; `boot` is how the boot of a
device or die reset ends. -/
def State.requestReset (s : State) (w : Nat) (boot : Option BootReport) (i3c : Bool) : DStatus × State :=
  let level := w / 2 ^ 28 % 16
  let unit := w % 65536
  let b := match boot with
    | some b => (b, s)
    | none => s.freeBoot
  let note := fun (s : State) => s.onDev fun d => { d with lastReset := level * 2 ^ 28 + unit }
  if s.dev.resetInProgress ≠ 0 || s.fw.hold.isSome then (.busy, s)
  else if i3c && level ≠ 1 then (.outOfRange, s)
  else if level = 1 then (if unit = 0 then (.ok, b.2.reboot b.1 false) else (.outOfRange, s))
  else if !s.managed then (.outOfRange, s)
  else if level = 2 then (if unit = 1 && s.dieFree then (.ok, note (b.2.resetDie b.1)) else (.outOfRange, s))
  else if level = 3 then (if unit < 16 && s.diePresent (unit / 8) then (.ok, note (s.resetCluster unit)) else (.outOfRange, s))
  else if level = 4 then (if unit < 64 && !(s.slicesOf unit).isEmpty then (.ok, note (s.resetPartition unit)) else (.outOfRange, s))
  else if level = 5 then (if unit < 4 && s.diePresent (unit / 2) then (.ok, note (s.resetPort unit)) else (.outOfRange, s))
  else (.outOfRange, s)

/-- The link reset of 0x5001.04: the port's queue pairs end, and its links train in the mode asked for (R277, R278, R375). -/
def State.linkReset (s : State) (p : Nat) : State :=
  let s1 := s.each ((portLps p).filter s.lpInUse) fun s lp => s.portDown lp 0
  let s2 := s1.unfence fun u => u == srcPort p || (0x290 ≤ u && u < 0x2A0 && (u - 0x290) / 4 == p)
  s2.setPortMode p (s2.rw 0x5001 2 p) fun _ => false

/-- LINK_TRAINED: a port's links that train are up, and a reset of the port has ended (R277, R403). -/
def execLinkTrained (port : Nat) (s : State) : Result :=
  .next (if !s.managed || s.dev.phase == .fatal || s.fenced (srcPort port) || s.fenced (srcIsland (netIsland (port / 2))) || (2 ≤ port && s.fenced srcBridge) then s
    else
      let s1 := s.each (portLps port) fun s lp => s.onLp lp fun x => if x.link = 0 || x.link = 1 then { x with link := 2 } else x
      (if s1.dev.resetInProgress = 5 * 2 ^ 28 + port then s1.onDev fun d => { d with resetInProgress := 0 } else s1).settle)

/-! ### Orderly shutdown (R406) -/

/-- 0x7820.04 written TRUE. -/
def State.beginShutdown (s : State) : State :=
  if s.serving && s.dev.shutdownAt.isNone then s.onDev fun d => { d with shutdownAt := some s.us } else s

/-- Programs one page of the journal's stream without waiting for its charge (R406, log 144). -/
def State.writeOwed (s : State) (i : Nat) (x : FlashPage) : State := ((s.owe (s.systemCost i 1)).programSystem i x).getD s

/-- Writes a checkpoint and its root record on an island, its journal flushed (R228, R406). -/
def State.fullCheckpoint (s : State) (i : Nat) : State :=
  let s1 := (s.flushNow i).writeOwed i (systemPage .checkpoint [])
  let w := (((s1.flash.pages.filter fun x => x.island == i && x.kind == .checkpoint).getLast?).map (·.wseq)).getD 0
  (s1.onFisland i fun x => { x with checkpointRunning := false, checkpointSeq := w, updates := 0, tempSaved := x.tempSeconds, rooted := true }).onFlash fun g =>
    { g with pages := g.pages.map fun x => if x.island == i && x.kind == .checkpoint && x.wseq == w then { x with confirmed := true } else x }

/-- Saves the meters and the time of day (R357, R385). -/
def State.saveAll (s : State) : State :=
  (s.onMeters fun m => { m with saved := m.live, lastSave := s.ms }).onClock fun c => { c with saved := c.tod }

/-- SHUTDOWN_REQUEST_TIMEOUT: a second after the write, or once nothing is in flight, what still runs ends, the flash tier and the records are saved, and the
data path idles (R406). -/
def execShutdownRequestTimeout (s : State) : Result :=
  s.event fun s => match s.dev.shutdownAt with
    | none => s
    | some t =>
      if !s.due (t + 1000000) && s.requestsLeft then s
      else
        let s1 := s.endRequests
        let s2 := s1.each ((List.range (flashIslandCount s1.dev.part)).filter s1.takesPrograms) fun s i => s.fullCheckpoint i
        s2.saveAll.onDev fun d => { d with phase := .shutDown }

/-- VDD_AUX_LOSS: with the other rails up, the device holds itself in reset (R424). -/
def State.holdInReset (s : State) : State :=
  ((s.onDev fun d => { d with phase := .heldInReset, bootStep := 0 }).onFaults fun f => { f with alive := 0, aliveLevel := false }).onNet fun n =>
    { n with lps := n.lps.map fun p => if p.link = 4 then p else { p with link := 0 } }

def execVddAuxLoss (s : State) : Result := .next s.holdInReset

end Sys2Proof.Machine
end

