-- ==== Sys2Proof/Machine/Updates.lean ====
section
/-!
DEFINITION. Firmware images: staging, verification and the switch (R407 to R410).
-/
namespace Sys2Proof.Machine

/-- Key of the image segment object, 0x7840.04, in a session's segment buffer (R339). -/
def imageKey : Nat := okey 0x7840 4 0

/-- Whether some session has an image half staged (R339, R408). -/
def State.imageOpen (s : State) : Bool :=
  ((s.mgmt.sessions.map (·.acc)) ++ [s.mgmt.i3c]).any fun a => (a.seg.map (·.1)) == some imageKey

/-- A segment has landed: the inactive half holds what its session has staged, and any pending image is discarded (R408). -/
def State.landImage (s : State) (bytes : List Byte) : State :=
  s.onFw fun f => { f with pending := 1, pendingVersion := 0, image := bytes }

/-- An image out of order leaves nothing staged (R339). -/
def State.dropImage (s : State) : State := if s.fw.pending = 1 then s.onFw fun f => { f with pending := 0, image := [] } else s

/-- A verification that failed: state 4, kind 0x61 (R408, R410). -/
def State.imageFails (s : State) : State := (s.onFw fun f => { f with pending := 4 }).collectUnit srcBoot 0x61 0 none

/-- A write of 0x7840.05 (R408). With no image staged nothing is verified, and one that switches is busy (log 63). -/
def State.verifyImage (s : State) (signed configOk : Bool) (version : Nat) : DStatus × State :=
  if s.fw.pending = 3 then (.busy, s)
  else if s.fw.pending = 0 then (.ok, s)
  else if signed && configOk && !s.imageOpen && s.fw.image.length ≤ 67108864 then
    (.ok, s.onFw fun f => { f with
      pending := 2, pendingVersion := version, versions := f.versions.set (1 - f.active) version
      halves := f.halves.set (1 - f.active) (Config.woenoValues version) })
  else (.ok, s.imageFails)

/-- Attestation sessions close when a switch begins (R327, R409). -/
def State.closeAtt (s : State) (mine : AttSession → Bool) : State :=
  s.onSec fun x => { x with sessions := mapIf (fun a => mine a && (a.st == .awaitFinish || a.st == .open_)) (fun a => { a with st := .closed, keyIn := [], keyOut := [] }) x.sessions }

/-- A write of 0x7840.06 TRUE: steps 1 and 2 (R409, Table 13-6). Without a verified image nothing starts (log 63, 116). -/
def State.startSwitch (s : State) (r : SwitchReport) : DStatus × State :=
  if s.fw.pending = 3 then (.busy, s)
  else if s.fw.pending ≠ 2 then (.ok, s)
  else if !r.verified then (.ok, s.imageFails)
  else (.ok, (s.closeAtt fun _ => true).onFw fun f => { f with pending := 3, hold := some (s.us, r) })

/-- A switch whose end no command says (log 61). -/
def State.freeSwitch (s : State) : SwitchReport × State :=
  let w := (s.free).1.toNat
  ({ verified := w.testBit 0, loaded := w.testBit 1, measured := w.testBit 2, durationMs := w / 8 % 1024 }, (s.free).2)

/-- Lease and peer timers were suspended during the hold (R253). -/
def State.resumeTimers (s : State) (held : Nat) : State :=
  s.onBroker fun b => { b with nodes := b.nodes.map fun n => { n with lastUs := n.lastUs + held, beatUs := n.beatUs + held } }

/-- FIRMWARE_HOLD_LIMIT_EXPIRY: step 3 of a switch ends, at the hold limit or once nothing is in flight, and steps 4 and 5 follow (R409, R410). -/
def execFirmwareHoldLimitExpiry (s : State) : Result :=
  .next (if !s.managed && s.dev.phase != .awaitingImage then s
    else match s.fw.hold with
    | none => s
    | some (t, r) =>
      if !s.due (t + 5010 + 1000 * s.rw 0x7840 7 0) && s.requestsLeft then s
      else
        let s1 := (s.endRequests.resumeTimers (s.us - t)).onFw fun f => { f with hold := none }
        (if r.loaded && r.measured then
          s1.onFw fun f => { f with active := 1 - f.active, pending := 0, pendingVersion := 0, image := [], lastMs := r.durationMs }
        else s1.imageFails).settle)

end Sys2Proof.Machine
end

