-- ==== Sys2Proof/Machine/Attestation.lean ====
section
/-!
DEFINITION. Reports, attestation sessions, tenant key records and peer links (R323 to R330, R411, R429).
-/
namespace Sys2Proof.Machine

/-! ### Keys of the device (R323, Table 10-7) -/

/-- Device identity public key. -/
def identityKey : List Byte := Config.mldsaPublicKey (kdf Config.identitySeed "HN-IDENTITY" 32)

/-- A signature by the device identity key. -/
def identitySign (bs : List Byte) : List Byte := Config.mldsaSign (kdf Config.identitySeed "HN-IDENTITY" 32) bs

/-! ### Unit sets (Table 10-9) -/

/-- Bytes whose bit n mod 8 of byte floor(n / 8) is set for each number n of a set. -/
def bitBytes (n : Nat) (f : Nat → Bool) : List Byte :=
  (List.range n).map fun j => BitVec.ofNat 8 (sumOf (fun i => if f (8 * j + i) then 2 ^ i else 0) (List.range 8))

/-- A number whose bit n is set for each number n of a set. -/
def bitWord (n : Nat) (f : Nat → Bool) : Nat := sumOf (fun i => if f i then 2 ^ i else 0) (List.range n)

/-- A set of units: which cores, channels and so on it holds. -/
structure UnitSet where
  core : Nat → Bool
  channel : Nat → Bool
  die : Nat → Bool
  bank : Nat → Bool
  nand : Nat → Bool
  cluster : Nat → Bool
  stack : Nat → Bool
  port : Nat → Bool
  lp : Nat → Bool
  cdie : Nat → Bool
  bridge : Bool
  array : Bool

def UnitSet.none : UnitSet :=
  let no := fun (_ : Nat) => false
  { core := no, channel := no, die := no, bank := no, nand := no, cluster := no, stack := no, port := no, lp := no, cdie := no, bridge := false, array := false }

/-- Layout of Table 10-9. -/
def UnitSet.bytes (u : UnitSet) : List Byte :=
  bitBytes 16 u.core ++ bitBytes 48 u.channel ++ bitBytes 128 u.die ++ beBytes 8 (bitWord 64 u.bank)
    ++ beBytes 8 (bitWord 32 u.nand * 2 ^ 32 + bitWord 16 u.cluster * 2 ^ 16 + bitWord 12 u.stack * 16 + bitWord 4 u.port)
    ++ beBytes 8 (bitWord 16 u.lp * 2 ^ 48 + bitWord 2 u.cdie * 2 ^ 46 + bit u.bridge * 2 ^ 45 + bit u.array * 2 ^ 44) ++ beBytes 8 0

/-- Whether a port is fenced, itself or with its island. -/
def State.portFenced (s : State) (p : Nat) : Bool := s.fenced (srcPort p) || s.fenced (srcIsland (netIsland (p / 2))) || (2 ≤ p && s.fenced srcBridge)

/-- Fenced units (R374). -/
def State.fencedSet (s : State) : UnitSet :=
  { core := s.coreFenced, channel := s.channelFenced, die := fun d => s.fenced (srcDie d) || s.fenced (srcNand (d / 32)), bank := fun b => s.fenced (srcBank b)
    nand := fun n => s.fenced (srcNand n), cluster := s.clusterFenced, stack := s.stackFenced, port := s.portFenced
    lp := fun l => s.fenced (srcLane l) || s.portFenced (l / 4), cdie := fun d => d == 1 && s.fenced srcBridge, bridge := s.fenced srcBridge
    array := s.fenced (srcIsland 17) }

/-- Units whose reset has begun and not ended (R411): a port with its logical ports, or the channels a partition reset zeroes. The other levels end with
the command that starts them. -/
def State.resettingSet (s : State) : UnitSet :=
  let w := s.dev.resetInProgress
  let channels := (s.epochs.slices.filter fun x => x.forReset && x.st == .zeroing).flatMap fun x => sliceChannels x.num
  { UnitSet.none with
    channel := fun c => w / 2 ^ 28 == 4 && channels.contains c
    port := fun p => w / 2 ^ 28 == 5 && w % 65536 == p
    lp := fun l => w / 2 ^ 28 == 5 && w % 65536 == l / 4 }

/-! ### The report (R326, Table 10-8) -/

/-- Slices a partition has in effect, bit s for slice s. -/
def State.sliceMask (s : State) (p : Nat) : Nat := sumOf (fun x : Slice => 2 ^ x.num) (s.slicesOf p)

/-- Key authority of a partition in effect, 0 when none is set. -/
def State.keyAuthority (s : State) (p : Nat) : Nat := s.act (0x6400 + p) 6 0

/-- Hash of the key authority's public key; zero when none is set (log 62). -/
def State.keyAuthorityHash (s : State) (p : Nat) : List Byte := if s.keyAuthority p = 0 then List.replicate 64 0 else hash64 (beBytes 1952 (s.keyAuthority p))

/-- Whether a verified image is pending (R408). -/
def State.imagePending (s : State) : Bool := s.fw.pending == 2 || s.fw.pending == 3

/-- Bytes of a fixed length: cut, or filled with zeros. -/
def fixed (n : Nat) (bs : List Byte) : List Byte := (bs ++ List.replicate n 0).take n

/-- Running firmware version (0x1000.08). -/
def State.runningVersion (s : State) : Nat := s.fw.versions.getD s.fw.active 0

/-- Measurement of an image of the running or pending firmware, by kind: 1 firmware, 2 management, 3 scheduler, 4 network, 5 flash, 6 Woeno. -/
def measure (kind version : Nat) : List Byte := fixed 64 (Config.imageMeasurement kind version)

/-- A report, unsigned: bytes 0x0000 to 0x057F. -/
def State.reportBody (s : State) (kind p : Nat) (nonce transcript : List Byte) : List Byte :=
  let v := s.runningVersion
  let pending := s.imagePending
  let pend := fun (k : Nat) => if pending then measure k s.fw.pendingVersion else List.replicate 64 0
  beBytes 8 (packBits [(16, 1), (8, kind), (8, s.act (0x6400 + p) 2 0), (8, p), (21, 0), (1, bit s.dev.manufacturing), (1, bit (s.dev.resetInProgress != 0)), (1, bit pending)])
    ++ beBytes 8 4720 ++ beBytes 8 s.ms ++ beBytes 8 s.faults.seqno ++ fixed 32 nonce ++ fixed 64 transcript ++ hash64 identityKey
    ++ measure 0 Config.romVersion ++ beBytes 8 Config.romVersion ++ beBytes 8 v ++ measure 1 v ++ measure 2 v ++ measure 3 v ++ measure 4 v ++ measure 5 v
    ++ measure 6 v ++ beBytes 8 (Config.woenoVersion v) ++ beBytes 8 (s.epochs.active * 2 ^ 48) ++ hash64 (Config.serialiseMap s.objs.active)
    ++ beBytes 8 (s.sliceMask p) ++ beBytes 8 (packBits [(1, s.act (0x6400 + p) 3 0), (1, bit (s.keyAuthority p != 0)), (62, 0)]) ++ s.keyAuthorityHash p
    ++ s.fencedSet.bytes ++ s.resettingSet.bytes ++ beBytes 8 (if pending then s.fw.pendingVersion else 0) ++ pend 1 ++ pend 6 ++ beBytes 8 0

/-- A signed report (R326). -/
def State.attReport (s : State) (kind p : Nat) (nonce transcript : List Byte) : List Byte :=
  let body := s.reportBody kind p nonce transcript
  body ++ fixed 3309 (identitySign body) ++ List.replicate 3 0

/-! ### Sessions (R327, Table 10-10) -/

def State.att (s : State) (slot : Nat) : Option AttSession := s.sec.sessions.find? (·.num == slot)

def State.onAtt (s : State) (slot : Nat) (f : AttSession → AttSession) : State := s.onSec fun x => { x with sessions := mapIf (·.num == slot) f x.sessions }

/-- Frame header of the relay: type, slot and length of what follows. -/
def attFrame (type slot : Nat) (body : List Byte) : List Byte := beBytes 8 (packBits [(8, type), (8, slot), (16, 0), (32, body.length)]) ++ body

/-- A session fails: it is closed and counted in 0x6040.08. -/
def State.failAtt (s : State) (slot : Nat) : State :=
  (s.onAtt slot fun a => { a with st := .failed, keyIn := [], keyOut := [] }).bump 0x6040 8 0 1

/-- Crypto and management work of a key or an attestation message: one slot of the device row's class 7 (R29, R38, log 162). -/
def State.cryptoWork (s : State) : State := s.owe (managementCost 64 7 1)

/-- Sends an encrypted message of a session, under the device's key and counter. -/
def State.sealAtt (s : State) (a : AttSession) (type : Nat) (plain : List Byte) : State :=
  s.onAtt a.num fun x => { x with out := attFrame type a.num (fixed (plain.length + 16) (Config.gcmSeal x.keyOut x.outCount plain)), outCount := x.outCount + 1 }

/-- Session keys of a shared secret (R327): the relying party's direction, then the device's. -/
def sessionKeys (ss h2 : List Byte) : List Byte × List Byte :=
  let k := shake256 (ss ++ h2 ++ ascii "HN-SESSION") 64
  (k.take 32, k.drop 32)

/-- HELLO of Table 10-10. -/
def helloBytes (kind p : Nat) (nonce ek : List Byte) : List Byte := beBytes 8 (packBits [(16, 1), (8, kind), (8, p), (32, 0)]) ++ nonce ++ ek

/-- The device's answer to a HELLO, with its report; after one of kind 2 the session is closed at once (Table 10-10). -/
def State.openAtt (s : State) (slot kind p : Nat) (nonce ek : List Byte) : State :=
  let nd := s.cryptoWork.randomBytes 32
  let rnd := nd.2.randomBytes 32
  let ct := if kind = 2 then [] else fixed 1088 (Config.mlkemCiphertext ek rnd.1)
  let h1 := hash64 (helloBytes kind p nonce ek ++ nd.1 ++ ct)
  let report := s.attReport (if kind = 1 then 2 else 1) p nonce h1
  let h2 := hash64 (h1 ++ report)
  let keys := sessionKeys (Config.mlkemSecret ek rnd.1) h2
  rnd.2.onAtt slot fun a => { a with
    st := if kind = 2 then .closed else .awaitFinish, kind := kind, part := p, h1 := h1, h2 := h2, keyIn := keys.1, keyOut := keys.2, inCount := 0, outCount := 0
    lastUs := s.us, out := attFrame 2 slot (nd.1 ++ ct ++ report), started := false }

/-- A HELLO: the session opens with the device's answer and report. A slot with a session under way fails instead: the message is out of order (log 117). -/
def State.attHello (s : State) (slot kind p : Nat) (nonce ek : List Byte) : DStatus × State :=
  match s.att slot with
  | none => (.outOfRange, s)
  | some a =>
    if s.fw.hold.isSome then (.attestPending, s)
    else if a.st == .awaitFinish || a.st == .open_ || nonce.length ≠ 32 || ek.length ≠ (if kind = 2 then 0 else 1184) || 63 < p then (.ok, s.failAtt slot)
    else (.ok, s.openAtt slot kind p nonce ek)

def execAttestHelloTenantKeys (slot : Nat) (partition : Byte) (nonce ek : List Byte) (s : State) : Result :=
  .next (if s.managed then (s.attHello slot 0 partition.toNat nonce ek).2 else s)

def execAttestHelloPeerPairing (slot : Nat) (partition : Byte) (nonce ek : List Byte) (s : State) : Result :=
  .next (if s.managed then (s.attHello slot 1 partition.toNat nonce ek).2 else s)

def execAttestHelloReportOnly (slot : Nat) (partition : Byte) (nonce : List Byte) (s : State) : Result :=
  .next (if s.managed then (s.attHello slot 2 partition.toNat nonce []).2 else s)

/-! ### Peer links (R329, R330) -/

/-- Peer slot whose allow list entry is an identity hash (R329). -/
def State.allowedPeer (s : State) (hash : List Byte) : Option Nat :=
  if hash.length ≠ 64 || beNat hash = 0 then none else (List.range 64).find? fun p => s.rw 0x6070 2 p == beNat hash

/-- A pairing that completes makes its session keys the peer link key, under a new link generation (R330). -/
def State.keyPeer (s : State) (peer : Nat) (a : AttSession) : State :=
  let gen := ((s.sec.links.find? (·.peer == peer)).map (·.generation)).getD 0
  (s.onSec fun x => { x with links := x.links.filter (·.peer < peer) ++
    [{ peer := peer, st := 2, key := a.keyIn ++ a.keyOut, generation := (gen + 1) % 2 ^ 32, counter := 0, sinceUs := s.us }] ++ x.links.filter (peer < ·.peer) }).bump
      0x6070 4 peer 1

/-- Answers FINISH with DONE (Table 10-10). -/
def State.attDone (s : State) (a : AttSession) (st : Status) : State := s.cryptoWork.sealAtt a 4 (beBytes 8 (packBits [(8, st.code), (56, 0)]))

/-- A FINISH on a session that awaits it. -/
def State.attFinish (s : State) (a : AttSession) (opens sigOk : Bool) (hash : List Byte) : State :=
  let s1 := s.onAtt a.num fun x => { x with inCount := x.inCount + 1, lastUs := s.us }
  if a.st != .awaitFinish || !opens then s.failAtt a.num
  else if a.kind = 0 then
    (if sigOk && s.keyAuthority a.part ≠ 0 then (s1.attDone a .ok).onAtt a.num fun x => { x with st := .open_ }
      else (s1.attDone a .accessDenied).failAtt a.num)
  else match (if sigOk then s.allowedPeer hash else none) with
    | some peer => ((s1.attDone a .ok).onAtt a.num fun x => { x with st := .open_ }).keyPeer peer a
    | none => (s1.attDone a .accessDenied).failAtt a.num

/-- ATTEST_FINISH (R327, R329). -/
def execAttestFinish (slot : Nat) (opens sigOk : Bool) (identityHash : List Byte) (s : State) : Result :=
  .next (if !s.managed then s
    else match s.att slot with
    | some a => (s.attFinish a opens sigOk identityHash).settle
    | none => s)

/-- Places a kind-1 HELLO in a slot's message out (R330, 0x6040.06). -/
def State.placeHello (s : State) (slot : Nat) : State :=
  let nonce := s.cryptoWork.randomBytes 32
  let seed := nonce.2.randomBytes 32
  let hello := helloBytes 1 0 nonce.1 (fixed 1184 (Config.mlkemPublicKey seed.1))
  seed.2.onAtt slot fun a => { a with
    st := .awaitFinish, kind := 1, part := 0, h1 := [], h2 := [], keyIn := [], keyOut := [], inCount := 0, outCount := 0, lastUs := s.us
    out := attFrame 1 slot hello, started := true }

/-- 0x6040.06 written TRUE through a slot (R330); a slot whose session is under way is busy (log 64). -/
def State.startPair (s : State) (slot : Nat) : DStatus × State :=
  match s.att slot with
  | none => (.outOfRange, s)
  | some a =>
    if s.fw.hold.isSome then (.attestPending, s)
    else if a.st == .awaitFinish || a.st == .open_ then (.busy, s) else (.ok, s.placeHello slot)

/-- PAIRING_DEVICE_RECEIVED: the peer's DEVICE message reaches the session this device started. What it carries besides the verdicts is free values, and the
link is keyed when FINISH goes out (R329, R330, log 64). -/
def State.pairingAnswered (s : State) (a : AttSession) (sigOk : Bool) (hash : List Byte) : State :=
  if !a.started || a.st != .awaitFinish then s.failAtt a.num
  else match (if sigOk then s.allowedPeer hash else none) with
    | none => s.failAtt a.num
    | some peer =>
      let ss := s.cryptoWork.randomBytes 32
      let h2 := ss.2.randomBytes 64
      let keys := sessionKeys ss.1 h2.1
      let b := { a with st := .open_, h2 := h2.1, keyIn := keys.2, keyOut := keys.1, lastUs := s.us }
      ((h2.2.onAtt a.num fun _ => b).sealAtt b 3 (s.attReport 2 a.part [] h2.1)).keyPeer peer { b with keyIn := keys.1, keyOut := keys.2 }

def execPairingDeviceReceived (slot : Nat) (sigOk : Bool) (identityHash : List Byte) (s : State) : Result :=
  .next (if !s.managed || s.fw.hold.isSome then s
    else match s.att slot with
    | some a => (s.pairingAnswered a sigOk identityHash).settle
    | none => s)

/-- PEER_LINK_REKEY: after 2^32 images or 24 hours the device starts a new pairing, in the lowest slot without a session (R330). -/
def execPeerLinkRekey (peer : Nat) (s : State) : Result :=
  s.event fun s => match s.sec.links.find? fun l => l.peer == peer && l.st == 2, s.sec.sessions.find? fun a => a.st == .closed || a.st == .failed with
    | some l, some a =>
      if l.counter < 2 ^ 32 && !s.due (l.sinceUs + 86400000000) then s
      else (s.placeHello a.num).onSec fun x => { x with links := mapIf (·.peer == peer) (fun y => { y with st := 1 }) x.links }
    | _, _ => s

/-! ### Tenant key records (R325, R328, Table 10-11) -/

/-- Key state of a tenant (Table 10-11). -/
def State.keyState (s : State) (p t : Nat) : Nat :=
  match s.tenantKey p t with
  | none => 0
  | some k => if k.erasing then 2 else 1

/-- The reply to a record. -/
def State.keyReply (s : State) (a : AttSession) (t : Nat) (st : Status) : State :=
  s.cryptoWork.sealAtt a 6 (beBytes 8 (packBits [(8, st.code), (8, s.keyState a.part t), (16, t), (32, ((s.tenantKey a.part t).map (·.keyId)).getD 0)]))

/-- A record in an open kind-0 session runs; on any other session it is out of order, or not accepted (R327, R328) (log 118). -/
def State.keyRecord (s : State) (k : KeyRecord) (run : State → AttSession → Status × State) : State :=
  match s.att k.slot with
  | none => s
  | some a =>
    if a.st != .open_ || !k.opens || k.key.length ≠ 32 then (if a.st == .closed then s else s.failAtt k.slot)
    else
      let s1 := s.onAtt k.slot fun x => { x with inCount := x.inCount + 1, lastUs := s.us }
      if a.kind ≠ 0 then s1.keyReply a k.tenant.toNat .accessDenied
      else (fun (r : Status × State) => r.2.keyReply a k.tenant.toNat r.1) (run s1 a)

/-- A release (R328); in manufacturing mode every release is refused (R429). -/
def State.releaseKey (s : State) (p t id : Nat) (key : List Byte) : Status × State :=
  if s.dev.manufacturing then (.accessDenied, s)
  else if id = 0 then (.malformed, s)
  else match s.tenantKey p t with
    | some k => (if k.keyId = id && k.key = key then .ok else .accessDenied, s)
    | none => (.ok, (s.onSec fun x => { x with keys := x.keys ++ [{ part := p, tenant := t, keyId := id, key := key, releasedMs := s.ms, erasing := false }] }).openMeter p t)

def execTenantKeyRelease (k : KeyRecord) (s : State) : Result :=
  .next (if s.managed then (s.keyRecord k fun s a => s.releaseKey a.part k.tenant.toNat k.keyId.toNat k.key).settle else s)

/-- Frees a sequence of a tenant whose key is erased, as RELEASE action 1 does; what its turn still owes ends with `ACCESS_DENIED` (R325, log 65). -/
def State.eraseSeq (s : State) (h : Nat) : State :=
  match s.seq h with
  | none => s
  | some q =>
    if q.st == .retained || q.lease == .freeing then s
    else ((s.endTurnReqs h .accessDenied).onSeq h fun x => { x with lease := .freeing, holder := none }).finishFreeing h

/-- An erase (R325, R328). -/
def State.beginErase (s : State) (p t id : Nat) : Status × State :=
  match s.tenantKey p t with
  | none => (.ok, s)
  | some k =>
    if k.keyId ≠ id then (.accessDenied, s)
    else
      let s1 := s.onSec fun x => { x with keys := mapIf (fun y => y.part == p && y.tenant == t) (fun y => { y with erasing := true }) x.keys }
      (.ok, (s1.each ((s1.seqs.filter fun q => q.part == p && q.tenant == t).map (·.handle)) fun s h => s.eraseSeq h).finishErases)

def execTenantKeyErase (k : KeyRecord) (s : State) : Result :=
  .next (if s.managed then (s.keyRecord k fun s a => s.beginErase a.part k.tenant.toNat k.keyId.toNat).settle else s)

/-- TENANT_KEY_QUERY reports and changes nothing (R328). -/
def execTenantKeyQuery (k : KeyRecord) (s : State) : Result :=
  .next (if s.managed then (s.keyRecord k fun s _ => (.ok, s)).settle else s)

/-! ### Sessions that close (R327) -/

/-- ATTEST_CLOSE. -/
def execAttestClose (slot : Nat) (s : State) : Result := .next (if s.managed then s.closeAtt (·.num == slot) else s)

/-- ATTEST_SESSION_IDLE_TIMEOUT (0x6040.07). -/
def execAttestSessionIdleTimeout (slot : Nat) (s : State) : Result :=
  .next (if s.managed then s.closeAtt fun a => a.num == slot && s.due (a.lastUs + 1000000 * s.rw 0x6040 7 0) else s)

end Sys2Proof.Machine
end

