-- ==== Sys2Proof/Machine/Mirrors.lean ====
section
/-!
DEFINITION. Peers: LEDGER_SYNC, RELAY, PEER_PROBE, migration, and the answers this device receives to its own (R48, R267 to R274).
-/
namespace Sys2Proof.Machine

/-! ### Partner side (R268 to R270) -/

/-- Answers `FENCED` to a peer that was declared gone: once, and after that for what this device does not mirror (R270, log 45). -/
def State.fencedPeer (s : State) (m : Rx) (op : Nat) (handle : Nat) (fresh : Bool) (run : State → State) : State :=
  match s.nodeOf m.qp with
  | none => s
  | some nd =>
    match s.broker.gone.find? fun g => g.part == nd.part && g.ident == nd.ident with
    | none => run s
    | some g =>
      if !g.fenced then
        (s.onBroker fun b => { b with gone := mapIf (fun x => x.part == nd.part && x.ident == nd.ident) (fun x => { x with fenced := true }) b.gone }).answer
          (reqOf m op) .fenced
      else if !fresh && !s.broker.mirrors.any (fun x => x.part == nd.part && x.peer == nd.num && x.handle == handle) then s.answer (reqOf m op) .fenced
      else run s

/-- Completion of a LEDGER_SYNC with the mirrored position (Table 8-14). -/
def State.answerSync (s : State) (m : Rx) (st : Status) (pos : Nat) : State := s.complete (reqOf m 0x60) st [packWord [(23, pos), (41, 0)]] []

/-- Mirror record of a peer's sequence. -/
def State.mirror (s : State) (nd : Node) (handle : Nat) : Option Mirror :=
  s.broker.mirrors.find? fun x => x.part == nd.part && x.peer == nd.num && x.handle == handle

def State.onMirror (s : State) (nd : Node) (handle : Nat) (f : Mirror → Mirror) : State :=
  s.onBroker fun b => { b with mirrors := mapIf (fun x => x.part == nd.part && x.peer == nd.num && x.handle == handle) f b.mirrors }

/-- Frames the mirrored ledgers of a partition fill. -/
def State.mirrorFrames (s : State) (p : Nat) : Nat := sumOf (fun m : Mirror => if m.part = p then cdiv m.tokens.length 4096 else 0) s.broker.mirrors

/-- Layout of a LEDGER_SYNC (Table 8-14); one that carries a geometry is held to the ranges of ADMIT word 0 (R11, R179). -/
def ledgerFits (m : Rx) (b : LedgerBody) (geometry : Bool) : Bool :=
  m.hdr.bodyLen.toNat == 136 + 8 * cdiv b.tokens.length 2 && (!geometry || b.geometry.wordZero)

/-- Receives a LEDGER_SYNC from a peer. One that is `fresh` carries a geometry, unless it names no sequence. -/
def State.syncIn (s : State) (m : Rx) (b : LedgerBody) (fresh : Bool) (run : Node → State → State) : State :=
  (s.receive m 0x60 .unchecked 0 false fun s =>
    if !ledgerFits m b (fresh && b.handle != 0) then s.answer (reqOf m 0x60) .malformed
    else s.fencedPeer m 0x60 b.handle.toNat fresh fun s => match s.nodeOf m.qp with
      | some nd => run nd s
      | none => s).settle

/-- LEDGER_SYNC kind 0: a mirror record is made, when its ledger has room beside the partition's own frames (R268, log 46). -/
def execLedgerSyncCreate (m : Rx) (b : LedgerBody) (s : State) : Result :=
  .next (s.syncIn m b true fun nd s =>
    let s0 := s.onBroker fun x => { x with mirrors := x.mirrors.filter fun y => !(y.part == nd.part && y.peer == nd.num && y.handle == b.handle.toNat) }
    if s0.openFrames nd.part < s0.mirrorFrames nd.part + cdiv b.tokens.length 4096 then s.answerSync m .capacity 0
    else (s0.onBroker fun x => { x with mirrors := x.mirrors ++
      [{ part := nd.part, peer := nd.num, peerIdent := nd.ident, handle := b.handle.toNat, body := b, tokens := b.tokens, pages := [] }] }).answerSync
        m .ok b.tokens.length)

/-- LEDGER_SYNC kind 1: tokens that continue the mirrored ledger (R268). -/
def execLedgerSyncTokens (m : Rx) (b : LedgerBody) (s : State) : Result :=
  .next (s.syncIn m b false fun nd s => match s.mirror nd b.handle.toNat with
    | none => s.answerSync m .ok 0
    | some x =>
      let ts := if b.firstPos.toNat ≤ x.tokens.length then x.tokens.take b.firstPos.toNat ++ b.tokens else x.tokens
      if s.openFrames nd.part < s.mirrorFrames nd.part + cdiv ts.length 4096 - cdiv x.tokens.length 4096 then s.answerSync m .capacity x.tokens.length
      else (s.onMirror nd b.handle.toNat fun y => { y with tokens := ts, body := { y.body with admitter := b.admitter, holder := b.holder } }).answerSync
        m .ok ts.length)

/-- LEDGER_SYNC kind 2: the mirrored ledger is cut (R78, R268). -/
def execLedgerSyncCut (m : Rx) (b : LedgerBody) (s : State) : Result :=
  .next (s.syncIn m b false fun nd s =>
    let s1 := s.onMirror nd b.handle.toNat fun y => { y with
      tokens := y.tokens.take b.firstPos.toNat
      pages := y.pages.filter fun p => y.body.geometry.posBase.toNat + 64 * (p.page.index.toNat + 1) ≤ b.firstPos.toNat
      body := { y.body with admitter := b.admitter, holder := b.holder } }
    s1.answerSync m .ok (((s1.mirror nd b.handle.toNat).map (·.tokens.length)).getD 0))

/-- LEDGER_SYNC kind 3: the mirror record is freed (R268). -/
def execLedgerSyncFree (m : Rx) (b : LedgerBody) (s : State) : Result :=
  .next (s.syncIn m b false fun nd s => (s.onBroker fun x => { x with
    mirrors := x.mirrors.filter fun y => !(y.part == nd.part && y.peer == nd.num && y.handle == b.handle.toNat) }).answerSync m .ok 0)

/-- LEDGER_SYNC kind 4: re-admits a failed device's sequence here when R257 passes, else draws `CAPACITY` (R269; log 167). -/
def execLedgerSyncReadmit (m : Rx) (b : LedgerBody) (s : State) : Result :=
  .next (s.syncIn m b true fun nd s =>
    if b.handle = 0 then
      (s.each (s.broker.mirrors.filter fun x => x.part == nd.part && x.peer == nd.num) fun s x => s.readmit x).answerSync m .ok 0
    else
    let r := s.readmitHere { part := nd.part, peer := nd.num, peerIdent := nd.ident, handle := b.handle.toNat, body := b, tokens := b.tokens, pages := [] }
    if r.1 then r.2.answerSync m .ok b.tokens.length else s.answerSync m .capacity 0)

/-! ### Answers to this device's own LEDGER_SYNC (R48, R268 to R270) -/

/-- The peer that would not re-admit a mirrored sequence is passed over for the next on the ring (R269). -/
def State.readmitNext (s : State) (handle peer : Nat) : State :=
  match s.broker.mirrors.find? (·.handle == handle) with
  | none => s
  | some m => match ((s.readmitPeers m).dropWhile (· != peer)).drop 1 with
    | [] => s
    | n :: _ => s.sendReadmit m n

/-- A create or tokens sync is answered (log 99). -/
def State.syncAnswered (s : State) (a : Ask) (h upTo : Nat) (st : Nat) (mirrored : Nat) : State :=
  match s.seq h with
  | none => s
  | some q =>
    if st = 0 then
      let acked := max q.acked (min mirrored q.ledger.length)
      (s.onSeq h fun x => { x with acked := acked, unmirrored := x.unmirrored && acked < x.ledger.length }).seal h
    else if st = 8 then s.freedByPartner q.part
    else (s.onSeq h fun x => { x with unmirrored := true }).onBroker fun b => { b with asks := b.asks ++ [{ a with kind := .sync .tokens h upTo }] }

/-- LEDGER_SYNC completion (R48, R268): the mirrored position is acknowledged, `CAPACITY` leaves the sequence unmirrored, `FENCED` frees what the partner
mirrored (R270), and a re-admission is done or tried on the next peer (R269). -/
def execLedgerSyncCompletion (r : Reply) (mirrored : BitVec 23) (s : State) : Result :=
  .next (s.reply r AskKind.isSync fun a s => match a.kind with
    | .sync .readmit h peer =>
      if r.status = 0 then s.onBroker fun b => { b with mirrors := b.mirrors.filter (·.handle != h) } else s.readmitNext h peer
    | .sync .create h upTo => s.syncAnswered a h upTo r.status.toNat mirrored.toNat
    | .sync .tokens h upTo => s.syncAnswered a h upTo r.status.toNat mirrored.toNat
    | .sync _ h _ => if r.status = 8 then (match s.seq h with
        | some q => s.freedByPartner q.part
        | none => s) else s
    | _ => s)

/-- A sequence's LEDGER_SYNCs whose answer is late. -/
def State.lateSyncs (s : State) (h : Nat) : List Ask :=
  s.broker.asks.filter fun a => s.due a.untilUs && (match a.kind with | .sync _ x _ => x == h | _ => false)

/-- Position up to which such requests sent the ledger. -/
def sentUpTo (late : List Ask) : Nat :=
  late.foldl (fun m a => match a.kind with
    | .sync .create _ n => max m n
    | .sync .tokens _ n => max m n
    | _ => m) 0

/-- A re-admission whose answer is late is tried on the next peer (R269). -/
def State.readmitLate (s : State) (a : Ask) : State :=
  match a.kind with
  | .sync .readmit x peer => (s.onBroker fun b => { b with asks := b.asks.filter (·.tag != a.tag) }).readmitNext x peer
  | _ => s

/-- The ledger mirror timeout: positions sent and not acknowledged count as timed out, the sequence is unmirrored, and sealing goes on (R48). -/
def execLedgerMirrorTimeout (handle : W64) (s : State) : Result :=
  s.event fun s =>
    let late := s.lateSyncs handle.toNat
    let s1 := s.each late fun s a => s.readmitLate a
    if sentUpTo late = 0 then s1
    else (s1.onSeq handle.toNat fun q => { q with
      timedOut := max q.timedOut (min (sentUpTo late) q.ledger.length)
      unmirrored := q.unmirrored || q.acked < min (sentUpTo late) q.ledger.length }).seal handle.toNat

/-! ### RELAY, responder side (R273, R274) -/

/-- RELAY completion: pages done and refused, and references (Table 8-15). -/
def State.answerRelay (s : State) (m : Rx) (kind : Nat) (st : Status) (done refused : Nat) (refs : List Nat) : State :=
  s.completeAs (reqOf m 0x61) kind st [packWord [(32, done), (32, refused)]] (tokenBytes (refs.map fun r => BitVec.ofNat 32 r))

/-- Receives a RELAY from a peer. -/
def State.relayIn (s : State) (m : Rx) (b : RelayBody) (kind : Nat) (run : Node → State → State) : State :=
  let bad := if kind = 2 then m.hdr.bodyLen != 32 else m.hdr.bodyLen.toNat != 32 + 8 * b.pages.length || b.pages.length != b.pageCount.toNat + 1
  (s.receive m 0x61 .unchecked 0 false fun s =>
    if bad then s.answer (reqOf m 0x61) .malformed
    else s.fencedPeer m 0x61 b.handle.toNat (kind != 3) fun s => match s.nodeOf m.qp with
      | some nd => run nd ((s.meter nd.part m.hdr.tenant.toNat (0x1C + kind) b.winLen.toNat).meterMoved nd.part m.hdr.tenant.toNat 3 b.winLen.toNat)
      | none => s).settle

/-- A failed image tag is reported (Table 12-3). -/
def State.tagFailed (s : State) (p : Nat) : State := s.report srcCrypto 0x32 none (some p) 0 0

/-- Puts a page that came from a peer into frames, for the relay class (R202, R274). -/
def State.putArrived (s : State) (part : Nat) (fs : List Nat) (bs : List Byte) : State :=
  ((s.takeFrames fs).putBytes (frameGranule (fs.headD 0)) bs).owe (burstCost (frameGranule (fs.headD 0)) part 3 (cdiv bs.length 64))

/-- Stores image `i` of a RELAY for the peer `nd`, unpacked: the reference it gets, all ones when it is refused (R202, R274). -/
def State.storeForPeer (s : State) (nd : Node) (i : Nat) (image : Option RelayImage) : Nat × State :=
  match image with
  | none => (0xFFFFFFFF, s)
  | some im =>
    if !im.tagOk then (0xFFFFFFFF, s.tagFailed nd.part)
    else match relayBytes im, s.findOpen nd.part i (fmtFrames im.fmt.toNat) with
      | some bs, some fs =>
        (s.broker.nextRef, (s.putArrived nd.part fs bs).onBroker fun x => { x with
          nextRef := if s.broker.nextRef + 1 = 0xFFFFFFFF then 1 else s.broker.nextRef + 1
          peerPages := x.peerPages ++ [{ ref := s.broker.nextRef, part := nd.part, peer := nd.num, frames := fs, image := keptImage im bs, freeAt := none }] })
      | _, _ => (0xFFFFFFFF, s)

/-- Stores a RELAY's images one after another: one reference a page. -/
def State.storeImages (s : State) (nd : Node) (b : RelayBody) : List Nat × State :=
  (List.range b.pages.length).foldl (fun (acc : List Nat × State) i =>
    (acc.1 ++ [(acc.2.storeForPeer nd i b.images[i]?).1], (acc.2.storeForPeer nd i b.images[i]?).2)) ([], s)

/-- RELAY kind 0: each good image is stored for the peer under a reference of its own; any other is refused (R202, R274). -/
def execRelayStore (m : Rx) (b : RelayBody) (s : State) : Result :=
  .next (s.relayIn m b 0 fun nd s =>
    let r := s.storeImages nd b
    let refused := r.1.countP (· == 0xFFFFFFFF)
    r.2.answerRelay m 0 .ok (r.1.length - refused) refused r.1)

/-- Marks the write just queued as the one whose acknowledgement frees a peer page. -/
def State.freesOnAck (s : State) (ref : Nat) : State :=
  s.onNet fun x => { x with egress := x.egress.mapIdx fun i e => if i + 1 = x.egress.length then { e with frees := some ref } else e }

/-- Writes some images one after another into a peer's window within its length; how many were written. -/
def State.putImages (s : State) (nd : Node) (t offset limit : Nat) (is : List (Option Nat × Nat × RelayImage)) : Nat × State :=
  let r := is.foldl (fun (acc : Nat × Nat × State) x =>
    let room := imageRoom x.2.2
    if limit < acc.2.1 + room then acc
    else
      let s1 := acc.2.2.putImage nd.num nd.part t (offset + acc.2.1) x.2.1 x.2.2
      (acc.1 + 1, acc.2.1 + room, match x.1 with | some ref => s1.freesOnAck ref | none => s1)) (0, 0, s)
  (r.1, r.2.2)

/-- Stored peer pages that a RELAY's references name. -/
def State.namedPages (s : State) (nd : Node) (b : RelayBody) : List PeerPage :=
  b.pages.filterMap fun p => s.broker.peerPages.find? fun x => x.ref == p.ref.toNat && x.part == nd.part && x.peer == nd.num

/-- Writes the peer's pages that a RELAY's references name into its window, coded or not as the packer's queue allows, each to be freed by its last write's
acknowledgement (R202, R274). -/
def State.moveBack (s : State) (nd : Node) (m : Rx) (b : RelayBody) : Nat × State :=
  let port := s.peerPort nd.num
  let ps := s.namedPages nd b
  let s1 := s.oweAll (ps.map fun x => burstCost (frameGranule (x.frames.headD 0)) nd.part 3 (cdiv x.image.content.length 64))
  s1.putImages nd m.hdr.tenant.toNat b.winOffset.toNat b.winLen.toNat (ps.zipIdx.map fun x =>
    (some x.1.ref, s.wireImage nd.part x.1.image.fmt.toNat x.1.image.valid.toNat
      (memReads s.hbm.mem (frameGranule (x.1.frames.headD 0) * 1024) x.1.image.content.length) port (s.packerQueue port + x.2)))

/-- RELAY kind 1: the pages the references name go back to their owner, each freed when its last write is acknowledged (R274). -/
def execRelayFetchAndMove (m : Rx) (b : RelayBody) (s : State) : Result :=
  .next (s.relayIn m b 1 fun nd s =>
    let r := s.moveBack nd m b
    r.2.answerRelay m 1 .ok r.1 (b.pages.length - r.1) [])

/-- Pages of a holder in layer, head and page order between two positions, with their sequences; none where a page is nowhere to be read (R272, log 47). -/
def State.copied (s : State) (q : Seq) (first stop : Nat) : List (Option (Seq × Page)) :=
  (List.range q.layers).flatMap fun l => q.heads.flatMap fun k =>
    (List.range (cdiv (stop - q.posBase) 64 - (first - q.posBase) / 64)).map fun j =>
      (s.walk q.handle l k ((first - q.posBase) / 64 + j)).bind fun x => x.2.bind fun p => if p.tier == .hbm || p.tier == .flash then some (x.1, p) else none

/-- Stored bytes of a page in HBM or on flash. -/
def State.heldBytes (s : State) (p : Page) : List Byte := if p.tier == .hbm then s.hbmBytes p else s.flashBytes p.frame p.flashPages

/-- What reading a page for a Relay costs, to the relay class (R213, R274). -/
def State.relayReads (s : State) (q : Seq) (p : Page) : List Cost :=
  if p.tier == .hbm then [burstCost p.frame q.part 3 (cdiv p.stored 64)] else s.readCosts p.frame p.flashPages q.part 3

/-- Images of a holder's pages, with their counters, as far as every page can be read. -/
def State.copyPages (s : State) (q : Seq) (port first stop : Nat) : List (Nat × RelayImage) :=
  ((((s.copied q first stop).takeWhile Option.isSome).filterMap id).zipIdx).map fun x =>
    s.relayImage x.1.1 x.1.2 (s.heldBytes x.1.2) port (s.packerQueue port + x.2)

/-- Writes a holder's pages, as far as every one can be read, into the peer's window. -/
def State.copyInto (s : State) (nd : Node) (m : Rx) (b : RelayBody) (q : Seq) : Nat × State :=
  (s.oweAll ((((s.copied q b.firstPos.toNat b.endPos.toNat).takeWhile Option.isSome).filterMap id).flatMap fun x => s.relayReads x.1 x.2)).putImages nd
    m.hdr.tenant.toNat b.winOffset.toNat b.winLen.toNat ((s.copyPages q (s.peerPort nd.num) b.firstPos.toNat b.endPos.toNat).map fun x => (none, x))

/-- RELAY kind 2: the pages of a holder's prefix are copied, and stay in place (R272, R274). -/
def execRelayFetchCopy (m : Rx) (b : RelayBody) (s : State) : Result :=
  .next (s.relayIn m b 2 fun nd s => match s.seq b.handle.toNat with
    | none => s.answerRelay m 2 .notOwner 0 0 []
    | some q =>
      if q.part ≠ nd.part then s.answerRelay m 2 .accessDenied 0 0 []
      else
        let r := s.copyInto nd m b q
        r.2.answerRelay m 2 .ok r.1 ((s.copied q b.firstPos.toNat b.endPos.toNat).length - r.1) [])

/-- Pages of a RELAY whose image arrived with a good tag and decodes, as they are kept: unpacked (R202). -/
def relayGood (b : RelayBody) : List (RelayPage × RelayImage) :=
  (b.pages.zip b.images).filterMap fun x => if x.2.tagOk then (relayBytes x.2).map fun bs => (x.1, keptImage x.2 bs) else none

def relayBadTags (b : RelayBody) : Nat := (b.pages.zip b.images).countP fun x => !x.2.tagOk

/-- New pages take the place of mirrored ones of the same layer, head and index. -/
def joinPages (old : List MirrorPage) (new : List (RelayPage × RelayImage)) : List MirrorPage :=
  (old.filter fun p => !new.any fun x => x.1.layer == p.page.layer && x.1.head == p.page.head && x.1.index == p.page.index) ++
    new.map fun x => { page := x.1, image := x.2 }

/-- RELAY kind 3: pages of a page-mirrored sequence join its mirror record (R268, R274). -/
def execRelayMirror (m : Rx) (b : RelayBody) (s : State) : Result :=
  .next (s.relayIn m b 3 fun nd s =>
    let kept := if (s.mirror nd b.handle.toNat).isSome then (relayGood b).length else 0
    ((s.each (List.range (relayBadTags b)) fun s _ => s.tagFailed nd.part).onMirror nd b.handle.toNat fun y => { y with pages := joinPages y.pages (relayGood b) }).answerRelay
      m 3 .ok kept (b.pages.length - kept) [])

/-! ### RELAY, requester side (R272, R274) -/

/-- Flash-tier pages of a sequence that migration may send. -/
def State.migrable (s : State) (q : Seq) : List Page := q.pages.filter fun p => p.tier == .flash && p.pins == 0 && !s.work.stagings.any fun g => g.page == keyOf q p

/-- Starts a Relay of kind 0 for as many of a sequence's flash pages as the window takes, read for the relay class (R202, R273, R274). -/
def State.sendMigration (s : State) (q : Seq) (peer : Nat) : State :=
  let port := s.peerPort peer
  let r := (s.migrable q).foldl (fun (acc : Nat × List (Page × Nat × RelayImage)) p =>
    let i := s.relayImage q p (s.heldBytes p) port (s.packerQueue port + acc.2.length)
    if s.rw 0x4005 3 0 < acc.1 + imageRoom i.2 || 65536 ≤ acc.2.length then acc else (acc.1 + imageRoom i.2, acc.2 ++ [(p, i)])) (0, [])
  if r.2.isEmpty then s
  else (s.oweAll (r.2.flatMap fun x => s.relayReads q x.1)).relayOut 0 peer q q.handle 0 0 (r.2.map fun x => (keyOf q x.1, 0)) (r.2.map (·.2)) r.1 0 []

/-- A page stored by the peer becomes tier 11 and its flash copy is freed (R68, R274). -/
def State.toPeer (s : State) (k : PageKey) (peer ref : Nat) : State :=
  match s.page k with
  | none => s
  | some p =>
    if p.tier != .flash then s
    else (((s.freeCopy p).onPage k fun x => { x with tier := .peer, frame := peer * 2 ^ 32 + ref, copy := none, frames := [], dirty := false }).note 0x4007 4 0
      (s.counter 0x4007 4 0 + 1))

/-- Kind 0 completed: each page with a reference moves, and migration goes on with what is left. -/
def State.storedAtPeer (s : State) (x : RelayTx) (refs : List W32) : State :=
  let s1 := s.each (x.pages.zip refs) fun s y => if y.2 = 0xFFFFFFFF then s else s.toPeer y.1 x.peer y.2.toNat
  match x.pages.head? with
  | none => s1
  | some k => match s1.seq k.handle with
    | none => s1
    | some q => if refs.length = x.pages.length && !refs.contains 0xFFFFFFFF then s1.sendMigration q x.peer else s1

/-- Kind 1 completed: the page's staging has its image, or fails with reason 9 (R75, R202, R274). -/
def State.fetchedFromPeer (s : State) (x : RelayTx) (images : List RelayImage) : State :=
  s.each (x.stagings.zip (List.range x.stagings.length)) fun s g =>
    match images[g.2]? with
    | none => s.failStaging g.1 9 srcBroker
    | some im =>
      if !im.tagOk then (s.tagFailed x.part).failStaging g.1 9 srcCrypto
      else match relayBytes im with
        | some bs => s.onStaging g.1 fun y => { y with verified := true, image := bs }
        | none => s.failStaging g.1 9 srcCrypto

/-- Leading blocks of a copied prefix whose images are good for every layer and head; the images come in layer, head and page order (log 47). -/
def goodBlocks (n lanes : Nat) (images : List RelayImage) : Nat :=
  ((List.range n).takeWhile fun j => (List.range lanes).all fun l => match images[l * n + j]? with
    | some im => im.tagOk && (relayBytes im).isSome
    | none => false).length

/-- Puts the copied pages into a new retained sequence, inserts its private entries, and links the admission to it in place of its local match (R272). -/
def State.adoptCopy (s : State) (q : Seq) (images : List RelayImage) (n m : Nat) : State :=
  match s.freeSlot q.part with
  | none => s
  | some slot =>
    let g := s.takeGen q.part slot
    let c : Seq := { q with
      gen := g.1, slot := slot, st := .live, truncated := false, unmirrored := true, sealedPos := 0, capacity := max 1 (cdiv m 64), posLimit := 64 * m
      holder := none, leaseGen := 0, link := 0, linkLen := 0, linkDepth := 0, linkers := 0, globalPages := 0, ledger := q.ledger.take (64 * m), acked := 0
      timedOut := 0, frontiers := [], frontierBase := 64 * m, pages := [], ledgerFrames := [], tableFrames := [], tabs := [], lease := .idle
      turn := newTurn 0xFFFF 0 q.turn.svc (64 * m) 0 [] none, chain := none, epochQueue := [], home := none, lastTouch := s.ms, scanned := none
      fixedFrames := fixedNeed q.layers q.heads.length 0 (64 * m) q.fmt }
    let s1 := (g.2.onSeqs fun l => l ++ [c]).fitFixed c.handle
    let lanes := (List.range q.layers).flatMap fun l => q.heads.map fun k => (l, k)
    let r := (lanes.zip (List.range lanes.length)).foldl (fun (acc : Bool × State) (x : (Nat × Nat) × Nat) =>
      (List.range m).foldl (fun (acc : Bool × State) j =>
        match images[x.2 * n + j]? with
        | none => (false, acc.2)
        | some im => match relayBytes im, acc.2.findOpen q.part j (fmtFrames im.fmt.toNat) with
          | some bs, some fs =>
            (acc.1, (acc.2.storePage { handle := c.handle, layer := x.1.1, head := x.1.2, index := j } im.fmt.toNat im.valid.toNat fs bs).owe
              (burstCost (frameGranule (fs.headD 0)) q.part 3 (cdiv bs.length 64)))
          | _, _ => (false, acc.2)) acc) (true, s1)
    if !r.1 then r.2.dropSeq c.handle
    else
      let s2 := (((r.2.onSeq c.handle fun x => { x with sealedPos := 64 * m }).fitFixed c.handle).issueInsertions c.handle 0 (64 * m)).onSeq c.handle fun x => { x with st := .retained }
      let s3 := if q.link = 0 then s2
        else (s2.onSeq q.handle fun x => { x with link := 0, linkLen := 0, linkDepth := 0, sealedPos := x.posBase, frontierBase := x.posBase }).unlink 6 q.link
      ((s3.commitLink q.handle c.handle (64 * m)).onSeq q.handle fun x => { x with turn := { x.turn with prefixCopied := true } }).bump 0x4006 0x0C q.part 1

/-- Kind 2 completed: the copied prefix is used when it still beats the local match by the probe minimum; the admission then goes on (R272). -/
def State.copiedFromHome (s : State) (x : RelayTx) (images : List RelayImage) : State :=
  match s.seq x.forSeq with
  | none => s
  | some q =>
    let n := x.length / 64
    let m := goodBlocks n (q.layers * q.heads.length) images
    let bad := images.countP fun im => !im.tagOk
    let s1 := s.each (List.range bad) fun s _ => s.tagFailed x.part
    (if q.linkLen + s.act 0x4002 9 q.part ≤ 64 * m then s1.adoptCopy q images n m else s1).admitOn x.forSeq

/-- What a finished Relay of each kind leads to. -/
def State.relayDone (s : State) (x : RelayTx) (ok : Bool) (refs : List W32) (images : List RelayImage) : State :=
  match x.kind with
  | 0 => if ok then s.storedAtPeer x refs else s
  | 1 => s.fetchedFromPeer x (if ok then images else [])
  | 2 => s.copiedFromHome x (if ok then images else [])
  | _ => s

/-- RELAY completion (R272 to R274): what each kind leads to; window space is free again. A `FENCED` answer frees what the partner mirrored (R270). -/
def execRelayCompletion (r : Reply) (refs : List W32) (images : List RelayImage) (s : State) : Result :=
  .next (s.reply r AskKind.isRelay fun a s => match a.kind with
    | .relay id => match s.broker.relays.find? (·.id == id) with
      | none => s
      | some x =>
        let s2 := (s.onBroker fun b => { b with relays := b.relays.filter (·.id != id) }).relayDone x (r.status == 0) refs images
        if r.status = 8 && x.pages.all fun k => (s2.seq k.handle).isSome then s2.freedByPartner x.part else s2
    | _ => s)

/-- The rows of the tiles a staging holds end, retryable (R138, R274). -/
def State.releaseWaiting (s : State) (p g : Nat) : State :=
  s.each (s.work.tiles.filter fun t => t.st == .relayed g || t.st == .staged g) fun s t => match s.rowOf t with
    | some (_, r) => if r.status.isNone then (s.endRow t.att t.row .retryLater r.limit).bump 0x2302 0x0F p 1 else s
    | none => s

/-- The relay timeout of a Relay or of a probe: held tiles are released as under R138, and an admission that waited goes on with its local match
(R272, R274). -/
def execRelayTimeout (id : Nat) (s : State) : Result :=
  s.event fun s => match s.broker.relays.find? (·.id == id) with
    | some x =>
      if !s.due x.deadlineUs then s
      else if x.kind = 1 then s.each x.stagings fun s g => s.releaseWaiting x.part g
      else if x.kind = 2 then (s.onBroker fun b => { b with relays := b.relays.filter (·.id != id) }).admitOn x.forSeq
      else s
    | none => match s.broker.asks.find? (·.tag == id) with
      | some a => match a.kind with
        | .probe h => if s.due a.untilUs then (s.onBroker fun b => { b with asks := b.asks.filter (·.tag != id) }).admitOn h else s
        | _ => s
      | none => s

/-! ### PEER_PROBE (R272) -/

/-- PEER_PROBE from a peer: the lookup of R160 for the tenant, without linking (R272). -/
def execPeerProbe (m : Rx) (b : ProbeBody) (s : State) : Result :=
  .next (s.receive m 0x62 .unchecked 0 false fun s =>
    if m.hdr.bodyLen.toNat != 24 + 8 * cdiv b.tokenCount.toNat 2 || b.tokens.length != b.tokenCount.toNat || 65536 < b.tokenCount.toNat || b.headMask == 0 then
      s.answer (reqOf m 0x62) .malformed
    else
      let l := s.newLookup (.probe (reqOf m 0x62)) m.hdr.partition.toNat b.tenant.toNat b.variant.toNat b.headMask.toNat 0 b.tokens true true
      l.2.startLookup l.1).settle

/-- The home's answer to a probe: a match longer by the probe minimum is copied by RELAY kind 2 (R272). -/
def State.probeAnswered (s : State) (h home : Nat) (matched holder : Nat) : State :=
  match s.seq h with
  | none => s
  | some q =>
    let n := min matched ((q.turn.endPos - 1) / 64 * 64) / 64
    let lanes := q.layers * q.heads.length
    if 64 * n < q.linkLen + s.act 0x4002 9 q.part || s.peerLink.isNone then s.admitOn h
    else
      let s1 := s.relayOut 2 home q holder 0 (64 * n) [] [] (lanes * n * (cdiv (48 + rawBytes q.fmt) 64 * 64)) h []
      if s1.admitBusy h then s1.onSeq h fun x => { x with turn := { x.turn with transit := x.turn.transit + lanes * n } } else s1.admitOn h

/-- PEER_PROBE completion (R272). -/
def execPeerProbeCompletion (r : Reply) (matched : BitVec 23) (holder : W64) (s : State) : Result :=
  .next (s.reply r AskKind.isProbe fun a s => match a.kind with
    | .probe h => if r.status = 0 then s.probeAnswered h a.node matched.toNat holder.toNat else s.admitOn h
    | _ => s)

/-- Starts the migration the objects 0x4007 name; false when they name no sequence of the device's lease and registered peer (R274) (log 100). -/
def State.startMigration (s : State) : Bool × State :=
  match s.seq (s.rw 0x4007 1 0), s.node (s.rw 0x4007 2 0) with
  | some q, some nd =>
    if nd.role = 3 && nd.part = q.part && q.holder.isNone && (q.lease == .idle || q.st == .retained) && s.peerLink.isSome then (true, s.sendMigration q nd.num)
    else (false, s)
  | _, _ => (false, s)

end Sys2Proof.Machine
end

