-- ==== Sys2Proof/Machine/PrefixCmds.lean ====
section
/-!
DEFINITION. The Mortise array's own events: insertions, compaction, patrol, and mode moves (R157, R165, R168, R170, R177).
-/
namespace Sys2Proof.Machine

/-- An issued insertion is written and becomes searchable (R165, R167). -/
def execMortiseInsertion (id : Nat) (s : State) : Result :=
  s.event fun s => match s.mortise.insertions.find? (·.id == id) with
    | none => s
    | some x => (s.onMortise fun m => { m with insertions := m.insertions.filter (·.id != id) }).createEntry x.entry x.block x.cls x.holder 0

/-- Background compaction of a bank: the gaps that deletions left are closed, and the order stays (R159, R168, R169). -/
def execMortiseCompaction (bank : Nat) (s : State) : Result :=
  s.event fun s =>
    let slots := (s.bank bank).slots
    s.charged [searchCost 64 7 (cdiv slots.length 8)] fun s => s.setBank bank ((List.range slots.length).zip (slots.map (·.2)))

/-- Patrol reads one entry: a parity error deletes it and is counted and recorded, an old stamp is brought within the window (R170, R177). -/
def execMortisePatrol (bank index : Nat) (parityOk : Bool) (s : State) : Result :=
  s.event fun s => s.charged [searchCost 64 5 1] fun s0 => match (s.bank bank).slots.find? (·.1 == index) with
    | none => s0
    | some (_, e) =>
      if parityOk then
        if s0.stampAge e.stamp ≤ 2 ^ 15 then s0
        else s0.setBank bank (mapIf (·.1 == index) (fun x => (x.1, { x.2 with stamp := (s0.recency + 2 ^ 15) % 65536 })) (s0.bank bank).slots)
      else ((s0.deleteEntry e.part e.payload 64 5).bump 0x2405 3 bank 1).reportUnit (srcBank bank) 0x40 0 0

/-- Entries that lie outside their group under a bank mode: bank and entry. -/
def State.outside (s : State) (mode : Nat) : List (Nat × Entry) :=
  s.mortise.banks.flatMap fun b => (b.slots.filter fun x => !(s.groupBanks x.2.fp mode).contains b.num).map fun x => (b.num, x.2)

/-- A request for a bank mode: at least as large a group as searches use takes effect at once, a smaller one becomes the target of moves (R157). -/
def State.requestBankMode (s : State) (v : Nat) : State :=
  let s1 := s.setRw 0x2401 1 0 v
  if s.mortise.mode ≤ v then s1.onMortise fun m => { m with mode := v, target := none } else s1.onMortise fun m => { m with target := some v }

/-- The last move of a smaller group size has completed: every entry stands in its new group, and searches use it (R157). -/
def execModeMoveComplete (s : State) : Result :=
  s.event fun s => match s.mortise.target with
    | none => s
    | some t =>
      s.charged [searchCost 64 7 (5 * (s.outside t).length)] fun s =>
        (s.each (s.outside t) fun s x =>
          (s.setBank x.1 ((s.bank x.1).slots.filter fun y => !(y.2.part == x.2.part && y.2.payload == x.2.payload))).placeEntry x.2).onMortise fun m =>
            { m with mode := t, target := none }

end Sys2Proof.Machine
end

