-- ==== Sys2Proof/Machine/Reads.lean ====
section
/-!
DEFINITION. What the object dictionary's fields read (R335 to R339, and the object table of each chapter). A field with access `RW` or `RWS` reads what was
written, and a field with access `RO` that is not named here reads its counter.
-/
namespace Sys2Proof.Machine

/-! ### Windows (R337, R338) -/

/-- Value of a selector of a session or of the I3C link. -/
def Access.selector (a : Access) (ix sub : Nat) : Nat := sget a.sel (okey ix sub 0) (((objRow ix sub).map (·.dflt)).getD 0)

/-- Item that the selectors of an index name, in the form its values are kept under. A profile's policer does not depend on the service (0x5022). -/
def Access.item (a : Access) (ix sub : Nat) : Nat :=
  if ix = 0x5022 && 6 ≤ sub then a.selector ix 1 * 65536
  else (selectorsOf ix).foldl (fun n k => n * 65536 + a.selector ix k) 0

/-- Whether a field is reached through a selector that names a unit the configuration does not hold (R4, R18, R337). -/
def State.itemAbsent (s : State) (a : Access) (ix sub : Nat) : Bool :=
  let i := a.item ix sub
  s.dev.part == .as_ && !(selectorsOf ix).contains sub &&
    (if [0x2001, 0x2021].contains ix then 18 ≤ i
    else if ix = 0x2011 then 18 ≤ i / 65536 % 65536
    else if ix = 0x2018 then 18 ≤ i / 65536 / 65536 % 65536
    else if [0x2103, 0x2202, 0x5002, 0x7812].contains ix then 8 ≤ i
    else if ix = 0x2504 then 64 ≤ i
    else if [0x2505, 0x5001].contains ix then 2 ≤ i
    else if [0x5004, 0x5021].contains ix then 8 ≤ i / 65536
    else if ix = 0x5040 then 8192 ≤ i
    else if ix = 0x3009 then 1 ≤ i
    else if ix = 0x3101 then 512 ≤ i
    else if ix = 0x6020 then (6 ≤ i / 65536 && i / 65536 < 12) || i / 65536 = 13
    else ix == 0x2020 || (ix == 0x8000 && sub == 3))

/-! ### Access tables (R317, R318, Tables 10-4 to 10-6) -/

/-- Islands whose budget table's source the targets of 0x6020 were derived from (R40, R318). -/
def targetIsland (t : Nat) : Nat := if t < 12 then stackIsland t else if t = 12 then 15 else if t = 13 then 33 else if t = 14 then 17 else 16

/-- Whether Table 10-6 grants a master access to a target; a flash engine reaches the flash island that is not its own. -/
def granted (t kind idx : Nat) : Bool :=
  if kind = 5 then idx = 0
  else if t < 12 then
    (kind = 1 && idx < 128) || (kind = 2 && idx < 16) || (kind = 3 && idx < 128) || (kind = 4 && idx < 32) || (kind = 6 && idx < 12) || (kind = 7 && idx = 0)
  else if t < 14 then (kind = 1 && idx < 128) || (kind = 4 && idx < 32 && idx / 16 ≠ t - 12)
  else if t = 16 then kind = 3 && idx < 128
  else false

/-- Access entry of a target for a master: its two words (Table 10-5). Shared masters are tagged; a granted master may read and write, the masters that pin
pages may do so at HBM by atomic operations, and the management core and the flash engines reach the device region (log 66). -/
def State.accessEntry (s : State) (t master : Nat) : Nat × Nat :=
  let kind := master / 512
  let idx := master % 512
  let owners := ((s.island (targetIsland t)).map (·.table.owners)).getD []
  let part : Option Nat :=
    if kind = 1 then owners.getD (coreSlice idx) none
    else if kind = 3 then (if owners.contains (some (idx % 64)) then some (idx % 64) else none)
    else none
  let tagged := kind ≠ 1 && kind ≠ 3
  if !granted t kind idx || (!tagged && part.isNone) then (0, 0)
  else
    (if tagged then bitWord 64 fun p => owners.contains (some p) else 0,
      packBits [(1, 1), (1, 1), (1, 1), (1, bit (t < 12 && (kind == 1 || kind == 2 || kind == 5))), (1, bit tagged),
        (1, bit (t < 12 && (kind == 4 || kind == 5))), (6, part.getD 0), (52, 0)])

/-! ### Chapter 1: islands, budgets, the Truss bridge (R42, R43) -/

/-- Use of a class of a row at a resource, of a running period table. -/
def State.readUse (s : State) (item : Nat) : Nat × Nat × Nat × Nat × Option Island :=
  let i := item / 65536 / 65536 % 65536
  (item / 65536 / 65536 / 65536, item / 65536 % 65536, item % 65536, i, s.island i)

def State.readBudget (s : State) (sub item : Nat) : Nat :=
  match s.readUse item with
  | (p, r, c, i, some x) =>
    if x.st == .absent || resourceCount i ≤ r then 0
    else
      let u := useAt x.uses r p c
      [s.budgetOf x.table i r p c, s.ceilingOf x.table i r p c, u.lastUsed, u.lastBorrowed, u.lastLent, u.debt, u.exhausted].getD (sub - 5) 0
  | _ => 0

def State.readIslands (s : State) (ix sub item : Nat) : Option Nat :=
  if ix = 0x2000 then (if sub = 0 then some (if s.dev.part == .al then 34 else 18) else (s.island (sub - 1)).map Island.descriptor)
  else if ix = 0x2001 then (s.island item).bind fun x =>
    (if sub = 2 then some x.clk else if sub = 3 then some (Reset.topClock item) else if sub = 4 then some (minClock item)
    else if sub = 6 then some x.periods else if sub = 7 then some x.lockLosses else none)
  else if ix = 0x2011 && sub = 4 then (s.island (item / 65536 % 65536)).map fun x =>
    if x.st == .absent || resourceCount x.num ≤ item % 65536 then 0 else s.entitlement x.table x.num (item % 65536) (item / 65536 / 65536)
  else if ix = 0x2018 then some (s.readBudget sub item)
  else if ix = 0x2020 && sub = 1 then some (64 - (s.faults.laneGroups - 2))
  else if ix = 0x2020 && sub = 2 then some (min 2 s.faults.laneGroups)
  else none

/-! ### Chapters 2 to 6: sequences, appends, prefixes, formats -/

/-- Flags of the sequence window. -/
def Seq.windowFlags (q : Seq) : Nat := 4 * bit q.winPolicy + 2 * bit q.unmirrored + bit q.truncated

/-- The sequence window reads the copy that the write of the handle took (R79). -/
def readSequence (snap : Option Seq) (sub : Nat) : Nat :=
  match snap with
  | none => if sub = 6 then 0xFFFF else 0
  | some q =>
    [q.st.code, q.windowFlags, q.sealedPos, q.capacity, q.holder.getD 0xFFFF, q.leaseGen, q.link, q.linkLen, q.linkers, q.pagesIn .hbm, q.pagesIn .flash,
      q.pagesIn .peer, q.pagesLost, q.lastTouch].getD (sub - 2) 0

def State.readPartition (s : State) (sub p : Nat) : Option Nat :=
  if sub = 3 then some (s.seqs.countP fun q => q.part == p && q.st != .retained)
  else if sub = 4 then some (s.seqs.countP fun q => q.part == p && q.st == .retained)
  else if sub = 0x0E then some (s.framesInUse p)
  else if sub = 0x0F then some (sumOf (fun e : Extent => if e.part = p then 2048 - e.live else 0) s.hbm.extents)
  else none

/-- Array entry the entry window selects. -/
def State.selectedEntry (s : State) (item : Nat) : Option Entry := ((s.bank (item / 65536)).slots.find? (·.1 == item % 65536)).map (·.2)

/-- Key of an entry: bits [399:224] (Table 5-2). -/
def Entry.keyBits (e : Entry) : Nat := packBits ((e.body.drop 2).take 7)

/-- Care mask of an entry: bits [223:48] (Table 5-2, R153). -/
def Entry.careBits (e : Entry) : Nat := packBits ((e.body.drop 9).take 7)

/-- Chapter 5's fields that are read from state (R178). An entry's fields of a slot that is not valid, for which the reset column gives nothing, read 0 (log 164). -/
def State.readPrefixes (s : State) (ix sub item : Nat) : Option Nat :=
  if ix = 0x2401 && sub = 2 then some s.mortise.mode
  else if ix = 0x2401 && sub = 3 then some ((s.mortise.target.map fun t => (s.outside t).length).getD 0)
  else if ix = 0x2402 && sub = 3 then some (bit (s.publicSalt item).isSome)
  else if ix = 0x2402 && sub = 0x0B then some (sumOf (fun b => bankHeld b item) s.mortise.banks)
  else if ix = 0x2402 && sub = 0x0C then some (s.mortise.second.countP (·.part == item))
  else if ix = 0x2402 && sub = 0x0D then some (s.mortise.records.countP (·.part == item))
  else if ix = 0x2404 && 5 ≤ sub then
    (match s.selectedEntry item with
    | none => some 0
    | some e => some ([e.priority, e.payload, 2 + bit e.moving, e.stamp].getD (sub - 5) 0))
  else if ix = 0x2405 && sub = 2 then some (s.bank item).slots.length
  else if ix = 0x2405 && sub = 3 then some (sumOf (fun b => s.counter 0x2405 3 b) (List.range 64))
  else if ix = 0x2405 && sub = 4 then some (bitWord 64 fun b => s.fenced (srcBank b))
  else if ix = 0x2405 && sub = 5 then some (sumOf (fun p => s.counter 0x2403 2 p) (List.range 64))
  else none

def State.readFormats (s : State) (ix sub item : Nat) : Option Nat :=
  if ix = 0x2500 && 6 ≤ sub then some ([0x3D800000, 0x3E000000, 0x3E400000, 0x3E800000].getD (sub - 6) 0)
  else if ix = 0x2501 && sub = 4 then some (s.packer item).newest
  else if ix = 0x2501 && 5 ≤ sub && sub ≤ 8 then some (s.slotCount item (sub - 5))
  else if ix = 0x2503 then
    some (((((s.packer (item / 65536 / 65536)).slots[item / 65536 % 65536]?).map (·.tables)).getD []).getD (item % 65536) builtInTable)
  else if ix = 0x2505 && sub = 3 then some (s.packerQueue item)
  else none

def State.readState (s : State) (a : Access) (ix sub item : Nat) : Option Nat :=
  if ix = 0x2100 then some (if s.dev.part == .al then 1048576 else 524288)
  else if ix = 0x2101 then s.readPartition sub item
  else if ix = 0x2102 then (if sub = 1 then none else some (readSequence a.seqSnap sub))
  else if ix = 0x2302 && sub = 2 then some (s.reserveLine item)
  else if ix = 0x2302 && sub = 3 then some (s.reserveLeft item)
  else if ix = 0x2302 && sub = 9 then some (s.seqs.countP fun q => q.part == item && q.truncated)
  else if 0x2400 < ix && ix < 0x2500 then s.readPrefixes ix sub item
  else if 0x2500 ≤ ix && ix < 0x2600 then s.readFormats ix sub item
  else none

/-! ### Chapter 7: flash -/

/-- Channels populated on the islands of the configuration. -/
def State.flashChannels (s : State) : Nat := s.flash.channels % 2 ^ (16 * flashIslandCount s.dev.part)

/-- Die groups of the device: channel and die. -/
def State.flashDies (s : State) : List (Nat × Nat) :=
  ((List.range 32).filter s.flashChannels.testBit).flatMap fun c => (List.range s.flash.diesPerChannel).map fun g => (c, g)

/-- Wear used by the most worn block among some blocks, in 1/65,536 of its rating (R214). -/
def State.wearMax (s : State) (mine : Nat → Bool) : Nat :=
  ((s.flash.wearPslc ++ s.flash.wearTlc).map (·.1)).foldl (fun m k => if mine k then max m (s.wear k) else m) 0

/-- Amplification of garbage collection over the last hour (0x3004.09); none where nothing was demoted and pages were copied. -/
def State.amplification (s : State) : Option Nat :=
  let log := s.flash.writeLog.filter fun x => s.us < x.1 + 3600000000
  let d := sumOf (fun x => x.2.1) log
  let c := sumOf (fun x => x.2.2) log
  if c = 0 then some 0x3F800000
  else if d = 0 then none
  else some (encFp32.round ((d + c) * 2 ^ 160 / d) 0)

/-- Whether a block key lies on a die. -/
def keyOnDie (k c g : Nat) : Bool := k / 32768 == blockKey (c / 16) g (c % 16) 0 / 32768

def State.readHealth (s : State) (sub : Nat) : Option Nat :=
  let f := s.flash
  let spares := s.flashDies.map fun d => (s.spares (d.1 / 16) d.2 (d.1 % 16)).length
  let blocks := max 1 (s.flashDies.length * f.blocksPerDie)
  if sub = 1 then some (sumOf id spares)
  else if sub = 2 then some (spares.foldl min (spares.headD 0))
  else if sub = 3 then some (sumOf (·.2) f.wearPslc / blocks)
  else if sub = 4 then some (f.wearPslc.foldl (fun m x => max m x.2) 0)
  else if sub = 5 then some f.ratingPslc
  else if sub = 6 then some (sumOf (·.2) f.wearTlc / blocks)
  else if sub = 7 then some (f.wearTlc.foldl (fun m x => max m x.2) 0)
  else if sub = 8 then some f.ratingTlc
  else if sub = 9 then some (s.wearMax fun _ => true)
  else if sub = 0x0E then
    some (((List.range 32).countP fun c => s.fenced (srcNand c)) * 65536 + (List.range 1024).countP fun d => s.fenced (srcDie d))
  else none

def State.readDie (s : State) (sub d : Nat) : Option Nat :=
  let c := d / 32
  let g := d % 32
  let here := s.flashChannels.testBit c && g < s.flash.diesPerChannel
  if !here then some 0
  else if sub = 2 then some (if s.dieFenced d then 3 else if s.strays.any fun x => x.1.dieOf x.2.slot == d then 4 else 1)
  else if sub = 3 then some (s.spares (c / 16) g (c % 16)).length
  else if sub = 4 then some (s.flash.retired.countP fun k => keyOnDie k c g)
  else if sub = 5 then some (s.wearMax fun k => keyOnDie k c g)
  else if sub = 6 then some (((((s.fisland (d / 512)).map (fun x : FlashIsland => x.temps)).getD []).getD (d % 512) 0 / 10) % 2 ^ 32).toNat
  else none

def State.readFlash (s : State) (ix sub item : Nat) : Option Nat :=
  let f := s.flash
  let isl := s.fisland item
  if ix = 0x3000 then
    (if sub = 6 then none else some ([flashIslandCount s.dev.part, s.flashChannels, f.diesPerChannel, f.pagesPerBlock, f.blocksPerDie, f.dataRate].getD sub 0))
  else if ix = 0x3001 && sub = 1 then some (s.flashDies.length * f.blocksPerDie * f.pagesPerBlock * 16384)
  else if ix = 0x3001 && sub = 3 then some (s.exported s.objs.active)
  else if ix = 0x3001 && sub = 5 then some (sumOf s.quotaUsed (List.range 64))
  else if ix = 0x3001 && sub = 6 then some (sparesPerDie f)
  else if ix = 0x3002 && sub = 1 then some f.coarse.length
  else if ix = 0x3002 && sub = 4 then some f.fine.length
  else if ix = 0x3004 && sub = 9 then s.amplification
  else if ix = 0x3007 && sub = 2 then some (s.flashQuota item)
  else if ix = 0x3007 && sub = 3 then some (s.quotaUsed item)
  else if ix = 0x3007 && sub = 4 then some (bit (s.quotaFull item))
  else if ix = 0x3008 && sub = 1 then some f.secure.length
  else if ix = 0x3009 && sub = 2 then isl.map fun x => if x.disabled then 3 else bit x.readOnly
  else if ix = 0x3009 && sub = 3 then some (s.sbsFree item false)
  else if ix = 0x3009 && sub = 4 then some (s.sbsFree item true)
  else if ix = 0x3009 && sub = 5 then some (f.sbs.countP fun b => b.island == item && b.width == 15)
  else if ix = 0x3009 && sub = 6 then isl.map (·.wseq)
  else if ix = 0x3009 && sub = 7 then (s.island (flashNum item)).map (·.throttle)
  else if ix = 0x300A then some (f.times.getD (sub - 1) 0)
  else if ix = 0x3100 then s.readHealth sub
  else if ix = 0x3101 then s.readDie sub item
  else if ix = 0x3103 && sub = 2 then some (sumOf (fun x : FlashIsland => sget x.tempSeconds item 0) f.islands / 3600)
  else none

/-! ### Chapters 8 and 9: nodes and the network -/

def State.readNode (s : State) (sub n : Nat) : Option Nat :=
  match s.node n with
  | none => if sub = 2 then some (s.counter 0x4004 2 n) else some 0
  | some x =>
    some ([1, x.role, x.part, x.ident, (s.nodeQps n).length, s.leases n, x.queued, x.active, x.lastMs, x.accepted, x.refused].getD (sub - 2) 0)

def QpState.code : QpState → Nat
  | .connecting => 1 | .connected => 2 | .error => 3

def State.readQp (s : State) (sub n : Nat) : Option Nat :=
  match s.qp n with
  | none => if sub = 6 then some 0xFFFF else some 0
  | some q =>
    if 9 ≤ sub then none
    else some ([q.st.code, q.part, q.lp, q.mode, q.node.getD 0xFFFF, q.mtu, q.rc / 1000000].getD (sub - 2) 0)

def State.readNet (s : State) (ix sub item : Nat) : Option Nat :=
  let al := s.dev.part == .al
  if ix = 0x4004 then s.readNode sub item
  else if ix = 0x5000 && sub = 0 then some (if al then 16 else 8)
  else if ix = 0x5000 && sub = 1 then some (if al then 16384 else 8192)
  else if ix = 0x5000 && sub = 2 then some (if al then 8192 else 4096)
  else if ix = 0x5001 && sub = 3 then some (s.net.modes.getD item 0)
  else if ix = 0x5002 && sub = 2 then some (((s.net.lps.find? (·.num == item)).map (·.link)).getD 4)
  else if ix = 0x5003 && sub = 5 then some (s.net.qps.countP (·.part == item))
  else if ix = 0x5003 && sub = 6 then some (s.net.rings.countP (·.part == item))
  else if ix = 0x5021 && sub = 7 then
    (s.net.lps.find? (·.num == item / 65536)).map fun p =>
      ((((p.services[item % 65536]?).map (fun b : Bucket => b.atStart)).getD 0 / 2 ^ 24) % 2 ^ 32).toNat
  else if ix = 0x5040 then s.readQp sub item
  else none

/-! ### Chapter 10: partitions and security -/

def SliceState.code : SliceState → Nat
  | .absent => 0 | .unassigned => 1 | .assigned => 2 | .draining => 3 | .zeroing => 4

/-- Partition state, 0x6400 + p.01: losing slices while some of its slices drain, being removed while all of them do. -/
def State.partitionState (s : State) (p : Nat) : Nat :=
  let own := s.slicesOf p
  if own.isEmpty then bit (s.epochs.slices.any fun x => x.joins == some p)
  else if own.all (·.st == .draining) then 3 else if own.any (·.st == .draining) then 2 else 1

def State.readEpochs (s : State) (sub : Nat) : Option Nat :=
  let e := s.epochs
  if sub = 0 then some (sliceCount s.dev.part)
  else if sub = 1 then some e.active
  else if sub = 2 then some (bit e.prev.isSome)
  else if sub = 3 then some (e.prev.getD 0)
  else if sub = 4 then some (if e.prev.isSome then s.requestsUnder (fun x => x != e.active)
      + s.mortise.jobs.countP fun j => ((s.seq j.handle).map fun q => q.epoch != e.active).getD false else 0)
  else if sub = 6 then some e.lastCommitMs
  else if sub = 7 then some e.accepted
  else if sub = 8 then some e.refuseReason
  else if sub = 9 then some e.refuseDetail
  else if sub = 0x0A then some e.aborted
  else none

def AttState.code : AttState → Nat
  | .closed => 0 | .awaitFinish => 1 | .open_ => 2 | .failed => 3

def State.readSecurity (s : State) (ix sub item : Nat) : Option Nat :=
  if ix = 0x6000 then s.readEpochs sub
  else if ix = 0x6013 then (s.sliceOf (sub - 1)).map (·.st.code)
  else if ix = 0x6014 then (s.sliceOf (sub - 1)).map fun x => x.owner.getD 255
  else if ix = 0x6020 && sub = 3 then some (s.accessEntry (item / 65536) (item % 65536)).1
  else if ix = 0x6020 && sub = 4 then some (s.accessEntry (item / 65536) (item % 65536)).2
  else if ix = 0x6020 && sub = 5 then some (s.counter 0x6020 5 (item / 65536))
  else if ix = 0x6030 && sub = 1 then some s.sec.cache.length
  else if ix = 0x6030 && sub = 3 then some s.sec.keys.length
  else if ix = 0x6031 && sub = 3 then some (s.keyState (item / 65536) (item % 65536))
  else if ix = 0x6031 && sub = 4 then some (((s.tenantKey (item / 65536) (item % 65536)).map (·.keyId)).getD 0)
  else if ix = 0x6031 && sub = 5 then some (((s.tenantKey (item / 65536) (item % 65536)).map (·.releasedMs)).getD 0)
  else if ix = 0x6040 && sub = 4 then (s.att item).map (·.st.code)
  else if ix = 0x6040 && sub = 5 then (s.att item).map (·.part)
  else if ix = 0x6040 && sub = 8 then some (s.counter 0x6040 8 0)
  else if ix = 0x6050 then some (bit s.dev.manufacturing)
  else if ix = 0x6060 && sub = 1 then some s.power.congestion
  else if ix = 0x6070 && sub = 3 then some (((s.sec.links.find? (·.peer == item)).map (·.st)).getD 0)
  else if 0x6400 ≤ ix && ix < 0x6440 then
    (let p := ix - 0x6400
    if sub = 1 then some (s.partitionState p)
    else if sub = 4 then some (s.sliceMask p)
    else if sub = 0x30 then some (s.flashQuota p)
    else if sub = 0x31 then some (s.sec.keys.countP (·.part == p))
    else none)
  else none

/-! ### Chapters 11 to 13: management, faults, power, reset -/

/-- Subindices of window items and plain objects whose shadow value differs from the active one (0x1100.03). -/
def State.differences (s : State) : Nat :=
  let val := fun (m : SMap) (k : Nat) => s.inMap m (k / 256 % 65536) (k % 256) (k / 2 ^ 24)
  (((s.objs.active ++ s.objs.shadow).map (·.1)).foldl insNat []).countP fun k => val s.objs.active k != val s.objs.shadow k

def Acc.code : Acc → Nat
  | .ro => 0 | .rw => 1 | .rws => 2 | .wo => 3 | .const => 4

/-- The directory (0x1101.03 to .06, .08): subindex 0x00 of an index whose table gives none is a U8 that reads the highest subindex (R335). -/
def State.readDirectory (s : State) (sub ix k : Nat) : Nat :=
  if sub = 8 then nextIndex ix
  else match objRow ix k with
  | some r =>
    let absent := s.dev.part == .as_ && (ix == 0x2020 || ix == 0x2000 && 18 < k || (ix == 0x8000 && k == 3)
      || [0x6010, 0x6011, 0x6012, 0x6013, 0x6014].contains ix && 32 < k)
    [if absent then 2 else 1, r.ty, r.acc.code, r.len % 65536].getD (sub - 3) 0
  | none => if k = 0 && objIndex ix then [1, 1, 0, 1].getD (sub - 3) 0 else 0

def State.credOf (s : State) (n : Nat) : Option Cred := s.mgmt.creds.find? (·.num == n)

def State.sessionIn (s : State) (n : Nat) : Option Session := s.mgmt.sessions.find? (·.slot == n)

def State.readCredential (s : State) (sub n : Nat) : Option Nat :=
  (s.credOf n).bind fun c =>
    if sub = 3 then some c.role else if sub = 4 then some (bit c.enabled) else if sub = 7 then some c.lastAuth else if sub = 8 then some c.failures
    else if sub = 9 then some c.lockedUntil else none

def State.readSession (s : State) (sub n : Nat) : Option Nat :=
  match s.sessionIn n with
  | none => some ([0, 0xFF, 0xFF, 0, 0, 0].getD (sub - 2) 0)
  | some x => some ([2, x.cred, x.role, x.address, x.openedMs, x.requests].getD (sub - 2) 0)

def State.readIdentity (s : State) (ix sub : Nat) : Option Nat :=
  if ix = 0x1000 then
    (if sub = 5 then some (if s.dev.part == .al then 0 else 1) else if sub = 7 then some Config.romVersion else if sub = 8 then some s.runningVersion
    else if sub = 9 then some (Config.woenoVersion s.runningVersion) else none)
  else if ix = 0x1002 && sub = 1 then some Config.endorsement.length
  else if ix = 0x1010 then some ([s.clock.tod, bit s.clock.written, s.us / 1000, s.clock.writes].getD (sub - 1) 0)
  else none

def State.readMgmt (s : State) (a : Access) (slot : Option Nat) (ix sub item : Nat) : Option Nat :=
  if ix < 0x1100 then s.readIdentity ix sub
  else if ix = 0x1100 && sub = 3 then some s.differences
  else if ix = 0x1100 && sub = 4 then some ((s.objs.reservation.map (·.1)).getD 0xFF)
  else if ix = 0x1100 && sub = 5 then some (((slot.bind s.sessionIn).map fun x => x.lastCommit.code).getD 0)
  else if ix = 0x1101 && sub ≠ 7 && 3 ≤ sub then some (s.readDirectory sub (a.selector 0x1101 1) (a.selector 0x1101 2))
  else if ix = 0x1210 then s.readCredential sub item
  else if ix = 0x1211 && sub ≠ 1 then s.readSession sub item
  else if ix = 0x1220 && sub = 2 then some s.mgmt.i3cAddr
  else none

/-- Source state, 0x7030.02; a return ends with the command that asks for it, so no source reads as returning. -/
def State.sourceState (s : State) (c : Nat) : Nat :=
  if !isSource c || !s.unitPresent c then 0 else if s.fenced (canonUnit c) then 2 else 1

def Input.code (i : Input) : Nat := if i.stuck then 2 else if i.chatter then 3 else bit i.active

def State.readFaults (s : State) (ix sub item : Nat) : Option Nat :=
  if ix = 0x7000 then some ([s.summary, s.faults.seqno, s.faults.alive].getD (sub - 1) 0)
  else if ix = 0x7010 && sub = 4 then some s.faults.seqno
  else if ix = 0x7010 && sub = 6 then some (s.counter 0x7010 6 0)
  else if ix = 0x7030 && sub = 2 then some (s.sourceState item)
  else if ix = 0x7040 then some s.unmet
  else if ix = 0x7050 && sub = 2 then some (((s.faults.inputs[item]?).map Input.code).getD 0)
  else if ix = 0x7050 && sub = 4 then some (((s.faults.inputs[item]?).map (·.assertions)).getD 0)
  else if ix = 0x7100 && sub = 4 then some (((s.faults.fences.find? (·.source == canonUnit item)).map (·.since)).getD 0)
  else if ix = 0x7101 && sub = 4 then
    some (4 - (s.hbm.lanesUsed.foldl (fun m x => if s.diePresent (x.1 / 192) then max m x.2 else m) 0))
  else none

/-- Meter window: the copy that the write of the tenant selector took, or the record itself before the first such write (R385). Energy is kept in pJ
(log 19, 127). -/
def State.readMeter (s : State) (a : Access) (field : Nat) : Nat :=
  if a.sel.any (·.1 == okey 0x8010 2 0) then sget a.meterSnap field 0
  else sget s.meters.live (meterKey (a.selector 0x8010 1) (a.selector 0x8010 2) field) 0

def State.readTelemetry (s : State) (a : Access) (ix sub : Nat) : Option Nat :=
  let t := s.power.telemetry
  if ix = 0x8000 then
    some ([t.power.toNat, (t.dieTemps.getD 0 0).toNat, (t.dieTemps.getD 1 0).toNat, t.stackTemp.toNat, bit s.power.thermal + 2 * s.safeCauses, s.power.energyJ].getD
      (sub - 1) 0)
  else if ix = 0x8010 && 3 ≤ sub then
    some (if sub = 0x23 then s.meters.lastSave else if sub = 0x12 then s.readMeter a 63 / 1000000 else s.readMeter a sub)
  else if ix = 0x8011 && sub = 2 then some (s.readMeter a (64 + a.selector 0x8011 1))
  else none

/-- Cluster power state, 0x7812.02. -/
def State.clusterPower (s : State) (c : Nat) : Nat :=
  match s.islandSt (clusterIsland c) with
  | .absent => 0
  | .fenced => 3
  | .resetting => 4
  | .gated => if s.power.waking.any (·.1 == c) then 6 else if s.power.heldOff.contains c then 5 else 2
  | _ => if s.clusterFenced c then 3 else 1

def State.readPower (s : State) (ix sub item : Nat) : Option Nat :=
  if ix = 0x7802 && sub = 3 then some (s.boxStatus (item / 65536) (item % 65536))
  else if ix = 0x7810 && sub = 1 then some s.powerLevel
  else if ix = 0x7810 && sub = 3 then some s.safeCauses
  else if ix = 0x7812 && sub = 2 then some (s.clusterPower item)
  else if ix = 0x7812 && sub = 3 then some (bit (s.power.heldOff.contains item))
  else if ix = 0x7812 && sub = 4 then some (sget s.power.gatings item 0)
  else if ix = 0x7812 && sub = 5 then some (sget s.power.wakes item 0)
  else if ix = 0x7820 then some ([0, s.dev.lastReset, s.dev.resetInProgress, 0, bit (s.dev.phase == .shutDown), s.dev.deviceResets].getD (sub - 1) 0)
  else if ix = 0x7830 then some ([s.dev.bootStep, s.dev.failedStep, s.dev.bootSource, s.dev.bootDuration].getD (sub - 1) 0)
  else if ix = 0x7840 && sub = 1 then some s.fw.active
  else if ix = 0x7840 && sub = 2 then some s.fw.pending
  else if ix = 0x7840 && sub = 3 then some s.fw.pendingVersion
  else if ix = 0x7840 && sub = 8 then some s.fw.lastMs
  else none

/-! ### Values as bytes (R335, Table 11-1) -/

/-- UTF-8 bytes of a character. -/
def utf8 (c : Char) : List Byte :=
  let n := c.toNat
  if n < 0x80 then [BitVec.ofNat 8 n]
  else if n < 0x800 then [BitVec.ofNat 8 (0xC0 + n / 64), BitVec.ofNat 8 (0x80 + n % 64)]
  else [BitVec.ofNat 8 (0xE0 + n / 4096), BitVec.ofNat 8 (0x80 + n / 64 % 64), BitVec.ofNat 8 (0x80 + n % 64)]

/-- Bytes of a text. -/
def textBytes (t : String) : List Byte := t.toList.flatMap utf8

/-- Fields of type `OCTETS` and `STRING` that are not kept as written. -/
def State.octets (s : State) (a : Access) (ix sub item : Nat) : Option (List Byte) :=
  if ix = 0x1000 then
    (if sub = 1 then some (textBytes "Crawico") else if sub = 2 then some (textBytes "HN4812")
    else if sub = 3 then some (textBytes (if s.dev.part == .al then "HN4812-AL" else "HN4812-AS"))
    else if sub = 4 then some (textBytes "A1") else if sub = 6 then some (hash64 identityKey) else none)
  else if ix = 0x1001 then some identityKey
  else if ix = 0x1002 && sub = 2 then some Config.endorsement
  else if ix = 0x1101 && sub = 7 then some (textBytes (((objRow (a.selector 0x1101 1) (a.selector 0x1101 2)).map (·.name)).getD ""))
  else if ix = 0x1200 && sub = 1 then some (beBytes 6 Config.macAddress)
  else if ix = 0x1210 && sub = 2 then (s.credOf item).map (·.key)
  else if ix = 0x1210 && sub = 5 then (s.credOf item).map (·.label)
  else if ix = 0x1210 && sub = 6 then (s.credOf item).map fun c => if c.key.all (· == 0) then [] else hash64 (fixed 1952 c.key)
  else if ix = 0x2404 && sub ≤ 4 then
    some (((s.selectedEntry item).map fun e =>
      if s.act (0x6400 + e.part) 2 0 = 1 then [] else beBytes 22 (if sub = 3 then e.keyBits else e.careBits)).getD [])
  else if ix = 0x6040 && sub = 3 then (s.att item).map (·.out)
  else if ix = 0x7802 && sub = 4 then some (s.boxBytes (item / 65536) (item % 65536))
  else if 0x6400 ≤ ix && ix < 0x6440 && sub = 7 then some (s.keyAuthorityHash (ix - 0x6400))
  else if ix = 0x7010 && sub = 2 then some (((s.faults.history[item]?).map fun r => wordBytes r.words).getD [])
  else if ix = 0x7010 && sub = 3 then some ((s.faults.firstError.map fun r => wordBytes r.words).getD [])
  else if ix = 0x7101 && sub = 1 then some (bitBytes 16 s.coreFenced)
  else if ix = 0x7101 && sub = 2 then some (bitBytes 48 s.channelFenced)
  else if ix = 0x7101 && sub = 3 then some (bitBytes 128 s.fencedSet.die)
  else none

/-- Number a field reads. -/
def State.number (s : State) (a : Access) (slot : Option Nat) (r : ObjRow) (ix sub item : Nat) : Nat :=
  let computed :=
    if ix < 0x2000 then s.readMgmt a slot ix sub item
    else if ix < 0x2100 then s.readIslands ix sub item
    else if ix < 0x3000 then s.readState a ix sub item
    else if ix < 0x4000 then s.readFlash ix sub item
    else if ix < 0x6000 then s.readNet ix sub item
    else if ix < 0x7000 then s.readSecurity ix sub item
    else if ix < 0x7800 then s.readFaults ix sub item
    else if ix < 0x8000 then s.readPower ix sub item
    else s.readTelemetry a ix sub
  match computed with
  | some v => v
  | none => match r.acc with
    | .rw => s.rw ix sub item
    | .rws => s.shadow ix sub item
    | .ro => s.counter ix sub item
    | _ => s.dflt ix sub item

/-- Fields whose value the model does not compute: how many values each may take, 0 for all of its type (log 68). -/
def State.openField (s : State) (ix sub : Nat) : Option Nat :=
  if ix = 0x1200 && sub = 3 then some 3
  else if ix = 0x3002 && sub = 7 then some 1537
  else if ix = 0x3004 && sub = 9 && s.amplification.isNone then some 0
  else none

/-- Whether an address lies in a partition's own HBM: its slices' channels, or its prefix tables (log 145). -/
def State.ownedBy (s : State) (p a : Nat) : Bool :=
  if mortiseBase 0 ≤ a then (a - mortiseBase 0) / 2 ^ 32 == p && (0 < (s.slicesOf p).length)
  else (s.sliceOf (channelSlice (a / channelBytes))).bind (·.owner) == some p

/-- Content of a granule for the inspection window (0x6051.03), by device physical address: a partition's pages, tables and ledgers, its prefix tables, and the
flash maps of the device region, partition 64. What else the device region holds, and what decrypting another partition's memory gives, are free values
(log 69, 145, 149). -/
def State.granule (s : State) (a : Access) : List Byte × State :=
  let at_ := a.selector 0x6051 2 * 1024
  let p := a.selector 0x6051 1
  let bytes := fun (f : Nat → Byte) => (List.range 1024).map fun j => f (at_ + j)
  if p = 64 && mapBase 0 ≤ at_ && at_ < mapBase 2 then (bytes fun x => leByte (s.mapWord x) (x % 8), s)
  else if p = 64 || !s.ownedBy p at_ then s.randomBytes 1024
  else if mortiseBase 0 ≤ at_ then (bytes fun x => leByte (s.mortiseWord x) (x % 8), s)
  else (bytes s.hbmByte, s)

/-- Value of a field as Table 11-1 carries it, and the state that has given it: a field the model leaves open draws a free value (log 122, 126). -/
def State.valueOf (s : State) (a : Access) (slot : Option Nat) (r : ObjRow) (ix sub : Nat) : List Byte × State :=
  let item := a.item ix sub
  if (selectorsOf ix).contains sub then (beBytes r.len (a.selector ix sub), s)
  else if s.itemAbsent a ix sub then (beBytes r.len (if ix = 0x5002 && sub = 2 then 4 else 0), s)
  else if ix = 0x6051 && sub = 3 then s.granule a
  else if ix = 0x6041 && sub = 3 then (s.attReport 0 (a.selector 0x6041 2) s.sec.nonce [], s)
  else match s.octets a ix sub item with
  | some bs => (fixed r.len bs, s)
  | none => match s.openField ix sub with
    | some 0 => (beBytes r.len (s.free).1.toNat, (s.free).2)
    | some n => (beBytes r.len ((s.free).1.toNat % n), (s.free).2)
    | none => (beBytes r.len (s.number a slot r ix sub item), s)

/-- What a read changes: counts "since the last read" start again, and reading the last byte of a kind-0 message takes it (R391). -/
def State.afterRead (s : State) (a : Access) (ix sub : Nat) (last : Bool) : State :=
  let item := a.item ix sub
  if (ix == 0x2502 && sub == 9) || (ix == 0x2302 && sub == 0x0C) || (ix == 0x3008 && sub == 3) then s.note ix sub item 0
  else if ix = 0x2202 && sub = 0x12 then s.note ix sub item (s.work.tiles.countP fun t => t.core / 8 == item)
  else if ix = 0x7802 && sub = 4 && last then s.operatorTake (item / 65536) (item % 65536)
  else s

end Sys2Proof.Machine
end

