-- ==== Sys2Proof/Machine/Returns.lean ====
section
/-!
DEFINITION. Fencing by the administrator, and units that return (R218, R376, R377).
-/
namespace Sys2Proof.Machine

/-- Sources the fence window accepts (R376). -/
def fenceable (c : Nat) : Bool :=
  c < 0x090 || (0x0A0 ≤ c && c ≤ 0x0C1 && c != 0x0B0) || (0x100 ≤ c && c < 0x28C) || (0x290 ≤ c && c < 0x2A0) || (0x2B0 ≤ c && c < 0x2B4)
    || (0x2C0 ≤ c && c < 0x2E0) || (0x400 ≤ c && c ≤ 0x840) || c == 0x850

/-- Kinds whose reaction fences a unit of this sort; the spec does not say which of them records a failed return test (log 71). -/
def testKinds (u : Nat) : List Nat :=
  if u < 0x080 then [0x01, 0x02, 0x35, 0x36] else if u < 0x090 then [0x01, 0x02, 0x36] else if u < 0x280 then [0x04, 0x05, 0x07, 0x36]
  else if u < 0x290 then [0x08, 0x36] else if u < 0x400 then [0x16, 0x36] else [0x11, 0x15, 0x17, 0x36]

/-- A return test fails: the unit stays fenced, and the attempt is recorded (R377). -/
def State.failReturn (s : State) (u : Nat) : State :=
  (s.free).2.collectUnit u ((testKinds u).getD ((s.free).1.toNat % (testKinds u).length) 0x36) 0 none

/-- A channel is given new keys and zeroed (R377, R313). -/
def State.freshChannel (s : State) (ch : Nat) : State :=
  ((s.fresh).2.onEpochs fun e => { e with hbmKeys := sset e.hbmKeys (128 + ch) (s.fresh).1 }).onHbm fun h =>
    { h with mem := memZero h.mem (ch * channelBytes) channelBytes }

/-- An island of a die that runs comes back, under the newest budget table (R40, R377). -/
def State.restartIsland (s : State) (i : Nat) : State :=
  if islandDie i = 1 && s.fenced srcBridge then s
  else s.markIslands [i] .running

/-- Dies of a NAND channel or die source. -/
def dieOn (u d : Nat) : Bool := if u < 0x400 then d / 32 == u - 0x2C0 else d == u - 0x400

/-- Die of a slot. -/
def State.slotDie (s : State) (i sb slot : Nat) : Option Nat := (s.sb i sb).map fun b => b.dieOf slot

/-- Whether a copy of a page on some dies is under way: the fence is still settling (R217, R376). -/
def State.settling (s : State) (mine : Nat → Bool) : Bool :=
  s.flash.pages.any fun y => !y.confirmed && (match y.why with
    | .relocate sb slot => ((s.slotDie y.island sb slot).map mine).getD false
    | .relocateUnit sb slot => ((s.slotDie y.island sb slot).map mine).getD false
    | _ => false)

/-- A unit returns, its test passed. -/
def State.returned (s : State) (u : Nat) : State :=
  if u < 0x080 then s.unfence (· == u)
  else if u < 0x090 then
    ((s.unfence (· == u)).restartIsland (clusterIsland (u - 0x080))).clusterBack (u - 0x080)
  else if u < 0x280 then (s.freshChannel (u - 0x100)).unfence (· == u)
  else if u < 0x290 then
    ((s.each ((List.range 32).map (32 * (u - 0x280) + ·)) fun s ch => s.freshChannel ch).unfence (· == u)).restartIsland (stackIsland (u - 0x280))
  else (s.staleDies (dieOn u)).unfence (· == u)

/-- A write of 0x7100.03 TRUE (R376): `passes` is the return test's outcome, a free value where no command says it (log 61, 123). -/
def State.returnUnit (s : State) (c : Nat) (passes : Option Bool) : DStatus × State :=
  let u := canonUnit c
  let t := match passes with
    | some p => (p, s)
    | none => ((s.free).1.toNat % 2 == 1, (s.free).2)
  if !s.fenced u then (.ok, s)
  else if 0x290 ≤ u && u < 0x2A0 then (.ok, s.linkReset ((u - 0x290) / 4))
  else if 0x2B0 ≤ u && u < 0x2B4 then (.ok, s.linkReset (u - 0x2B0))
  else if (0x090 ≤ u && u < 0x100) || 0x800 ≤ u then (.outOfRange, s)
  else if 0x2C0 ≤ u && s.settling (dieOn u) then (.busy, s)
  else if t.1 then (.ok, t.2.returned u) else (.ok, t.2.failReturn u)

end Sys2Proof.Machine
end

