-- ==== Sys2Proof/Machine/Writes.lean ====
section
/-!
DEFINITION. What writes to the object dictionary do: rights, ranges, segments, and the effect of each object that acts (R336 to R347, and the object table of
each chapter).
-/
namespace Sys2Proof.Machine

/-- Who reaches the dictionary: a management session by its slot, or the I3C link (R337, R355). -/
inductive Via where
  | session (slot : Nat)
  | i3c
  deriving DecidableEq, Repr

/-- Session slot of the writer; the I3C link has none. -/
def Via.slot : Via → Option Nat
  | .session n => some n
  | .i3c => none

def State.onSession (s : State) (n : Nat) (f : Session → Session) : State :=
  s.onMgmt fun m => { m with sessions := mapIf (·.slot == n) f m.sessions }

/-- Selectors, held value and segment buffer of the writer. -/
def State.access (s : State) (v : Via) : Access :=
  match v with
  | .session n => ((s.sessionIn n).map (·.acc)).getD Reset.access
  | .i3c => s.mgmt.i3c

def State.onAccess (s : State) (v : Via) (f : Access → Access) : State :=
  match v with
  | .session n => s.onSession n fun x => { x with acc := f x.acc }
  | .i3c => s.onMgmt fun m => { m with i3c := f m.i3c }

/-- Role of the writer: 0 administrator, 1 monitor, 2 service, 3 the I3C link. -/
def State.roleOf (s : State) (v : Via) : Nat :=
  match v with
  | .session n => ((s.sessionIn n).map (·.role)).getD 1
  | .i3c => 3

/-! ### Rights (Tables 11-4 and 11-8) -/

/-- Whether an object is reached: over I3C those of Table 11-8, by the boot ROM or by the firmware (R355, R356); in a session all, and from a boot ROM that
waits for an image four indices (R405). -/
def State.reaches (s : State) (via : Via) (ix sub : Nat) : Bool :=
  match via with
  | .session _ => s.managed || (s.dev.phase == .awaitingImage && [0x1000, 0x1200, 0x7830, 0x7840].contains ix)
  | .i3c =>
    [0x1000, 0x1001, 0x1200, 0x1220, 0x7000, 0x7820, 0x7830].contains ix || (ix == 0x1010 && sub == 1)
      || (s.managed && [0x1210, 0x7810, 0x7840, 0x8000].contains ix)

/-- Whether a role may write a field (R347); over I3C, Table 11-8 (log 72). -/
def mayWriteField (role ix sub : Nat) (acc : Acc) : Bool :=
  if role = 3 then
    ix == 0x1010 || ix == 0x1200 || ix == 0x1210 || (ix == 0x1220 && sub == 4) || (ix == 0x7820 && (sub == 1 || sub == 4))
  else if (selectorsOf ix).contains sub && !(ix == 0x6051 && sub == 2) then true
  else if acc = .rws then role == 0
  else if role = 0 then ix != 0x6051 && ix != 0x6052
  else if role = 1 then (ix == 0x6040 && [2, 6].contains sub) || (ix == 0x6041 && sub == 1)
  else ix == 0x6051 || ix == 0x6052

/-- Whether the shadow set is reserved against a writer (R342). -/
def State.reserved (s : State) (v : Via) : Bool :=
  match s.objs.reservation with
  | some (n, _) => v.slot != some n
  | none => false

/-! ### Ranges that depend on more than their row -/

def isPow2 (n : Nat) : Bool := n != 0 && (n &&& (n - 1)) == 0

/-- Watermarks h > l > c of a pool, as the shadow set would hold them (0x3004). -/
def State.marksOk (s : State) (sub v : Nat) : Bool :=
  let base := if sub ≤ 3 then 1 else 4
  let w := fun (k : Nat) => if k = sub then v else s.shadow 0x3004 k 0
  w (base + 1) < w base && w (base + 2) < w (base + 1) && (if base = 1 then 16 else 4) ≤ w (base + 2)

/-- Whether a number is in the range of its owning table (R336). -/
def State.inRange (s : State) (a : Access) (r : ObjRow) (ix sub item v : Nat) : Bool :=
  (r.also.contains v || (r.lo ≤ v && v ≤ r.hi)) &&
    (if ix = 0x2001 && sub = 5 then minClock item ≤ v && v ≤ Reset.topClock item
    else if (ix = 0x2011 || ix = 0x2018) && sub = 3 then v < resourceCount (a.selector ix 2)
    else if ix = 0x2011 && sub = 5 then
      v = 0 || (let i := item / 65536 % 65536; let res := item % 65536
        (islandKind i = 0 && res = 0) || islandKind i = 4 || islandKind i = 5)
    else if ix = 0x2201 && sub = 2 then v % 64 = 0
    else if ix = 0x2402 && sub = 8 then v = 0 || isPow2 v
    else if ix = 0x3004 then s.marksOk sub v
    else if ix = 0x4001 && sub = 1 then 2 * s.rw 0x4001 2 0 ≤ v
    else if ix = 0x4001 && sub = 2 then 2 * v ≤ s.rw 0x4001 1 0
    else if ix = 0x5002 && sub = 3 then v ≤ s.lineRate item
    else if ix = 0x5002 && sub = 6 then s.rw 0x5002 7 item < v
    else if ix = 0x5002 && sub = 7 then v < s.rw 0x5002 6 item
    else if ix = 0x5020 && sub = 1 then isPow2 v
    else if ix = 0x5021 && sub = 3 then v ≤ s.lineRate (item / 65536)
    else if ix = 0x7020 && sub = 2 then defaultClass item != 3 || v = 3
    else if ix = 0x7100 && sub = 1 then fenceable v
    else if ix = 0x7801 && sub = 2 then a.selector 0x7801 1 != 64 || v ≤ 15
    else if ix = 0x7801 && sub = 3 then a.selector 0x7801 1 != 64 || v = 0
    else if ix = 0x7802 && sub = 2 then a.selector 0x7802 1 != 64 || v ≤ 15
    else if ix = 0x7810 && sub = 2 then s.dev.part == .al || v ≤ 760
    else true)

/-! ### Sessions that close (R352, R342) -/

/-- Closes sessions: their buffers, held values and reservation go with them. The device tells a client whose session it closes itself. -/
def State.closeSessions (s : State) (mine : Session → Bool) (told : Bool) : State :=
  let gone := s.mgmt.sessions.filter mine
  (s.onMgmt fun m => { m with
    sessions := m.sessions.filter fun x => !mine x
    out := m.out ++ (if told then gone.map fun x => MgmtOut.close x.id else []) }).onObjs fun o => { o with
      reservation := match o.reservation with
        | some (n, t) => if gone.any (·.slot == n) then none else some (n, t)
        | none => none }

/-! ### Credentials (R345, R346) -/

/-- An enabled administrator slot that holds a key. -/
def Cred.admin (c : Cred) : Bool := c.enabled && c.role == 0 && c.key.any (· != 0)

/-- A write of a credential slot. While no enabled administrator slot holds a key, only I3C may write, and then only an empty slot (R346). -/
def State.writeCred (s : State) (v : Via) (n : Nat) (f : Cred → Cred) (closes : Bool) : DStatus × State :=
  let had := s.mgmt.creds.any Cred.admin
  let empty := ((s.credOf n).map fun c => c.key.all (· == 0)).getD false
  let s1 := s.onMgmt fun m => { m with creds := mapIf (·.num == n) f m.creds }
  if v = .i3c then (if had || !empty then (.accessDenied, s) else (.ok, s1))
  else if !had then (.accessDenied, s)
  else if !s1.mgmt.creds.any Cred.admin then (.lastAdministrator, s)
  else (.ok, if closes then s1.closeSessions (·.cred == n) true else s1)

/-! ### Objects that act -/

/-- Commit, by write or by operation (R340 to R343). -/
def State.commitVia (s : State) (v : Via) : DStatus × State :=
  let r := if s.roleOf v ≠ 0 then (DStatus.accessDenied, s) else if s.reserved v then (.shadowReserved, s) else s.commit
  (r.1, match v with
    | .session n => r.2.onSession n fun x => { x with lastCommit := r.1 }
    | .i3c => r.2)

/-- A write of 0x1100.04 (R342). -/
def State.reserve (s : State) (via : Via) (v : Nat) : DStatus × State :=
  if v ≠ 0xFF && some v ≠ via.slot then (.outOfRange, s)
  else if s.reserved via then (.shadowReserved, s)
  else (.ok, s.onObjs fun o => { o with reservation := if v = 0xFF then none else some (v, s.us + 1000000 * s.rw 0x1201 6 0) })

/-- A write of 0x1010.01 (R357); the device saves it (R358). -/
def State.setTime (s : State) (v : Nat) : DStatus × State :=
  if v < s.clock.tod then (.outOfRange, s)
  else (.ok, s.onClock fun c => { c with tod := v, written := true, writes := c.writes + 1, saved := v })

/-- A write of 0x1200.0D TRUE: the configuration takes effect, and every session closes (R344). -/
def State.applyPort (s : State) : State := s.loadPort.closeSessions (fun _ => true) true

/-- A core scan is refused for a core of a confidential partition; what a scan shows is no object (Table 10-12). -/
def State.coreScan (s : State) (core : Nat) : DStatus :=
  match (s.sliceOf (coreSlice core)).bind (·.owner) with
  | some p => if s.act (0x6400 + p) 2 0 = 1 then .accessDenied else .ok
  | none => .ok

/-- Verdicts of an image's verification, free values where no command says them (log 61). -/
def State.verdicts (s : State) (o : Outside) : (Bool × Bool × W64) × State :=
  match o.image with
  | some x => (x, s)
  | none => (((s.free).1.getLsbD 0, (s.free).1.getLsbD 1, (s.free).2.free.1), (s.free).2.free.2)

/-- A write of an object that acts when TRUE is written; FALSE does nothing. -/
def State.pull (s : State) (via : Via) (o : Outside) (ix sub item : Nat) : DStatus × State :=
  if ix = 0x1100 && sub = 1 then s.commitVia via
  else if ix = 0x1100 && sub = 2 then (if s.reserved via then (.shadowReserved, s) else (.ok, s.discard))
  else if ix = 0x1200 && sub = 0x0D then (.ok, s.applyPort)
  else if ix = 0x1211 && sub = 8 then (.ok, s.closeSessions (·.slot == item) true)
  else if ix = 0x4007 && sub = 3 then
    (if s.serving && s.startMigration.1 then (.ok, s.startMigration.2) else (.outOfRange, s))
  else if ix = 0x5001 && sub = 4 then (.ok, s.linkReset item)
  else if ix = 0x6040 && sub = 6 then s.startPair item
  else if ix = 0x7010 && sub = 5 then (.ok, s.onFaults fun f => { f with firstError := none })
  else if ix = 0x7100 && sub = 2 then (.ok, s.fenceUnit item)
  else if ix = 0x7100 && sub = 3 then s.returnUnit item o.passes
  else if ix = 0x7820 && sub = 4 then (.ok, s.beginShutdown)
  else if ix = 0x7840 && sub = 5 then
    (fun (x : (Bool × Bool × W64) × State) => x.2.verifyImage x.1.1 x.1.2.1 x.1.2.2.toNat) (s.verdicts o)
  else if ix = 0x7840 && sub = 6 then
    (match o.switch with
    | some r => s.startSwitch r
    | none => s.freeSwitch.2.startSwitch s.freeSwitch.1)
  else (.ok, s)

/-- A write of a selector; two windows take their copy at it (R79, R385). -/
def State.select (s : State) (via : Via) (ix sub v : Nat) : State :=
  let s1 := s.onAccess via fun a => { a with sel := sset a.sel (okey ix sub 0) v }
  if ix = 0x2102 then s1.onAccess via fun a => { a with seqSnap := if handleSlot v < s.act 0x2101 2 (handlePart v) then s.seq v else none }
  else if ix = 0x8010 && sub = 2 then
    let p := (s1.access via).selector 0x8010 1
    let copy := (List.range 128).foldl (fun (m : SMap) f => sset m f (sget s.meters.live (meterKey p v f) 0)) []
    s1.onAccess via fun a => { a with meterSnap := copy }
  else s1

/-- Effect of a number written to a field, its rights, length and range found good. -/
def State.putNumber (s : State) (via : Via) (o : Outside) (r : ObjRow) (ix sub item v : Nat) : DStatus × State :=
  if (selectorsOf ix).contains sub then (.ok, s.select via ix sub v)
  else if s.itemAbsent (s.access via) ix sub then (.ok, s)
  else if r.acc = .rws then
    (if s.reserved via then (.shadowReserved, s) else (.ok, s.onObjs fun x => { x with shadow := sset x.shadow (okey ix sub item) v }))
  else if ix = 0x1010 then s.setTime v
  else if ix = 0x1100 && sub = 4 then s.reserve via v
  else if ix = 0x1202 then (.ok, if v = 0 then (s.setRw ix sub item 0).closeSessions (·.role == 2) true else s.setRw ix sub item v)
  else if ix = 0x1210 && sub = 3 then s.writeCred via item (fun c => { c with role := v }) true
  else if ix = 0x1210 && sub = 4 then s.writeCred via item (fun c => { c with enabled := v == 1 }) true
  else if ix = 0x1220 then (.ok, if v = 1 then (s.setRw ix sub item 1).seeNow else s.setRw ix sub item v)
  else if ix = 0x2001 then (.ok, s.setRw ix sub item (v / 25000 * 25000))
  else if ix = 0x2401 && sub = 1 then (.ok, s.requestBankMode v)
  else if ix = 0x6052 && sub = 2 then (s.coreScan v, s)
  else if ix = 0x7812 && sub = 3 then (.ok, s.holdOff item (v == 1))
  else if ix = 0x7820 && sub = 1 then s.requestReset v o.boot (via == .i3c)
  else if r.acc = .wo then (if v = 1 then s.pull via o ix sub item else (.ok, s))
  else (.ok, s.setRw ix sub item v)

/-- A message relayed to an attestation session (R327). What its ciphertext hides and its verdicts are free values (log 61). -/
def State.attMessageIn (s : State) (bs : List Byte) : DStatus × State :=
  let w := beNat (bs.take 8)
  let body := bs.drop 8
  let slot := w / 2 ^ 48 % 256
  let f := (s.free).1
  let h := beNat (body.take 8)
  match (if bs.length < 8 || body.length ≠ w % 2 ^ 32 then none else s.att slot) with
  | none => (.malformed, s)
  | some a =>
    let type := w / 2 ^ 56 % 256
    let hash := (s.free).2.randomBytes 64
    if type = 1 then
      (if h / 2 ^ 48 % 65536 = 1 && h / 2 ^ 40 % 256 ≤ 2 && 40 ≤ body.length then
        s.attHello slot (h / 2 ^ 40 % 256) (h / 2 ^ 32 % 256) ((body.drop 8).take 32) (body.drop 40)
      else (.ok, s.failAtt slot))
    else if type = 2 then
      (if s.fw.hold.isSome then (.attestPending, s)
      else if body.length ≠ 5840 then (.ok, s.failAtt slot) else (.ok, (hash.2.pairingAnswered a (f.getLsbD 0) hash.1).settle))
    else if type = 3 then
      (.ok, (hash.2.attFinish a (f.getLsbD 0 && body.length == (if a.kind = 0 then 3325 else 4736)) (f.getLsbD 1) hash.1).settle)
    else if type = 5 then
      let key := hash.2.randomBytes 32
      let k : KeyRecord := { slot := slot, opens := f.getLsbD 0 && body.length == 64, tenant := (f >>> 16).setWidth 16, keyId := (f >>> 32).setWidth 32, key := key.1 }
      (.ok, (key.2.keyRecord k fun s a =>
        if f.toNat / 2 % 4 = 0 then s.releaseKey a.part k.tenant.toNat k.keyId.toNat k.key
        else if f.toNat / 2 % 4 = 1 then s.beginErase a.part k.tenant.toNat k.keyId.toNat
        else if f.toNat / 2 % 4 = 2 then (.ok, s) else (.malformed, s)).settle)
    else if type = 7 then (.ok, s.closeAtt (·.num == slot))
    else (.ok, s.failAtt slot)

/-- Effect of bytes written to a field of type `OCTETS` or `STRING`, all its segments in (log 85). -/
def State.putOctets (s : State) (via : Via) (r : ObjRow) (ix sub item : Nat) (bs : List Byte) : DStatus × State :=
  if s.itemAbsent (s.access via) ix sub then (.ok, s)
  else if r.acc = .rws then
    (if s.reserved via then (.shadowReserved, s) else (.ok, s.onObjs fun x => { x with shadow := sset x.shadow (okey ix sub item) (beNat bs) }))
  else if ix = 0x1210 && sub = 2 then s.writeCred via item (fun c => { c with key := bs }) true
  else if ix = 0x1210 && sub = 5 then s.writeCred via item (fun c => { c with label := bs }) false
  else if ix = 0x2402 && sub = 2 then (.ok, s.onObjs fun x => { x with saltsNext := x.saltsNext.filter (·.1 != item) ++ [(item, bs)] })
  else if ix = 0x6040 && sub = 2 then s.attMessageIn bs
  else if ix = 0x6041 && sub = 1 then (.ok, s.onSec fun x => { x with nonce := bs })
  else if ix = 0x7803 && sub = 4 then
    (fun (x : DStatus × State) => (x.1, x.2.settle)) (s.operatorSend (item / 65536) (item % 65536) (s.rw 0x7803 3 item) bs)
  else if r.acc = .wo then (.ok, s)
  else (.ok, s.setRw ix sub item (beNat bs))

/-! ### Segments (R339) -/

/-- Fields whose value may be shorter than the object. -/
def shortAllowed (ix sub : Nat) : Bool := (ix == 0x6040 && sub == 2) || (ix == 0x7803 && sub == 4) || (ix == 0x7840 && sub == 4)

/-- A segment out of order: the buffer goes, and an image half staged with it. -/
def State.dropSegments (s : State) (via : Via) : State :=
  let image := ((s.access via).seg.map (·.1)) == some imageKey
  (fun (x : State) => if image then x.dropImage else x) (s.onAccess via fun a => { a with seg := none })

/-- A segment of a write: buffered, or with the last one, acted on (log 129). -/
def State.putSegment (s : State) (via : Via) (r : ObjRow) (ix sub item : Nat) (off : Nat) (last : Bool) (bs : List Byte) : DStatus × State :=
  let key := okey ix sub item
  let before : Option (List Byte) := if off = 0 then some [] else match (s.access via).seg with
    | some (k, b) => if k = key && b.length = off then some b else none
    | none => none
  match before with
  | none => (.segment, s.dropSegments via)
  | some b =>
    let all := b ++ bs
    if key = imageKey && s.fw.pending = 3 then (.busy, s)
    else if r.len < all.length then (.length, s.dropSegments via)
    else
      let s1 := s.onAccess via fun a => { a with seg := if last then none else some (key, all) }
      let s2 := if key = imageKey then s1.landImage all else s1
      if !last || key = imageKey then (.ok, s2)
      else if all.length ≠ r.len && !shortAllowed ix sub then (.length, s2)
      else s2.putOctets via r ix sub item all

/-! ### One item (R336, R343) -/

/-- Writes one item. -/
def State.writeItem (s : State) (via : Via) (o : Outside) (ix sub off : Nat) (last : Bool) (bs : List Byte) : DStatus × State :=
  let a := s.access via
  if !objIndex ix || !s.reaches via ix sub then (.noObject, s)
  else match objRow ix sub with
    | none => (if sub = 0 then .notWritable else .noSubindex, s)
    | some r =>
      let item := a.item ix sub
      if r.acc = .ro || r.acc = .const then (.notWritable, s)
      else if !mayWriteField (s.roleOf via) ix sub r.acc then (.accessDenied, s)
      else if r.ty = 9 || r.ty = 10 then s.putSegment via r ix sub item off last bs
      else if off ≠ 0 || bs.length ≠ r.len then (.length, s)
      else if !(selectorsOf ix).contains sub && s.itemAbsent a ix sub then (.ok, s)
      else if !s.inRange a r ix sub item (beNat bs) then (.outOfRange, s)
      else s.putNumber via o r ix sub item (beNat bs)

end Sys2Proof.Machine
end

