-- ==== Sys2Proof/Machine/Dictionary.lean ====
section
/-!
DEFINITION. Requests of the management protocol: reading items, the four operations, replies, and every command that is one request (R335 to R343, R352 to R354).
-/
namespace Sys2Proof.Machine

/-! ### Reading one item (R335, R336, R339) -/

/-- Objects whose value is taken at a read of offset 0 and held (R339). -/
def takenAtRead (ix sub : Nat) : Bool :=
  (ix == 0x6041 && sub == 3) || (ix == 0x6040 && sub == 3) || (ix == 0x6051 && sub == 3) || (ix == 0x7802 && sub == 4)

/-- Why a reader may not read a field: rights (Table 11-4), confidential mode (R331), a switch that runs (R409). -/
def State.readRefusal (s : State) (via : Via) (a : Access) (r : ObjRow) (ix sub : Nat) : Option DStatus :=
  if r.acc = .wo then some .notReadable
  else if ix = 0x6051 && sub = 3 then
    let p := a.selector 0x6051 1
    if s.roleOf via ≠ 2 || (p < 64 && s.act (0x6400 + p) 2 0 = 1) then some .accessDenied else none
  else if ix = 0x1210 && sub = 2 && s.roleOf via ≠ 0 then some .accessDenied
  else if ix = 0x6041 && sub = 3 && s.fw.hold.isSome then some .attestPending
  else none

/-- A record without data. -/
def Record.only (st : DStatus) (sub type : Nat) : Record := { status := st, sub := sub, type := type, data := [] }

/-- Part of an `OCTETS` or `STRING` value; the last byte read drops a held value, and takes a message (R339, R391). -/
def State.readPart (s : State) (via : Via) (r : ObjRow) (ix sub len off : Nat) : Record × State :=
  let a := s.access via
  let key := okey ix sub (a.item ix sub)
  let n := if len = 0 then r.len - off else len
  if r.len ≤ off || r.len < off + n then (Record.only .length sub r.ty, s)
  else
    let last := off + n == r.len
    let give := fun (bs : List Byte) (s : State) =>
      let hold := if takenAtRead ix sub && !last then some (key, bs) else if takenAtRead ix sub then none else (s.access via).held
      (({ status := .ok, sub := sub, type := r.ty, data := (bs.drop off).take n } : Record), (s.onAccess via fun a => { a with held := hold }).afterRead a ix sub last)
    if takenAtRead ix sub && off ≠ 0 then
      (match a.held with
      | some (k, bs) => if k = key then give bs s else (Record.only .segment sub r.ty, s)
      | none => (Record.only .segment sub r.ty, s))
    else
      let v := s.valueOf a via.slot r ix sub
      give v.1 v.2

/-- Reads one item. -/
def State.readItem (s : State) (via : Via) (ix sub len off : Nat) : Record × State :=
  let a := s.access via
  if !objIndex ix || !s.reaches via ix sub then (Record.only .noObject sub 0, s)
  else match objRow ix sub with
    | none =>
      if sub ≠ 0 then (Record.only .noSubindex sub 0, s)
      else if off ≠ 0 || 1 < len then (Record.only .length 0 1, s)
      else ({ status := .ok, sub := 0, type := 1, data := beBytes 1 (topSub ix) }, s)
    | some r => match s.readRefusal via a r ix sub with
      | some st => (Record.only st sub r.ty, s)
      | none =>
        if r.ty = 9 || r.ty = 10 then s.readPart via r ix sub len off
        else if off ≠ 0 || (len ≠ 0 && len ≠ r.len) then (Record.only .length sub r.ty, s)
        else
          let v := s.valueOf a via.slot r ix sub
          ({ status := .ok, sub := sub, type := r.ty, data := v.1 }, v.2.afterRead a ix sub true)

/-! ### Operations (R353) -/

/-- Operation 1: every item. -/
def State.readItems (s : State) (via : Via) : List Item → List Record × State
  | [] => ([], s)
  | i :: rest =>
    let r := s.readItem via i.index.toNat i.sub.toNat i.length.toNat i.offset.toNat
    let t := r.2.readItems via rest
    (r.1 :: t.1, t.2)

/-- Operation 2: every item in order, up to the first that fails. -/
def State.writeItems (s : State) (via : Via) (o : Outside) : List Item → List Record × State
  | [] => ([], s)
  | i :: rest =>
    let ix := i.index.toNat
    let sub := i.sub.toNat
    let r := s.writeItem via o ix sub i.offset.toNat i.last i.value
    let rec_ := Record.only r.1 sub (((objRow ix sub).map (·.ty)).getD 0)
    if r.1 = .ok then
      let t := r.2.writeItems via o rest
      (rec_ :: t.1, t.2)
    else ([rec_], r.2)

/-- Operation 3: the subindices of one index that exist. -/
def State.readSubs (s : State) (via : Via) (ix : Nat) : List Nat → List Record × State
  | [] => ([], s)
  | k :: rest =>
    let r := s.readItem via ix k 0 0
    let t := r.2.readSubs via ix rest
    (r.1 :: t.1, t.2)

/-- Status of a reply: the first other than `OK`. -/
def firstStatus (rs : List Record) : DStatus := ((rs.map fun r : Record => r.status).find? (· != DStatus.ok)).getD .ok

/-- Bytes of a reply's frame: header, reply header, records and tag (R349, Table 11-7). -/
def replyBytes (rs : List Record) : Nat := 48 + sumOf (fun r : Record => 8 + cdiv r.data.length 8 * 8) rs

/-- Bytes of a request's frame. -/
def requestBytes (is : List Item) : Nat := 48 + sumOf (fun i : Item => 16 + cdiv i.value.length 8 * 8) is

/-- What a request executes: what it answers, with its records. -/
abbrev Executed := (DStatus × List Record) × State

def asRead (s : State) (r : List Record × State) : Executed :=
  if 1440 < replyBytes r.1 then ((.length, []), s) else ((firstStatus r.1, r.1), r.2)

def State.opRead (s : State) (via : Via) (is : List Item) : Executed :=
  if 64 < is.length || is.any (fun i => !i.value.isEmpty) || 1440 < requestBytes is then ((.malformed, []), s) else asRead s (s.readItems via is)

def State.opWrite (s : State) (via : Via) (o : Outside) (is : List Item) : Executed :=
  if 64 < is.length || is.any (fun i => i.value.length != i.length.toNat) || 1440 < requestBytes is then ((.malformed, []), s)
  else (fun (r : List Record × State) => ((firstStatus r.1, r.1), r.2)) (s.writeItems via o is)

def State.opBlock (s : State) (via : Via) (i : Item) (lastSub : Nat) : Executed :=
  let ix := i.index.toNat
  let first := i.sub.toNat
  let subs := ((List.range 256).filter fun k => first ≤ k && k ≤ lastSub).filter fun k => (objRow ix k).isSome || (k == 0 && (objRow ix 0).isNone)
  if lastSub < first || !i.value.isEmpty then ((.malformed, []), s)
  else if !objIndex ix || !s.reaches via ix first then ((.noObject, []), s)
  else if subs.isEmpty then ((.noSubindex, []), s)
  else asRead s (s.readSubs via ix subs)

def State.opCommit (s : State) (via : Via) : Executed :=
  if s.reaches via 0x1100 1 then (fun (r : DStatus × State) => ((r.1, []), r.2)) (s.commitVia via) else ((.noObject, []), s)

/-! ### Requests (R352, R354) -/

/-- Whether the port serves sessions: the firmware runs, or the boot ROM waits for an image (R405). -/
def State.portServes (s : State) : Bool := s.managed || s.dev.phase == .awaitingImage

/-- A frame of the port is dropped and counted (R349, R352). -/
def State.dropFrame (s : State) : State := s.bump 0x1102 3 0 1

/-- Whether a session has sent 2^32 frames, and so closes (R352) (log 133). -/
def Session.spent (x : Session) : Bool := 2 ^ 32 ≤ x.outCounter || 2 ^ 32 ≤ x.requests

/-- Sends a reply on a session, which keeps the last 16 (R354); a session that the request closed still gets it. -/
def State.sendReply (s : State) (x : Session) (b : ReplyBody) : State :=
  let s1 := (s.onMgmt fun m => { m with out := m.out ++ [.reply x.id x.outCounter b] }).onSession x.slot fun y =>
    if y.id = x.id then { y with outCounter := x.outCounter + 1 } else y
  s1.closeSessions (fun y => y.id == x.id && y.spent) true

/-- What follows a request that ended so: what goes on by itself, the counters, and the reply, which the session keeps (R353, R354). -/
def State.answered (s : State) (x : Session) (g : Mgmt) (r : DStatus × List Record) : State :=
  let s1 := (s.bump 0x1102 2 0 (r.2.countP fun k => k.status != .ok)).settle
  let b : ReplyBody := { status := r.1, records := r.2, epoch := s1.epochs.active, request := g.request, time := s1.ms }
  (s1.onSession x.slot fun y => if y.id = x.id then
      { y with requests := y.requests + 1, replies := (y.replies ++ [(g.request, b)]).drop (y.replies.length - 15) } else y).sendReply x b

/-- Executes a request of a session (log 114). -/
def State.execute (s : State) (x : Session) (g : Mgmt) (run : State → Via → Executed) : State :=
  let r := run (s.bump 0x1102 1 0 1) (.session x.slot)
  r.2.answered x g r.1

/-- A frame of a session, taken in (R352). -/
def State.framed (s : State) (x : Session) (g : Mgmt) : State :=
  (s.bump 0x1200 0x0C 0 1).onSession x.slot fun y => { y with inCounter := g.counter + 1, lastUs := s.us }

/-- Takes an encrypted frame of a session: one that names no session, does not open, or repeats a counter is dropped (R352). -/
def State.sessionFrame (s : State) (g : Mgmt) (run : State → Session → State) : Result :=
  .next (if !s.portServes then s
    else
      let s1 := s.bump 0x1200 0x0C 0 1
      match s1.mgmt.sessions.find? (·.id == g.session.toNat) with
      | none => s1.dropFrame
      | some x =>
        if !g.opens || g.counter < x.inCounter then s1.dropFrame
        else run (s.framed x g) x)

/-- A REQUEST: one whose number has been answered gets the kept reply, a number lower than all 16 kept is dropped, any other is executed (R354) (log 130). -/
def State.mgmtRequest (s : State) (g : Mgmt) (run : State → Via → Executed) : Result :=
  s.sessionFrame g fun s x =>
    match x.replies.find? (·.1 == g.request) with
    | some (_, b) => s.sendReply x b
    | none => if 16 ≤ x.replies.length && x.replies.all (fun y => g.request < y.1) then s else s.execute x g run

/-- A request that writes one object. -/
def State.writeOne (s : State) (g : Mgmt) (o : Outside) (ix sub : Nat) (bs : List Byte) : Result :=
  s.mgmtRequest g fun s v => s.opWrite v o
    [{ index := BitVec.ofNat 16 ix, sub := BitVec.ofNat 8 sub, length := BitVec.ofNat 16 bs.length, last := true, offset := 0, value := bs }]

/-- A request that reads part of one object. -/
def State.readOne (s : State) (g : Mgmt) (ix sub len : Nat) : Result :=
  s.mgmtRequest g fun s v => s.opRead v
    [{ index := BitVec.ofNat 16 ix, sub := BitVec.ofNat 8 sub, length := BitVec.ofNat 16 len, last := false, offset := 0, value := [] }]

/-! ### Commands that are one request -/

/-- Operation 1 (R353). -/
def execMgmtRead (g : Mgmt) (items : List Item) (s : State) : Result := s.mgmtRequest g fun s v => s.opRead v items

/-- Operation 2 (R336, R353); what lies outside the block is free (log 61, 76). -/
def execMgmtWrite (g : Mgmt) (items : List Item) (s : State) : Result := s.mgmtRequest g fun s v => s.opWrite v Outside.unsaid items

/-- Operation 3 (R353). -/
def execMgmtBlockRead (g : Mgmt) (item : Item) (lastSub : Byte) (s : State) : Result := s.mgmtRequest g fun s v => s.opBlock v item lastSub.toNat

/-- Operation 4, or a write of 0x1100.01 (R340). -/
def execCommit (g : Mgmt) (byOperation : Bool) (value : Byte) (s : State) : Result :=
  if byOperation then s.mgmtRequest g fun s v => s.opCommit v else s.writeOne g Outside.unsaid 0x1100 1 [value]

/-- 0x1100.02 (R340). -/
def execDiscardShadow (g : Mgmt) (value : Byte) (s : State) : Result := s.writeOne g Outside.unsaid 0x1100 2 [value]

/-- 0x1100.04 (R342). -/
def execShadowReservation (g : Mgmt) (value : Byte) (s : State) : Result := s.writeOne g Outside.unsaid 0x1100 4 [value]

/-- 0x1010.01 (R357). -/
def execTimeOfDayWrite (g : Mgmt) (value : W64) (s : State) : Result := s.writeOne g Outside.unsaid 0x1010 1 (beBytes 8 value.toNat)

/-- 0x1200.0D (R344). -/
def execApplyMgmtConfiguration (g : Mgmt) (value : Byte) (s : State) : Result := s.writeOne g Outside.unsaid 0x1200 0x0D [value]

/-- 0x5001.04 (R278). -/
def execLinkReset (g : Mgmt) (value : Byte) (s : State) : Result := s.writeOne g Outside.unsaid 0x5001 4 [value]

/-- A field of the credential window, key segments among them (R345, R346). -/
def execCredentialWrite (g : Mgmt) (item : Item) (s : State) : Result := s.mgmtRequest g fun s v => s.opWrite v Outside.unsaid [item]

/-- 0x1202.01 written FALSE (R345). -/
def execServiceRoleDisable (g : Mgmt) (s : State) : Result := s.writeOne g Outside.unsaid 0x1202 1 [0]

/-- 0x2102.01 (R79). -/
def execSequenceWindowSelect (g : Mgmt) (handle : W64) (s : State) : Result := s.writeOne g Outside.unsaid 0x2102 1 (beBytes 8 handle.toNat)

/-- 0x8010.02 (R385). -/
def execMeterTenantSelect (g : Mgmt) (tenant : W16) (s : State) : Result := s.writeOne g Outside.unsaid 0x8010 2 (beBytes 2 tenant.toNat)

/-- First segment of 0x6041.03, which takes the report (R326, R339). -/
def execOperatorReportRead (g : Mgmt) (s : State) : Result := s.readOne g 0x6041 3 1384

/-- 0x7802.04 read whole: a kind-0 message is taken (R391). -/
def execMailboxOperatorTake (g : Mgmt) (s : State) : Result := s.readOne g 0x7802 4 0

/-- 0x7803.04 (R393). -/
def execOperatorMailboxSend (g : Mgmt) (body : List Byte) (s : State) : Result := s.writeOne g Outside.unsaid 0x7803 4 body

/-- 0x4007.03 (R274). -/
def execMigrationStart (g : Mgmt) (s : State) : Result := s.writeOne g Outside.unsaid 0x4007 3 [1]

/-- 0x2401.01 (R157). -/
def execBankModeRequest (g : Mgmt) (mode : Byte) (s : State) : Result := s.writeOne g Outside.unsaid 0x2401 1 [mode]

/-- 0x7100.02 (R376). -/
def execFenceUnit (g : Mgmt) (value : Byte) (s : State) : Result := s.writeOne g Outside.unsaid 0x7100 2 [value]

/-- 0x7100.03, with the outcome of the unit's return test (R376, R377). -/
def execReturnUnit (g : Mgmt) (value : Byte) (passes : Bool) (s : State) : Result :=
  s.writeOne g { Outside.unsaid with passes := some passes } 0x7100 3 [value]

/-- 0x7010.05 (R370). -/
def execClearFirstError (g : Mgmt) (value : Byte) (s : State) : Result := s.writeOne g Outside.unsaid 0x7010 5 [value]

/-- A write of 0x7820.01 (R400). -/
def State.resetRequest (s : State) (g : Mgmt) (request : W32) (boot : Option BootReport) : Result :=
  s.writeOne g { Outside.unsaid with boot := boot } 0x7820 1 (beBytes 4 request.toNat)

/-- Level 1 (R403). -/
def execDeviceReset (g : Mgmt) (request : W32) (boot : BootReport) (s : State) : Result := s.resetRequest g request (some boot)

/-- Level 2 (R403). -/
def execDieReset (g : Mgmt) (request : W32) (boot : BootReport) (s : State) : Result := s.resetRequest g request (some boot)

/-- Level 3 (R403). -/
def execClusterReset (g : Mgmt) (request : W32) (s : State) : Result := s.resetRequest g request none

/-- Level 4 (R403). -/
def execPartitionReset (g : Mgmt) (request : W32) (s : State) : Result := s.resetRequest g request none

/-- Level 5 (R403). -/
def execPortReset (g : Mgmt) (request : W32) (s : State) : Result := s.resetRequest g request none

/-- 0x7820.04 (R406). -/
def execOrderlyShutdown (g : Mgmt) (value : Byte) (s : State) : Result := s.writeOne g Outside.unsaid 0x7820 4 [value]

/-- A segment of 0x7840.04 (R408). -/
def execImageSegmentWrite (g : Mgmt) (item : Item) (s : State) : Result := s.mgmtRequest g fun s v => s.opWrite v Outside.unsaid [item]

/-- 0x7840.05 (R408). -/
def execImageVerify (g : Mgmt) (value : Byte) (signed configOk : Bool) (version : W64) (s : State) : Result :=
  s.writeOne g { Outside.unsaid with image := some (signed, configOk, version) } 0x7840 5 [value]

/-- 0x7840.06 (R409). -/
def execFirmwareSwitch (g : Mgmt) (value : Byte) (report : SwitchReport) (s : State) : Result :=
  s.writeOne g { Outside.unsaid with switch := some report } 0x7840 6 [value]

/-- 0x7812.03 (R398). -/
def execClusterHoldOff (g : Mgmt) (value : Byte) (s : State) : Result := s.writeOne g Outside.unsaid 0x7812 3 [value]

/-- 0x1211.08 (R352). -/
def execSessionCloseCommand (g : Mgmt) (value : Byte) (s : State) : Result := s.writeOne g Outside.unsaid 0x1211 8 [value]

/-- 0x6040.06 (R330). -/
def execStartPairing (g : Mgmt) (value : Byte) (s : State) : Result := s.writeOne g Outside.unsaid 0x6040 6 [value]

/-- A CLOSE frame of the client (R352). -/
def execMgmtClose (g : Mgmt) (s : State) : Result := s.sessionFrame g fun s x => s.closeSessions (·.id == x.id) false

end Sys2Proof.Machine
end

