-- ==== Sys2Proof/Machine/Sessions.lean ====
section
/-!
DEFINITION. Management sessions from HELLO to their end, lockouts, the port's answers to address requests, and the I3C link (R344, R348 to R356).
-/
namespace Sys2Proof.Machine

/-! ### The handshake (R348 to R351, Table 11-6) -/

/-- Whether the port answers at all: it serves, and an IPv4 or IPv6 address is stored (R344). -/
def State.portOpen (s : State) : Bool :=
  s.portServes && (sget s.mgmt.applied (okey 0x1200 5 0) 0 != 0 || sget s.mgmt.applied (okey 0x1200 8 0) 0 != 0)

/-- Joined HELLO message (Table 11-6). -/
def mgmtHelloBytes (slot : Nat) (nonce ek : List Byte) : List Byte := beBytes 8 (slot * 2 ^ 56) ++ nonce ++ ek

/-- Session keys of a shared secret (Table 11-6): the client's direction, then the device's. They open and seal frames; the model's frames carry plaintext,
and whether a client's frame opens is the command's operand (log 5). -/
def mgmtKeys (ss h2 : List Byte) : List Byte := shake256 (ss ++ h2 ++ ascii "HN-MGMT") 64

/-- Answers a HELLO with DEVICE (Table 11-6). -/
def State.sendDevice (s : State) (id slot : Nat) (hello ek : List Byte) (address : Nat) : State :=
  let nd := s.randomBytes 32
  let rnd := nd.2.randomBytes 32
  let ct := fixed 1088 (Config.mlkemCiphertext ek rnd.1)
  let h1 := hash64 (hello ++ nd.1 ++ ct ++ fixed 1952 identityKey)
  let sig := fixed 3309 (identitySign h1)
  let h2 := hash64 (h1 ++ sig)
  let dev := nd.1 ++ ct ++ fixed 1952 identityKey ++ sig
  rnd.2.onMgmt fun m => { m with
    handshakes := m.handshakes ++ [{ id := id, slot := slot, hello := hello, device := dev, h2 := h2, keys := mgmtKeys (Config.mlkemSecret ek rnd.1) h2, address := address, startUs := s.us }]
    out := m.out ++ [.device id dev] }

/-- MGMT_HELLO (R350, R351). A message of another length or an undefined slot is no HELLO and draws nothing (log 132). -/
def execMgmtHello (handshake : W64) (slot : Byte) (nonce ek : List Byte) (address : Nat) (s : State) : Result :=
  let id := handshake.toNat
  let hello := mgmtHelloBytes slot.toNat nonce ek
  .next (if !s.portOpen then s
    else
      let s1 := s.bump 0x1200 0x0C 0 1
      if nonce.length ≠ 32 || ek.length ≠ 1184 || 7 < slot.toNat then s1
      else match s1.mgmt.handshakes.find? (·.id == id) with
        | some h => if h.hello = hello then s1.onMgmt fun m => { m with out := m.out ++ [.device id h.device] } else s1
        | none =>
          if 4 ≤ s1.mgmt.handshakes.length || 8 ≤ s1.mgmt.sessions.length then
            s1.onMgmt fun m => { m with out := m.out ++ [.error id .retryLater 1 0] }
          else s1.sendDevice id slot.toNat hello ek address)

/-- Whether a slot may authenticate: enabled, holding a key, and for a service slot the role enabled (R345). -/
def State.slotUsable (s : State) (c : Cred) : Bool := c.enabled && c.key.any (· != 0) && (c.role != 2 || s.rw 0x1202 1 0 == 1)

def State.onCred (s : State) (n : Nat) (f : Cred → Cred) : State := s.onMgmt fun m => { m with creds := mapIf (·.num == n) f m.creds }

/-- An authentication that failed is counted, and within 60 s the last of 0x1201.03 locks the slot; while it is locked none is counted (R348). -/
def State.failAuth (s : State) (c : Cred) : State :=
  if c.lockUs.isSome then s
  else
    let recent := (s.us :: c.recent).filter fun t => s.us < t + 60000000
    let lock := s.rw 0x1201 3 0 ≤ recent.length
    let secs := s.rw 0x1201 4 0
    s.onCred c.num fun x => { x with
      failures := x.failures + 1
      recent := if lock then [] else recent
      lockUs := if lock then some (s.us + 1000000 * secs) else none
      lockedUntil := if lock then s.ms + 1000 * secs else x.lockedUntil }

/-- Lowest session slot that is closed. -/
def State.freeSession (s : State) : Option Nat := (List.range 8).find? fun n => (s.sessionIn n).isNone

/-- Opens a session: its frame counters start, and DONE was the device's frame 0 (Table 11-6) (log 124). -/
def State.openSession (s : State) (h : Handshake) (c : Cred) (slot : Nat) : State :=
  let id := s.mgmt.nextSession
  (s.onCred c.num fun x => { x with lastAuth := s.ms }).onMgmt fun m => { m with
    nextSession := id + 1
    sessions := m.sessions ++ [{ slot := slot, id := id, cred := c.num, role := c.role, address := h.address, openedMs := s.ms, openedUs := s.us, lastUs := s.us
                                 inCounter := 0, outCounter := 1, requests := 0, replies := [], acc := Reset.access, lastCommit := .ok, keys := h.keys }]
    out := m.out ++ [.done h.id id .ok c.role (s.rw 0x1201 1 0)] }

/-- DONE with a status other than `OK`: no session opens. -/
def State.refuseSession (s : State) (h : Handshake) (st : DStatus) : State := s.onMgmt fun m => { m with out := m.out ++ [.done h.id 0 st 0 0] }

/-- MGMT_FINISH: the handshake ends with DONE (R345, R348, R350). -/
def execMgmtFinish (handshake : W64) (sigOk : Bool) (s : State) : Result :=
  .next (if !s.portOpen then s
    else
      let s1 := s.bump 0x1200 0x0C 0 3
      match s1.mgmt.handshakes.find? (·.id == handshake.toNat) with
      | none => s1
      | some h =>
        let s2 := s1.onMgmt fun m => { m with handshakes := m.handshakes.filter (·.id != h.id) }
        match s2.credOf h.slot with
        | none => s2
        | some c =>
          if s2.fw.hold.isSome then s2.refuseSession h .attestPending
          else if !s2.slotUsable c || c.lockUs.isSome || !sigOk then (s2.failAuth c).refuseSession h .accessDenied
          else match s2.freeSession with
            | none => s2.refuseSession h .retryLater
            | some n => s2.openSession h c n)

/-- MGMT_HANDSHAKE_TIMEOUT: a handshake not finished within 0x1201.02 is dropped (R350). -/
def execMgmtHandshakeTimeout (handshake : W64) (s : State) : Result :=
  .next (if s.portServes then
      s.onMgmt fun m => { m with handshakes := m.handshakes.filter fun h => !(h.id == handshake.toNat && s.due (h.startUs + 1000 * s.rw 0x1201 2 0)) }
    else s)

/-- MGMT_SESSION_IDLE_TIMEOUT: the idle limit, or 24 h after the session opened (R352). -/
def execMgmtSessionIdleTimeout (slot : Nat) (s : State) : Result :=
  .next (if s.portServes then
      s.closeSessions (fun x => x.slot == slot && (s.due (x.lastUs + 1000000 * s.rw 0x1201 1 0) || s.due (x.openedUs + 86400000000))) true
    else s)

/-- SLOT_LOCKOUT_END (R348). -/
def execSlotLockoutEnd (slot : Nat) (s : State) : Result :=
  .next (s.onCred slot fun c => match c.lockUs with
    | some t => if s.due t then { c with lockUs := none, recent := [] } else c
    | none => c)

/-- ARP_OR_NEIGHBOUR_SOLICITATION: answered for the port's own addresses, otherwise dropped and counted (R344, 0x1200.0E) (log 134). -/
def execArpOrNeighbourSolicitation (isArp : Bool) (target : Nat) (s : State) : Result :=
  let own := sget s.mgmt.applied (okey 0x1200 (if isArp then 5 else 8) 0) 0
  .next (if !s.portServes then s
    else
      let s1 := s.bump 0x1200 0x0C 0 1
      if s.portOpen && own ≠ 0 && own = target then s1.onMgmt fun m => { m with out := m.out ++ [.arp isArp target] }
      else s1.bump 0x1200 0x0E 0 1)

/-! ### I3C (R355, R356) -/

/-- An access in a form the link does not have: more than 64 bytes at once, or an offset where the object takes none, or none where it takes one. -/
def i3cBad (ix sub : Nat) (offset : Option W16) (n : Nat) : Bool :=
  match objRow ix sub with
  | none => 64 < n
  | some r => 64 < n || ((r.ty == 9 || r.ty == 10) && 64 < r.len) != offset.isSome

/-- I3C_WRITE: a private write with a value; a device reset may be asked for here, and `boot` is how its boot ends (R355, R400). -/
def execI3cWrite (index : W16) (sub : Byte) (offset : Option W16) (last : Bool) (value : List Byte) (boot : BootReport) (s : State) : Result :=
  .next (if s.dev.phase == .heldInReset then s
    else
      let s1 := s.bump 0x1220 3 0 1
      if i3cBad index.toNat sub.toNat offset value.length then s1.bump 0x1220 5 0 1
      else (s1.writeItem .i3c { Outside.unsaid with boot := some boot } index.toNat sub.toNat ((offset.map (·.toNat)).getD 0) (last || offset.isNone) value).2.settle)

/-- I3C_READ: a private read after the write of the object's name; a status byte, then the value (R355). -/
def execI3cRead (index : W16) (sub : Byte) (offset : Option W16) (s : State) : Result :=
  .next (if s.dev.phase == .heldInReset then s
    else
      let s1 := s.bump 0x1220 3 0 1
      let off := (offset.map (·.toNat)).getD 0
      let n := if offset.isNone then 0 else min 64 ((((objRow index.toNat sub.toNat).map (·.len)).getD 0) - off)
      if i3cBad index.toNat sub.toNat offset 0 then (s1.bump 0x1220 5 0 1).onMgmt fun m => { m with out := m.out ++ [.i3cData .length []] }
      else
        let r := s1.readItem .i3c index.toNat sub.toNat n off
        r.2.onMgmt fun m => { m with out := m.out ++ [.i3cData r.1.status r.1.data] })

/-- I3C_ADDRESS_ASSIGNMENT: ENTDAA or SETDASA (R355). -/
def execI3cAddressAssignment (address : BitVec 7) (s : State) : Result :=
  .next (if s.dev.phase == .heldInReset then s else s.onMgmt fun m => { m with i3cAddr := address.toNat })

end Sys2Proof.Machine
end

