-- ==== Sys2Proof/Machine/Pins.lean ====
section
/-!
DEFINITION. Pins, supplies and sensors: the alive signal, the external inputs, core rails, temperatures, telemetry, the congestion level and saved meters
(R333, R371, R380 to R382, R385, R399, R420 to R422, R431).
-/
namespace Sys2Proof.Machine

/-! ### The alive signal (R371) -/

/-- FAULT_ALIVE_TOGGLE. -/
def execFaultAliveToggle (s : State) : Result :=
  .next (if s.faults.alive = 1 then s.onFaults fun f => { f with aliveLevel := !f.aliveLevel } else s)

/-! ### External inputs (R380, Table 12-7): 0 `THROTTLE_N`, 1 `VR_FAULT_N`, 2 `RESET_N`; a level is true while the input is active -/

def State.input (s : State) (n : Nat) : Input := s.faults.inputs.getD n Reset.input

def State.onInput (s : State) (n : Nat) (f : Input → Input) : State :=
  s.onFaults fun x => { x with inputs := x.inputs.set n (f (s.input n)) }

/-- A new deglitched level: more than 20 changes within 1 ms are chatter, and a release clears a stuck report (R380, R381) (log 136). -/
def Input.change (i : Input) (level : Bool) (us : Nat) : Input :=
  let recent := (us :: i.changes).filter fun t => us < t + 1000
  { i with
    active := level, since := us, stuck := i.stuck && level, chatter := i.chatter || 20 < recent.length, changes := recent
    assertions := if level then i.assertions + 1 else i.assertions }

/-- A record about an input, while management runs. -/
def State.inputRecord (s : State) (n kind : Nat) : State := if s.managed then s.collectUnit (srcInput n) kind 0 none else s

/-- A change of an input that asks for the safe power level: kind `kind` at each assertion, kind 0x59 when chatter begins. -/
def State.safeInput (s : State) (n kind : Nat) (level : Bool) : State :=
  let i := s.input n
  let j := i.change level s.us
  let s1 := s.onInput n fun _ => j
  let s2 := if level && !i.chatter then s1.inputRecord n kind else s1
  if j.chatter && !i.chatter then s2.inputRecord n 0x59 else s2

/-- THROTTLE_N_CHANGE: the safe power level is entered; it is left by SAFE_LEVEL_EXIT (R380, R381, R399). -/
def execThrottleNChange (level : Bool) (s : State) : Result :=
  let s1 := s.safeInput 0 0x5B level
  .next (if (s.input 0).active == level then s else ((s1.onPower fun p => { p with
    throttleN := p.throttleN || (s1.input 0).active || (s1.input 0).chatter
    throttleOff := s.us }).noteThrottle).settle)

/-- VR_FAULT_N_CHANGE. -/
def execVrFaultNChange (level : Bool) (s : State) : Result :=
  let s1 := s.safeInput 1 0x5A level
  .next (if (s.input 1).active == level then s else ((s1.onPower fun p => { p with
    vrFault := p.vrFault || (s1.input 1).active || (s1.input 1).chatter
    vrOff := s.us }).noteThrottle).settle)

/-- RESET_N_CHANGE: an active input holds the device in reset, and its release boots the device as after power-on; an input that chatters stays active
(R380, R404). Chatter is recorded at the next boot. -/
def execResetNChange (level : Bool) (boot : BootReport) (s : State) : Result :=
  let i := s.input 2
  let j := i.change level s.us
  let s1 := s.onInput 2 fun _ => { j with owed := if j.chatter then some 0x59 else j.owed }
  .next (if i.active == level then s
    else if level || j.chatter then s1.holdInReset
    else (s1.reboot boot true).settle)

/-- INPUT_STUCK: an input active beyond its stuck limit (0x7050.03); that of `RESET_N` is recorded at the next boot. -/
def execInputStuck (input : Nat) (s : State) : Result :=
  let i := s.input input
  .next (if !i.active || i.stuck || 2 < input || !s.due (i.since + 1000 * s.rw 0x7050 3 input) then s
    else if input = 2 then s.onInput 2 fun i => { i with stuck := true, owed := some 0x58 }
    else ((s.onInput input fun i => { i with stuck := true }).inputRecord input 0x58).settle)

/-- INPUT_CHATTER_END: 10 ms without a change. A `RESET_N` then stable and inactive lets the device boot, its outcome a free value (R380, log 61)
(log 135). -/
def execInputChatterEnd (input : Nat) (s : State) : Result :=
  let i := s.input input
  let s1 := s.onInput input fun i => { i with chatter := false }
  .next (if !i.chatter || 2 < input || !s.due (i.since + 10000) then s
    else if input = 2 then (if i.active then s1 else (s1.freeBoot.2.reboot s1.freeBoot.1 true).settle)
    else (s1.onPower fun p => if input = 0 then { p with throttleOff := s.us } else { p with vrOff := s.us }).settle)

/-- SAFE_LEVEL_EXIT: a cause of 0x7810.03, by its bit, ends after 100 ms (R381, R399, R422). -/
def execSafeLevelExit (cause : Nat) (s : State) : Result :=
  let quiet := fun (n : Nat) => !(s.input n).active && !(s.input n).chatter
  .next (s.onPower fun p =>
    if cause = 0 then { p with throttleN := p.throttleN && !(quiet 0 && s.due (p.throttleOff + 100000)) }
    else if cause = 1 then { p with vrFault := p.vrFault && !(quiet 1 && s.due (p.vrOff + 100000)) }
    else if cause = 2 then { p with
      railTrip := p.railTrip && !s.due (p.railUntil + 100000)
      avsFault := if s.due (p.avsOkSince + 100000) then [] else p.avsFault }
    else p).settle

/-! ### Core rails (R420 to R422) -/

/-- Whether a clock of a die is changing or waits to rise: its rail is then not lowered (R421). -/
def State.railHeld (s : State) (die : Nat) : Bool := s.islands.any fun x => islandDie x.num == die && (x.st == .clockChanging || x.wish.isSome)

/-- AVS_REFRESH: sets a die's rail to the voltage its speed monitors call for, plus 15 mV, within 0.65 to 0.85 V, and reads it back; a regulator that does not
answer keeps its last (R420, R422). The voltage called for is that of the fastest clocks in use or asked for; while one changes the rail only rises
(R421, log 163). -/
def execAvsRefresh (die millivolts : Nat) (s : State) : Result :=
  let mv := max 650 (min 850 (millivolts + 15))
  .next (if !s.managed || 2 ≤ die || !s.diePresent die || s.power.avsFault.contains die then s
    else ((s.onPower fun p => { p with
      railMv := p.railMv.set die (if s.railHeld die then max (p.railMv.getD die 0) mv else mv), railSetUs := p.railSetUs.set die s.us })).onIslands fun l =>
        mapIf (fun x => islandDie x.num == die) (fun x => { x with railFor := max x.clk (max (x.relock.getD 0) (x.wish.getD 0)) }) l)

/-- AVS_TIMEOUT: three times no answer within 1 ms: the safe power level, cause rail (R422) (log 137). -/
def execAvsTimeout (die : Nat) (s : State) : Result :=
  .next (if !s.managed || 2 ≤ die || !s.diePresent die then s
    else ((s.onPower fun p => { p with avsFault := insNat p.avsFault die, avsOkSince := s.us }).noteThrottle).settle)

/-! ### Temperatures (R431, Table 14-10) -/

/-- Thresholds of a sensor in tenths of a degree: entry and exit of its minimum-clock row, and trip. -/
def sensorLimits (n : Nat) : Int × Int × Int := if n < 2 then (1000, 950, 1100) else (950, 900, 1000)

/-- Whether a sensor exists on the configuration. -/
def State.sensorPresent (s : State) (n : Nat) : Bool := n < 14 && s.diePresent (if n < 2 then n else (n - 2) / 6)

/-- Follows the minimum-clock row of a sensor: entered at its threshold, left after 100 ms below its exit. -/
def stepHot (hot : List (Nat × Option Nat)) (n : Nat) (t : Int) (us : Nat) : List (Nat × Option Nat) :=
  let lim := sensorLimits n
  if hot.any (·.1 == n) then
    (hot.map fun x => if x.1 = n then (n, if t < lim.2.1 then some (x.2.getD us) else none) else x).filter fun x =>
      !(x.1 == n && (x.2.map fun since => decide (since + 100000 ≤ us)).getD false)
  else if lim.1 ≤ t then hot ++ [(n, none)] else hot

/-- Takes a reading. -/
def State.takeReading (s : State) (n : Nat) (t : Int) : State :=
  let s1 := s.onPower fun p => { p with sensors := p.sensors.set n t, hot := stepHot p.hot n t s.us }
  let s2 := if n < 2 then s1
    else s1.onHbm fun h => { h with refreshHalved := if 850 ≤ t then insNat h.refreshHalved (n - 2) else h.refreshHalved.filter (· != n - 2) }
  let s3 := if s2.sensorThrottles n && !s2.power.thermal then
      ((s2.onPower fun p => { p with thermal := true }).collectUnit (srcSensor n) 0x5C 0 none).noteThrottle
    else s2
  let s4 := if (sensorLimits n).2.2 ≤ t then s3.severe (.thermalTrip n) false else s3
  s4.endThermal

/-- THERMAL_SAMPLE: one reading of a sensor; clocks step at the period boundaries that follow (R431) (log 125, 138). -/
def execThermalSample (r : ThermalReading) (s : State) : Result :=
  .next (if s.managed && s.sensorPresent r.sensor then (s.takeReading r.sensor r.deciC).settle else s)

/-! ### Telemetry, congestion, meters -/

/-- TELEMETRY_REFRESH: while a regulator does not answer, the last values received stand (R382, R422). -/
def execTelemetryRefresh (t : Telemetry) (s : State) : Result :=
  .next (if !s.managed then s
    else s.onPower fun p =>
      if p.avsFault.isEmpty then { p with telemetry := t, energyJ := p.energyJ + t.energyJ }
      else { p with telemetry := { p.telemetry with dieTemps := t.dieTemps, stackTemp := t.stackTemp } })

/-- CONGESTION_LEVEL_UPDATE: 3 with a device-wide throttle in the interval, else by the share of periods in which work waited under R36 (R333). -/
def execCongestionLevelUpdate (s : State) : Result :=
  .next (if !s.managed || !s.due (s.power.congestionUs + 10000) then s
    else s.onPower fun p => { p with
      congestion :=
        if p.throttledSince || s.throttled then 3
        else if p.totalPeriods = 0 then 0
        else if p.totalPeriods ≤ 10 * p.waitedPeriods then 2
        else if p.totalPeriods ≤ 100 * p.waitedPeriods then 1 else 0
      congestionUs := s.us, throttledSince := false, waitedPeriods := 0, totalPeriods := 0 })

/-- METER_SAVE (R385). -/
def execMeterSave (s : State) : Result :=
  .next (if s.managed && s.meters.lastSave + 60000 ≤ s.ms then s.onMeters fun m => { m with saved := m.live, lastSave := s.ms } else s)

end Sys2Proof.Machine
end

