-- ==== Sys2Proof/Machine/Dispatch.lean ====
section
/-!
DEFINITION. One arm per command: what runs it.
-/
namespace Sys2Proof.Machine

def exec (i : Instr) (s : State) : Host.Outcome State Fault Refusal :=
  match i with
  | .register m b => Sys2Proof.Machine.execRegister m b s
  | .heartbeat m b => Sys2Proof.Machine.execHeartbeat m b s
  | .deregister m => Sys2Proof.Machine.execDeregister m s
  | .deregisterReturnLeases m => Sys2Proof.Machine.execDeregisterReturnLeases m s
  | .admitTurn m b => Sys2Proof.Machine.execAdmit m b s
  | .placeCompletion r => Sys2Proof.Machine.execPlaceCompletion r s
  | .acceptTimeout handle => Sys2Proof.Machine.execAcceptTimeout handle s
  | .placementWaitExpiry handle => Sys2Proof.Machine.execPlacementWaitExpiry handle s
  | .handoff m b => Sys2Proof.Machine.execHandoff m b s
  | .releaseEndTurn m b => Sys2Proof.Machine.execReleaseEndTurn m b s
  | .releaseFree m b => Sys2Proof.Machine.execReleaseFree m b s
  | .releaseSecure m b => Sys2Proof.Machine.execReleaseSecure m b s
  | .drainComplete handle => Sys2Proof.Machine.execDrainComplete handle s
  | .lookup m b => Sys2Proof.Machine.execLookup m b s
  | .publish m b => Sys2Proof.Machine.execPublish m b s
  | .unpublish m first => Sys2Proof.Machine.execUnpublish m first s
  | .append m b => Sys2Proof.Machine.execAppend m b s
  | .refreshAppend m b => Sys2Proof.Machine.execRefreshAppend m b s
  | .appendCompletion id => Sys2Proof.Machine.execAppendCompletion id s
  | .frameFreedForAppend id => Sys2Proof.Machine.execFrameFreedForAppend id s
  | .appendHoldExpiry id => Sys2Proof.Machine.execAppendHoldExpiry id s
  | .attend m b => Sys2Proof.Machine.execAttend m b s
  | .tileIssue tile => Sys2Proof.Machine.execTileIssue tile s
  | .fuseWaitExpiry tile => Sys2Proof.Machine.execFuseWaitExpiry tile s
  | .tileCompute tile verdict => Sys2Proof.Machine.execTileCompute tile verdict s
  | .scarfMerge partial_ => Sys2Proof.Machine.execScarfMerge partial_ s
  | .attendCompletion id => Sys2Proof.Machine.execAttendCompletion id s
  | .stage m b => Sys2Proof.Machine.execStage m b s
  | .stageAndPin m b => Sys2Proof.Machine.execStageAndPin m b s
  | .clearPinned m b => Sys2Proof.Machine.execClearPinned m b s
  | .stagingDone id => Sys2Proof.Machine.execStagingDone id s
  | .stageTimeout id => Sys2Proof.Machine.execStageTimeout id s
  | .deliver m b => Sys2Proof.Machine.execDeliver m b s
  | .deliverLayerWrite id => Sys2Proof.Machine.execDeliverLayerWrite id s
  | .progress m tag count => Sys2Proof.Machine.execProgress m tag count s
  | .deliveryIdleTimeout id => Sys2Proof.Machine.execDeliveryIdleTimeout id s
  | .deliverCompletion id => Sys2Proof.Machine.execDeliverCompletion id s
  | .mailboxWrite w => Sys2Proof.Machine.execMailboxWrite w s
  | .mailboxDoorbell w => Sys2Proof.Machine.execMailboxDoorbell w s
  | .mailboxReceiverCompletion r => Sys2Proof.Machine.execMailboxReceiverCompletion r s
  | .mailboxDeliveryTimeout partition box => Sys2Proof.Machine.execMailboxDeliveryTimeout partition box s
  | .mailboxOperatorTake g => Sys2Proof.Machine.execMailboxOperatorTake g s
  | .operatorMailboxSend g body => Sys2Proof.Machine.execOperatorMailboxSend g body s
  | .roleAdviceCompletion r => Sys2Proof.Machine.execRoleAdviceCompletion r s
  | .adviceEvaluation partition => Sys2Proof.Machine.execAdviceEvaluation partition s
  | .adviceHoldEnd partition node => Sys2Proof.Machine.execAdviceHoldEnd partition node s
  | .leaseTimeout node => Sys2Proof.Machine.execLeaseTimeout node s
  | .ledgerSyncCreate m b => Sys2Proof.Machine.execLedgerSyncCreate m b s
  | .ledgerSyncTokens m b => Sys2Proof.Machine.execLedgerSyncTokens m b s
  | .ledgerSyncCut m b => Sys2Proof.Machine.execLedgerSyncCut m b s
  | .ledgerSyncFree m b => Sys2Proof.Machine.execLedgerSyncFree m b s
  | .ledgerSyncReadmit m b => Sys2Proof.Machine.execLedgerSyncReadmit m b s
  | .ledgerSyncCompletion r mirrored => Sys2Proof.Machine.execLedgerSyncCompletion r mirrored s
  | .ledgerMirrorTimeout handle => Sys2Proof.Machine.execLedgerMirrorTimeout handle s
  | .relayStore m b => Sys2Proof.Machine.execRelayStore m b s
  | .relayFetchAndMove m b => Sys2Proof.Machine.execRelayFetchAndMove m b s
  | .relayFetchCopy m b => Sys2Proof.Machine.execRelayFetchCopy m b s
  | .relayMirror m b => Sys2Proof.Machine.execRelayMirror m b s
  | .relayCompletion r refs images => Sys2Proof.Machine.execRelayCompletion r refs images s
  | .relayTimeout id => Sys2Proof.Machine.execRelayTimeout id s
  | .peerProbe m b => Sys2Proof.Machine.execPeerProbe m b s
  | .peerProbeCompletion r matched holder => Sys2Proof.Machine.execPeerProbeCompletion r matched holder s
  | .peerTimeout node => Sys2Proof.Machine.execPeerTimeout node s
  | .migrationStart g => Sys2Proof.Machine.execMigrationStart g s
  | .cmReq r => Sys2Proof.Machine.execCmReq r s
  | .cmDisconnect qp => Sys2Proof.Machine.execCmDisconnect qp s
  | .ringMessageWrite w => Sys2Proof.Machine.execRingMessageWrite w s
  | .ringConsumerUpdate qp value => Sys2Proof.Machine.execRingConsumerUpdate qp value s
  | .completionRingWrite ring => Sys2Proof.Machine.execCompletionRingWrite ring s
  | .sendReceived qp length => Sys2Proof.Machine.execSendReceived qp length s
  | .rnrNakReceived qp => Sys2Proof.Machine.execRnrNakReceived qp s
  | .nodeReadOrWriteRefused qp isRead => Sys2Proof.Machine.execNodeReadOrWriteRefused qp isRead s
  | .rdmaReadComplete id result => Sys2Proof.Machine.execRdmaReadComplete id result s
  | .ackReceived qp kind => Sys2Proof.Machine.execAckReceived qp kind s
  | .ackTimeout qp => Sys2Proof.Machine.execAckTimeout qp s
  | .cePacketReceived qp => Sys2Proof.Machine.execCePacketReceived qp s
  | .cnpReceived qp => Sys2Proof.Machine.execCnpReceived qp s
  | .rateIncreaseEvent qp => Sys2Proof.Machine.execRateIncreaseEvent qp s
  | .alphaTimerExpiry qp => Sys2Proof.Machine.execAlphaTimerExpiry qp s
  | .pfcFrameReceived lp pause enable => Sys2Proof.Machine.execPfcFrameReceived lp pause enable s
  | .ingressBufferThreshold lp share => Sys2Proof.Machine.execIngressBufferThreshold lp share s
  | .pauseWatchdog lp priority => Sys2Proof.Machine.execPauseWatchdog lp priority s
  | .frameCheckDrop lp check => Sys2Proof.Machine.execFrameCheckDrop lp check s
  | .unsupportedFrameDrop lp frame => Sys2Proof.Machine.execUnsupportedFrameDrop lp frame s
  | .egressFrameSend lp => Sys2Proof.Machine.execEgressFrameSend lp s
  | .shaperWindowBoundary die => Sys2Proof.Machine.execShaperWindowBoundary die s
  | .periodBoundary island => Sys2Proof.Machine.execPeriodBoundary island s
  | .clockRelockDone island => Sys2Proof.Machine.execClockRelockDone island s
  | .trussHandshakeTimeout waiter stop => Sys2Proof.Machine.execTrussHandshakeTimeout waiter stop s
  | .pageMove id => Sys2Proof.Machine.execPageMove id s
  | .shootdownComplete id => Sys2Proof.Machine.execShootdownComplete id s
  | .ageScanVisit handle => Sys2Proof.Machine.execAgeScanVisit handle s
  | .extentEvacuation extent => Sys2Proof.Machine.execExtentEvacuation extent s
  | .headTableGrowth handle => Sys2Proof.Machine.execHeadTableGrowth handle s
  | .tableBuild partition => Sys2Proof.Machine.execTableBuild partition s
  | .tableSetInstalled partition => Sys2Proof.Machine.execTableSetInstalled partition s
  | .mortiseInsertion id => Sys2Proof.Machine.execMortiseInsertion id s
  | .secondLevelSearchDone id => Sys2Proof.Machine.execSecondLevelSearchDone id s
  | .mortiseCompaction bank => Sys2Proof.Machine.execMortiseCompaction bank s
  | .mortisePatrol bank index parityOk => Sys2Proof.Machine.execMortisePatrol bank index parityOk s
  | .bankModeRequest g mode => Sys2Proof.Machine.execBankModeRequest g mode s
  | .modeMoveComplete => Sys2Proof.Machine.execModeMoveComplete s
  | .flashProgramConfirm island superblock row => Sys2Proof.Machine.execFlashProgramConfirm island superblock row s
  | .rowPadTimeout island superblock row => Sys2Proof.Machine.execRowPadTimeout island superblock row s
  | .flashReadComplete id verdict => Sys2Proof.Machine.execFlashReadComplete id verdict s
  | .flashEraseFailure island superblock member => Sys2Proof.Machine.execFlashEraseFailure island superblock member s
  | .flashProgramFailure island superblock slot => Sys2Proof.Machine.execFlashProgramFailure island superblock slot s
  | .gcTargetFailure island superblock member => Sys2Proof.Machine.execGcTargetFailure island superblock member s
  | .garbageCollection island tlc => Sys2Proof.Machine.execGarbageCollection island tlc s
  | .victimErase island superblock => Sys2Proof.Machine.execVictimErase island superblock s
  | .journalFlush island => Sys2Proof.Machine.execJournalFlush island s
  | .checkpoint island => Sys2Proof.Machine.execCheckpoint island s
  | .flashPatrolRead island superblock slot verdict => Sys2Proof.Machine.execFlashPatrolRead island superblock slot verdict s
  | .secureReleaseComplete handle => Sys2Proof.Machine.execSecureReleaseComplete handle s
  | .dieTemperatureSample island temps => Sys2Proof.Machine.execDieTemperatureSample island temps s
  | .hbmPatrolRead channel unit verdict => Sys2Proof.Machine.execHbmPatrolRead channel unit verdict s
  | .commit g byOperation value => Sys2Proof.Machine.execCommit g byOperation value s
  | .drainLimitExpiry => Sys2Proof.Machine.execDrainLimitExpiry s
  | .epochDrainEnd => Sys2Proof.Machine.execEpochDrainEnd s
  | .sliceDrainDone slice => Sys2Proof.Machine.execSliceDrainDone slice s
  | .zeroingDone slice => Sys2Proof.Machine.execZeroingDone slice s
  | .discardShadow g value => Sys2Proof.Machine.execDiscardShadow g value s
  | .shadowReservation g value => Sys2Proof.Machine.execShadowReservation g value s
  | .reservationLimitExpiry => Sys2Proof.Machine.execReservationLimitExpiry s
  | .timeOfDayWrite g value => Sys2Proof.Machine.execTimeOfDayWrite g value s
  | .applyMgmtConfiguration g value => Sys2Proof.Machine.execApplyMgmtConfiguration g value s
  | .linkReset g value => Sys2Proof.Machine.execLinkReset g value s
  | .credentialWrite g item => Sys2Proof.Machine.execCredentialWrite g item s
  | .serviceRoleDisable g => Sys2Proof.Machine.execServiceRoleDisable g s
  | .sequenceWindowSelect g handle => Sys2Proof.Machine.execSequenceWindowSelect g handle s
  | .meterTenantSelect g tenant => Sys2Proof.Machine.execMeterTenantSelect g tenant s
  | .operatorReportRead g => Sys2Proof.Machine.execOperatorReportRead g s
  | .fenceUnit g value => Sys2Proof.Machine.execFenceUnit g value s
  | .returnUnit g value passes => Sys2Proof.Machine.execReturnUnit g value passes s
  | .clearFirstError g value => Sys2Proof.Machine.execClearFirstError g value s
  | .deviceReset g request boot => Sys2Proof.Machine.execDeviceReset g request boot s
  | .dieReset g request boot => Sys2Proof.Machine.execDieReset g request boot s
  | .clusterReset g request => Sys2Proof.Machine.execClusterReset g request s
  | .partitionReset g request => Sys2Proof.Machine.execPartitionReset g request s
  | .portReset g request => Sys2Proof.Machine.execPortReset g request s
  | .orderlyShutdown g value => Sys2Proof.Machine.execOrderlyShutdown g value s
  | .shutdownRequestTimeout => Sys2Proof.Machine.execShutdownRequestTimeout s
  | .imageSegmentWrite g item => Sys2Proof.Machine.execImageSegmentWrite g item s
  | .imageVerify g value signed configOk version => Sys2Proof.Machine.execImageVerify g value signed configOk version s
  | .firmwareSwitch g value report => Sys2Proof.Machine.execFirmwareSwitch g value report s
  | .firmwareHoldLimitExpiry => Sys2Proof.Machine.execFirmwareHoldLimitExpiry s
  | .clusterHoldOff g value => Sys2Proof.Machine.execClusterHoldOff g value s
  | .powerCapStep => Sys2Proof.Machine.execPowerCapStep s
  | .clusterGate cluster => Sys2Proof.Machine.execClusterGate cluster s
  | .clusterWake cluster => Sys2Proof.Machine.execClusterWake cluster s
  | .mgmtHello handshake slot nonce ek address => Sys2Proof.Machine.execMgmtHello handshake slot nonce ek address s
  | .mgmtFinish handshake sigOk => Sys2Proof.Machine.execMgmtFinish handshake sigOk s
  | .mgmtClose g => Sys2Proof.Machine.execMgmtClose g s
  | .mgmtRead g items => Sys2Proof.Machine.execMgmtRead g items s
  | .mgmtWrite g items => Sys2Proof.Machine.execMgmtWrite g items s
  | .mgmtBlockRead g item lastSub => Sys2Proof.Machine.execMgmtBlockRead g item lastSub s
  | .mgmtHandshakeTimeout handshake => Sys2Proof.Machine.execMgmtHandshakeTimeout handshake s
  | .mgmtSessionIdleTimeout slot => Sys2Proof.Machine.execMgmtSessionIdleTimeout slot s
  | .sessionCloseCommand g value => Sys2Proof.Machine.execSessionCloseCommand g value s
  | .slotLockoutEnd slot => Sys2Proof.Machine.execSlotLockoutEnd slot s
  | .attestHelloTenantKeys slot partition nonce ek => Sys2Proof.Machine.execAttestHelloTenantKeys slot partition nonce ek s
  | .attestHelloPeerPairing slot partition nonce ek => Sys2Proof.Machine.execAttestHelloPeerPairing slot partition nonce ek s
  | .attestHelloReportOnly slot partition nonce => Sys2Proof.Machine.execAttestHelloReportOnly slot partition nonce s
  | .attestFinish slot opens sigOk identityHash => Sys2Proof.Machine.execAttestFinish slot opens sigOk identityHash s
  | .startPairing g value => Sys2Proof.Machine.execStartPairing g value s
  | .pairingDeviceReceived slot sigOk identityHash => Sys2Proof.Machine.execPairingDeviceReceived slot sigOk identityHash s
  | .tenantKeyRelease k => Sys2Proof.Machine.execTenantKeyRelease k s
  | .tenantKeyErase k => Sys2Proof.Machine.execTenantKeyErase k s
  | .tenantKeyQuery k => Sys2Proof.Machine.execTenantKeyQuery k s
  | .attestClose slot => Sys2Proof.Machine.execAttestClose slot s
  | .attestSessionIdleTimeout slot => Sys2Proof.Machine.execAttestSessionIdleTimeout slot s
  | .peerLinkRekey peer => Sys2Proof.Machine.execPeerLinkRekey peer s
  | .i3cWrite index sub offset last value boot => Sys2Proof.Machine.execI3cWrite index sub offset last value boot s
  | .i3cRead index sub offset => Sys2Proof.Machine.execI3cRead index sub offset s
  | .i3cAddressAssignment address => Sys2Proof.Machine.execI3cAddressAssignment address s
  | .faultRecord a => Sys2Proof.Machine.execFaultRecord a s
  | .faultQueueDropReport island => Sys2Proof.Machine.execFaultQueueDropReport island s
  | .severeSignal pair broken => Sys2Proof.Machine.execSevereSignal pair broken s
  | .faultAliveToggle => Sys2Proof.Machine.execFaultAliveToggle s
  | .throttleNChange level => Sys2Proof.Machine.execThrottleNChange level s
  | .vrFaultNChange level => Sys2Proof.Machine.execVrFaultNChange level s
  | .resetNChange level boot => Sys2Proof.Machine.execResetNChange level boot s
  | .inputStuck input => Sys2Proof.Machine.execInputStuck input s
  | .inputChatterEnd input => Sys2Proof.Machine.execInputChatterEnd input s
  | .safeLevelExit cause => Sys2Proof.Machine.execSafeLevelExit cause s
  | .avsRefresh die millivolts => Sys2Proof.Machine.execAvsRefresh die millivolts s
  | .avsTimeout die => Sys2Proof.Machine.execAvsTimeout die s
  | .thermalSample r => Sys2Proof.Machine.execThermalSample r s
  | .telemetryRefresh t => Sys2Proof.Machine.execTelemetryRefresh t s
  | .congestionLevelUpdate => Sys2Proof.Machine.execCongestionLevelUpdate s
  | .meterSave => Sys2Proof.Machine.execMeterSave s
  | .linkTrained port => Sys2Proof.Machine.execLinkTrained port s
  | .cmRtu qp => Sys2Proof.Machine.execCmRtu qp s
  | .ackCoalescingTimeout qp => Sys2Proof.Machine.execAckCoalescingTimeout qp s
  | .arpOrNeighbourSolicitation isArp target => Sys2Proof.Machine.execArpOrNeighbourSolicitation isArp target s
  | .vddAuxLoss => Sys2Proof.Machine.execVddAuxLoss s
  | .peerHeartbeatSend => Sys2Proof.Machine.execPeerHeartbeatSend s

end Sys2Proof.Machine
end

