-- ==== Sys2Proof/Safety.lean ====
section
/-!
DEFINITION. What claims speak of: the legal states, and the conditions under which a command reaches its own effect (a message its opcode, a request of a
sequence its sequence, an item of a management request its object).
-/
namespace Sys2Proof.Machine

/-! ### Legal states -/

/-- What every step keeps of a state: HBM's contents in canonical form (log 8), an epoch R309 gives, a saved time of day not ahead of the time of day (R357),
and one of two firmware halves active (R407). -/
structure State.Legal (s : State) : Prop where
  memory : Memory.wf s.hbm.mem
  epoch : 1 ≤ s.epochs.active ∧ s.epochs.active ≤ 65535
  saved : s.clock.saved ≤ s.clock.tod
  half : s.fw.active < 2

/-- A credential that R346 keeps: enabled and of the administrator role. -/
def State.guarded (s : State) : Bool := s.mgmt.creds.any Cred.admin

/-! ### A message that reaches its opcode's own checks (R246, R285, R296, R297) -/

/-- The state in which an accepted message meets its opcode: the message heard, taken in, counted and charged to its policer. -/
def State.admitted (s : State) (q : Qp) (m : Rx) (op refBytes : Nat) : State := ((s.arrived q m).policed q m op refBytes).2.2

/-- A message on a connected queue pair that no header check refuses and no policer holds back; `u` is the state in which it meets its opcode. -/
structure State.Accepts (s : State) (q : Qp) (m : Rx) (op : Nat) (ep : EpochUse) (refBytes : Nat) (u : State) : Prop where
  serving : s.serving = true
  pair : s.qp m.qp = some q
  connected : q.connected = true
  header : (s.arrived q m).checkHeader q m.hdr m.length op ep = none
  conforms : ((s.arrived q m).policed q m op refBytes).1 = true
  meets : s.admitted q m op refBytes = u

/-- What follows an accepted message's own effect: its bytes are metered (R384), and what goes on by itself goes on. -/
def State.ended (s : State) (q : Qp) (m : Rx) : State := (s.meterBytes q.part m.hdr.tenant.toNat m.length).settle

/-! ### A request of a sequence that R45 and R249 let in at once -/

/-- The sequence `x` of a request takes the active epoch with it, unless it is in that epoch already (R249). -/
def State.inEpoch (s : State) (h : Hdr) (handle : Nat) (x : Seq) : State :=
  if h.epoch.toNat = s.epochs.active ∧ x.epoch ≠ s.epochs.active then s.onSeq handle fun y => { y with epoch := s.epochs.active } else s

/-- An accepted request `i` whose handle names a sequence, and that runs at once: one whose sender does not hold the lease it needs, which touches nothing on the
way to its refusal (R76), or one with no earlier request of the sequence waiting for the epoch and no work of an older epoch that makes it wait; `u` is the state in
which it runs, and `x` its sequence there. -/
structure State.LetsIn (s : State) (i : Instr) (q : Qp) (m : Rx) (op refBytes : Nat) (x : Seq) (u : State) : Prop where
  accepts : s.Accepts q m op .checked refBytes (s.admitted q m op refBytes)
  known : (s.admitted q m op refBytes).checkHandle m.hdr m.hdr.handle.toNat = none
  first : ∃ y, (s.admitted q m op refBytes).seq m.hdr.handle.toNat = some y ∧
    if (needsLease i && !(s.admitted q m op refBytes).holds m.qp y) = true then s.admitted q m op refBytes = u
    else y.epochQueue.isEmpty = true ∧
      ¬(m.hdr.epoch.toNat = (s.admitted q m op refBytes).epochs.active ∧ y.epoch ≠ (s.admitted q m op refBytes).epochs.active
        ∧ (s.admitted q m op refBytes).inFlight m.hdr.handle.toNat true = true)
      ∧ (s.admitted q m op refBytes).inEpoch m.hdr m.hdr.handle.toNat y = u
  named : u.checkHandle m.hdr m.hdr.handle.toNat = none
  seq : u.seq m.hdr.handle.toNat = some x

/-- An accepted message of a registered peer node that R270 does not fence: the peer was never declared gone, or it has drawn its `FENCED` since, and the message
begins something anew (`fresh`) or concerns a sequence of handle `h` that is mirrored here. -/
structure State.FromPeer (s : State) (q : Qp) (m : Rx) (op : Nat) (nd : Node) (h : Nat) (fresh : Bool) (u : State) : Prop where
  accepts : s.Accepts q m op .unchecked 0 u
  node : u.nodeOf m.qp = some nd
  alive : ∀ g, u.broker.gone.find? (fun g => g.part == nd.part && g.ident == nd.ident) = some g →
    g.fenced = true ∧ (fresh = true ∨ u.broker.mirrors.any (fun x => x.part == nd.part && x.peer == nd.num && x.handle == h) = true)

/-! ### A completion that answers a request of the device (R247) -/

/-- A completion on a connected queue pair that answers request `a` of the device; `u` is the state in which its effect begins: the node heard, and the
request no longer outstanding. -/
structure State.Answers (s : State) (q : Qp) (r : Reply) (mine : AskKind → Bool) (a : Ask) (u : State) : Prop where
  serving : s.serving = true
  pair : s.qp r.qp = some q
  connected : q.connected = true
  asked : (s.heard q).askOf q r mine = some a
  begins : (s.heard q).dropAsk a = u

/-! ### A flash island that runs (R210, R224) -/

/-- A running device with the flash island of number `num` (15, or 33 on the AL) enabled; `i` is its index. -/
structure State.FlashUp (s : State) (num i : Nat) : Prop where
  serving : s.serving = true
  island : num = 15 ∨ (num = 33 ∧ s.dev.part = .al)
  enabled : ∃ f, s.fisland (flashIndex num) = some f ∧ f.disabled = false
  index : flashIndex num = i

/-! ### A management request that the port takes (R352 to R354) -/

/-- An open session's frame that opens, is not a replay, and carries a new request number. -/
structure State.Takes (s : State) (x : Session) (g : Mgmt) : Prop where
  serves : s.portServes = true
  session : s.mgmt.sessions.find? (·.id == g.session.toNat) = some x
  opens : g.opens = true
  counter : x.inCounter ≤ g.counter
  fresh : x.replies.find? (fun r => r.1 == g.request) = none
  inWindow : ¬(16 ≤ x.replies.length ∧ x.replies.all (fun r => g.request < r.1) = true)

/-- The state in which the request's items run: the frame counted, and the request counted (0x1102.01). -/
def State.begun (s : State) (x : Session) (g : Mgmt) : State := (s.framed x g).bump 0x1102 1 0 1

/-- An administrator's request about item `item` of field `ix`.`sub`, on a device whose management runs; `b` is the state in which it executes. -/
structure State.Manages (s : State) (x : Session) (g : Mgmt) (b : State) (ix sub item : Nat) : Prop where
  takes : s.Takes x g
  begun : s.begun x g = b
  managed : b.managed = true
  administrator : b.roleOf (.session x.slot) = 0
  named : (b.access (.session x.slot)).item ix sub = item
  present : b.itemAbsent (b.access (.session x.slot)) ix sub = false

/-- What follows a request that wrote field `ix`.`sub` and so succeeded: its one record says `OK` (R353). -/
def State.wroteOk (u : State) (x : Session) (g : Mgmt) (ix sub : Nat) : State :=
  u.answered x g (.ok, [Record.only .ok sub (((objRow ix sub).map (·.ty)).getD 0)])

/-- A reset below the device's is noted in 0x7820.02: level and unit (Table 13-3). -/
def State.resetNoted (u : State) (request : W32) : State :=
  u.onDev fun d => { d with lastReset := request.toNat / 2 ^ 28 % 16 * 2 ^ 28 + request.toNat % 65536 }

end Sys2Proof.Machine

/-! ### Commands of management -/

/-- Requests of management and of the I3C link, resets and boots, and the ends of sessions, lockouts, a firmware switch and a shutdown. -/
def Sys2Proof.Instr.configures (c : Instr) : Bool :=
  match c with
  | .mailboxOperatorTake .. | .operatorMailboxSend .. | .migrationStart .. | .bankModeRequest .. | .commit .. | .discardShadow ..
  | .shadowReservation .. | .timeOfDayWrite .. | .applyMgmtConfiguration .. | .linkReset .. | .credentialWrite .. | .serviceRoleDisable ..
  | .sequenceWindowSelect .. | .meterTenantSelect .. | .operatorReportRead .. | .fenceUnit .. | .returnUnit .. | .clearFirstError ..
  | .deviceReset .. | .dieReset .. | .clusterReset .. | .partitionReset .. | .portReset .. | .orderlyShutdown .. | .shutdownRequestTimeout
  | .imageSegmentWrite .. | .imageVerify .. | .firmwareSwitch .. | .firmwareHoldLimitExpiry | .clusterHoldOff .. | .mgmtFinish .. | .mgmtClose ..
  | .mgmtRead .. | .mgmtWrite .. | .mgmtBlockRead .. | .mgmtSessionIdleTimeout .. | .sessionCloseCommand .. | .slotLockoutEnd .. | .startPairing ..
  | .i3cWrite .. | .i3cRead .. | .resetNChange .. | .inputChatterEnd .. => true
  | _ => false
end

