-- ==== Sys2Proof/Certificates/Slice0/Obligations.lean ====
section
/-!
DEFINITION. The statements for the provers, in the order of the spec's chapters. Each docstring cites the rules it formalises; a log number marks a choice of the
model's on which the statement rests.
-/
open Sys2Proof Sys2Proof.Machine

/-! ### Nodes (R250 to R254, R265, R267) -/

/-- R250, R251. An accepted REGISTER that names no node yet enrols its sender under the lowest number free to the partition, and its record holds what the
body says; one that joins binds its queue pair to the node it names; one on a bound queue pair replaces the record. Each completes with `OK`.
The number a REGISTER gives is below 4,096, no node has it, none gave it up within the last second, and every lower number is in use, was given up
within the last second, or lies in a node block that the partition may not use (R316). -/
def Obligations.RegisterEnrolsUnderTheLowestNumber : Prop :=
  (
    ∀ (s u : State) (q p : Qp) (m : Rx) (b : RegisterBody), s.Accepts q m 0x01 .unchecked 0 u → u.qp m.qp = some p →
      registerFits m b = true → (b.allTenants = true → u.act 0x4002 0x0B p.part = 1) →
      (∀ n, u.qpNode p = none → b.join = false → u.identTaken p b = false →
        u.freeNumber p.part = some n →
        exec (.register m b) s = .next (((u.enrol p m.hdr.tenant.toNat n b).welcome m n).ended q m)) ∧
      (∀ nd, u.qpNode p = none → b.join = true → u.node b.joinNode.toNat = some nd →
        nd.part = p.part → nd.joinKey = b.joinKey.toNat →
        exec (.register m b) s = .next (((u.bindQp p.num nd.num).welcome m nd.num).ended q m)) ∧
      (∀ nd, u.qpNode p = some nd →
        (u.broker.nodes.any fun x => x.part == p.part && x.ident == b.ident.toNat && x.num != nd.num) = false →
        (b.role.toNat = nd.role ∨ u.leases nd.num = 0) →
        exec (.register m b) s = .next (((u.onNode nd.num fun x => x.set m.hdr.tenant.toNat b).welcome m nd.num).ended q m))) ∧
  (
    ∀ (s : State) (p n : Nat), s.freeNumber p = some n →
      n < 4096 ∧ (∀ x ∈ s.broker.nodes, x.num ≠ n) ∧ (∀ x ∈ s.broker.freed, x.1 = n → x.2 + 1000000 ≤ s.us) ∧ s.numberOpen p n = true ∧
      ∀ k, k < n → (∃ x ∈ s.broker.nodes, x.num = k) ∨ (∃ x ∈ s.broker.freed, x.1 = k ∧ s.us < x.2 + 1000000) ∨ s.numberOpen p k = false)

/-- R252, R264, Table 8-5. An accepted HEARTBEAT replaces its node's load, puts its placements since the last one to 0, answers the congestion level and the
leases held, and offers the partition's waiting turns again. -/
def Obligations.HeartbeatReplacesTheLoad : Prop :=
  ∀ (s u : State) (q : Qp) (m : Rx) (b : HeartbeatBody) (nd : Node), s.Accepts q m 0x02 .unchecked 0 u →
    u.nodeOf m.qp = some nd → m.hdr.bodyLen = 24 → b.warmCount.toNat ≤ 8 →
    exec (.heartbeat m b) s = .next ((((u.beat nd.num b).complete (reqOf m 0x02) .ok
      [packWord [(2, u.power.congestion), (14, 0), (16, u.leases nd.num), (32, 0)]] []).retryPlaces
        nd.part).ended q m)

/-- R254. An accepted DEREGISTER of a node without a lease, or with bit 63 set of any node, returns its leases, completes, and forgets the node; with bit 63
clear a node that holds a lease is answered `RETRY_LATER` and stays. -/
def Obligations.DeregisterLeavesOrWaits : Prop :=
  ∀ (s u : State) (q : Qp) (m : Rx) (nd : Node), s.Accepts q m 0x03 .unchecked 0 u → u.nodeOf m.qp = some nd → m.hdr.bodyLen = 8 →
    exec (.deregisterReturnLeases m) s = .next ((u.leave m nd).ended q m) ∧
    exec (.deregister m) s =
      .next ((if u.leases nd.num = 0 then u.leave m nd
        else u.answer (reqOf m 0x03) .retryLater).ended q m)

/-- R253, R267, R250. A node that has been silent for the lease timeout, or whose queue pairs are all in error, and a peer that has sent no HEARTBEAT for the peer
timeout, is gone; while a firmware switch holds requests neither timer ends.
A node declared gone is in the register no more, no queue pair is bound to it, and its number counts as freed now. -/
def Obligations.SilentNodesAreGoneAndForgotten : Prop :=
  (
    ∀ (s : State) (n : Nat) (nd : Node), s.serving = true → s.node n = some nd →
      exec (.leaseTimeout n) s = .next (if s.fw.hold = none ∧ (nd.lastUs + 1000 * s.rw 0x4001 1 0 ≤ s.clock.us ∨ s.nodeQps n = []) then (s.nodeGone n).settle
        else s.settle) ∧
      exec (.peerTimeout n) s = .next (if nd.role = 3 ∧ s.fw.hold = none ∧ nd.beatUs + 1000 * s.rw 0x4005 1 0 ≤ s.clock.us then (s.nodeGone n).settle
        else s.settle)) ∧
  (
    ∀ (s : State) (n : Nat), (s.forgetNode n).node n = none ∧ (∀ q ∈ (s.forgetNode n).net.qps, q.node ≠ some n) ∧
      (n, s.us) ∈ (s.forgetNode n).broker.freed ∧ (∀ k, k ≠ n → (s.forgetNode n).node k = s.node k))

/-- R265, R267. The device's own messages to nodes: at the heartbeat interval a HEARTBEAT with an empty report to every peer; at the advice interval an evaluation of
each partition that has advice enabled, and none between; and the end of an advice by its hold or by the node's refusal. -/
def Obligations.PeerHeartbeatsAndRoleAdvice : Prop :=
  ∀ (s : State), s.serving = true →
    (s.broker.peerBeat + 1000 * s.rw 0x4001 2 0 ≤ s.clock.us → exec .peerHeartbeatSend s =
      .next ((s.each (s.broker.nodes.filter (·.role == 3)) fun s n => s.ask n.num 0x02 9 n.part n.tenant 0 [0, 0, 0] [] none).onBroker fun b =>
        { b with peerBeat := s.clock.us }).settle) ∧
    (∀ p, s.act 0x4003 9 p = 1 → (s.advice p).at_ + 1000 * s.act 0x4003 2 p ≤ s.clock.us →
      exec (.adviceEvaluation p) s = .next (s.evaluateAdvice p).settle ∧ ((s.evaluateAdvice p).advice p).at_ = s.clock.us) ∧
    (∀ p, s.act 0x4003 9 p ≠ 1 ∨ s.clock.us < (s.advice p).at_ + 1000 * s.act 0x4003 2 p → exec (.adviceEvaluation p) s = .next s.settle) ∧
    (∀ p n role tag until_, (s.advice p).out = some (n, role, tag, until_) → until_ ≤ s.clock.us →
      exec (.adviceHoldEnd p n) s = .next (s.setAdvice { s.advice p with
        out := none, declined := (s.advice p).declined.filter fun d => !(d.1 == n && s.due d.2) }).settle) ∧
    (∀ q r a u p, s.Answers q r AskKind.isAdvice a u → a.kind = .advice p →
      exec (.roleAdviceCompletion r) s = .next (if r.status = 0 then u else u.declineAdvice p a.node).settle)

/-! ### Turns and leases (R133, R255 to R262) -/

/-- R255, R256, R257, R437. An accepted ADMIT that passes checks 1 to 5 begins its turn, at once with the tokens it carries or once its RDMA READ has brought them;
one that fails a check is answered with that check's status.
The slot an admission takes is below the partition's slot limit and free, and every lower slot is taken; its generation is drawn from 1 to
4,194,303 at the first use since the device reset, and after that is one more than the last, with 0 skipped. -/
def Obligations.AdmitBeginsATurnInTheLowestSlot : Prop :=
  (
    ∀ (s u : State) (q : Qp) (m : Rx) (b : AdmitBody), s.Accepts q m 0x10 .checked (if b.byRef then b.tokenLen.toNat else 0) u →
      (u.checkAdmit m b = none → b.byRef = false → exec (.admitTurn m b) s = .next ((u.acceptAdmit m b b.tokens).ended q m)) ∧
      (u.checkAdmit m b = none → b.byRef = true →
        exec (.admitTurn m b) s = .next ((u.readTokens m 0x10 b.tokenAddr.toNat b.tokenKey.toNat b.tokenLen.toNat (.admitTurn m b)).ended q m)) ∧
      (∀ st, u.checkAdmit m b = some st →
        exec (.admitTurn m b) s = .next (((if st = .capacity then u.bump 0x4006 3 m.hdr.partition.toNat 1 else u).answer (reqOf m 0x10) st).ended q m))) ∧
  (
    (∀ (s : State) (p n : Nat), s.freeSlot p = some n → n < s.act 0x2101 2 p ∧ (∀ q ∈ s.seqs, q.part = p → q.slot ≠ n) ∧
      ∀ k, k < n → ∃ q ∈ s.seqs, q.part = p ∧ q.slot = k) ∧
    (∀ (s : State) (p n : Nat), sget s.slotGens (p * 2 ^ 20 + n) 0 = 0 → 1 ≤ (s.takeGen p n).1 ∧ (s.takeGen p n).1 ≤ 4194303) ∧
    (∀ (s : State) (p n : Nat), sget s.slotGens (p * 2 ^ 20 + n) 0 ≠ 0 →
      (s.takeGen p n).1 = if sget s.slotGens (p * 2 ^ 20 + n) 0 = 4194303 then 1 else sget s.slotGens (p * 2 ^ 20 + n) 0 + 1) ∧
    (∀ (s : State) (p n : Nat), sget (s.takeGen p n).2.slotGens (p * 2 ^ 20 + n) 0 = (s.takeGen p n).1))

/-- R258, R262, R76. A node's answer to the PLACE that stands gives it the lease (`OK`) or passes the offer on (any other status); the accept timeout passes it on.
Acceptance gives the sequence to the node: HELD in the offered phase, the node its lease holder, and the lease generation one further. -/
def Obligations.AcceptedPlaceHoldsTheLease : Prop :=
  (
    ∀ (s u : State) (h n tag : Nat) (x : Seq) (ph : TurnPhase), x.lease = .offered ph n tag →
      (∀ q r a, s.Answers q r AskKind.isPlace a u → a.kind = .place h → a.tag = tag → u.seq h = some x →
        exec (.placeCompletion r) s = .next (if r.status = 0 then u.acceptPlace h n tag ph else u.refusePlace h n tag ph).settle) ∧
      (∀ w : W64, w.toNat = h → s.serving = true → s.seq h = some x → x.turn.acceptUntil ≤ s.clock.us →
        exec (.acceptTimeout w) s = .next (s.refusePlace h n tag ph).settle)) ∧
  (
    ∀ (s : State) (h n tag : Nat) (ph : TurnPhase) (x : Seq), s.seq h = some x → ∃ y, (s.acceptPlace h n tag ph).seq h = some y ∧
      y.lease = .held ph ∧ y.holder = some n ∧ y.leaseGen = (x.leaseGen + 1) % 65536 ∧ y.turn.target = none ∧ y.ledger = x.ledger ∧ y.pages = x.pages ∧
      y.sealedPos = x.sealedPos)

/-- R256, R261, R262. When the placement wait ends in CHOOSING, an admission that has not been placed is refused with `RETRY_LATER`, and any other turn ends
with that status. -/
def Obligations.PlacementWaitEndsTheTurn : Prop :=
  ∀ (s : State) (w : W64) (x : Seq) (ph : TurnPhase), s.serving = true → s.seq w.toNat = some x → x.lease = .choosing ph → x.turn.waitUntil ≤ s.clock.us →
    exec (.placementWaitExpiry w) s = .next (match ph, x.turn.admitReq with
      | .prefill, some _ => (((s.bump 0x4006 4 x.part 1).dropLookups w.toNat).refuseAdmit w.toNat .retryLater).settle
      | .prefill, none => (s.endTurn w.toNat .retryLater).settle
      | .decode, _ => ((s.answerHandoff w.toNat none .ok).endTurn w.toNat .retryLater).settle)

/-- R77, R259, R260. HANDOFF, and RELEASE with action 0, of the lease holder with the lease generation in force take the lease from it and begin the drain; the
request waits in the turn record.
The drain leaves the sequence without a holder, with the lease generation one further, so that no later append or attend of the old holder passes R76;
its ledger, pages and sealed position stand. -/
def Obligations.HandoffAndEndOfTurnDrainTheLease : Prop :=
  (
    ∀ (s u : State) (q : Qp) (m : Rx) (x : Seq), u.holds m.qp x = true →
      (∀ b : HandoffBody, s.LetsIn (.handoff m b) q m 0x12 0 x u → b.leaseGen.toNat = x.leaseGen → x.ledgerLost = false → pendingFits m b.pendCount.toNat b.pending = true →
        exec (.handoff m b) s = .next ((((u.startDrain m.hdr.handle.toNat true fun t => { t with
            handoffReq := some (reqOf m 0x12), pending := b.pending, classic := b.classic, target := if b.target = 0xFFFF then none else some b.target.toNat }).bump
          0x4006 5 x.part 1).meter x.part x.tenant 0x18 1).ended q m)) ∧
      (∀ b : ReleaseBody, s.LetsIn (.releaseEndTurn m b) q m 0x13 0 x u → ((u.nodeOf m.qp).map (·.role)) ≠ some 2 → b.leaseGen.toNat = x.leaseGen →
        pendingFits m b.pendCount.toNat b.pending = true →
        exec (.releaseEndTurn m b) s = .next ((u.startDrain m.hdr.handle.toNat false fun t => { t with
          releaseReq := some (reqOf m 0x13), pending := b.pending, target := none }).ended q m))) ∧
  (
    ∀ (s : State) (h : Nat) (d : Bool) (f : Turn → Turn) (x : Seq), s.seq h = some x → ∃ y, (s.startDrain h d f).seq h = some y ∧
      y.holder = none ∧ y.leaseGen = (x.leaseGen + 1) % 65536 ∧ y.lease = .draining d ∧ y.ledger = x.ledger ∧ y.pages = x.pages ∧ y.sealedPos = x.sealedPos ∧
      (∀ qp, (s.startDrain h d f).holds qp y = false) ∧ ∀ k, k ≠ h → (s.startDrain h d f).seq k = s.seq k)

/-- R62, R241, R260. RELEASE with action 1, and RELEASE_SECURE, of the lease holder with the generation in force, or of a front end while the device holds the
lease, put the sequence into FREEING; a retained one is answered at once; and a lease in CHOOSING, OFFERED or DRAINING draws `RETRY_LATER` (log 42). -/
def Obligations.ReleaseFrees : Prop :=
  ∀ (s u : State) (q : Qp) (m : Rx) (x : Seq) (b : ReleaseBody) (c : Instr) (op : Nat),
    (c = .releaseFree m b ∧ op = 0x13 ∨ c = .releaseSecure m b ∧ op = 0x14 ∧ b.action = 1) → s.LetsIn c q m op 0 x u → b.pendCount = 0 →
    pendingFits m 0 b.pending = true →
    (x.st = .retained → exec c s = .next ((u.complete (reqOf m op) .ok [packWord [(23, x.sealedPos), (41, 0)]] []).ended q m)) ∧
    (x.st ≠ .retained →
      (if (u.nodeOf m.qp).map (·.role) = some 2 then x.holder = none else u.holds m.qp x = true ∧ b.leaseGen.toNat = x.leaseGen) →
      (∀ ph, x.lease = .idle ∨ x.lease = .held ph → exec c s = .next (((((if op = 0x14 then u.dropPrefix m.hdr.handle.toNat 0 else u).onSeq m.hdr.handle.toNat
        fun y => { y with lease := .freeing, holder := none, turn := { y.turn with releaseReq := some (reqOf m op) } })).finishFreeing m.hdr.handle.toNat).ended q m)) ∧
      (∀ ph n tag d, x.lease = .choosing ph ∨ x.lease = .offered ph n tag ∨ x.lease = .draining d →
        exec c s = .next ((u.answer (reqOf m op) .retryLater).ended q m)))

/-- R133, R262. A drain ends once no append of the old holder is left, no row of an attend received waits to be dispatched (log 157), every wholly written
position has sealed or the mirror timeout has passed, and no row reads what would be cut; until then it goes on. -/
def Obligations.DrainEndsWhenAppendsHave : Prop :=
  ∀ (s : State) (w : W64) (x : Seq) (d : Bool), s.serving = true → s.seq w.toNat = some x → x.lease = .draining d →
    exec (.drainComplete w) s = .next (if (∀ a ∈ s.work.appends, a.handle ≠ x.handle) ∧ s.rowsComing x.handle = false ∧
      (s.allVisible x ≤ x.sealedPos ∨ x.turn.waitUntil ≤ s.clock.us) ∧ s.readsPast x = false then (s.endDrain w.toNat d).settle else s.settle)

/-! ### Prefixes: LOOKUP, PUBLISH, UNPUBLISH and the Mortise array (R157 to R177) -/

/-- R175, R160, R288, R158. An accepted LOOKUP of the right form starts its lookup, at once with the tokens it carries or once its RDMA READ has brought them; one of
another form is answered `MALFORMED`. A second-level answer carries on the lookup that waits for it, once no search of its block is out.
A search lists the valid entries of its group's running banks that match the key; its count saturates at 255; the best match has the highest priority, and among
equals the lowest bank and then the lowest index; TIE says that two or more share the best priority. -/
def Obligations.LookupTakesTheBestMatch : Prop :=
  (∀ (s u : State) (q : Qp) (m : Rx) (b : LookupBody), s.Accepts q m 0x20 .checked (if b.byRef then b.tokenLen.toNat else 0) u →
    let fits := tokensFit m 32 b.tokenCount.toNat b.byRef b.tokenLen.toNat b.tokens (u.act 0x2402 0x0A m.hdr.partition.toNat)
    (m.hdr.handle ≠ 0 ∨ b.headMask = 0 ∨ fits = false → exec (.lookup m b) s = .next ((u.answer (reqOf m 0x20) .malformed).ended q m)) ∧
    (m.hdr.handle = 0 → b.headMask ≠ 0 → fits = true →
      (b.byRef = true →
        exec (.lookup m b) s = .next ((u.readTokens m 0x20 b.tokenAddr.toNat b.tokenKey.toNat b.tokenLen.toNat (.lookup m b)).ended q m)) ∧
      (b.byRef = false → ∀ l, u.newLookup (.lookup (reqOf m 0x20)) m.hdr.partition.toNat m.hdr.tenant.toNat b.variant.toNat b.headMask.toNat 0 b.tokens
          b.privateChain b.publicChain = l →
        exec (.lookup m b) s = .next ((l.2.startLookup l.1).ended q m)))) ∧
  (∀ (s : State) (id : Nat) (lk : Lookup) (r : Lookup × State), s.serving = true → s.mortise.lookups.find? (·.id == id) = some lk → lk.phase = .secondRuns →
    s.secondDone lk = r →
    (r.1.phase = .secondRuns → exec (.secondLevelSearchDone id) s = .next (r.2.keepLookup r.1).settle) ∧
    (r.1.phase ≠ .secondRuns → exec (.secondLevelSearchDone id) s = .next ((r.2.keepLookup r.1).turnLookup r.1).settle)) ∧
  (∀ (s : State) (bs : List Nat) (k : SearchKey) (x : Nat × Nat × Entry),
    x ∈ s.matching bs k ↔ x.1 ∈ bs ∧ (x.2.1, x.2.2) ∈ (s.bank x.1).slots ∧ x.2.2.hits k = true) ∧
  (∀ (l : List (Nat × Nat × Entry)), (searchOf l).count = min 255 l.length ∧ ((searchOf l).best = none ↔ l = []) ∧
    ∀ x, (searchOf l).best = some x → x ∈ l ∧
      (∀ y ∈ l, y.2.2.priority < x.2.2.priority ∨ (y.2.2.priority = x.2.2.priority ∧ (x.1 < y.1 ∨ (x.1 = y.1 ∧ x.2.1 ≤ y.2.1)))) ∧
      ((searchOf l).tie = true ↔ 2 ≤ l.countP fun y => y.2.2.priority == x.2.2.priority))

/-- R173, R174, R176, R49. An accepted PUBLISH or UNPUBLISH is checked in R176's order: a lost ledger (`LOST`), the layout (`MALFORMED`), and for a PUBLISH the public
salt (`ACCESS_DENIED`) and the partition's limits (`CAPACITY`). A PUBLISH that passes begins to publish its blocks in order, or finds the Mortise island stopped
(`RETRY_LATER`, log 43); an UNPUBLISH withdraws the tenant's records of the public chain from its first position on, and answers that position. -/
def Obligations.PublishAndUnpublish : Prop :=
  (∀ (s u : State) (q : Qp) (m : Rx) (x : Seq) (b : PublishBody), s.LetsIn (.publish m b) q m 0x21 0 x u →
    let right := m.hdr.bodyLen = 8 ∧ b.length.toNat % 64 = 0 ∧ b.length ≠ 0 ∧ b.length.toNat ≤ x.sealedPos ∧ 2 ≤ b.cls.toNat ∧ x.posBase = 0
    (x.ledgerLost = true → exec (.publish m b) s = .next ((u.answer (reqOf m 0x21) .lost).ended q m)) ∧
    (x.ledgerLost = false → ¬right → exec (.publish m b) s = .next ((u.answer (reqOf m 0x21) .malformed).ended q m)) ∧
    (x.ledgerLost = false → right → u.publicSalt x.part = none → exec (.publish m b) s = .next ((u.answer (reqOf m 0x21) .accessDenied).ended q m)) ∧
    (∀ salt fps, x.ledgerLost = false → right → u.publicSalt x.part = some salt → fps = chainFrom salt x.variant x.ledger (b.length.toNat / 64) 0 0 →
      (u.publishFits x b.cls.toNat fps = false → exec (.publish m b) s = .next ((u.answer (reqOf m 0x21) .capacity).ended q m)) ∧
      (u.publishFits x b.cls.toNat fps = true → u.mortiseUp = false → exec (.publish m b) s = .next ((u.answer (reqOf m 0x21) .retryLater).ended q m)) ∧
      (u.publishFits x b.cls.toNat fps = true → u.mortiseUp = true → exec (.publish m b) s = .next (((u.fresh.2.onMortise fun y => { y with jobs := y.jobs ++
        [{ id := u.fresh.1, req := reqOf m 0x21, handle := m.hdr.handle.toNat, cls := b.cls.toNat, fps := fps, next := 0 }] }).turnJob u.fresh.1
          (fps.length + 1)).ended q m)))) ∧
  (∀ (s u : State) (q : Qp) (m : Rx) (x : Seq) (first : BitVec 23), s.LetsIn (.unpublish m first) q m 0x22 0 x u →
    let right := m.hdr.bodyLen = 8 ∧ first.toNat % 64 = 0 ∧ x.posBase = 0
    (x.ledgerLost = true → exec (.unpublish m first) s = .next ((u.answer (reqOf m 0x22) .lost).ended q m)) ∧
    (x.ledgerLost = false → ¬right → exec (.unpublish m first) s = .next ((u.answer (reqOf m 0x22) .malformed).ended q m)) ∧
    (x.ledgerLost = false → right →
      (u.publicSalt x.part = none → exec (.unpublish m first) s = .next ((u.complete (reqOf m 0x22) .ok (positionWord first.toNat) []).ended q m)) ∧
      ∀ salt, u.publicSalt x.part = some salt → exec (.unpublish m first) s =
        .next (((u.each ((chainFrom salt x.variant x.ledger (x.sealedPos / 64) 0 0).drop (first.toNat / 64)) fun s f => s.unpublishBlock x f).complete
          (reqOf m 0x22) .ok (positionWord first.toNat) []).ended q m)))

/-- R165, R167 to R170, R177, R157. An issued insertion creates its entry. Work that its class can pay for is done, and other work waits: compaction packs a bank's
entries upwards in their order; a patrol read leaves a sound entry alone but for a stamp older than half the window, and deletes, counts and records one whose
parity fails; the last mode move puts every entry that lies outside its new group into it, and searches use the new groups from then on. -/
def Obligations.ArrayInsertsCompactsPatrolsAndMoves : Prop :=
  ∀ (s : State), s.serving = true →
    (∀ id x, s.mortise.insertions.find? (·.id == id) = some x →
      exec (.mortiseInsertion id) s = .next ((s.onMortise fun m => { m with
        insertions := m.insertions.filter (·.id != id) }).createEntry x.entry x.block x.cls x.holder 0).settle) ∧
    (∀ b c, s.chargeAll (mergeCosts [searchCost 64 7 (cdiv (s.bank b).slots.length 8)]) = (c, none) →
      exec (.mortiseCompaction b) s = .next (c.setBank b ((List.range (s.bank b).slots.length).zip ((s.bank b).slots.map (·.2)))).settle) ∧
    (∀ c, s.chargeAll (mergeCosts [searchCost 64 5 1]) = (c, none) → ∀ b i,
      ((s.bank b).slots.find? (·.1 == i) = none → ∀ ok, exec (.mortisePatrol b i ok) s = .next c.settle) ∧
      (∀ x, (s.bank b).slots.find? (·.1 == i) = some x →
        exec (.mortisePatrol b i true) s = .next (if c.stampAge x.2.stamp ≤ 32768 then c.settle
          else (c.setBank b (mapIf (·.1 == i) (fun y => (y.1, { y.2 with stamp := (c.recency + 32768) % 65536 })) (c.bank b).slots)).settle) ∧
        exec (.mortisePatrol b i false) s =
          .next (((c.deleteEntry x.2.part x.2.payload 64 5).bump 0x2405 3 b 1).reportUnit (srcBank b) 0x40 0 0).settle)) ∧
    (∀ t c, s.mortise.target = some t → s.chargeAll (mergeCosts [searchCost 64 7 (5 * (s.outside t).length)]) = (c, none) →
      exec .modeMoveComplete s = .next ((c.each (c.outside t) fun s x =>
        (s.setBank x.1 ((s.bank x.1).slots.filter fun y => !(y.2.part == x.2.part && y.2.payload == x.2.payload))).placeEntry x.2).onMortise
          fun m => { m with mode := t, target := none }).settle) ∧
    (∀ b c x, s.chargeAll (mergeCosts [searchCost 64 7 (cdiv (s.bank b).slots.length 8)]) = (c, some x) →
      exec (.mortiseCompaction b) s = .next (s.markWait x).settle) ∧
    (∀ b i ok c x, s.chargeAll (mergeCosts [searchCost 64 5 1]) = (c, some x) → exec (.mortisePatrol b i ok) s = .next (s.markWait x).settle) ∧
    (∀ t c x, s.mortise.target = some t → s.chargeAll (mergeCosts [searchCost 64 7 (5 * (s.outside t).length)]) = (c, some x) →
      exec .modeMoveComplete s = .next (s.markWait x).settle)

/-! ### APPEND, STAGE, DELIVER (R58, R116 to R147) -/

/-- R76, R118, R120. An accepted APPEND or refresh of the lease holder joins its sequence's queue in arrival order, where the checks of R120 are made in that order;
one of any other sender is answered `NOT_OWNER` and has no effect. -/
def Obligations.AppendJoinsItsQueue : Prop :=
  ∀ (s u : State) (q : Qp) (m : Rx) (b : AppendBody) (x : Seq) (c : Instr) (refresh : Bool),
    (c = .append m b ∧ refresh = false ∨ c = .refreshAppend m b ∧ refresh = true) → s.LetsIn c q m 0x30 (appendRefBytes b) x u →
    (u.holds m.qp x = true → exec c s = .next (((u.touch m.hdr.handle.toNat).queueAppend m b refresh x c).ended q m)) ∧
    (u.holds m.qp x = false → exec c s = .next ((u.rejectAppend m .notOwner).ended q m))

/-- R122, R126, R129 to R132. An append whose pages are all at hand, none of them locked by a move, away or, for a refresh, being read, and none but a refresh's lost,
and whose ledger entries meet the ledger, completes once its class can pay for its writes. One that holds tries again when a frame comes free, by steps 1 to 3
until its hold limit and by steps 4 to 6 from then on; when the limit passes while it waits for a growth, or for the frames of a staging, it fails. -/
def Obligations.AppendsCompleteOrHold : Prop :=
  ∀ (s : State) (id : Nat) (a : Append) (x : Seq), s.serving = true → s.append id = some a → s.seq a.handle = some x →
    (∀ v c, a.phase = .scattering → v = (s.onAppend id fun y => { y with done := true }) →
      (∀ p ∈ x.targets a, p.pins ≠ 255 ∧ (if a.refresh then p.pins = 0 else p.lost = false)) → x.appendAway a = [] →
      (a.body.ledgerPresent = true → a.body.first ≤ x.ledger.length) → v.chargeAll (mergeCosts (v.appendCosts x a)) = (c, none) →
      exec (.appendCompletion id) s = .next (c.completeAppend x a).settle) ∧
    (a.phase = .holding → a.bare = false → s.clock.us < s.holdUntil a → exec (.frameFreedForAppend id) s = .next (s.allocAppend id).settle) ∧
    (a.phase = .holding → a.bare = true ∨ s.holdUntil a ≤ s.clock.us → exec (.frameFreedForAppend id) s = .next (s.forceAlloc id).settle) ∧
    (s.holdUntil a ≤ s.clock.us →
      (a.phase = .holding → a.id = id → exec (.appendHoldExpiry id) s = .next (s.forceAlloc id).settle) ∧
      (a.phase = .growth → exec (.appendHoldExpiry id) s = .next (s.noFrame a).settle) ∧
      (∀ g, a.phase = .staging g → (s.staging g).any (fun y => y.place.isNone) = true → exec (.appendHoldExpiry id) s = .next (s.noFrame a).settle)) ∧
    (s.clock.us < s.holdUntil a → exec (.appendHoldExpiry id) s = .next s.settle)

/-- R119, R180. Writing one position of one layer and head stores to the bytes that the position's elements have in its page's frame, and to no other byte of
HBM; where the sequence has no such page nothing is stored. -/
def Obligations.PositionsStoreOnlyTheirElements : Prop :=
  ∀ (s : State) (q : Seq) (l k pos fmt a : Nat) (vals : List Byte), Memory.wf s.hbm.mem →
    (∀ p x, ((s.seq q.handle).bind fun y => y.page l k ((pos - q.posBase) / 64)) = some p →
      x ∈ positionWrites q.fmt ((pos - q.posBase) % 64) ((payloadVals fmt vals).take 128) ((payloadVals fmt vals).drop 128) →
      a < p.frame * 1024 + x.1 ∨ p.frame * 1024 + x.1 + x.2.length ≤ a) →
    memRead (s.writePosition q l k pos vals fmt).hbm.mem a = memRead s.hbm.mem a

/-- R74, R76, R138, R141, R142. An accepted STAGE is refused `NOT_OWNER` where it sets or clears global bits without the lease, `LOST` where the ledger is, `MALFORMED` in
another form or beyond 64 global pages, and `CAPACITY` where it would pin beyond the partition's limit; else it stages what it names, stages and pins it, or
clears its pinned bits, after it has set the global bits. -/
def Obligations.StageNamesPages : Prop :=
  ∀ (s u : State) (q : Qp) (m : Rx) (b : StageBody) (x : Seq) (h : Nat) (c : Instr) (k : Nat),
    (c = .stage m b ∧ k = 0 ∨ c = .stageAndPin m b ∧ k = 1 ∨ c = .clearPinned m b ∧ k = 2) → s.LetsIn c q m 0x32 0 x u → h = m.hdr.handle.toNat →
    let v := u.touchLinked 6 h
    let ps := v.stagePages h x b
    let own := ps.filter fun y => y.1.handle == h
    let w := ((v.walkPages ((v.homeCluster x).getD 0) x.part 2 (ps.map fun y => keyOf y.1 y.2)).pinHome h).markGlobal h x b own
    (b.globalField ≠ 0 → v.holds m.qp x = false → exec c s = .next ((v.answer (reqOf m 0x32) .notOwner).ended q m)) ∧
    ((b.globalField ≠ 0 → v.holds m.qp x = true) →
      (x.ledgerLost = true → exec c s = .next ((v.answer (reqOf m 0x32) .lost).ended q m)) ∧
      (x.ledgerLost = false → x.stageFits m b = false ∨ b.globalField = 1 ∧ 64 < x.globalAfter own true →
        exec c s = .next ((v.answer (reqOf m 0x32) .malformed).ended q m)) ∧
      (x.ledgerLost = false → x.stageFits m b = true → (b.globalField = 1 → x.globalAfter own true ≤ 64) →
        (k = 1 → v.pinsTooMany x.part ps = true → exec c s =
          .next ((v.complete (reqOf m 0x32) .capacity (stageWords 0 (ps.countP fun y => y.2.tier == .hbm) (lowestLost ps)) []).ended q m)) ∧
        ((k = 1 → v.pinsTooMany x.part ps = false) → exec c s =
          .next ((if k = 2 then w.clearPins (reqOf m 0x32) ps else w.beginStage (reqOf m 0x32) b (k == 1) x h ps).ended q m))))

/-- R136, R138, R142, R147, R148. A staging whose page has been read and verified, that has its place, and whose page still lies away and is not locked, is written
there once its class can pay; the stage timeout, under the epoch of what waits, releases the tiles that a staging holds, or ends a STAGE or a DELIVER that still
waits with `RETRY_LATER`. -/
def Obligations.StagingsEndOrTimeOut : Prop :=
  ∀ (s : State) (id : Nat), s.serving = true →
    (∀ g x p a v c, s.staging id = some g → g.verified = true → g.place = some a → v = (s.onStaging id fun y => { y with due := true }) →
      v.seq g.page.handle = some x → v.page g.page = some p → p.pins ≠ 255 → p.tier = (if g.relay then .peer else .flash) →
      v.chargeAll (mergeCosts [burstCost a x.part (if g.relay then 3 else 2) (cdiv g.image.length 64)]) = (c, none) →
      exec (.stagingDone id) s = .next (c.landStaging g x p a).settle) ∧
    (∀ g, s.staging id = some g → g.startUs + 1000 * s.actAt (s.heldEpoch id) 0x2301 7 (handlePart g.page.handle) ≤ s.clock.us →
      exec (.stageTimeout id) s = .next (s.releaseHeld id).settle) ∧
    (∀ r, s.staging id = none → s.stageReq id = some r → r.startUs + 1000 * s.actAt r.epoch 0x2301 7 r.req.partition ≤ s.clock.us →
      exec (.stageTimeout id) s = .next ((s.endStage r false true).bump 0x2302 0x0F r.req.partition 1).settle) ∧
    (∀ d t, s.staging id = none → s.stageReq id = none → s.delivery id = some d → d.stageSince = some t →
      t + 1000 * s.actAt d.epoch 0x2301 7 d.req.partition ≤ s.clock.us →
      exec (.stageTimeout id) s = .next ((s.endDelivery d .retryLater 0).bump 0x2302 0x0F d.req.partition 1).settle)

/-- R143 to R147. An accepted DELIVER of the lease holder that fits its region begins, unless one of its sequence is under way (`RETRY_LATER`); one of another sender is
answered `NOT_OWNER`, one of a lost ledger `LOST`, and one that does not fit `MALFORMED`. Each layer is written in turn while the consumer keeps up; PROGRESS of
the same sender, by the delivery's tag, moves it on, and one that names no delivery of its sender is answered `MALFORMED`. A delivery completes after its last
layer, ends as `STALE_EPOCH` when its epoch is live no longer, and as `RETRY_LATER` after the idle limit. -/
def Obligations.DeliverWritesLayersInTurn : Prop :=
  (∀ (s u : State) (q : Qp) (m : Rx) (b : DeliverBody) (x : Seq) (v : State), s.LetsIn (.deliver m b) q m 0x33 0 x u → v = u.touchLinked 6 m.hdr.handle.toNat →
    (u.holds m.qp x = false → exec (.deliver m b) s = .next ((u.answer (reqOf m 0x33) .notOwner).ended q m)) ∧
    (u.holds m.qp x = true →
      (x.ledgerLost = true → exec (.deliver m b) s = .next ((v.answer (reqOf m 0x33) .lost).ended q m)) ∧
      (x.ledgerLost = false → x.deliverFits m b (v.deliverLimit x b) = false → exec (.deliver m b) s = .next ((v.answer (reqOf m 0x33) .malformed).ended q m)) ∧
      (x.ledgerLost = false → x.deliverFits m b (v.deliverLimit x b) = true → (∃ d ∈ v.work.deliveries, d.handle = m.hdr.handle.toNat) →
        exec (.deliver m b) s = .next ((v.answer (reqOf m 0x33) .retryLater).ended q m)) ∧
      (x.ledgerLost = false → x.deliverFits m b (v.deliverLimit x b) = true → (∀ d ∈ v.work.deliveries, d.handle ≠ m.hdr.handle.toNat) →
        exec (.deliver m b) s = .next ((v.beginDeliver m b x (v.deliverLimit x b)).ended q m)))) ∧
  (∀ (s u : State) (q : Qp) (m : Rx) (tag : W32) (count : W16), s.Accepts q m 0x34 .checked 0 u →
    let mine := u.work.deliveries.find? fun d => d.req.tag == tag.toNat && ((u.nodeOf m.qp).map (·.num)) == some d.node
    (mine = none ∨ m.hdr.bodyLen ≠ 8 → exec (.progress m tag count) s = .next ((u.answer (reqOf m 0x34) .malformed).ended q m)) ∧
    (∀ d, mine = some d → m.hdr.bodyLen = 8 → exec (.progress m tag count) s =
      .next (((u.onDelivery d.id fun y => { y with consumed := max y.consumed count.toNat }).deliverWait d.id).ended q m))) ∧
  (∀ (s : State) (id : Nat) (d : Delivery), s.serving = true → s.delivery id = some d →
    exec (.deliverLayerWrite id) s = .next (if s.epochLive d.epoch = false then (s.endDelivery d .staleEpoch 0).settle
      else if d.layer ≤ d.body.layerCount.toNat ∧ d.blocked = false then (s.writeLayer d).settle else s.settle) ∧
    exec (.deliverCompletion id) s = .next (if d.body.layerCount.toNat < d.layer then (s.endDelivery d .ok 0).settle else s.settle) ∧
    ∀ t, d.waitSince = some t → exec (.deliveryIdleTimeout id) s =
      .next (if d.blocked = true ∧ t + 1000 * s.actAt d.epoch 0x2301 0x0B d.req.partition ≤ s.clock.us then (s.endDelivery d .retryLater 0).settle else s.settle))

/-! ### ATTEND (R66, R80 to R108) -/

/-- R82 to R85, R249. An accepted ATTEND of the right layout, none of whose sequences waits for its epoch, is checked and dispatched row by row, at once with the query
payload it carries or once its RDMA READ has brought it; the sequences it may read take the active epoch with it. One of another layout is answered `MALFORMED`,
and one that a sequence's older work holds back waits with that sequence. -/
def Obligations.AttendDispatchesItsRows : Prop :=
  ∀ (s u v : State) (q p : Qp) (m : Rx) (b : AttendBody), s.Accepts q m 0x31 .checked (if b.qByRef then b.qLen.toNat else 0) u →
    (∀ h, u.attendWaits m b none = some h →
      exec (.attend m b) s = .next ((u.onSeq h fun x => { x with epochQueue := x.epochQueue ++ [.attend m b] }).ended q m)) ∧
    (u.attendWaits m b none = none →
      v = (if m.hdr.epoch.toNat = u.epochs.active then
        u.onSeqs fun l => mapIf (fun x => (b.rows.any fun r => r.handle.toNat == x.handle) && (u.checkHandle m.hdr x.handle).isNone && u.holds m.qp x)
          (fun x => { x with epoch := u.epochs.active }) l else u) →
      (v.attendShape m b = false → exec (.attend m b) s = .next ((v.answer (reqOf m 0x31) .malformed).ended q m)) ∧
      (v.attendShape m b = true →
        (b.qByRef = true → v.qp m.qp = some p → ∀ r, v.newAttend m b false = r → exec (.attend m b) s =
          .next (((r.2.rdmaRead p (serviceOf (v.qpRole p) 0x31 9 false) (classOf (serviceOf (v.qpRole p) 0x31 9 false) 0x31) m.hdr.tenant.toNat b.qAddr.toNat
            b.qKey.toNat b.qLen.toNat r.1 (.attend m b)).meterBytes p.part m.hdr.tenant.toNat b.qLen.toNat).ended q m)) ∧
        (b.qByRef = false → ∀ r, v.newAttend m b true = r →
          exec (.attend m b) s = .next ((r.2.turnAttend r.1 (b.rows.length + 1)).ended q m))))

/-- R66, R91, R106, R107, R112. A ready tile of a running row whose page stands in HBM and may be read joins the group whose copy of the page its core's buffer
holds, or pins the page once more and reads it, once its core's buffer has room and the row's class can pay for its lookups, its issue cycles and, for a page
that is read, its bursts; a page whose pin count is at its limit or locked makes it walk again; a lost page ends its row, and one in flash or at a peer holds the
tile until it is back. A tile of the row's own position is issued in the same way, one at a time on its core. A held tile becomes ready when its fuse wait
ends. -/
def Obligations.TilesAreIssuedByPage : Prop :=
  ∀ (s : State) (t : Tile) (a : Attend) (r : Row) (x : Seq), s.serving = true → s.tile t.id = some t → s.rowOf t = some (a, r) →
    s.seq r.body.handle.toNat = some x → r.status = none →
    (∀ p c, t.st = .ready → s.onBoard t = true → t.inline_ = false → s.page t.page = some p → p.lost = false → p.tier = .hbm →
      (p.fmt = 11 → s.kerfVerdict x r.body (s.rowPattern x r a.body.layer.toNat) = .fine) →
      let cycles := issueCycles p.fmt a.body.qFmt.toNat r.body.groupN
      let group := s.work.groups.find? fun g => g.core == t.core && g.page == t.page && g.served < s.actAt x.epoch 0x2201 7 x.part
      (∀ g, group = some g → s.coreRoom t a r 0 = true →
        s.chargeAll (mergeCosts [walkCost (t.core / 8) x.part 0 (s.tileWalk t r).length, issueCost t.core x.part cycles]) = (c, none) →
        exec (.tileIssue t.id) s = .next (c.joinGroup t r g x p cycles).settle) ∧
      (group = none → p.pins < 254 → s.coreRoom t a r p.stored = true →
        s.chargeAll (mergeCosts (s.pinCosts t r x.part ++ [issueCost t.core x.part cycles, burstCost p.frame x.part 0 (s.fetchBursts t r x p)])) = (c, none) →
        exec (.tileIssue t.id) s = .next (c.openGroup t r x p cycles).settle) ∧
      (group = none → 254 ≤ p.pins → exec (.tileIssue t.id) s = .next (s.pinFails t r x p).settle)) ∧
    (∀ p, t.st = .ready → s.onBoard t = true → t.inline_ = false → s.page t.page = some p →
      (p.lost = true → exec (.tileIssue t.id) s = .next (s.loseRow t (x.pagePos p.index)).settle) ∧
      (p.lost = false → p.tier ≠ .hbm → exec (.tileIssue t.id) s = .next (s.holdTile t p x).settle)) ∧
    (∀ c, t.st = .ready → s.onBoard t = true → t.inline_ = true →
      (∀ y ∈ s.work.tiles, ¬(y.att = t.att ∧ y.row = t.row ∧ y.head = t.head ∧ y.core = t.core ∧ y.id ≠ t.id)) → s.coreRoom t a r 0 = true →
      s.chargeAll (mergeCosts [issueCost t.core x.part (cdiv (issueCycles x.fmt a.body.qFmt.toNat r.body.groupN) 64)]) = (c, none) →
      exec (.tileIssue t.id) s = .next ((c.onTile t.id fun y => { y with st := .issued 0 }).bump 0x2202 2 (t.core / 8) 1).settle) ∧
    (t.st = .fuseWait → exec (.fuseWaitExpiry t.id) s = .next ((s.onTile t.id fun y => { y with st := .ready }).bump 0x2202 8 (t.core / 8) 1).settle)

/-- R90, R96, R101, R102, R86. An issued tile of a running row is computed with the verdict of its read; a complete partial below the home cluster goes into the
accumulator above it; and an ATTEND whose every row has ended completes. -/
def Obligations.TilesComputeMergeAndComplete : Prop :=
  ∀ (s : State), s.serving = true →
    (∀ (t : Tile) (a : Attend) (r : Row) (g : Nat) (v : HbmVerdict), s.tile t.id = some t → s.rowOf t = some (a, r) → t.st = .issued g → r.status = none →
      exec (.tileCompute t.id v) s = .next (s.computeTile t a r v).settle) ∧
    (∀ (c : Accum), s.accum c.id = some c → c.expected = 0 → c.level < 2 → exec (.scarfMerge c.id) s = .next (s.mergeUp c).settle) ∧
    (∀ (a : Attend), s.attend a.id = some a → a.dispatched = true → (∀ r ∈ a.rows, r.status ≠ none) →
      exec (.attendCompletion a.id) s = .next (s.completeAttend a).settle)

/-- R94, R98, R101, R102, R104. A masked position contributes nothing: a tile whose page has no eligible position leaves its partials as they are. Merging with the
empty partial gives the other, and else the greater maximum. A NaN in a key, a value or either partial gives a NaN, and so does a score of finite operands
beyond the FP32 range. A first tile of one key, its operands finite and its score within the range, has l = 1 and o = the key's values. The output of a
NaN is NaN throughout; that of a head without a key is zeros, with m = −∞ in mode 1. All this holds whatever the free values of the arithmetic are (log 41). -/
def Obligations.PartialsOfOneQueryHead : Prop :=
  (∀ (s : State) (scale qf : Nat) (old : List QPartial) (qs vals : List (List Val)), s.addToPartials scale qf old qs [] vals = (old, s)) ∧
  (∀ (s : State) (a b : QPartial), (a.empty = true → s.mergePartial a b = (b, s)) ∧ (a.empty = false → b.empty = true → s.mergePartial a b = (a, s)) ∧
    (a.empty = false → b.empty = false → (s.mergePartial a b).1.nan = (a.nan || b.nan) ∧ (s.mergePartial a b).1.empty = false ∧
      (a.nan = false → b.nan = false → (encFp32.decode a.m.toNat).finite = true → (encFp32.decode b.m.toNat).finite = true →
        fp32Val (s.mergePartial a b).1.m = max (fp32Val a.m) (fp32Val b.m)))) ∧
  (∀ (s : State) (scale qf : Nat) (old : List QPartial) (qs keys vals : List (List Val)), keys ≠ [] → (∃ v ∈ keys ++ vals, ∃ e ∈ v, Val.finite e = false) →
    ∀ p ∈ (s.addToPartials scale qf old qs keys vals).1, p.nan = true) ∧
  (∀ (s : State) (scale qf : Nat) (old : QPartial) (q : List Val) (keys vals : List (List Val)), operandsFinite scale q = true →
    (∃ k ∈ keys, scoreOverflows scale q k = true) → (s.newPartial scale qf old q keys vals).1.nan = true) ∧
  (∀ (s : State) (scale qf : Nat) (q k v : List Val) (p : QPartial), operandsFinite scale q = true → (∀ e ∈ k ++ v, Val.finite e = true) →
    scoreOverflows scale q k = false → p = (s.newPartial scale qf QPartial.none_ q [k] [v]).1 →
    p.empty = false ∧ p.nan = false ∧ p.l = 0x3F800000 ∧
      ∀ (c : Nat) (w : W32), c < 128 → v.getD c (.fin 0) = encFp32.decode w.toNat → fp32Val (p.o.getD c 0) = fp32Val w) ∧
  (∀ b : AttendBody,
    headOut b QPartial.nan_ = ((List.range 128).flatMap fun _ => outElem b.oFmt.toNat (outNan b.oFmt.toNat)) ++
      (if b.oMode = 1 then [0x7F, 0xC0, 0, 0, 0x7F, 0xC0, 0, 0] else []) ∧
    headOut b QPartial.none_ = List.replicate (128 * payloadBytes b.oFmt.toNat) 0 ++ (if b.oMode = 1 then [0xFF, 0x80, 0, 0, 0, 0, 0, 0] else []))

/-! ### Mirrors, relays and probes (R48, R267 to R274) -/

/-- R268, R269. A LEDGER_SYNC of the right layout from a registered peer that is not declared gone: kind 0 makes a mirror record in place of an older one where the
ledger has room, kind 1 continues the mirrored ledger from a position it reaches, kind 2 cuts it, kind 3 frees the record, and kind 4 re-admits the
sequence here. Each is answered with the mirrored position, a want of room with `CAPACITY`; one of another layout is answered `MALFORMED`. -/
def Obligations.PeersMirrorTheirLedgersHere : Prop :=
  ∀ (s u : State) (q : Qp) (nd : Node) (m : Rx) (b : LedgerBody) (anew : Bool), s.FromPeer q m 0x60 nd b.handle.toNat anew u →
    let h := b.handle.toNat
    let others := u.onBroker fun x => { x with mirrors := x.mirrors.filter fun y => !(y.part == nd.part && y.peer == nd.num && y.handle == h) }
    (∀ c fresh, (c, fresh) ∈ [(Instr.ledgerSyncCreate m b, b.handle != 0), (.ledgerSyncTokens m b, false), (.ledgerSyncCut m b, false), (.ledgerSyncFree m b, false),
        (.ledgerSyncReadmit m b, b.handle != 0)] → ledgerFits m b fresh = false → exec c s = .next ((u.answer (reqOf m 0x60) .malformed).ended q m)) ∧
    (ledgerFits m b (b.handle != 0) = true →
      (others.openFrames nd.part < others.mirrorFrames nd.part + cdiv b.tokens.length 4096 →
        exec (.ledgerSyncCreate m b) s = .next ((u.answerSync m .capacity 0).ended q m)) ∧
      (others.mirrorFrames nd.part + cdiv b.tokens.length 4096 ≤ others.openFrames nd.part →
        exec (.ledgerSyncCreate m b) s = .next (((others.onBroker fun x => { x with mirrors := x.mirrors ++
          [{ part := nd.part, peer := nd.num, peerIdent := nd.ident, handle := h, body := b, tokens := b.tokens, pages := [] }] }).answerSync m .ok
            b.tokens.length).ended q m)) ∧
      (∀ r, b.handle ≠ 0 → u.readmitHere { part := nd.part, peer := nd.num, peerIdent := nd.ident, handle := h, body := b, tokens := b.tokens, pages := [] } = r →
        exec (.ledgerSyncReadmit m b) s = .next ((if r.1 then r.2.answerSync m .ok b.tokens.length else u.answerSync m .capacity 0).ended q m))) ∧
    (ledgerFits m b false = true → b.handle = 0 → exec (.ledgerSyncReadmit m b) s =
      .next (((u.each (u.broker.mirrors.filter fun x => x.part == nd.part && x.peer == nd.num) fun s x => s.readmit x).answerSync m .ok 0).ended q m)) ∧
    (ledgerFits m b false = true → anew = false →
      (u.mirror nd h = none → exec (.ledgerSyncTokens m b) s = .next ((u.answerSync m .ok 0).ended q m)) ∧
      (∀ x ts, u.mirror nd h = some x → ts = (if b.firstPos.toNat ≤ x.tokens.length then x.tokens.take b.firstPos.toNat ++ b.tokens else x.tokens) →
        (u.openFrames nd.part < u.mirrorFrames nd.part + cdiv ts.length 4096 - cdiv x.tokens.length 4096 →
          exec (.ledgerSyncTokens m b) s = .next ((u.answerSync m .capacity x.tokens.length).ended q m)) ∧
        (u.mirrorFrames nd.part + cdiv ts.length 4096 - cdiv x.tokens.length 4096 ≤ u.openFrames nd.part →
          exec (.ledgerSyncTokens m b) s = .next (((u.onMirror nd h fun y => { y with
            tokens := ts, body := { y.body with admitter := b.admitter, holder := b.holder } }).answerSync m .ok ts.length).ended q m))) ∧
      (∀ v, v = (u.onMirror nd h fun y => { y with
          tokens := y.tokens.take b.firstPos.toNat
          pages := y.pages.filter fun p => y.body.geometry.posBase.toNat + 64 * (p.page.index.toNat + 1) ≤ b.firstPos.toNat
          body := { y.body with admitter := b.admitter, holder := b.holder } }) →
        exec (.ledgerSyncCut m b) s = .next ((v.answerSync m .ok (((v.mirror nd h).map (·.tokens.length)).getD 0)).ended q m)) ∧
      exec (.ledgerSyncFree m b) s = .next ((others.answerSync m .ok 0).ended q m))

/-- R270. The first LEDGER_SYNC or RELAY, of the right layout, of a peer that was declared gone is answered `FENCED`, and nothing changes but the mark that it
was. After that a message that continues a mirror which is not here is answered `FENCED` too. -/
def Obligations.GonePeersAreFencedOnce : Prop :=
  ∀ (s u : State) (q : Qp) (nd : Node) (g : GonePeer) (m : Rx), u.nodeOf m.qp = some nd →
    u.broker.gone.find? (fun x => x.part == nd.part && x.ident == nd.ident) = some g →
    (g.fenced = false →
      let v := u.onBroker fun b => { b with gone := mapIf (fun x => x.part == nd.part && x.ident == nd.ident) (fun x => { x with fenced := true }) b.gone }
      (∀ b c fresh, s.Accepts q m 0x60 .unchecked 0 u → ledgerFits m b fresh = true →
        (c, fresh) ∈ [(Instr.ledgerSyncCreate m b, b.handle != 0), (.ledgerSyncTokens m b, false), (.ledgerSyncCut m b, false), (.ledgerSyncFree m b, false),
          (.ledgerSyncReadmit m b, b.handle != 0)] →
        exec c s = .next ((v.answer (reqOf m 0x60) .fenced).ended q m)) ∧
      (∀ b, s.Accepts q m 0x61 .unchecked 0 u →
        (m.hdr.bodyLen.toNat = 32 + 8 * b.pages.length → b.pages.length = b.pageCount.toNat + 1 →
          ∀ c ∈ [Instr.relayStore m b, .relayFetchAndMove m b, .relayMirror m b], exec c s = .next ((v.answer (reqOf m 0x61) .fenced).ended q m)) ∧
        (m.hdr.bodyLen = 32 → exec (.relayFetchCopy m b) s = .next ((v.answer (reqOf m 0x61) .fenced).ended q m)))) ∧
    (g.fenced = true → ∀ h : W64, (∀ x ∈ u.broker.mirrors, ¬(x.part = nd.part ∧ x.peer = nd.num ∧ x.handle = h.toNat)) →
      (∀ b, b.handle = h → s.Accepts q m 0x60 .unchecked 0 u → ledgerFits m b false = true →
        ∀ c ∈ [Instr.ledgerSyncTokens m b, .ledgerSyncCut m b, .ledgerSyncFree m b], exec c s = .next ((u.answer (reqOf m 0x60) .fenced).ended q m)) ∧
      (∀ b, b.handle = h → s.Accepts q m 0x61 .unchecked 0 u → m.hdr.bodyLen.toNat = 32 + 8 * b.pages.length → b.pages.length = b.pageCount.toNat + 1 →
        exec (.relayMirror m b) s = .next ((u.answer (reqOf m 0x61) .fenced).ended q m)))

/-- R274. A RELAY of the right layout from a registered peer that is not fenced (R270), metered by its window: kind 0 stores each good image under a reference and
refuses the others, kind 1 writes the pages its references name into the peer's window, kind 2 the pages of a holder of the partition, which stay, and kind 3
joins good pages to the peer's mirror record, where there is one. One of another layout is answered `MALFORMED`. -/
def Obligations.RelaysStoreMoveCopyAndMirror : Prop :=
  ∀ (s u v : State) (q : Qp) (nd : Node) (m : Rx) (b : RelayBody) (k : Nat) (anew : Bool), s.FromPeer q m 0x61 nd b.handle.toNat anew u → (anew = true → k ≠ 3) →
    v = (u.meter nd.part m.hdr.tenant.toNat (0x1C + k) b.winLen.toNat).meterMoved nd.part m.hdr.tenant.toNat 3 b.winLen.toNat →
    (m.hdr.bodyLen.toNat = 32 + 8 * b.pages.length → b.pages.length = b.pageCount.toNat + 1 →
      (k = 0 → ∀ r, v.storeImages nd b = r → exec (.relayStore m b) s = .next ((r.2.answerRelay m 0 .ok (r.1.length - r.1.countP (· == 0xFFFFFFFF))
        (r.1.countP (· == 0xFFFFFFFF)) r.1).ended q m)) ∧
      (k = 1 → ∀ r, v.moveBack nd m b = r → exec (.relayFetchAndMove m b) s = .next ((r.2.answerRelay m 1 .ok r.1 (b.pages.length - r.1) []).ended q m)) ∧
      (k = 3 → ∀ n, n = (if (v.mirror nd b.handle.toNat).isSome then (relayGood b).length else 0) →
        exec (.relayMirror m b) s = .next ((((v.each (List.range (relayBadTags b)) fun s _ => s.tagFailed nd.part).onMirror nd b.handle.toNat fun y =>
          { y with pages := joinPages y.pages (relayGood b) }).answerRelay m 3 .ok n (b.pages.length - n) []).ended q m))) ∧
    (m.hdr.bodyLen.toNat ≠ 32 + 8 * b.pages.length ∨ b.pages.length ≠ b.pageCount.toNat + 1 →
      ∀ c ∈ [Instr.relayStore m b, .relayFetchAndMove m b, .relayMirror m b], exec c s = .next ((u.answer (reqOf m 0x61) .malformed).ended q m)) ∧
    (m.hdr.bodyLen ≠ 32 → exec (.relayFetchCopy m b) s = .next ((u.answer (reqOf m 0x61) .malformed).ended q m)) ∧
    (m.hdr.bodyLen = 32 → k = 2 →
      (v.seq b.handle.toNat = none → exec (.relayFetchCopy m b) s = .next ((v.answerRelay m 2 .notOwner 0 0 []).ended q m)) ∧
      (∀ x, v.seq b.handle.toNat = some x →
        (x.part ≠ nd.part → exec (.relayFetchCopy m b) s = .next ((v.answerRelay m 2 .accessDenied 0 0 []).ended q m)) ∧
        (x.part = nd.part → ∀ r, v.copyInto nd m b x = r → exec (.relayFetchCopy m b) s = .next ((r.2.answerRelay m 2 .ok r.1
          ((v.copied x b.firstPos.toNat b.endPos.toNat).length - r.1) []).ended q m))))

/-- R48, R268 to R274. The partner's answer to a ledger sync acknowledges the mirrored position and seals, `CAPACITY` leaves the sequence unmirrored, and `FENCED`
frees what the partner mirrored; positions whose answer is late time out and sealing goes on. A relay's completion leads to what its kind does; a late one
ends the rows of the tiles it held, or lets its admission go on, as a late answer to a probe does. A probe of the right form is looked up without linking, any other
is answered `MALFORMED`; its answer is copied or passed over. -/
def Obligations.PeersAnswerOrTimeOut : Prop :=
  ∀ (s : State) (u : State) (q : Qp),
    (∀ (r : Reply) (a : Ask) (n : BitVec 23) (h k : Nat) (c : SyncKind) (x : Seq), s.Answers q r AskKind.isSync a u → a.kind = .sync c h k →
      u.seq h = some x →
      (c = .create ∨ c = .tokens →
        (r.status = 0 → ∀ acked, acked = max x.acked (min n.toNat x.ledger.length) → exec (.ledgerSyncCompletion r n) s =
          .next (((u.onSeq h fun x => { x with acked := acked, unmirrored := x.unmirrored && acked < x.ledger.length }).seal h).settle)) ∧
        (r.status = 8 → exec (.ledgerSyncCompletion r n) s = .next (u.freedByPartner x.part).settle) ∧
        (r.status ≠ 0 → r.status ≠ 8 → exec (.ledgerSyncCompletion r n) s = .next ((u.onSeq h fun x => { x with unmirrored := true }).onBroker fun b =>
          { b with asks := b.asks ++ [{ a with kind := .sync .tokens h k }] }).settle)) ∧
      (c = .cut ∨ c = .free → exec (.ledgerSyncCompletion r n) s = .next (if r.status = 8 then u.freedByPartner x.part else u).settle) ∧
      (c = .readmit → exec (.ledgerSyncCompletion r n) s =
        .next (if r.status = 0 then u.onBroker fun b => { b with mirrors := b.mirrors.filter (·.handle != h) } else u.readmitNext h k).settle)) ∧
    (∀ (h : W64), s.serving = true → (∀ a ∈ s.lateSyncs h.toNat, ∀ x k, a.kind ≠ .sync .readmit x k) → sentUpTo (s.lateSyncs h.toNat) ≠ 0 →
      exec (.ledgerMirrorTimeout h) s = .next ((s.onSeq h.toNat fun x => { x with
        timedOut := max x.timedOut (min (sentUpTo (s.lateSyncs h.toNat)) x.ledger.length)
        unmirrored := x.unmirrored || x.acked < min (sentUpTo (s.lateSyncs h.toNat)) x.ledger.length }).seal h.toNat).settle) ∧
    (∀ (r : Reply) (a : Ask) (refs : List W32) (is : List RelayImage) (id : Nat) (x : RelayTx), s.Answers q r AskKind.isRelay a u → a.kind = .relay id →
      u.broker.relays.find? (·.id == id) = some x →
      ∀ v, v = ((u.onBroker fun b => { b with relays := b.relays.filter (·.id != id) }).relayDone x (r.status == 0) refs is) →
      exec (.relayCompletion r refs is) s =
        .next (if r.status = 8 ∧ (∀ k ∈ x.pages, (v.seq k.handle).isSome = true) then v.freedByPartner x.part else v).settle) ∧
    (∀ (id : Nat) (x : RelayTx), s.serving = true → s.broker.relays.find? (·.id == id) = some x → s.due x.deadlineUs = true →
      (x.kind = 1 → exec (.relayTimeout id) s = .next (s.each x.stagings fun s g => s.releaseWaiting x.part g).settle) ∧
      (x.kind = 2 → exec (.relayTimeout id) s = .next ((s.onBroker fun b => { b with relays := b.relays.filter (·.id != id) }).admitOn x.forSeq).settle)) ∧
    (∀ (id h : Nat) (a : Ask), s.serving = true → s.broker.relays.find? (·.id == id) = none → s.broker.asks.find? (·.tag == id) = some a → a.kind = .probe h →
      s.due a.untilUs = true →
      exec (.relayTimeout id) s = .next ((s.onBroker fun b => { b with asks := b.asks.filter (·.tag != id) }).admitOn h).settle) ∧
    (∀ (m : Rx) (b : ProbeBody), s.Accepts q m 0x62 .unchecked 0 u →
      let fits := m.hdr.bodyLen.toNat = 24 + 8 * cdiv b.tokenCount.toNat 2 ∧ b.tokens.length = b.tokenCount.toNat ∧ b.tokenCount.toNat ≤ 65536 ∧ b.headMask ≠ 0
      (¬fits → exec (.peerProbe m b) s = .next ((u.answer (reqOf m 0x62) .malformed).ended q m)) ∧
      (fits → ∀ l, u.newLookup (.probe (reqOf m 0x62)) m.hdr.partition.toNat b.tenant.toNat b.variant.toNat b.headMask.toNat 0 b.tokens true true = l →
        exec (.peerProbe m b) s = .next ((l.2.startLookup l.1).ended q m))) ∧
    (∀ (r : Reply) (a : Ask) (n : BitVec 23) (o : W64) (h : Nat), s.Answers q r AskKind.isProbe a u → a.kind = .probe h →
      exec (.peerProbeCompletion r n o) s = .next (if r.status = 0 then u.probeAnswered h a.node n.toNat o.toNat else u.admitOn h).settle)

/-! ### Mailboxes (R388 to R394) -/

/-- R389, R390, R391, R392. A mailbox write of more than one packet, or one that reaches outside one mailbox, draws a NAK; one outside the window is refused as any
write is (log 111). One of a mailbox whose domain is off is counted and refused, and its queue pair is in error; only one with immediate draws a completion. A plain
one raises the wake event, and does no more. One with immediate, where the mailbox is full, draws an RNR NAK; where it fails a check it is answered with that
check's status, and where its policer holds it back it is dropped or answered `POLICED`; else it raises the wake event and is answered (kind 2), or the mailbox takes
its message. A receiver's completion takes or discards a message; a late one discards it. -/
def Obligations.MailboxesTakeHoldAndDiscard : Prop :=
  (∀ (s : State) (w : MailboxWrite) (q : Qp), s.serving = true → s.qp w.qp = some q → q.connected = true → boxAt q.part w.addr.toNat w.key.toNat = none →
    ∀ c ∈ [Instr.mailboxWrite w, .mailboxDoorbell w], exec c s = .next (s.refuseAccess q).settle) ∧
  (∀ (s u : State) (w : MailboxWrite) (q : Qp) (p n off : Nat), s.serving = true → s.qp w.qp = some q → q.connected = true →
    boxAt q.part w.addr.toNat w.key.toNat = some (p, n, off) → u = (s.heard q).rxPackets q (max 1 w.packets) →
    (w.packets ≠ 1 ∨ 256 < off + w.length → ∀ c ∈ [Instr.mailboxWrite w, .mailboxDoorbell w],
      exec c s = .next (u.control q.lp (.nakInvalid q.num)).settle) ∧
    (w.packets = 1 → off + w.length ≤ 256 →
      let req := reqOf { qp := q.num, length := w.length, hdr := w.hdr } 0x40
      (u.domainOff p = true → ∀ e, e = ((u.bump 0x7802 6 (boxItem p n) 1).control q.lp (.nakAccess q.num 7)).qpError q.num true →
        exec (.mailboxWrite w) s = .next (e.answer req .domainOff).settle ∧ exec (.mailboxDoorbell w) s = .next e.settle) ∧
      (u.domainOff p = false →
        exec (.mailboxDoorbell w) s = .next (u.wakeEvent p).settle ∧
        (u.boxKind p n ≠ 2 → (u.mailbox p n).isSome = true →
          exec (.mailboxWrite w) s = .next ((u.control q.lp (.rnrNak q.num (q.param 0x5030 4))).bump 0x7802 7 (boxItem p n) 1).settle) ∧
        (∀ v, (u.boxKind p n = 2 ∨ u.mailbox p n = none) →
          v = (u.bump 0x5100 9 (q.part * 65536 + w.hdr.tenant.toNat) w.length).bump 0x5002 9 q.lp w.length →
          (∀ st, v.boxFault q w p n = some st → exec (.mailboxWrite w) s = .next ((v.noteRefusal q w.hdr st).boxAnswer (some req) st []).settle) ∧
          (∀ r, v.boxFault q w p n = none → v.police (lpDie q.lp) q.part w.hdr.tenant.toNat w.length false = r → r.1 = false →
            exec (.mailboxWrite w) s = .next (if r.2.1 = 1 then r.2.2.bump 0x5100 0x0B (q.part * 65536 + w.hdr.tenant.toNat) 1
              else (r.2.2.noteRefusal q w.hdr .policed).boxAnswer (some req) .policed []).settle) ∧
          (∀ r, v.boxFault q w p n = none → v.police (lpDie q.lp) q.part w.hdr.tenant.toNat w.length false = r → r.1 = true →
            exec (.mailboxWrite w) s = .next (if u.boxKind p n = 2
              then ((r.2.2.meterBytes q.part w.hdr.tenant.toNat w.length).wakeEvent p).boxAnswer (some req) .ok [packWord [(8, n), (56, 0)]]
              else (r.2.2.meterBytes q.part w.hdr.tenant.toNat w.length).fillBox p n w.hdr w.body false (q.node.getD 0) (some req)).settle))))) ∧
  (∀ (s u : State) (q : Qp) (r : Reply) (a : Ask) (p n : Nat) (b : Mailbox), s.Answers q r AskKind.isMailbox a u → a.kind = .mailbox p n →
    u.mailbox p n = some b →
    exec (.mailboxReceiverCompletion r) s = .next (if r.status = 0
      then ((u.emptyBox b.part b.num).bump 0x7802 5 (boxItem b.part b.num) 1).boxAnswer b.senderReq .ok
        [packWord [(8, if b.part = 64 then 64 + b.num else b.num), (56, 0)]]
      else (u.emptyBox b.part b.num).boxAnswer b.senderReq .retryLater []).settle) ∧
  (∀ (s : State) (p n : Nat) (b : Mailbox), s.serving = true → s.mailbox p n = some b → b.delivering = true → s.due b.untilUs = true →
    exec (.mailboxDeliveryTimeout p n) s = .next (((s.onBroker fun k => { k with asks := k.asks.filter fun a => a.kind != .mailbox p n }).emptyBox
      b.part b.num).boxAnswer b.senderReq .retryLater []).settle)

/-! ### Connections, rings, reads, acknowledgements and congestion (R279 to R288, R298 to R303) -/

/-- R280, R282, R284, R285, R286. A legal REQ opens a queue pair, any other is rejected; RTU establishes it; DREQ is answered, and puts the queue pair in the error
state or frees one in that state. A ring write of whole free slots advances the producer, and is queued when its immediate names its slot and that is the next one
(or slot 0 where it does not fit before the ring's end), or else answered `MALFORMED`, as one is that carries no command's code (R11); any other is refused access.
A held completion that fits is written in whole 64-byte units, after a pad to the ring's end where it does not fit before that; one that finds no room waits. A SEND
fills its partition's receive pool, or draws an RNR NAK. -/
def Obligations.ConnectionsAndTheirRings : Prop :=
  ∀ (s : State), s.serving = true →
    (∀ r, (∀ t, s.openQp r = some t → exec (.cmReq r) s = .next t.settle) ∧
      (s.openQp r = none → exec (.cmReq r) s = .next (s.control r.lp (.cmRej r.lp)).settle) ∧
      (reqLegal r = false ∨ s.reqGranted r = false ∨ s.freeQp r.partition.toNat = none → s.openQp r = none)) ∧
    (∀ q, s.qp q.num = some q →
      exec (.cmRtu q.num) s = .next (s.onQp q.num fun x => if x.st = .connecting then { x with st := .connected, lastUs := s.us } else x).settle ∧
      (q.st = .error → exec (.cmDisconnect q.num) s =
        .next ((s.control q.lp (.cmDrep q.num)).onNet fun x => { x with qps := x.qps.filter (·.num != q.num) }).settle) ∧
      (q.st ≠ .error → exec (.cmDisconnect q.num) s = .next ((s.control q.lp (.cmDrep q.num)).qpError q.num false).settle) ∧
      (∀ (w : RingWrite) r n, w.qp = q.num → q.connected = true → q.cmdRing.bind s.ring = some r → n = cdiv w.length r.slotSize →
        let v := (s.heard q).rxPackets q (q.packets w.length)
        let right := w.imm.toNat / 2 ^ 20 = w.slot ∧ (w.slot = r.producer ∨ w.slot = 0 ∧ r.slots < r.producer + n)
        let skipped := if w.slot = r.producer then 0 else r.slots - r.producer
        (n = 0 ∨ r.slots < w.slot + n ∨ (∃ i < n, w.slot + i ∈ r.busy) → exec (.ringMessageWrite w) s = .next (s.refuseAccess q).settle) ∧
        (n ≠ 0 → w.slot + n ≤ r.slots → (∀ i < n, w.slot + i ∉ r.busy) →
          (right → codeless w.bytes = false → exec (.ringMessageWrite w) s = .next (v.onRing r.num fun x => { x with
            producer := (w.slot + n) % x.slots, busy := ((List.range n).map (w.slot + ·)).foldl insNat x.busy
            waiting := x.waiting ++ [(w.slot, n, w.bytes)], consumed := (x.consumed + skipped) % 2 ^ 32 }).settle) ∧
          (right → codeless w.bytes = true → exec (.ringMessageWrite w) s = .next ((v.onRing r.num fun x => { x with
            producer := (w.slot + n) % x.slots, consumed := (x.consumed + skipped + n) % 2 ^ 32 }).refuseCode q w.length w.bytes).settle) ∧
          (¬right → exec (.ringMessageWrite w) s = .next ((v.onRing r.num fun x => { x with
            producer := (w.slot + n) % x.slots, consumed := (x.consumed + n) % 2 ^ 32 }).answer (reqOfBytes q.num w.bytes) .malformed).settle))) ∧
      (∀ n, q.connected = true → q.mode = 0 → exec (.sendReceived q.num n) s =
        .next (if s.act 0x5003 2 q.part < sget s.net.pool q.part 0 + n then s.control q.lp (.rnrNak q.num (q.param 0x5030 4))
          else (s.rxPackets q (q.packets n)).onNet fun x => { x with pool := sadd x.pool q.part n }).settle)) ∧
    (∀ r relay m l q b svc tail, s.ring r.num = some r → r.held = (q.num, relay, m) :: l → s.qp q.num = some q → b = cdiv (16 + m.bytes) 64 * 64 →
      svc = serviceOf (s.qpRole q) m.opcode relay m.device → tail = r.length - r.written % r.length →
      (b ≤ tail → b ≤ r.room → exec (.completionRingWrite r.num) s = .next ((s.writeEntry r q svc (classOf svc m.opcode) m.tenant b (some m)).onRing r.num
        fun x => { x with held := x.held.drop 1 }).settle) ∧
      (b ≤ tail → r.room < b → exec (.completionRingWrite r.num) s = .next s.settle) ∧
      (tail < b → r.room < tail → exec (.completionRingWrite r.num) s = .next s.settle) ∧
      (∀ v y, tail < b → tail ≤ r.room → v = s.writeEntry r q svc (classOf svc m.opcode) m.tenant tail none → v.ring r.num = some y → b ≤ y.room →
        b ≤ y.length - y.written % y.length → exec (.completionRingWrite r.num) s = .next ((v.writeEntry y q svc (classOf svc m.opcode) m.tenant b (some m)).onRing
          r.num fun x => { x with held := x.held.drop 1 }).settle))

/-- R283. On a connected queue pair with a completion ring, the consumer count of the ring, which all its queue pairs share, becomes the greatest value written:
a lower value is ignored. -/
def Obligations.RingSpaceIsTheGreatestReported : Prop :=
  ∀ (s : State) (q : Qp) (n : Nat) (v : W64), s.serving = true → s.qp q.num = some q → q.connected = true → q.compRing = some n →
    exec (.ringConsumerUpdate q.num v) s =
      .next ((s.rxPackets q 1).onRing n fun x => { x with consumer := if x.consumer < v.toNat then v.toNat else x.consumer }).settle

/-- R285 to R288, R302. Acknowledgements free what they confirm; a sequence NAK or the ACK timeout resends from the oldest packet, or, with the retry count
exhausted, reports 0x26 and puts the queue pair in the error state; an access NAK does so at once, as does a node's read error; an RNR NAK resends and holds
later completions. A read's data lets its request go on. A refused read draws an invalid-request NAK, a refused write the error state. What is received is
acknowledged 2 µs after the last packet. -/
def Obligations.AcknowledgementsRetriesAndReads : Prop :=
  ∀ (s : State), s.serving = true →
    (∀ q, s.qp q.num = some q → q.connected = true →
      (∀ n, exec (.ackReceived q.num (.ack n)) s = .next ((s.onQp q.num fun x => { x with
        unacked := x.unacked.drop (min n q.unacked.length), ackedCount := x.ackedCount + min n q.unacked.length, retries := 0, rnrRetries := 0
        rnrHold := false, ackUs := s.us }).freeAcked q.num (q.ackedCount + min n q.unacked.length)).settle) ∧
      exec (.ackReceived q.num .nakAccess) s = .next (s.qpError q.num true).settle ∧
      (∀ c, c = Instr.ackReceived q.num .nakSequence ∨ (c = .ackTimeout q.num ∧ q.unacked ≠ [] ∧ 4096 * 2 ^ q.param 0x5030 1 ≤ 1000 * (s.us - q.ackUs)) →
        exec c s = .next (if q.param 0x5030 2 ≤ q.retries then (s.reportUnit (srcLp q.lp) 0x26 0 0).qpError q.num false
          else (s.onQp q.num fun x => { x with retries := x.retries + 1 }).resend q).settle) ∧
      exec (.rnrNakReceived q.num) s = .next (if q.param 0x5030 3 ≠ 7 ∧ q.param 0x5030 3 ≤ q.rnrRetries then s.qpError q.num false
        else (s.onQp q.num fun x => { x with rnrRetries := x.rnrRetries + 1, rnrHold := true }).resend q).settle ∧
      exec (.nodeReadOrWriteRefused q.num true) s = .next (s.control q.lp (.nakInvalid q.num)).settle ∧
      exec (.nodeReadOrWriteRefused q.num false) s = .next ((s.control q.lp (.nakAccess q.num 0)).qpError q.num true).settle ∧
      (0 < q.rxUnacked → s.due (q.rxLastUs + 2) = true →
        exec (.ackCoalescingTimeout q.num) s = .next ((s.onQp q.num fun x => { x with rxUnacked := 0 }).control q.lp (.ack q.num)).settle)) ∧
    (∀ r : DevRead, s.net.reads.find? (fun x => x.id == r.id && x.issued) = some r →
      exec (.rdmaReadComplete r.id .accessError) s = .next (s.qpError r.qp true).settle ∧
      ∀ bs, exec (.rdmaReadComplete r.id (.data bs)) s = .next ((s.endRead r).readDone r (bs.take r.len)).settle)

/-- R299. A data packet marked CE on a connected queue pair sends a CNP to its source and counts it, unless one was sent within the CNP interval
(0x5030.06); then nothing is sent. -/
def Obligations.CongestionMarksDrawNotifications : Prop :=
  ∀ (s : State) (q : Qp), s.serving = true → s.qp q.num = some q → q.connected = true →
    ((∀ t, q.cnpUs = some t → t + q.param 0x5030 6 ≤ s.us) →
      exec (.cePacketReceived q.num) s =
        .next (((s.onQp q.num fun x => { x with cnpUs := some s.us }).control q.lp (.cnp q.num)).bump 0x5002 0x12 q.lp 1).settle) ∧
    (∀ t, q.cnpUs = some t → s.us < t + q.param 0x5030 6 → exec (.cePacketReceived q.num) s = .next s.settle)

/-- R300. What a CNP, an increase event (T_i, or B bytes) and an expiry of K do to a connected queue pair's rates; rates are in byte/s, α and g in 1/65,536
(log 52). -/
def Obligations.CongestionLimiterRates : Prop :=
  ∀ (s : State) (q : Qp), s.serving = true → s.qp q.num = some q → q.connected = true →
    exec (.cnpReceived q.num) s = .next (((s.onQp q.num fun x => { x with
      rt := x.rc, rc := max (q.param 0x5031 8 * 1000000) (x.rc * (131072 - x.alpha) / 131072)
      alpha := (65536 - q.param 0x5031 1) * x.alpha / 65536 + q.param 0x5031 1
      incr := 0, alphaUs := s.us, incrUs := s.us, bytesSince := 0 }).bump 0x5002 0x13 q.lp 1).bump 0x5040 0x0A q.num 1).settle ∧
    (s.due (q.alphaUs + q.param 0x5031 2) = true → exec (.alphaTimerExpiry q.num) s =
      .next (s.onQp q.num fun x => { x with alpha := (65536 - q.param 0x5031 1) * x.alpha / 65536, alphaUs := s.us }).settle) ∧
    (∀ up rt, s.due (q.incrUs + q.param 0x5031 3) = true ∨ q.param 0x5031 4 ≤ q.bytesSince →
      up = (if q.incr + 1 ≤ q.param 0x5031 5 then 0 else if q.incr + 1 ≤ 2 * q.param 0x5031 5 then q.param 0x5031 6 else q.param 0x5031 7) →
      rt = min (q.rt + up * 1000000) (s.lineRate q.lp * 1000000) →
      exec (.rateIncreaseEvent q.num) s = .next (s.onQp q.num fun x => { x with
        incr := q.incr + 1, rt := rt, rc := (rt + x.rc) / 2, incrUs := s.us, bytesSince := 0 }).settle)

/-- R279, R301, R303, R373. At a logical port in use: a PFC frame pauses or releases the priority it enables, and is counted; a share above the XOFF threshold
draws XOFF, one below XON draws XON; a pause longer than the watchdog is released, ignored and reported; a frame that fails its check or is not supported is
counted and dropped, a failed check reported. A port that trains brings its logical ports up. -/
def Obligations.PortsPauseDropAndTrain : Prop :=
  (∀ (s : State) (p : LogicalPort), s.serving = true → s.lpInUse p.num = true → s.lp p.num = some p →
    (∀ pause i, i < 8 → exec (.pfcFrameReceived p.num pause (BitVec.ofNat 8 (2 ^ i))) s = .next ((s.onLp p.num fun x =>
      if pause.toNat.testBit i then (if x.paused.any (·.1 == i) || x.ignored.contains i then x else { x with paused := sset x.paused i s.us })
      else { x with paused := sdel x.paused i, ignored := x.ignored.filter (· != i) }).bump 0x5002 0x0F p.num 1).settle) ∧
    (∀ n, s.rw 0x5002 6 p.num < n → p.xoff = false → exec (.ingressBufferThreshold p.num n) s =
      .next (((s.onLp p.num fun x => { x with share := min n 8388608 }).onLp p.num fun x => { x with xoff := true }).control p.num
        (.pfc p.num (s.rw 0x5010 4 0) true) |>.bump 0x5002 0x10 p.num 1).settle) ∧
    (∀ n, n < s.rw 0x5002 7 p.num → p.xoff = true → exec (.ingressBufferThreshold p.num n) s =
      .next (((s.onLp p.num fun x => { x with share := min n 8388608 }).onLp p.num fun x => { x with xoff := false }).control p.num
        (.pfc p.num (s.rw 0x5010 4 0) false) |>.bump 0x5002 0x10 p.num 1).settle) ∧
    (∀ i t, p.paused.find? (·.1 == i) = some (i, t) → 1000 * s.rw 0x5010 5 0 < s.us - t → exec (.pauseWatchdog p.num i) s =
      .next ((s.onLp p.num fun x => { x with paused := sdel x.paused i, ignored := x.ignored ++ [i] }).bump 0x5002 0x11 p.num 1 |>.reportUnit
        (srcLp p.num) 0x25 0 0).settle) ∧
    exec (.frameCheckDrop p.num .fcs) s = .next ((s.bump 0x5002 0x0A p.num 1).reportUnit (srcLp p.num) 0x21 0 0).settle ∧
    exec (.frameCheckDrop p.num .icrc) s = .next ((s.bump 0x5002 0x0B p.num 1).reportUnit (srcLp p.num) 0x22 0 0).settle ∧
    ∀ f, exec (.unsupportedFrameDrop p.num f) s = .next (s.bump 0x5002 0x0D p.num 1).settle) ∧
  (∀ (s : State) (port : Nat), s.managed = true → s.dev.phase ≠ .fatal → s.fenced (srcPort port) = false →
    s.fenced (srcIsland (netIsland (port / 2))) = false → (port < 2 ∨ s.fenced srcBridge = false) → s.dev.resetInProgress ≠ 5 * 2 ^ 28 + port →
    exec (.linkTrained port) s =
      .next (s.each (portLps port) fun s n => s.onLp n fun x => if x.link = 0 || x.link = 1 then { x with link := 2 } else x).settle)

/-! ### Egress, windows, periods, clocks and clusters (R21, R22, R29, R40, R289 to R295, R396 to R399) -/

/-- R289, R293, R294, R301. At a logical port in use whose link is up, the first control frame whose priority is not paused goes first; with none, the chosen
service's frame goes; and where no frame can pass, those their budget alone holds back wait. Nothing leaves a port whose link is not up. -/
def Obligations.EgressSendsControlFirst : Prop :=
  ∀ (s : State) (p : LogicalPort), s.serving = true → s.lpInUse p.num = true → s.lp p.num = some p →
    (p.link ≠ 2 → exec (.egressFrameSend p.num) s = .next s.settle) ∧
    (p.link = 2 →
      (∀ i w, s.controlHead p = some (i, w) → exec (.egressFrameSend p.num) s =
        .next ((s.onLp p.num fun x => { x with control := x.control.eraseIdx i }).emit p.num w).settle ∧
        p.control[i]? = some w ∧ (∀ c, s.controlPriority w = some c → ∀ t, (c, t) ∉ p.paused)) ∧
      (∀ u, s.controlHead p = none → u = s.each (s.net.egress.filter (·.lp == p.num)) (fun s e => s.ensureSub e) →
        (∀ v l, u.pickLevel p = some (v, l) → exec (.egressFrameSend p.num) s = .next (u.sendFrame p v l).settle) ∧
        (u.pickLevel p = none → exec (.egressFrameSend p.num) s = .next (u.markEgress p).settle)))

/-- R21, R29, R40, R292, R295, R396, R398, R399. A window boundary refills the buckets of a die that is present. A running island at its period boundary begins its
next budgets, does what its kind does there, and begins to change its clock where another is asked for; when its PLL has relocked it runs at the new clock, and its
budgets resume at the next boundary. A gated, fenced or resetting island takes its newest budget table there, and does no more. A cluster whose partitions allow it
is gated, its caches empty, and one woken runs again under the newest table. The power cap moves the clusters' clock by one step of 25 MHz. -/
def Obligations.PeriodsClocksAndGating : Prop :=
  (∀ (s : State) (die : Nat), s.serving = true → s.diePresent die = true → exec (.shaperWindowBoundary die) s = .next (s.openWindow s die).settle) ∧
  (∀ (s : State) (i : Nat) (x : Island), s.managed = true → s.island i = some x →
    (x.st = .running → exec (.periodBoundary i) s = .next (((s.turnPeriod x).turnKind i).turnClock i).settle) ∧
    (x.st = .gated ∨ x.st = .fenced ∨ x.st = .resetting → exec (.periodBoundary i) s = .next (s.onIsland i Island.takeTable)) ∧
    (x.st = .absent ∨ x.st = .clockChanging → exec (.periodBoundary i) s = .next s) ∧
    (∀ k, x.st = .clockChanging → x.relock = some k → ∃ t, exec (.clockRelockDone i) s = .next t ∧
      t.island i = some { x with st := .running, clk := k, relock := none, paused := true })) ∧
  (∀ (s : State) (c : Nat), s.serving = true →
    (c < 16 → s.islandSt (clusterIsland c) = .running → s.clusterFenced c = false → s.mayGate c = true →
      exec (.clusterGate c) s = .next (((s.clearCache c).markIslands [clusterIsland c] .gated).onPower fun p => { p with gatings := sadd p.gatings c 1 }).settle) ∧
    (∀ t, s.power.waking.find? (·.1 == c) = some (c, t) → exec (.clusterWake c) s = .next (((s.onIsland (clusterIsland c) fun i =>
      if i.st = .gated then { i.takeTable with st := .running } else i).note 0x7812 6 c (s.us - t)).onPower fun p =>
        { p with waking := p.waking.filter (·.1 != c), wakes := sadd p.wakes c 1 }).settle)) ∧
  (∀ (s : State) (cap khz : Nat), s.managed = true → s.due (s.power.lastCapUs + 10000) = true → cap = s.rw 0x7810 2 0 →
    khz = (if cap = 0 then 2500000 else if cap * 1000 < s.power.telemetry.powerMilliW then max 800000 (s.power.capKHz - 25000)
      else if s.power.telemetry.powerMilliW < cap * 950 then min 2500000 (s.power.capKHz + 25000) else s.power.capKHz) →
    exec .powerCapStep s = .next (s.onPower fun p => { p with lastCapUs := s.us, capKHz := khz }))

/-! ### The fault collector, pins and the power level (R27, R331, R361 to R382, R385, R399, R404, R406, R411, R420 to R422, R431) -/

/-- R361, R363, R365, R367, R369, R27. The oldest record of an island's queue reaches the collector, a record detected now first entering it; records dropped are
reported in one of kind 0x42; a severe signal is asserted; a Truss handshake in time raises the waiting island's. -/
def Obligations.FaultsReachTheCollector : Prop :=
  ∀ (s : State), s.managed = true →
    (∀ i r l, (s.faultQueue i).recs = r :: l →
      exec (.faultRecord (.queued i)) s = .next ((s.setQueue { s.faultQueue i with recs := l }).collect r).settle) ∧
    (∀ i x u r l, isSource x.source.toNat = true → isKind x.kind.toNat = true → s.unitPresent x.source.toNat = true → s.detect i x = u →
      (u.faultQueue i).recs = r :: l →
      exec (.faultRecord (.detected i x)) s = .next ((u.setQueue { u.faultQueue i with recs := l }).collect r).settle) ∧
    (∀ i, (s.faultQueue i).dropped ≠ 0 → (s.faultQueue i).recs.length < 16 → exec (.faultQueueDropReport i) s =
      .next (((s.setQueue { s.faultQueue i with dropped := 0 }).reportUnit (srcIsland i) 0x42 (s.faultQueue i).dropped 0).bump 0x7010 6 0
        (s.faultQueue i).dropped)) ∧
    (∀ p b, s.pairExists p = true → exec (.severeSignal p b) s = .next (s.severe p b).settle) ∧
    (∀ w x, s.pairExists (.handshake w x) = true →
      exec (.trussHandshakeTimeout w x) s = .next ((s.bump 0x2021 5 w 1).severe (.handshake w x) false).settle)

/-- R371, R380, R381, R399, R404. The alive signal toggles while its object enables it. A changed input records its level, an assertion and the beginning of chatter
are reported, and `THROTTLE_N` and `VR_FAULT_N` hold the safe level; an active `RESET_N`, or a lost supply, holds the device in reset, and its release boots it.
An input active beyond its limit is stuck; 10 ms without a change end chatter, and boot a device whose `RESET_N` has come to rest inactive; a cause of the safe level
ends 100 ms after it has ceased, and not before. -/
def Obligations.PinsHoldTheSafeLevelAndReset : Prop :=
  ∀ (s : State),
    (s.faults.alive = 1 → exec .faultAliveToggle s = .next (s.onFaults fun f => { f with aliveLevel := !f.aliveLevel })) ∧
    (∀ l u, (s.input 0).active ≠ l → u = s.safeInput 0 0x5B l → exec (.throttleNChange l) s = .next ((u.onPower fun p => { p with
      throttleN := p.throttleN || (u.input 0).active || (u.input 0).chatter, throttleOff := s.us }).noteThrottle).settle) ∧
    (∀ l u, (s.input 1).active ≠ l → u = s.safeInput 1 0x5A l → exec (.vrFaultNChange l) s = .next ((u.onPower fun p => { p with
      vrFault := p.vrFault || (u.input 1).active || (u.input 1).chatter, vrOff := s.us }).noteThrottle).settle) ∧
    (∀ l b j, (s.input 2).active ≠ l → j = (s.input 2).change l s.us → exec (.resetNChange l b) s =
      .next (if l || j.chatter then (s.onInput 2 fun _ => { j with owed := if j.chatter then some 0x59 else j.owed }).holdInReset
        else ((s.onInput 2 fun _ => { j with owed := if j.chatter then some 0x59 else j.owed }).reboot b true).settle)) ∧
    exec .vddAuxLoss s = .next s.holdInReset ∧
    (∀ n, n < 3 → (s.input n).active = true → (s.input n).stuck = false → s.due ((s.input n).since + 1000 * s.rw 0x7050 3 n) = true →
      exec (.inputStuck n) s = .next (if n = 2 then s.onInput 2 fun i => { i with stuck := true, owed := some 0x58 }
        else ((s.onInput n fun i => { i with stuck := true }).inputRecord n 0x58).settle)) ∧
    (∀ n, n < 2 → (s.input n).chatter = true → s.due ((s.input n).since + 10000) = true → exec (.inputChatterEnd n) s =
      .next ((s.onInput n fun i => { i with chatter := false }).onPower fun p =>
        if n = 0 then { p with throttleOff := s.us } else { p with vrOff := s.us }).settle) ∧
    ((s.input 2).chatter = true → s.due ((s.input 2).since + 10000) = true → ∀ u, u = (s.onInput 2 fun i => { i with chatter := false }) →
      exec (.inputChatterEnd 2) s = .next (if (s.input 2).active then u else (u.freeBoot.2.reboot u.freeBoot.1 true).settle)) ∧
    (∀ n off, (n = 0 ∧ off = s.power.throttleOff) ∨ (n = 1 ∧ off = s.power.vrOff) →
      let ceased := (s.input n).active = false ∧ (s.input n).chatter = false ∧ off + 100000 ≤ s.clock.us
      (ceased → exec (.safeLevelExit n) s = .next (s.onPower fun p => if n = 0 then { p with throttleN := false } else { p with vrFault := false }).settle) ∧
      (¬ceased → exec (.safeLevelExit n) s = .next s.settle)) ∧
    exec (.safeLevelExit 2) s = .next (s.onPower fun p => { p with
      railTrip := p.railTrip && s.clock.us < p.railUntil + 100000
      avsFault := if p.avsOkSince + 100000 ≤ s.clock.us then [] else p.avsFault }).settle

/-- R331 to R333, R382, R385, R406, R411, R421, R422, R431. While management runs: a core voltage is set where its regulator answers, and is not lowered while a clock
still waits for it (log 163); one that does not answer three times is a fault, and telemetry then keeps its last values; thermal readings and the congestion level
are taken; meters are saved every 60 s. And the end of the firmware hold and of an orderly shutdown. -/
def Obligations.SamplesHoldsAndShutdown : Prop :=
  ∀ (s : State),
    (s.managed = true →
      (∀ d n mv, d < 2 → s.diePresent d = true → s.power.avsFault.contains d = false → mv = max 650 (min 850 (n + 15)) →
        exec (.avsRefresh d n) s = .next ((s.onPower fun p => { p with
          railMv := p.railMv.set d (if s.railHeld d then max (p.railMv.getD d 0) mv else mv), railSetUs := p.railSetUs.set d s.us }).onIslands fun l =>
            mapIf (fun x => islandDie x.num == d) (fun x => { x with railFor := max x.clk (max (x.relock.getD 0) (x.wish.getD 0)) }) l)) ∧
      (∀ d, d < 2 → s.diePresent d = true → exec (.avsTimeout d) s =
        .next ((s.onPower fun p => { p with avsFault := insNat p.avsFault d, avsOkSince := s.us }).noteThrottle).settle) ∧
      (∀ r : ThermalReading, s.sensorPresent r.sensor = true → exec (.thermalSample r) s = .next (s.takeReading r.sensor r.deciC).settle) ∧
      (∀ t, s.power.avsFault = [] → exec (.telemetryRefresh t) s =
        .next (s.onPower fun p => { p with telemetry := t, energyJ := p.energyJ + t.energyJ })) ∧
      (∀ t, s.power.avsFault ≠ [] → exec (.telemetryRefresh t) s = .next (s.onPower fun p =>
        { p with telemetry := { p.telemetry with dieTemps := t.dieTemps, stackTemp := t.stackTemp } })) ∧
      (∀ v, s.due (s.power.congestionUs + 10000) = true →
        v = (if s.power.throttledSince ∨ s.throttled then 3 else if s.power.totalPeriods = 0 then 0
          else if s.power.totalPeriods ≤ 10 * s.power.waitedPeriods then 2 else if s.power.totalPeriods ≤ 100 * s.power.waitedPeriods then 1 else 0) →
        exec .congestionLevelUpdate s = .next (s.onPower fun p =>
          { p with congestion := v, congestionUs := s.us, throttledSince := false, waitedPeriods := 0, totalPeriods := 0 })) ∧
      (s.meters.lastSave + 60000 ≤ s.ms → exec .meterSave s = .next (s.onMeters fun m => { m with saved := m.live, lastSave := s.ms })) ∧
      (s.ms < s.meters.lastSave + 60000 → exec .meterSave s = .next s)) ∧
    (∀ t r, s.managed = true ∨ s.dev.phase = .awaitingImage → s.fw.hold = some (t, r) → s.due (t + 5010 + 1000 * s.rw 0x7840 7 0) = true ∨ s.requestsLeft = false →
      ∀ u, u = ((s.endRequests.resumeTimers (s.us - t)).onFw fun f => { f with hold := none }) → exec .firmwareHoldLimitExpiry s =
        .next (if r.loaded ∧ r.measured then u.onFw fun f =>
          { f with active := 1 - f.active, pending := 0, pendingVersion := 0, image := [], lastMs := r.durationMs } else u.imageFails).settle) ∧
    (∀ t u, s.serving = true → s.dev.shutdownAt = some t → s.due (t + 1000000) = true ∨ s.requestsLeft = false →
      u = s.endRequests.each ((List.range (flashIslandCount s.endRequests.dev.part)).filter s.endRequests.takesPrograms) (fun s i => s.fullCheckpoint i) →
      exec .shutdownRequestTimeout s = .next (u.saveAll.onDev fun d => { d with phase := .shutDown }).settle)

/-! ### Moves and tables (R52, R58, R68, R69, R73, R195 to R197) -/

/-- R52, R58, R68, R69, R73, R195, R196, R197. A move of a page that is ready, not begun and not barred by its pin count is made; one whose reason no longer stands,
whose page is lost or gone, is dropped; a barred one is passed over. A shootdown that completes invalidates what it names and frees its places. The age scan, once
due and paid for, starts what is due. A packed extent below its threshold is re-placed page by page. A head table three quarters full doubles where its frames are
to be had. A table set is built once enough pages are counted, a slot is free and the partition can pay, and installed becomes its partition's newest. -/
def Obligations.PagesMoveAndTablesGrow : Prop :=
  ∀ (s : State), s.serving = true →
    (∀ m q p, s.move m.id = some m → s.seq m.page.handle = some q → s.page m.page = some p → m.begun = false → m.ready = true →
      ((p.lost = true ∨ s.moveStands m q p = false) → exec (.pageMove m.id) s = .next (s.dropMove m (some p)).settle) ∧
      (p.lost = false → s.moveStands m q p = true → barred m.kind p = true → exec (.pageMove m.id) s = .next (s.skipMove m).settle) ∧
      (p.lost = false → s.moveStands m q p = true → barred m.kind p = false → exec (.pageMove m.id) s = .next (s.makeMove m q p).settle)) ∧
    (∀ m, s.move m.id = some m → s.seq m.page.handle = none ∨ s.page m.page = none → exec (.pageMove m.id) s = .next (s.dropMove m none).settle) ∧
    (∀ d, s.hbm.shootdowns.find? (·.id == d.id) = some d → exec (.shootdownComplete d.id) s = .next (s.shootdownDone d).settle) ∧
    (∀ (h : W64) q, s.seq h.toNat = some q →
      (s.scanDue q = false → exec (.ageScanVisit h) s = .next s.settle) ∧
      (∀ c, s.scanDue q = true → s.chargeAll (mergeCosts [managementCost 64 7 1]) = (c, none) → exec (.ageScanVisit h) s = .next (c.scanSeq q).settle)) ∧
    (∀ n e, s.extent n = some e → exec (.extentEvacuation n) s = .next (if 100 * s.liveIn e < s.rw 0x2101 0x0C e.part * 2048 then
      s.each (s.extentPages e) fun s x => if x.2.pins ≠ 0 then s.bump 0x2104 0x0D 0 1 else (s.rePlace x.1 x.2 e.id id).getD s else s).settle) ∧
    (∀ (h : W64) q u, s.seq h.toNat = some q → q.capacity < 1024 → 3 * q.capacity * 4096 ≤ 4 * (q.sealedPos - q.posBase) → u = s.growHeads q →
      (u.work.appends.find? (fun a => a.handle == q.handle && a.phase == .growth) = none ∨ (u.seq q.handle).map (·.capacity) = some q.capacity →
        exec (.headTableGrowth h) s = .next u.settle) ∧
      (∀ a, u.work.appends.find? (fun a => a.handle == q.handle && a.phase == .growth) = some a → (u.seq q.handle).map (·.capacity) ≠ some q.capacity →
        exec (.headTableGrowth h) s = .next (u.beginAlloc a.id).settle)) ∧
    (∀ (h : W64) q, s.seq h.toNat = some q → 1024 ≤ q.capacity ∨ 4 * (q.sealedPos - q.posBase) < 3 * q.capacity * 4096 →
      exec (.headTableGrowth h) s = .next s.settle) ∧
    (∀ p, s.act 0x2501 3 p ≠ 0 → (s.packer p).accTried + s.act 0x2501 3 p ≤ (s.packer p).accPages → (s.packer p).pending = none →
      (s.tableSlot (s.packer p) = none → exec (.tableBuild p) s =
        .next ((s.onPacker p fun x => { x with accTried := x.accPages }).bump 0x2501 0x0A p 1).settle) ∧
      (∀ i c, s.tableSlot (s.packer p) = some i → s.chargeAll (mergeCosts [managementCost p 6 1]) = (c, none) → exec (.tableBuild p) s =
        .next ((c.onPacker p fun x => { x with pending := some (i, buildTables x.acc), acc := [], accPages := 0, accTried := 0 }).bump 0x2501 9 p 1).settle)) ∧
    (∀ p i t, (s.packer p).pending = some (i, t) → exec (.tableSetInstalled p) s = .next (s.onPacker p fun x =>
      { x with pending := none, newest := i, installs := x.installs + 1, slots := setAt x.slots i { tables := t, installed := x.installs + 1 } }).settle)

/-! ### Flash (R210 to R242, R378) -/

/-- R215, R216, R221, R225, R236, R237. On a flash island that runs: a row that is programmed is confirmed; one that waits too long is padded, and before that it is
not; a read's data arrives, or its request fails where no copy can be read; a failed erasure retires the block and is reported in 0x13; a failed program is
reported in 0x14, its superblock drains, and what it carried is issued again; a failed collection target gives its copies to another. -/
def Obligations.FlashProgramsReadsAndFails : Prop :=
  (∀ (s : State) (num i n : Nat), s.FlashUp num i →
    (∀ row, exec (.flashProgramConfirm num n row) s = .next (s.confirmRows i n row).settle) ∧
    (∀ row, s.padDue i n row = true → exec (.rowPadTimeout num n row) s = .next (s.padRow i n row).settle) ∧
    (∀ row, s.padDue i n row = false → exec (.rowPadTimeout num n row) s = .next s.settle) ∧
    (∀ b, s.sb i n = some b →
      (∀ k ch blk, b.members[k]? = some (ch, blk) → (b.st = .draining ∨ b.marked = true) → s.erasable i n = true →
        exec (.flashEraseFailure num n k) s = .next (((s.retireMember i n k).bump 0x3100 0x0B 0 1).reportUnit (srcDie ((16 * i + ch) * 32 + n / 32768)) 0x13 0
          (packBits [(10, (16 * i + ch) * 32 + n / 32768), (15, blk), (13, 0), (10, 0)])).settle) ∧
      (∀ slot x u, s.flash.pages.find? (fun x => x.island == i && x.sb == n && x.slot == slot && !x.confirmed) = some x → u = s.programFails i n slot b →
        (x.kind = .pad → exec (.flashProgramFailure num n slot) s = .next u.settle) ∧
        (∀ v, x.kind ≠ .pad → u.sb i n = some v → exec (.flashProgramFailure num n slot) s = .next (u.replaceProgram v x).settle)) ∧
      (∀ k, b.stream = .gc → b.failed = none → (b.st = .open_ ∨ b.st = .closed) → k < b.width →
        exec (.gcTargetFailure num n k) s = .next (s.targetFails i n k b).settle))) ∧
  (∀ (s u : State) (r : FlashRead) (v : FlashVerdict) (e : Option Nat × State), s.serving = true →
    s.flash.reads.find? (fun x => x.id == r.id && x.issued) = some r →
    u = (s.onFlash fun f => { f with reads := f.reads.filter (·.id != r.id) }) → u.endFlashReads r v (u.lpnSpan r.lpn r.n) = e →
    (e.1 = none → exec (.flashReadComplete r.id v) s = .next (e.2.readArrives r).settle) ∧
    (∀ d, e.1 = some d → exec (.flashReadComplete r.id v) s = .next (e.2.readFails r d).settle) ∧
    (∀ l x b, s.slotOf l = some x → s.sb x.island x.sb = some b →
      ((s.endFlashRead r l v).1 = none ↔ s.readVerdict b x.slot v ≠ .unreadable)))

/-- R227, R228, R232, R234, R241, R242, R331, R378. Collection goes on with a marked superblock, else one that drains, else a victim while free space is low; a victim
no page needs is erased once it is paid for; a secure release ends with its last superblock; the journal is flushed; a checkpoint is written when enough map
updates have gathered, and once confirmed roots the island; temperatures are kept once a second; and patrol reads flash and HBM, counting and reporting what it
finds. -/
def Obligations.FlashIsCollectedSavedAndPatrolled : Prop :=
  (∀ (s : State) (num i : Nat), s.FlashUp num i →
    (∀ tlc u, u = s.consolidateCold i tlc →
      let busy := fun (b : Superblock) => b.island == i && b.tlc == tlc && !(s.validIn i b.num).isEmpty
      (∀ b, u.flash.sbs.find? (fun b => busy b && b.marked) = some b → exec (.garbageCollection num tlc) s = .next (u.gcSb i b.num false).settle) ∧
      (u.flash.sbs.find? (fun b => busy b && b.marked) = none →
        (∀ b, u.flash.sbs.find? (fun b => busy b && b.st == .draining) = some b →
          exec (.garbageCollection num tlc) s = .next (u.gcSb i b.num (decide (s.sbsFree i tlc < s.watermark tlc 1))).settle) ∧
        (u.flash.sbs.find? (fun b => busy b && b.st == .draining) = none →
          (s.watermark tlc 0 ≤ s.sbsFree i tlc ∨ u.gcVictim i tlc = none → exec (.garbageCollection num tlc) s = .next u.settle) ∧
          (∀ b, s.sbsFree i tlc < s.watermark tlc 0 → u.gcVictim i tlc = some b → exec (.garbageCollection num tlc) s =
            .next (((u.onSb i b.num fun x => { x with st := .draining }).bump 0x3004 7 0 1).gcSb i b.num
              (decide (s.sbsFree i tlc < s.watermark tlc 1))).settle)))) ∧
    (∀ n b c, s.sb i n = some b → (b.st = .draining ∨ b.marked = true) → s.erasable i n = true →
      s.chargeAll (mergeCosts [flashCost i 64 4 (b.width * s.eraseCycles i b.tlc)]) = (c, none) →
      exec (.victimErase num n) s = .next (c.eraseVictim i n b).settle) ∧
    (∀ f, s.fisland i = some f →
      (f.pendingJournal ≠ [] → (8192 ≤ f.pendingJournal.length ∨ s.due (f.lastFlushUs + 100000) = true ∨
          (∃ b ∈ s.flash.sbs, b.island = i ∧ (b.st = .draining ∨ b.marked = true) ∧ s.validIn i b.num = [])) →
        exec (.journalFlush num) s = .next (s.flushJournal i).settle) ∧
      (∀ x, f.checkpointRunning = true →
        s.flash.pages.find? (fun x => x.island == i && x.kind == .checkpoint && x.wseq == f.checkpointSeq && x.confirmed) = some x →
        exec (.checkpoint num) s = .next (((s.onFisland i fun x => { x with checkpointRunning := false, rooted := true }).onClock fun c =>
          { c with saved := c.tod }).onFlash fun g => { g with pages := g.pages.map fun x =>
            if x.island == i && (x.kind == .journal || x.kind == .checkpoint) && x.wseq < f.checkpointSeq then { x with valid := false } else x }).settle) ∧
      (∀ c u w, f.checkpointRunning = false → s.rw 0x3003 2 0 ≤ f.updates → s.chargeAll (mergeCosts [s.systemCost i 1]) = (c, none) →
        c.programSystem i (systemPage .checkpoint []) = some u →
        w = (((u.flash.pages.filter fun x => x.island == i && x.kind == .checkpoint).getLast?).map (·.wseq)).getD f.checkpointSeq →
        exec (.checkpoint num) s = .next (((u.onFisland i fun x => { x with
          checkpointRunning := true, checkpointSeq := w, updates := 0, tempSaved := x.tempSeconds }).journal i
            [{ kind := 10, lpn := 0, sb := 0, slot := 0, wseq := w }])).settle) ∧
      (∀ t r, exec (.dieTemperatureSample num (t :: r)) s = .next (s.onFisland i fun f => if f.sampledUs + 1000000 ≤ s.clock.us then
        { f with temps := t :: r, sampledUs := s.clock.us, tempSeconds := sadd f.tempSeconds (tempBin (r.foldl max t)) 1 } else f).settle)) ∧
    (∀ n slot b x v c, s.sb i n = some b →
      s.flash.pages.find? (fun x => x.island == i && x.sb == n && x.slot == slot && x.kind == .data && x.valid && x.confirmed) = some x →
      s.act 0x2013 7 3 ≠ 0 → s.chargeAll (mergeCosts [flashCost i 64 5 (s.readCycles i b.tlc)]) = (c, none) →
      exec (.flashPatrolRead num n slot v) s = .next ((((c.noteRead b slot (s.readVerdict b slot v)).oweAll (c.ladderCosts b slot 64 5 (s.readVerdict b slot v))).patrolled
        (i, n, slot)).patrolVerdict b x (s.readVerdict b slot v)).settle)) ∧
  (∀ (s : State) (h : W64) r, s.serving = true → s.flash.secure.find? (fun r => r.handle == h.toNat && r.marked.isEmpty) = some r →
    exec (.secureReleaseComplete h) s = .next (((s.onFlash fun f =>
      { f with secure := f.secure.filter fun x => !(x.handle == r.handle && x.marked.isEmpty) }).complete r.req .ok
        [packWord [(23, r.sealedPos), (41, 0)]] []).peak 0x3008 3 0 ((s.us - r.startUs) / 1000)).settle) ∧
  (∀ (s : State) (c n : Nat) (v : State), s.serving = true → c < 384 → s.diePresent (c / 192) = true → n * 256 < channelBytes → s.channelFenced c = false →
    s.chargeAll (mergeCosts [channelCost c 64 5 4]) = (v, none) →
    let a := c * channelBytes + n * 256
    exec (.hbmPatrolRead c n .clean) s = .next (v.patrolUnit c).settle ∧
    exec (.hbmPatrolRead c n .correctable) s = .next (((v.patrolUnit c).bump 0x7060 3 0 1).reportUnit (srcChannel c) 0x03 0 a).settle ∧
    (∀ k p, v.seqs.findSome? (fun q => (q.pages.find? (·.holdsAddr a)).map fun p => (keyOf q p, p)) = some (k, p) →
      exec (.hbmPatrolRead c n .uncorrectable) s = .next (((v.patrolUnit c).reportUnit (srcChannel c) 0x04 0 a).hbmPageFails k p (srcChannel c)).settle) ∧
    (∀ q j, v.seqs.findSome? (fun q => (q.pages.find? (·.holdsAddr a)).map fun p => (keyOf q p, p)) = none →
      v.seqs.findSome? (fun q => (q.ledgerFrames.findIdx? (· == c * channelFrames + n * 256 / 16384)).map fun j => (q, j)) = some (q, j) →
      exec (.hbmPatrolRead c n .uncorrectable) s = .next (((v.patrolUnit c).reportUnit (srcChannel c) 0x04 0 a).ledgerFails q j).settle))

/-! ### Epochs, slices and management sessions (R308 to R314, R340 to R354, R403) -/

/-- R310, R311, R313, R314, R342, R403. The drain limit aborts what is still under the old epoch, which then ends, as it does when nothing of it runs. A draining slice that
is idle is zeroed; one that is busy goes on moving its pages. A zeroed slice is its partition's, or unassigned, and new budget tables are written. A
reservation ends with its limit. -/
def Obligations.EpochsAndSlicesDrain : Prop :=
  (∀ (s : State), s.serving = true → s.epochs.prev.isSome = true →
    (s.due (s.epochs.commitUs + 1000 * s.rw 0x6000 5 0) = true → exec .drainLimitExpiry s =
      .next ((((s.endUnder (fun e => e != s.epochs.active) .staleEpoch).endEpoch).onEpochs fun e =>
        { e with aborted := e.aborted + s.requestsUnder fun e => e != s.epochs.active })).settle) ∧
    (s.requestsUnder (fun e => e != s.epochs.active) = 0 → (∀ i ∈ s.islands, i.shadowTable = none) → (∀ x ∈ s.epochs.slices, x.st ≠ .draining) →
      (∀ q ∈ s.seqs, q.epoch = s.epochs.active ∨ s.inFlight q.handle true = false) →
      exec .epochDrainEnd s = .next ((s.onSeqs fun l => l.map fun q => { q with epoch := s.epochs.active }).onEpochs fun e => { e with prev := none }).settle)) ∧
  (∀ (s : State) (n : Nat) (x : Slice), s.serving = true → s.sliceOf n = some x →
    (x.st = .draining → exec (.sliceDrainDone n) s = .next (if s.sliceBusy n then s.drainPages
      else ((s.endSliceQps n).clearLines n).onEpochs fun e => { e with slices := mapIf (·.num == n) (fun y => { y with st := .zeroing, owner := none }) e.slices }).settle) ∧
    (x.st = .zeroing → x.forReset = false →
      exec (.zeroingDone n) s = .next ((((s.zeroSlice n).assignSlice n x.joins).dropUnowned n).writeTables).settle)) ∧
  (∀ (s : State) (n t : Nat), s.managed = true → s.objs.reservation = some (n, t) → s.due t = true →
    exec .reservationLimitExpiry s = .next (s.onObjs fun o => { o with reservation := none }))

/-- R345, R348, R350, R351, R352. A HELLO to an open port draws DEVICE, the same DEVICE again when repeated, or `RETRY_LATER` while four handshakes or eight sessions
are there. FINISH opens a session with a usable, unlocked slot whose signature holds, else DONE is refused and the failure counted. Handshakes, sessions
and lockouts end with their limits, and CLOSE ends a session. -/
def Obligations.SessionsOpenAndClose : Prop :=
  ∀ (s u : State), s.portOpen = true →
    (∀ (id : W64) (n : Byte) (nonce ek : List Byte) (a : Nat), u = s.bump 0x1200 0x0C 0 1 → nonce.length = 32 → ek.length = 1184 → n.toNat ≤ 7 →
      (∀ h, u.mgmt.handshakes.find? (·.id == id.toNat) = some h → h.hello = mgmtHelloBytes n.toNat nonce ek →
        exec (.mgmtHello id n nonce ek a) s = .next (u.onMgmt fun m => { m with out := m.out ++ [.device id.toNat h.device] })) ∧
      (u.mgmt.handshakes.find? (·.id == id.toNat) = none →
        exec (.mgmtHello id n nonce ek a) s = .next (if 4 ≤ u.mgmt.handshakes.length ∨ 8 ≤ u.mgmt.sessions.length
          then u.onMgmt fun m => { m with out := m.out ++ [.error id.toNat .retryLater 1 0] }
          else u.sendDevice id.toNat n.toNat (mgmtHelloBytes n.toNat nonce ek) ek a))) ∧
    (∀ (id : W64) (ok : Bool) (h : Handshake) (c : Cred) (n : Nat), (s.bump 0x1200 0x0C 0 3).mgmt.handshakes.find? (·.id == id.toNat) = some h →
      u = ((s.bump 0x1200 0x0C 0 3).onMgmt fun m => { m with handshakes := m.handshakes.filter (·.id != h.id) }) → u.credOf h.slot = some c →
      (u.fw.hold.isSome = true → exec (.mgmtFinish id ok) s = .next (u.refuseSession h .attestPending)) ∧
      (u.fw.hold = none → u.slotUsable c = false ∨ c.lockUs.isSome = true ∨ ok = false →
        exec (.mgmtFinish id ok) s = .next ((u.failAuth c).refuseSession h .accessDenied)) ∧
      (u.fw.hold = none → u.slotUsable c = true → c.lockUs = none → ok = true → u.freeSession = some n →
        exec (.mgmtFinish id ok) s = .next (u.openSession h c n))) ∧
    (∀ id : W64, exec (.mgmtHandshakeTimeout id) s = .next (s.onMgmt fun m => { m with
      handshakes := m.handshakes.filter fun h => !(h.id == id.toNat && s.due (h.startUs + 1000 * s.rw 0x1201 2 0)) })) ∧
    (∀ n, exec (.mgmtSessionIdleTimeout n) s = .next (s.closeSessions (fun x => x.slot == n && (s.due (x.lastUs + 1000000 * s.rw 0x1201 1 0)
      || s.due (x.openedUs + 86400000000))) true)) ∧
    (∀ c t, s.credOf c.num = some c → c.lockUs = some t → s.due t = true →
      ∃ v, exec (.slotLockoutEnd c.num) s = .next v ∧ v.credOf c.num = some { c with lockUs := none, recent := [] }) ∧
    (∀ g x, (s.bump 0x1200 0x0C 0 1).mgmt.sessions.find? (·.id == g.session.toNat) = some x → g.opens = true → x.inCounter ≤ g.counter →
      exec (.mgmtClose g) s = .next ((s.framed x g).closeSessions (·.id == x.id) false))

/-- R354. A session's request is executed and its reply kept, one of the last 16; a request number that has been answered draws the kept reply again and nothing is
executed; a number lower than all 16 kept is dropped. For reads, writes and block reads. -/
def Obligations.RepliesAreKeptAndNotExecutedAgain : Prop :=
  ∀ (s : State) (g : Mgmt) (x : Session) (l : List Item) (i : Item) (n : Byte), s.portServes = true →
    s.mgmt.sessions.find? (·.id == g.session.toNat) = some x → g.opens = true → x.inCounter ≤ g.counter →
    ∀ c ∈ [(Instr.mgmtRead g l, fun (u : State) => u.opRead (.session x.slot) l), (.mgmtWrite g l, fun u => u.opWrite (.session x.slot) Outside.unsaid l),
        (.mgmtBlockRead g i n, fun u => u.opBlock (.session x.slot) i n.toNat)],
      (∀ b, x.replies.find? (fun r => r.1 == g.request) = some (g.request, b) → exec c.1 s = .next ((s.framed x g).sendReply x b)) ∧
      (x.replies.find? (fun r => r.1 == g.request) = none → 16 ≤ x.replies.length → x.replies.all (fun r => g.request < r.1) = true →
        exec c.1 s = .next (s.framed x g)) ∧
      (s.Takes x g → ∀ r, c.2 (s.begun x g) = r → exec c.1 s = .next (r.2.answered x g r.1))

/-! ### Administrators' commands, each one request (R335 to R347, R352 to R354) -/

/-- R340, R342, R343, R344, R345, R352, R357, R79, R385. Each of these commands of an administrator writes its object, does what the object does, and is answered `OK`, or
`COMMIT_REFUSED`, `COMMIT_BUSY`, `SHADOW_RESERVED` or `OUT_OF_RANGE`. -/
def Obligations.ManagementObjectsAreWritten : Prop :=
  ∀ (s b : State) (x : Session) (g : Mgmt),
    (s.Manages x g b 0x1100 1 0 → b.reserved (.session x.slot) = false → b.fw.hold = none →
      (∀ u, b.checkCommit = none → u = (b.acceptCommit.settle.onSession x.slot fun y => { y with lastCommit := .ok }) →
        exec (.commit g true 1) s = .next (u.answered x g (.ok, [])) ∧ exec (.commit g false 1) s = .next (u.wroteOk x g 0x1100 1)) ∧
      (∀ n d byOp, b.checkCommit = some (n, d) → ∀ st u, st = (if n = 1 then DStatus.commitBusy else .commitRefused) →
        u = ((b.onEpochs fun e => { e with refuseReason := n, refuseDetail := d }).onSession x.slot fun y => { y with lastCommit := st }) →
        exec (.commit g byOp 1) s = .next (u.answered x g (st, if byOp then [] else [Record.only st 1 7])))) ∧
    (s.Manages x g b 0x1100 2 0 →
      (b.reserved (.session x.slot) = false →
        exec (.discardShadow g 1) s = .next ((b.onObjs fun o => { o with shadow := o.active, saltsNext := [] }).wroteOk x g 0x1100 2)) ∧
      (b.reserved (.session x.slot) = true →
        exec (.discardShadow g 1) s = .next (b.answered x g (.shadowReserved, [Record.only .shadowReserved 2 7])))) ∧
    (s.Manages x g b 0x1100 4 0 → b.reserved (.session x.slot) = false →
      exec (.shadowReservation g 0xFF) s = .next ((b.onObjs fun o => { o with reservation := none }).wroteOk x g 0x1100 4) ∧
      (x.slot < 8 → exec (.shadowReservation g (BitVec.ofNat 8 x.slot)) s =
        .next ((b.onObjs fun o => { o with reservation := some (x.slot, b.us + 1000000 * b.rw 0x1201 6 0) }).wroteOk x g 0x1100 4))) ∧
    (s.Manages x g b 0x1010 1 0 → ∀ t,
      (b.clock.tod ≤ t.toNat → exec (.timeOfDayWrite g t) s = .next ((b.onClock fun c =>
        { c with tod := t.toNat, written := true, writes := c.writes + 1, saved := t.toNat }).wroteOk x g 0x1010 1)) ∧
      (t.toNat < b.clock.tod → exec (.timeOfDayWrite g t) s = .next (b.answered x g (.outOfRange, [Record.only .outOfRange 1 4])))) ∧
    (s.Manages x g b 0x1200 0x0D 0 →
      exec (.applyMgmtConfiguration g 1) s = .next ((b.loadPort.closeSessions (fun _ => true) true).wroteOk x g 0x1200 0x0D)) ∧
    (∀ n (i : Item), s.Manages x g b 0x1210 4 n → i.index = 0x1210 → i.sub = 4 → i.length = 1 → i.offset = 0 → i.value = [1] →
      b.mgmt.creds.any Cred.admin = true → (mapIf (·.num == n) (fun c => { c with enabled := true }) b.mgmt.creds).any Cred.admin = true →
      exec (.credentialWrite g i) s = .next (((b.onMgmt fun m => { m with creds := mapIf (·.num == n) (fun c => { c with enabled := true }) m.creds }).closeSessions
        (·.cred == n) true).wroteOk x g 0x1210 4)) ∧
    (s.Manages x g b 0x1202 1 0 →
      exec (.serviceRoleDisable g) s = .next (((b.setRw 0x1202 1 0 0).closeSessions (·.role == 2) true).wroteOk x g 0x1202 1)) ∧
    (∀ n, s.Manages x g b 0x2102 1 n → ∀ h, exec (.sequenceWindowSelect g h) s = .next (((b.onAccess (.session x.slot) fun a =>
      { a with sel := sset a.sel (okey 0x2102 1 0) h.toNat }).onAccess (.session x.slot) fun a => { a with
        seqSnap := if handleSlot h.toNat < b.act 0x2101 2 (handlePart h.toNat) then b.seq h.toNat else none }).wroteOk x g 0x2102 1)) ∧
    (∀ n, s.Manages x g b 0x8010 2 n → ∀ t u, u = (b.onAccess (.session x.slot) fun a => { a with sel := sset a.sel (okey 0x8010 2 0) t.toNat }) →
      exec (.meterTenantSelect g t) s = .next ((u.onAccess (.session x.slot) fun a => { a with
        meterSnap := (List.range 128).foldl (fun (m : SMap) f =>
          sset m f (sget b.meters.live (meterKey ((u.access (.session x.slot)).selector 0x8010 1) t.toNat f) 0)) [] }).wroteOk x g 0x8010 2)) ∧
    (∀ n, s.Manages x g b 0x1211 8 n → exec (.sessionCloseCommand g 1) s = .next ((b.closeSessions (·.slot == n) true).wroteOk x g 0x1211 8)) ∧
    (∀ n, s.Manages x g b 0x7812 3 n → ∀ v : Byte, v.toNat ≤ 1 →
      exec (.clusterHoldOff g v) s = .next ((b.holdOff n (v.toNat == 1)).wroteOk x g 0x7812 3))

/-- R157, R274, R278, R326, R330, R370, R376, R377, R391, R393, R400, R403, R406, R408, R409. The commands that act on units, the firmware, pairing, mailboxes, migration and
the bank mode, and the two that take what they read. -/
def Obligations.UnitsFirmwareAndResetsObey : Prop :=
  ∀ (s b : State) (x : Session) (g : Mgmt) (n : Nat),
    (s.Manages x g b 0x5001 4 n → exec (.linkReset g 1) s = .next ((b.linkReset n).wroteOk x g 0x5001 4)) ∧
    (s.Manages x g b 0x7100 2 n → exec (.fenceUnit g 1) s = .next ((b.fenceUnit n).wroteOk x g 0x7100 2)) ∧
    (s.Manages x g b 0x7100 3 n → ∀ p u, b.returnUnit n (some p) = (.ok, u) → exec (.returnUnit g 1 p) s = .next (u.wroteOk x g 0x7100 3)) ∧
    (s.Manages x g b 0x7010 5 n → exec (.clearFirstError g 1) s = .next ((b.onFaults fun f => { f with firstError := none }).wroteOk x g 0x7010 5)) ∧
    (s.Manages x g b 0x7820 1 0 → b.dev.resetInProgress = 0 → b.fw.hold = none →
      ∀ (w : W32) (r : BootReport),
        (w.toNat / 2 ^ 28 % 16 = 1 → w.toNat % 65536 = 0 → exec (.deviceReset g w r) s = .next ((b.reboot r false).wroteOk x g 0x7820 1)) ∧
        (w.toNat / 2 ^ 28 % 16 = 2 → w.toNat % 65536 = 1 → b.dieFree = true → exec (.dieReset g w r) s = .next (((b.resetDie r).resetNoted w).wroteOk x g 0x7820 1)) ∧
        (w.toNat / 2 ^ 28 % 16 = 3 → w.toNat % 65536 < 16 → b.diePresent (w.toNat % 65536 / 8) = true →
          exec (.clusterReset g w) s = .next (((b.resetCluster (w.toNat % 65536)).resetNoted w).wroteOk x g 0x7820 1)) ∧
        (w.toNat / 2 ^ 28 % 16 = 4 → w.toNat % 65536 < 64 → b.slicesOf (w.toNat % 65536) ≠ [] →
          exec (.partitionReset g w) s = .next (((b.resetPartition (w.toNat % 65536)).resetNoted w).wroteOk x g 0x7820 1)) ∧
        (w.toNat / 2 ^ 28 % 16 = 5 → w.toNat % 65536 < 4 → b.diePresent (w.toNat % 65536 / 2) = true →
          exec (.portReset g w) s = .next (((b.resetPort (w.toNat % 65536)).resetNoted w).wroteOk x g 0x7820 1))) ∧
    (s.Manages x g b 0x7820 4 0 → exec (.orderlyShutdown g 1) s = .next (b.beginShutdown.wroteOk x g 0x7820 4)) ∧
    (∀ i : Item, s.Manages x g b 0x7840 4 0 → i.index = 0x7840 → i.sub = 4 → i.length.toNat = i.value.length → i.offset = 0 → i.last = false →
      i.value.length ≤ 1024 → b.fw.pending ≠ 3 →
      exec (.imageSegmentWrite g i) s = .next (((b.onAccess (.session x.slot) fun a => { a with seg := some (imageKey, i.value) }).onFw fun f =>
        { f with pending := 1, pendingVersion := 0, image := i.value }).wroteOk x g 0x7840 4)) ∧
    (s.Manages x g b 0x7840 5 0 → ∀ p q v u, b.verifyImage p q (BitVec.toNat v) = (.ok, u) →
      exec (.imageVerify g 1 p q v) s = .next (u.wroteOk x g 0x7840 5)) ∧
    (s.Manages x g b 0x7840 6 0 → ∀ r u, b.startSwitch r = (.ok, u) → exec (.firmwareSwitch g 1 r) s = .next (u.wroteOk x g 0x7840 6)) ∧
    (s.Manages x g b 0x4007 3 0 → b.serving = true → ∀ u, b.startMigration = (true, u) →
      exec (.migrationStart g) s = .next (u.wroteOk x g 0x4007 3)) ∧
    (s.Manages x g b 0x2401 1 0 → ∀ m : Byte, m.toNat ≤ 2 → exec (.bankModeRequest g m) s = .next ((b.requestBankMode m.toNat).wroteOk x g 0x2401 1)) ∧
    (s.Manages x g b 0x6040 6 n → ∀ a, b.att n = some a → b.fw.hold = none → a.st ≠ .awaitFinish → a.st ≠ .open_ →
      exec (.startPairing g 1) s = .next ((b.placeHello n).wroteOk x g 0x6040 6)) ∧
    (s.Manages x g b 0x7803 4 n → ∀ bs u, bs.length ≤ 224 →
      (b.onAccess (.session x.slot) fun a => { a with seg := none }).operatorSend (n / 65536) (n % 65536) (b.rw 0x7803 3 n) bs = (.ok, u) →
      exec (.operatorMailboxSend g bs) s = .next (u.settle.wroteOk x g 0x7803 4)) ∧
    (s.Manages x g b 0x6041 3 n → b.fw.hold = none →
      ∀ rep, rep = b.attReport 0 ((b.access (.session x.slot)).selector 0x6041 2) b.sec.nonce [] → exec (.operatorReportRead g) s =
        .next ((b.onAccess (.session x.slot) fun a => { a with held := some (okey 0x6041 3 n, rep) }).answered x g
          (.ok, [{ status := .ok, sub := 3, type := 9, data := rep.take 1384 }]))) ∧
    (s.Manages x g b 0x7802 4 n → exec (.mailboxOperatorTake g) s =
      .next (((b.onAccess (.session x.slot) fun a => { a with held := none }).operatorTake (n / 65536) (n % 65536)).answered x g
        (.ok, [{ status := .ok, sub := 4, type := 9, data := fixed 256 (b.boxBytes (n / 65536) (n % 65536)) }])))

/-! ### Attestation, tenant keys, peer links, the I3C link and the port's addresses (R325 to R330, R344, R355, R356) -/

/-- R326, R327, R328, R329, R330. While management runs: a HELLO on a slot without a session under way opens it, at once closed for a report alone; FINISH opens a
tenant key session whose signature holds where a key authority is set, and keys the peer link of a pairing with an allowed peer; key records release, erase and
report tenant keys; a pairing goes on with the peer's DEVICE; sessions close; a peer link is paired anew. -/
def Obligations.AttestationAndTenantKeys : Prop :=
  ∀ (s : State) (a : AttSession), s.managed = true → s.att a.num = some a →
    (∀ (p : Byte) (nonce ek : List Byte), s.fw.hold = none → a.st ≠ .awaitFinish → a.st ≠ .open_ → nonce.length = 32 → p.toNat ≤ 63 →
      (ek.length = 1184 → exec (.attestHelloTenantKeys a.num p nonce ek) s = .next (s.openAtt a.num 0 p.toNat nonce ek) ∧
        exec (.attestHelloPeerPairing a.num p nonce ek) s = .next (s.openAtt a.num 1 p.toNat nonce ek)) ∧
      exec (.attestHelloReportOnly a.num p nonce) s = .next (s.openAtt a.num 2 p.toNat nonce [])) ∧
    (∀ (ok : Bool) (hash : List Byte) (u : State), a.st = .awaitFinish → u = (s.onAtt a.num fun x => { x with inCount := x.inCount + 1, lastUs := s.us }) →
      (a.kind = 0 → exec (.attestFinish a.num true ok hash) s = .next (if ok = true ∧ s.keyAuthority a.part ≠ 0
        then (u.attDone a .ok).onAtt a.num fun x => { x with st := .open_ } else (u.attDone a .accessDenied).failAtt a.num).settle) ∧
      (∀ n, a.kind = 1 → ok = true → s.allowedPeer hash = some n →
        exec (.attestFinish a.num true ok hash) s = .next (((u.attDone a .ok).onAtt a.num fun x => { x with st := .open_ }).keyPeer n a).settle) ∧
      (a.kind = 1 → ok = false ∨ s.allowedPeer hash = none →
        exec (.attestFinish a.num true ok hash) s = .next ((u.attDone a .accessDenied).failAtt a.num).settle)) ∧
    (∀ (k : KeyRecord) (u : State), k.slot = a.num → a.st = .open_ → k.opens = true → k.key.length = 32 → a.kind = 0 →
      u = (s.onAtt a.num fun x => { x with inCount := x.inCount + 1, lastUs := s.us }) →
      (∀ r, u.releaseKey a.part k.tenant.toNat k.keyId.toNat k.key = r → exec (.tenantKeyRelease k) s = .next (r.2.keyReply a k.tenant.toNat r.1).settle) ∧
      (∀ r, u.beginErase a.part k.tenant.toNat k.keyId.toNat = r → exec (.tenantKeyErase k) s = .next (r.2.keyReply a k.tenant.toNat r.1).settle) ∧
      exec (.tenantKeyQuery k) s = .next (u.keyReply a k.tenant.toNat .ok).settle) ∧
    (∀ (ok : Bool) (hash : List Byte), s.fw.hold = none → exec (.pairingDeviceReceived a.num ok hash) s = .next (s.pairingAnswered a ok hash).settle) ∧
    exec (.attestClose a.num) s = .next (s.closeAtt (·.num == a.num)) ∧
    exec (.attestSessionIdleTimeout a.num) s = .next (s.closeAtt fun y => y.num == a.num && s.due (y.lastUs + 1000000 * s.rw 0x6040 7 0)) ∧
    (∀ l p, s.serving = true → s.sec.links.find? (fun l => l.peer == p && l.st == 2) = some l →
      s.sec.sessions.find? (fun y => y.st == .closed || y.st == .failed) = some a → 2 ^ 32 ≤ l.counter ∨ s.due (l.sinceUs + 86400000000) = true →
      exec (.peerLinkRekey p) s = .next ((s.placeHello a.num).onSec fun x => { x with links := mapIf (·.peer == p) (fun y => { y with st := 1 }) x.links }).settle)

/-- R344, R355, R356. Over I3C, on a device not held in reset: an access in a form the link lacks is counted and refused; any other reads or writes its object; an
assigned address is kept. The port answers an address request for its own address, and drops and counts another. -/
def Obligations.I3cAndAddressRequests : Prop :=
  ∀ (s u : State),
    (s.dev.phase ≠ .heldInReset → u = s.bump 0x1220 3 0 1 →
      (∀ (ix : W16) (sub : Byte) (off : Option W16) (last : Bool) (v : List Byte) (boot : BootReport), exec (.i3cWrite ix sub off last v boot) s =
        .next (if i3cBad ix.toNat sub.toNat off v.length then u.bump 0x1220 5 0 1
          else (u.writeItem .i3c { Outside.unsaid with boot := some boot } ix.toNat sub.toNat ((off.map (·.toNat)).getD 0) (last || off.isNone) v).2.settle)) ∧
      (∀ (ix : W16) (sub : Byte) (off : Option W16),
        (i3cBad ix.toNat sub.toNat off 0 = true → exec (.i3cRead ix sub off) s =
          .next ((u.bump 0x1220 5 0 1).onMgmt fun m => { m with out := m.out ++ [.i3cData .length []] })) ∧
        (∀ r, i3cBad ix.toNat sub.toNat off 0 = false → u.readItem .i3c ix.toNat sub.toNat (if off.isNone then 0
            else min 64 ((((objRow ix.toNat sub.toNat).map (·.len)).getD 0) - (off.map (·.toNat)).getD 0)) ((off.map (·.toNat)).getD 0) = r →
          exec (.i3cRead ix sub off) s = .next (r.2.onMgmt fun m => { m with out := m.out ++ [.i3cData r.1.status r.1.data] }))) ∧
      (∀ a, exec (.i3cAddressAssignment a) s = .next (s.onMgmt fun m => { m with i3cAddr := a.toNat }))) ∧
    (∀ (isArp : Bool) (target own : Nat), s.portServes = true → own = sget s.mgmt.applied (okey 0x1200 (if isArp then 5 else 8) 0) 0 → own ≠ 0 →
      exec (.arpOrNeighbourSolicitation isArp target) s = .next (if own = target
        then (s.bump 0x1200 0x0C 0 1).onMgmt fun m => { m with out := m.out ++ [.arp isArp target] }
        else (s.bump 0x1200 0x0C 0 1).bump 0x1200 0x0E 0 1))

/-! ### Sealing, zeroing and commits (R48, R124, R309, R313, R340) -/

/-- R48, R124. Sealing advances only: to a position below which every position has been written in every layer and head and has a ledger entry, acknowledged or
timed out where a partner is named; and a sequence that is not live does not seal. Ledger, pages and lease holder stand. -/
def Obligations.SealingWaitsForTheMirror : Prop :=
  ∀ (s : State) (h : Nat) (x : Seq), s.seq h = some x → ∃ y, (s.seal h).seq h = some y ∧ x.sealedPos ≤ y.sealedPos ∧
    (x.sealedPos < y.sealedPos → x.st = .live ∧ y.sealedPos ≤ s.allVisible x ∧ y.sealedPos ≤ x.ledger.length ∧
      (s.namesPartner x.part = true → y.sealedPos ≤ max x.acked x.timedOut)) ∧
    y.ledger = x.ledger ∧ y.pages = x.pages ∧ y.holder = x.holder ∧ y.leaseGen = x.leaseGen

/-- R19, R313. Zeroing a slice leaves every byte of its HBM channels 0, and every byte of every other channel as it was. -/
def Obligations.ZeroedSlicesReadZero : Prop :=
  ∀ (s : State) (n a : Nat), n < 64 → a < 384 * channelBytes →
    (channelSlice (a / channelBytes) = n → memRead (s.zeroSlice n).hbm.mem a = 0) ∧
    (channelSlice (a / channelBytes) ≠ n → memRead (s.zeroSlice n).hbm.mem a = memRead s.hbm.mem a)

/-- R309, R340. An accepted commit makes the shadow set the active set and advances the map epoch by 1; the epoch wraps from 65,535 to 1. -/
def Obligations.CommitsAdvanceTheEpoch : Prop :=
  ∀ (s : State), s.Legal → s.acceptCommit.objs.active = s.objs.shadow ∧ s.acceptCommit.dev.part = s.dev.part ∧
    (s.epochs.active = 65535 → s.acceptCommit.epochs.active = 1) ∧
    (s.epochs.active ≠ 65535 → s.acceptCommit.epochs.active = s.epochs.active + 1)

/-! ### The whole block -/

/-- A step runs the command at the front of the queue on the state with the queue's rest; on an empty queue a microsecond of management-island time passes
(log 12). -/
def Obligations.StepRunsTheFrontCommand : Prop :=
  ∀ (s : State), (∀ c, step { s with pending := c :: s.pending } = exec c s) ∧ (s.pending = [] → step s = .next s.tick) ∧
    (s.tick.clock.us = s.clock.us + 1 ∧ s.tick.pending = s.pending)

/-- Every command, on every state, answers a next state, with the queue as it was and the configuration (R3) the same. -/
def Obligations.EveryCommandAnswers : Prop :=
  ∀ (c : Instr) (s : State), ∃ t, exec c s = .next t ∧ t.pending = s.pending ∧ t.dev.part = s.dev.part

/-- R309, R357, R407. The state after reset is legal, with nothing queued, under epoch 1 and with half 0 active (log 11). -/
def Obligations.ResetIsLegal : Prop :=
  State.reset.Legal ∧ State.reset.pending = [] ∧ State.reset.epochs.active = 1 ∧ State.reset.fw.active = 0

/-- R309, R357, R407. Every step from a legal state leads to a legal state: HBM's contents stay in canonical form (log 8), the epoch stays one of 1 to 65,535, the saved time is not
ahead of the time of day, and one of the two halves is active. -/
def Obligations.EveryStepKeepsLegality : Prop :=
  ∀ (s t : State), s.Legal → step s = .next t → t.Legal

/-- R346. A session's write of a credential slot that would leave no enabled administrator slot holding a key is refused with `LAST_ADMINISTRATOR`; while there is none,
only I3C writes a slot, and only an empty one; and no step of the block, whatever it runs, takes the last administrator away. -/
def Obligations.AdministratorKept : Prop :=
  (∀ (s : State) (k n : Nat) (f : Cred → Cred) (closes : Bool),
    (s.guarded = true → (mapIf (·.num == n) f s.mgmt.creds).any Cred.admin = false → s.writeCred (.session k) n f closes = (.lastAdministrator, s)) ∧
    (s.guarded = false → s.writeCred (.session k) n f closes = (.accessDenied, s)) ∧
    (s.guarded = true → s.writeCred .i3c n f closes = (.accessDenied, s)) ∧
    (∀ c, s.guarded = false → s.credOf n = some c →
      (c.key.any (· != 0) = true → s.writeCred .i3c n f closes = (.accessDenied, s)) ∧
      (c.key.any (· != 0) = false →
        s.writeCred .i3c n f closes = (.ok, s.onMgmt fun m => { m with creds := mapIf (·.num == n) f m.creds })))) ∧
  (∀ (s t : State), s.guarded = true → step s = .next t → t.guarded = true)

/-- R308, R309, R345, R357, R407. A command that is no request of management, no reset, and no end of a firmware switch or shutdown leaves these as they are: time and the time of day,
the active firmware half, every credential slot and session, the active set of the composition map, the epoch and the queue. -/
def Obligations.DataPathLeavesManagement : Prop :=
  ∀ (c : Instr) (s t : State), c.configures = false → exec c s = .next t →
    t.clock.us = s.clock.us ∧ t.clock.tod = s.clock.tod ∧ t.fw.active = s.fw.active ∧ t.mgmt.creds = s.mgmt.creds ∧ t.mgmt.sessions = s.mgmt.sessions
      ∧ t.objs.active = s.objs.active ∧ t.epochs.active = s.epochs.active ∧ t.pending = s.pending

/-- R45, R123. A request of a sequence whose handle carries another partition or tenant than its header is answered `ACCESS_DENIED`; one whose slot lies beyond its partition's limit, or
holds no sequence of the handle's generation, `NOT_OWNER`, an APPEND with the words of Table 4-2; and it does nothing else. -/
def Obligations.ForeignHandlesAreRefused : Prop :=
  ∀ (s u : State) (q : Qp) (m : Rx) (h : Nat) (hb : HandoffBody) (rb : ReleaseBody) (pb : PublishBody) (first : BitVec 23) (ab : AppendBody) (sb : StageBody)
    (db : DeliverBody), h = m.hdr.handle.toNat →
    ∀ c ∈ [(Instr.handoff m hb, 0x12, 0), (.releaseEndTurn m rb, 0x13, 0), (.releaseFree m rb, 0x13, 0), (.releaseSecure m rb, 0x14, 0), (.publish m pb, 0x21, 0),
        (.unpublish m first, 0x22, 0), (.append m ab, 0x30, appendRefBytes ab), (.refreshAppend m ab, 0x30, appendRefBytes ab), (.stage m sb, 0x32, 0),
        (.stageAndPin m sb, 0x32, 0), (.clearPinned m sb, 0x32, 0), (.deliver m db, 0x33, 0)],
      s.Accepts q m c.2.1 .checked c.2.2 u → ∀ no, no = (fun st => if c.2.1 = 0x30 then u.rejectAppend m st else u.answer (reqOf m c.2.1) st) →
      (handlePart h ≠ m.hdr.partition.toNat ∨ handleTenant h ≠ m.hdr.tenant.toNat → exec c.1 s = .next ((no .accessDenied).ended q m)) ∧
      (handlePart h = m.hdr.partition.toNat → handleTenant h = m.hdr.tenant.toNat → u.seq h = none ∨ u.act 0x2101 2 (handlePart h) ≤ handleSlot h →
        exec c.1 s = .next ((no .notOwner).ended q m))
end

