-- ==== Sys2Proof/Laws/Kept.lean ====
section
/-!
SUPPORT. What the data path keeps: the relation `Kept` between the state before and after an operation, and how it passes through the modifiers of Machine/Ops.lean.
-/
namespace Sys2Proof.Machine

/-- What no message, event of the data path or fault changes: the configuration (R3), time (R357), the firmware half (R407), credentials and sessions (R345), the
active set (R308), the epoch (R309) and the queue of commands; and HBM stays in canonical form. -/
structure Kept (s t : State) : Prop where
  part : t.dev.part = s.dev.part
  us : t.clock.us = s.clock.us
  tod : t.clock.tod = s.clock.tod
  saved : s.clock.saved ≤ s.clock.tod → t.clock.saved ≤ t.clock.tod
  half : t.fw.active = s.fw.active
  creds : t.mgmt.creds = s.mgmt.creds
  sessions : t.mgmt.sessions = s.mgmt.sessions
  active : t.objs.active = s.objs.active
  epoch : t.epochs.active = s.epochs.active
  pending : t.pending = s.pending
  wf : Memory.wf s.hbm.mem → Memory.wf t.hbm.mem

theorem Kept.refl (s : State) : Kept s s := ⟨rfl, rfl, rfl, id, rfl, rfl, rfl, rfl, rfl, rfl, id⟩

theorem Kept.trans {a b c : State} (h : Kept a b) (k : Kept b c) : Kept a c :=
  ⟨k.part.trans h.part, k.us.trans h.us, k.tod.trans h.tod, fun w => k.saved (h.saved w), k.half.trans h.half, k.creds.trans h.creds, k.sessions.trans h.sessions, k.active.trans h.active, k.epoch.trans h.epoch, k.pending.trans h.pending, fun w => k.wf (h.wf w)⟩

/-- The same, read from the last operation back. -/
theorem Kept.after {a b c : State} (k : Kept b c) (h : Kept a b) : Kept a c := h.trans k

theorem Kept.ite {s a b : State} {c : Prop} [Decidable c] (h : Kept s a) (k : Kept s b) : Kept s (if c then a else b) := by
  split
  · exact h
  · exact k

theorem onDev_kept {s : State} {f : Dev → Dev} (h : (f s.dev).part = s.dev.part) : Kept s (s.onDev f) :=
  ⟨h, rfl, rfl, id, rfl, rfl, rfl, rfl, rfl, rfl, id⟩

theorem onObjs_kept {s : State} {f : Objs → Objs} (h : (f s.objs).active = s.objs.active) :
    Kept s (s.onObjs f) := ⟨rfl, rfl, rfl, id, rfl, rfl, rfl, h, rfl, rfl, id⟩

theorem onMgmt_kept {s : State} {f : MgmtPort → MgmtPort} (h : (f s.mgmt).creds = s.mgmt.creds) (k : (f s.mgmt).sessions = s.mgmt.sessions) :
    Kept s (s.onMgmt f) := ⟨rfl, rfl, rfl, id, rfl, h, k, rfl, rfl, rfl, id⟩

theorem onEpochs_kept {s : State} {f : Epochs → Epochs} (h : (f s.epochs).active = s.epochs.active) : Kept s (s.onEpochs f) :=
  ⟨rfl, rfl, rfl, id, rfl, rfl, rfl, rfl, h, rfl, id⟩

theorem onHbm_kept {s : State} {f : Hbm → Hbm} (h : Memory.wf s.hbm.mem → Memory.wf (f s.hbm).mem) : Kept s (s.onHbm f) :=
  ⟨rfl, rfl, rfl, id, rfl, rfl, rfl, rfl, rfl, rfl, h⟩

theorem onClock_kept {s : State} {f : Clock → Clock} (h : (f s.clock).us = s.clock.us) (k : (f s.clock).tod = s.clock.tod)
    (l : s.clock.saved ≤ s.clock.tod → (f s.clock).saved ≤ (f s.clock).tod) : Kept s (s.onClock f) :=
  ⟨rfl, h, k, l, rfl, rfl, rfl, rfl, rfl, rfl, id⟩

theorem onFw_kept {s : State} {f : Firmware → Firmware} (h : (f s.fw).active = s.fw.active) : Kept s (s.onFw f) :=
  ⟨rfl, rfl, rfl, id, h, rfl, rfl, rfl, rfl, rfl, id⟩

theorem onIslands_kept {s : State} {f : List Island → List Island} : Kept s (s.onIslands f) := ⟨rfl, rfl, rfl, id, rfl, rfl, rfl, rfl, rfl, rfl, id⟩
theorem onSeqs_kept {s : State} {f : List Seq → List Seq} : Kept s (s.onSeqs f) := ⟨rfl, rfl, rfl, id, rfl, rfl, rfl, rfl, rfl, rfl, id⟩
theorem onSlotGens_kept {s : State} {f : SMap → SMap} : Kept s (s.onSlotGens f) := ⟨rfl, rfl, rfl, id, rfl, rfl, rfl, rfl, rfl, rfl, id⟩
theorem onCaches_kept {s : State} {f : List ClusterCache → List ClusterCache} : Kept s (s.onCaches f) := ⟨rfl, rfl, rfl, id, rfl, rfl, rfl, rfl, rfl, rfl, id⟩
theorem onWork_kept {s : State} {f : Work → Work} : Kept s (s.onWork f) := ⟨rfl, rfl, rfl, id, rfl, rfl, rfl, rfl, rfl, rfl, id⟩
theorem onMortise_kept {s : State} {f : Mortise → Mortise} : Kept s (s.onMortise f) := ⟨rfl, rfl, rfl, id, rfl, rfl, rfl, rfl, rfl, rfl, id⟩
theorem onPackers_kept {s : State} {f : List Packer → List Packer} : Kept s (s.onPackers f) := ⟨rfl, rfl, rfl, id, rfl, rfl, rfl, rfl, rfl, rfl, id⟩
theorem onFlash_kept {s : State} {f : Flash → Flash} : Kept s (s.onFlash f) := ⟨rfl, rfl, rfl, id, rfl, rfl, rfl, rfl, rfl, rfl, id⟩
theorem onBroker_kept {s : State} {f : Broker → Broker} : Kept s (s.onBroker f) := ⟨rfl, rfl, rfl, id, rfl, rfl, rfl, rfl, rfl, rfl, id⟩
theorem onNet_kept {s : State} {f : Net → Net} : Kept s (s.onNet f) := ⟨rfl, rfl, rfl, id, rfl, rfl, rfl, rfl, rfl, rfl, id⟩
theorem onSec_kept {s : State} {f : Sec → Sec} : Kept s (s.onSec f) := ⟨rfl, rfl, rfl, id, rfl, rfl, rfl, rfl, rfl, rfl, id⟩
theorem onFaults_kept {s : State} {f : Faults → Faults} : Kept s (s.onFaults f) := ⟨rfl, rfl, rfl, id, rfl, rfl, rfl, rfl, rfl, rfl, id⟩
theorem onMailboxes_kept {s : State} {f : List Mailbox → List Mailbox} : Kept s (s.onMailboxes f) := ⟨rfl, rfl, rfl, id, rfl, rfl, rfl, rfl, rfl, rfl, id⟩
theorem onPower_kept {s : State} {f : Power → Power} : Kept s (s.onPower f) := ⟨rfl, rfl, rfl, id, rfl, rfl, rfl, rfl, rfl, rfl, id⟩
theorem onMeters_kept {s : State} {f : Meters → Meters} : Kept s (s.onMeters f) := ⟨rfl, rfl, rfl, id, rfl, rfl, rfl, rfl, rfl, rfl, id⟩

theorem foldl_kept {α : Type} {f : State → α → State} {l : List α} {s : State} (h : ∀ s x, Kept s (f s x)) : Kept s (l.foldl f s) := by
  induction l generalizing s with
  | nil => exact Kept.refl _
  | cons a r ih => exact (h s a).trans ih

theorem foldl_kept_fst {α β : Type} {f : State × β → α → State × β} {l : List α} {a : State × β} (h : ∀ s x, Kept s.1 (f s x).1) :
    Kept a.1 (l.foldl f a).1 := by
  induction l generalizing a with
  | nil => exact Kept.refl _
  | cons _ _ ih => exact (h a _).trans ih

theorem foldl_kept_snd {α β : Type} {f : β × State → α → β × State} {l : List α} {a : β × State} (h : ∀ s x, Kept s.2 (f s x).2) :
    Kept a.2 (l.foldl f a).2 := by
  induction l generalizing a with
  | nil => exact Kept.refl _
  | cons _ _ ih => exact (h a _).trans ih

theorem foldl_kept_thd {α β γ : Type} {f : β × γ × State → α → β × γ × State} {l : List α} {a : β × γ × State}
    (h : ∀ s x, Kept s.2.2 (f s x).2.2) : Kept a.2.2 (l.foldl f a).2.2 := by
  induction l generalizing a with
  | nil => exact Kept.refl _
  | cons _ _ ih => exact (h a _).trans ih

theorem foldl_kept_mid {α β γ : Type} {f : β × State × γ → α → β × State × γ} {l : List α} {a : β × State × γ}
    (h : ∀ s x, Kept s.2.1 (f s x).2.1) : Kept a.2.1 (l.foldl f a).2.1 := by
  induction l generalizing a with
  | nil => exact Kept.refl _
  | cons _ _ ih => exact (h a _).trans ih

theorem foldl_kept_some {α : Type} {f : Option State → α → Option State} {l : List α} {a : Option State} {t : State}
    (h : ∀ a x t, f a x = some t → ∃ u, a = some u ∧ Kept u t) (k : l.foldl f a = some t) : ∃ u, a = some u ∧ Kept u t := by
  induction l generalizing a with
  | nil => exact ⟨t, k, Kept.refl _⟩
  | cons _ _ ih =>
    obtain ⟨u, hu, ku⟩ := ih k
    obtain ⟨v, hv, kv⟩ := h _ _ _ hu
    exact ⟨v, hv, kv.trans ku⟩

theorem getD_kept {s : State} {o : Option State} (h : ∀ t, o = some t → Kept s t) : Kept s (o.getD s) := by
  cases o with
  | none => exact Kept.refl _
  | some t => exact h t rfl

theorem getD_map_kept {α : Type} {s : State} {o : Option α} {f : α → State} (h : ∀ x, o = some x → Kept s (f x)) : Kept s ((o.map f).getD s) := by
  cases o with
  | none => exact Kept.refl _
  | some x => exact h x rfl


theorem elim_kept {α : Type} {s : State} {o : Option α} {f : α → State} (h : ∀ x, o = some x → Kept s (f x)) : Kept s (o.elim s f) := by
  cases o with
  | none => exact Kept.refl _
  | some x => exact h x rfl

/-- What every command keeps: the configuration (R3), the order of saved time and time of day (R357), a legal epoch (R309), an administrator who can
still get in (R346), one of two firmware halves in use (R407), the queue, and HBM's canonical form. -/
structure Held (s t : State) : Prop where
  part : t.dev.part = s.dev.part
  saved : s.clock.saved ≤ s.clock.tod → t.clock.saved ≤ t.clock.tod
  epoch : 1 ≤ s.epochs.active ∧ s.epochs.active ≤ 65535 → 1 ≤ t.epochs.active ∧ t.epochs.active ≤ 65535
  admin : s.mgmt.creds.any Cred.admin → t.mgmt.creds.any Cred.admin
  half : s.fw.active < 2 → t.fw.active < 2
  pending : t.pending = s.pending
  wf : Memory.wf s.hbm.mem → Memory.wf t.hbm.mem

theorem Held.refl (s : State) : Held s s := ⟨rfl, id, id, id, id, rfl, id⟩

theorem Held.trans {a b c : State} (h : Held a b) (k : Held b c) : Held a c :=
  ⟨k.part.trans h.part, fun w => k.saved (h.saved w), fun w => k.epoch (h.epoch w), fun w => k.admin (h.admin w), fun w => k.half (h.half w),
    k.pending.trans h.pending, fun w => k.wf (h.wf w)⟩

theorem Held.after {a b c : State} (k : Held b c) (h : Held a b) : Held a c := h.trans k

theorem Kept.held {s t : State} (h : Kept s t) : Held s t :=
  ⟨h.part, h.saved, fun w => by rw [h.epoch]; exact w, fun w => by rw [h.creds]; exact w, fun w => by rw [h.half]; exact w, h.pending, h.wf⟩

theorem Held.ite {s a b : State} {c : Prop} [Decidable c] (h : Held s a) (k : Held s b) : Held s (if c then a else b) := by
  split
  · exact h
  · exact k

theorem Held.ite_snd {α : Type} {s : State} {a b : α × State} {c : Prop} [Decidable c] (h : Held s a.2) (k : Held s b.2) :
    Held s (if c then a else b).2 := by
  split
  · exact h
  · exact k

theorem Kept.ite_snd {α : Type} {s : State} {a b : α × State} {c : Prop} [Decidable c] (h : Kept s a.2) (k : Kept s b.2) :
    Kept s (if c then a else b).2 := by
  split
  · exact h
  · exact k

theorem onObjs_held {s : State} {f : Objs → Objs} : Held s (s.onObjs f) := ⟨rfl, id, id, id, id, rfl, id⟩

theorem onMgmt_held {s : State} {f : MgmtPort → MgmtPort} (h : s.mgmt.creds.any Cred.admin → (f s.mgmt).creds.any Cred.admin) : Held s (s.onMgmt f) :=
  ⟨rfl, id, id, h, id, rfl, id⟩

theorem onFw_held {s : State} {f : Firmware → Firmware} (h : s.fw.active < 2 → (f s.fw).active < 2) : Held s (s.onFw f) := ⟨rfl, id, id, id, h, rfl, id⟩

theorem onClock_held {s : State} {f : Clock → Clock} (h : s.clock.saved ≤ s.clock.tod → (f s.clock).saved ≤ (f s.clock).tod) : Held s (s.onClock f) :=
  ⟨rfl, h, id, id, id, rfl, id⟩

theorem onEpochs_held {s : State} {f : Epochs → Epochs}
    (h : 1 ≤ s.epochs.active ∧ s.epochs.active ≤ 65535 → 1 ≤ (f s.epochs).active ∧ (f s.epochs).active ≤ 65535) : Held s (s.onEpochs f) :=
  ⟨rfl, id, h, id, id, rfl, id⟩

theorem foldl_held {α : Type} {f : State → α → State} {l : List α} {s : State} (h : ∀ s x, Held s (f s x)) : Held s (l.foldl f s) := by
  induction l generalizing s with
  | nil => exact Held.refl _
  | cons a r ih => exact (h s a).trans ih

theorem each_held {α : Type} {s : State} {l : List α} {f : State → α → State} (h : ∀ s x, Held s (f s x)) : Held s (s.each l f) := foldl_held h

theorem foldl_held_fst {α β : Type} {f : State × β → α → State × β} {l : List α} {a : State × β} (h : ∀ s x, Held s.1 (f s x).1) :
    Held a.1 (l.foldl f a).1 := by
  induction l generalizing a with
  | nil => exact Held.refl _
  | cons _ _ ih => exact (h a _).trans ih

theorem foldl_held_snd {α β : Type} {f : β × State → α → β × State} {l : List α} {a : β × State} (h : ∀ s x, Held s.2 (f s x).2) :
    Held a.2 (l.foldl f a).2 := by
  induction l generalizing a with
  | nil => exact Held.refl _
  | cons _ _ ih => exact (h a _).trans ih

theorem bind_some_kept {α β : Type} {x : Option α} {f : α → Option β} {b : β} (h : x.bind f = some b) : ∃ a, x = some a ∧ f a = some b := by
  cases x with
  | none => cases h
  | some a => exact ⟨a, rfl, h⟩

theorem map_some_kept {α β : Type} {x : Option α} {f : α → β} {b : β} (h : x.map f = some b) : ∃ a, x = some a ∧ b = f a := by
  cases x with
  | none => cases h
  | some a => exact ⟨a, rfl, (Option.some.inj h).symm⟩

/-- What an operation of any outcome keeps: it answers a next state, with everything `Kept` names as before. -/
def Next (s : State) (r : Host.Outcome State Fault Refusal) : Prop := ∃ t, r = .next t ∧ Kept s t

theorem Next.ite {s : State} {a b : Host.Outcome State Fault Refusal} {c : Prop} [Decidable c] (h : Next s a) (k : Next s b) :
    Next s (if c then a else b) := by
  split
  · exact h
  · exact k

theorem Next.of {s t : State} (h : Kept s t) : Next s (.next t) := ⟨t, rfl, h⟩

theorem each_kept {α : Type} {s : State} {l : List α} {f : State → α → State} (h : ∀ s x, Kept s (f s x)) : Kept s (s.each l f) := foldl_kept h

/-- What an operation of any outcome holds to: it answers a next state, with what `Held` says. -/
def NextHeld (s : State) (r : Host.Outcome State Fault Refusal) : Prop := ∃ t, r = .next t ∧ Held s t

theorem NextHeld.of {s t : State} (h : Held s t) : NextHeld s (.next t) := ⟨t, rfl, h⟩

theorem Next.held {s : State} {r : Host.Outcome State Fault Refusal} (h : Next s r) : NextHeld s r := by
  obtain ⟨t, e, k⟩ := h
  exact ⟨t, e, k.held⟩

theorem NextHeld.ite {s : State} {a b : Host.Outcome State Fault Refusal} {c : Prop} [Decidable c] (h : NextHeld s a) (k : NextHeld s b) :
    NextHeld s (if c then a else b) := by
  split
  · exact h
  · exact k

/-! An operation that answers a state beside something else, its answer taken apart. -/

theorem Kept.fst {β : Type} {s t : State} {r : State × β} {b : β} (h : Kept s r.1) (e : r = (t, b)) : Kept s t := by
  rw [e] at h; exact h

theorem Kept.snd {β : Type} {s t : State} {r : β × State} {b : β} (h : Kept s r.2) (e : r = (b, t)) : Kept s t := by
  rw [e] at h; exact h

theorem Kept.mid {β γ : Type} {s t : State} {r : β × State × γ} {b : β} {c : γ} (h : Kept s r.2.1) (e : r = (b, t, c)) : Kept s t := by
  rw [e] at h; exact h

theorem Kept.thd {β γ : Type} {s t : State} {r : β × γ × State} {b : β} {c : γ} (h : Kept s r.2.2) (e : r = (b, c, t)) : Kept s t := by
  rw [e] at h; exact h

theorem Held.fst {β : Type} {s t : State} {r : State × β} {b : β} (h : Held s r.1) (e : r = (t, b)) : Held s t := by
  rw [e] at h; exact h

theorem Held.snd {β : Type} {s t : State} {r : β × State} {b : β} (h : Held s r.2) (e : r = (b, t)) : Held s t := by
  rw [e] at h; exact h

/-! ### HBM's canonical form -/

theorem memWrite_keys (m : List Host.Cell) (a : Nat) (b : Byte) : ∀ c ∈ memWrite m a b, c ∈ m ∨ c = (a, b) := by
  induction m with
  | nil => intro c hc; unfold memWrite at hc; split at hc <;> simp_all
  | cons x r ih =>
    intro c hc
    unfold memWrite at hc
    split at hc
    · split at hc <;> simp_all
      rcases hc with h | h | h <;> simp_all
    · split at hc
      · split at hc <;> simp_all
        rcases hc with h | h <;> simp_all
      · simp only [List.mem_cons] at hc ⊢
        rcases hc with h | h
        · exact Or.inl (Or.inl h)
        · rcases ih c h with h | h <;> simp_all

/-- Storing one byte keeps the form (R313). -/
theorem memWrite_wf (m : List Host.Cell) (a : Nat) (b : Byte) (h : Memory.wf m) : Memory.wf (memWrite m a b) := by
  induction m with
  | nil => unfold memWrite Memory.wf; split <;> simp_all
  | cons x r ih =>
    obtain ⟨hp, hz⟩ := h
    rw [List.pairwise_cons] at hp
    have hr : Memory.wf r := ⟨hp.2, fun c hc => hz c (List.mem_cons_of_mem _ hc)⟩
    unfold memWrite
    split
    · split
      · exact ⟨List.pairwise_cons.2 hp, hz⟩
      · refine ⟨List.pairwise_cons.2 ⟨?_, List.pairwise_cons.2 hp⟩, ?_⟩
        · intro c hc
          rcases List.mem_cons.1 hc with h | h
          · subst h; assumption
          · have := hp.1 c h; simp only at *; omega
        · intro c hc
          rcases List.mem_cons.1 hc with h | h
          · subst h; assumption
          · exact hz c h
    · split
      · split
        · exact hr
        · refine ⟨List.pairwise_cons.2 ⟨?_, hp.2⟩, ?_⟩
          · intro c hc; have := hp.1 c hc; simp only at *; omega
          · intro c hc
            rcases List.mem_cons.1 hc with h | h
            · subst h; assumption
            · exact hz c (List.mem_cons_of_mem _ h)
      · refine ⟨List.pairwise_cons.2 ⟨?_, (ih hr).1⟩, ?_⟩
        · intro c hc
          rcases memWrite_keys r a b c hc with h | h
          · exact hp.1 c h
          · subst h; simp only at *; omega
        · intro c hc
          rcases List.mem_cons.1 hc with h | h
          · subst h; exact hz _ List.mem_cons_self
          · exact (ih hr).2 c h

theorem memWrites_wf (bs : List Byte) (m : List Host.Cell) (a : Nat) (h : Memory.wf m) : Memory.wf (memWrites m a bs) := by
  induction bs generalizing m a with
  | nil => exact h
  | cons b r ih => exact ih _ _ (memWrite_wf m a b h)

/-- Zeroing a range keeps the form (R313). -/
theorem memZero_wf (m : List Host.Cell) (a n : Nat) (h : Memory.wf m) : Memory.wf (memZero m a n) :=
  ⟨h.1.filter _, fun c hc => h.2 c (List.mem_filter.1 hc).1⟩

/-- A byte below every listed address reads 0. -/
theorem memRead_below (m : List Host.Cell) (k : Nat) (h : ∀ c ∈ m, k < c.1) : memRead m k = 0 := by
  induction m with
  | nil => rfl
  | cons x r ih =>
    have hx := h x List.mem_cons_self
    unfold memRead
    rw [if_neg (by omega)]
    exact ih fun c hc => h c (List.mem_cons_of_mem _ hc)

/-- A read gives the byte last stored there, or what stood there. -/
theorem memRead_memWrite (m : List Host.Cell) (h : Memory.wf m) (a k : Nat) (b : Byte) :
    memRead (memWrite m a b) k = if k = a then b else memRead m k := by
  induction m with
  | nil =>
    unfold memWrite
    by_cases hb : b = 0
    · rw [if_pos hb, hb]; split <;> rfl
    · rw [if_neg hb]
      show (if a = k then b else 0) = if k = a then b else 0
      simp only [eq_comm]
  | cons x r ih =>
    obtain ⟨hp, hz⟩ := h
    rw [List.pairwise_cons] at hp
    have hr : Memory.wf r := ⟨hp.2, fun c hc => hz c (List.mem_cons_of_mem _ hc)⟩
    have ih := ih hr
    have low : ∀ j, j ≤ x.1 → memRead r j = 0 := fun j hj => memRead_below r j fun c hc => Nat.lt_of_le_of_lt hj (hp.1 c hc)
    unfold memWrite
    split
    · next hlt =>
      split
      · next hb =>
        by_cases hk : k = a
        · subst hk
          rw [if_pos rfl, memRead, if_neg (by omega), low k (by omega), hb]
        · rw [if_neg hk]
      · by_cases hk : k = a
        · subst hk; simp [memRead]
        · rw [if_neg hk, memRead, if_neg (by omega)]
    · split
      · next h1 h2 =>
        split
        · next hb =>
          by_cases hk : k = a
          · subst hk; rw [if_pos rfl, low k (by omega), hb]
          · rw [if_neg hk, memRead, if_neg (by omega)]
        · by_cases hk : k = a
          · subst hk; simp [memRead]
          · rw [if_neg hk, memRead, if_neg (by omega), memRead, if_neg (by omega)]
      · next h1 h2 =>
        rw [memRead, memRead, ih]
        by_cases hx : x.1 = k
        · rw [if_pos hx, if_pos hx, if_neg (by omega)]
        · rw [if_neg hx, if_neg hx]

end Sys2Proof.Machine
end

