-- ==== Sys2Proof/Laws/Kept/Ops.lean ====
section
/-!
SUPPORT. What each operation of Machine/Ops.lean keeps (Laws/Kept.lean says what that is).
-/
namespace Sys2Proof.Machine

theorem State.tick_held (s : State) : Held s (State.tick s) := by
  unfold State.tick
  try dsimp only
  repeat' (first
    | with_reducible exact Held.refl _
    | with_reducible refine (onClock_held ?_).after ?_
    | omega
    | split
    | dsimp only)

theorem State.free_kept (s : State) : Kept s (State.free s).2 := by
  unfold State.free
  try dsimp only
  repeat' (first
    | with_reducible exact Kept.refl _
    | with_reducible rfl
    | with_reducible refine (onDev_kept ?_).after ?_)

theorem State.fresh_kept (s : State) : Kept s (State.fresh s).2 := by
  unfold State.fresh
  try dsimp only
  repeat' (first
    | with_reducible exact Kept.refl _
    | with_reducible rfl
    | with_reducible refine (onDev_kept ?_).after ?_)

theorem State.freshTag_kept (s : State) : Kept s (State.freshTag s).2 := by
  unfold State.freshTag
  try dsimp only
  repeat' (first
    | with_reducible exact Kept.refl _
    | with_reducible rfl
    | with_reducible refine (onDev_kept ?_).after ?_)

theorem State.randomBytes_kept (s : State) (n : Nat) : Kept s (State.randomBytes s n).2 := by
  induction n generalizing s with
  | zero => exact Kept.refl _
  | succ n ih => exact (State.free_kept s).trans (ih s.free.2)

theorem State.setRw_kept (s : State) (ix sub item v : Nat) : Kept s (State.setRw s ix sub item v) := by
  unfold State.setRw
  try dsimp only
  repeat' (first
    | with_reducible exact Kept.refl _
    | with_reducible rfl
    | with_reducible refine (onObjs_kept ?_).after ?_)

theorem State.bump_kept (s : State) (ix sub item n : Nat) : Kept s (State.bump s ix sub item n) := by
  unfold State.bump
  try dsimp only
  repeat' (first
    | with_reducible exact Kept.refl _
    | with_reducible rfl
    | with_reducible refine (onObjs_kept ?_).after ?_)

theorem State.bumpFree_kept (s : State) (ix sub item bound : Nat) : Kept s (State.bumpFree s ix sub item bound) := by
  unfold State.bumpFree
  try dsimp only
  repeat' (first
    | with_reducible exact Kept.refl _
    | with_reducible refine (State.free_kept _).after ?_
    | with_reducible refine (State.bump_kept _ _ _ _ _).after ?_)

theorem State.peak_kept (s : State) (ix sub item n : Nat) : Kept s (State.peak s ix sub item n) := by
  unfold State.peak
  try dsimp only
  repeat' (first
    | with_reducible exact Kept.refl _
    | with_reducible rfl
    | with_reducible refine (onObjs_kept ?_).after ?_)

theorem State.note_kept (s : State) (ix sub item v : Nat) : Kept s (State.note s ix sub item v) := by
  unfold State.note
  try dsimp only
  repeat' (first
    | with_reducible exact Kept.refl _
    | with_reducible rfl
    | with_reducible refine (onObjs_kept ?_).after ?_)

theorem State.onIsland_kept (s : State) (n : Nat) (f : Island → Island) : Kept s (State.onIsland s n f) := by
  unfold State.onIsland
  try dsimp only
  repeat' (first
    | with_reducible exact Kept.refl _
    | with_reducible refine (onIslands_kept ).after ?_)

theorem State.clusterBack_kept (s : State) (c : Nat) : Kept s (State.clusterBack s c) := by
  unfold State.clusterBack
  try dsimp only
  repeat' (first
    | with_reducible exact Kept.refl _
    | with_reducible rfl
    | with_reducible refine (onEpochs_kept ?_).after ?_
    | with_reducible refine (onPower_kept ).after ?_)

end Sys2Proof.Machine
end

