-- ==== Sys2Proof/Laws/Kept/Budget.lean ====
section
/-!
SUPPORT. What each operation of Machine/Budget.lean keeps (Laws/Kept.lean says what that is).
-/
namespace Sys2Proof.Machine

theorem State.chargeTo_kept (s : State) (whole : Bool) (x : Cost) {o0 : State} (h_o : State.chargeTo s whole x = some o0) : Kept s o0 := by
  suffices key : ∀ o, State.chargeTo s whole x = some o → Kept s o from key _ h_o
  clear h_o
  intro o h_o
  unfold State.chargeTo at h_o
  try dsimp only at h_o
  repeat (any_goals (first | split at h_o | (with_reducible replace h_o := map_some_kept h_o; obtain ⟨_, _, h_o⟩ := h_o)))
  all_goals try (exact absurd h_o (by simp only [reduceCtorEq, not_false_eq_true]))
  all_goals try (first | cases h_o | (injection h_o with h_o; try subst h_o))
  all_goals try dsimp only
  all_goals repeat' (first
    | with_reducible exact Kept.refl _
    | with_reducible refine (State.onIsland_kept _ _ _).after ?_)

theorem State.charge_kept (s : State) (x : Cost) {o0 : State} (h_o : State.charge s x = some o0) : Kept s o0 := by
  suffices key : ∀ o, State.charge s x = some o → Kept s o from key _ h_o
  clear h_o
  intro o h_o
  unfold State.charge at h_o
  try dsimp only at h_o
  repeat (any_goals (split at h_o))
  all_goals try (exact absurd h_o (by simp only [reduceCtorEq, not_false_eq_true]))
  all_goals try (first | cases h_o | (injection h_o with h_o; try subst h_o))
  all_goals try dsimp only
  all_goals repeat' (first
    | with_reducible exact Kept.refl _
    | with_reducible refine (State.chargeTo_kept _ _ _ (by assumption)).after ?_)

theorem State.markWait_kept (s : State) (x : Cost) : Kept s (State.markWait s x) := by
  unfold State.markWait
  try dsimp only
  repeat' (first
    | with_reducible exact Kept.refl _
    | with_reducible refine (State.onIsland_kept _ _ _).after ?_)

theorem State.chargeAll_kept (s : State) (x0 : List Cost) : Kept s (State.chargeAll s x0).1 := by
  induction x0 generalizing s with
  | nil => rw [State.chargeAll]; exact Kept.refl _
  | cons a r ih =>
    rw [State.chargeAll]
    try dsimp only
    repeat' (first
    | with_reducible exact Kept.refl _
    | with_reducible refine (ih _).after ?_
    | with_reducible refine (State.charge_kept _ _ (by assumption)).after ?_
    | split)

theorem State.charged_kept (s : State) (costs : List Cost) (k : State → State) (h_k : ∀ a0, Kept a0 (k a0)) : Kept s (State.charged s costs k) := by
  unfold State.charged
  try dsimp only
  repeat' (first
    | with_reducible exact Kept.refl _
    | with_reducible refine (h_k _).after ?_
    | with_reducible refine (State.markWait_kept _ _).after ?_
    | with_reducible refine (Kept.fst (State.chargeAll_kept _ _) (by assumption)).after ?_
    | split)

theorem State.charged_held (s : State) (costs : List Cost) (k : State → State) (h_k : ∀ a0, Held a0 (k a0)) : Held s (State.charged s costs k) := by
  unfold State.charged
  try dsimp only
  repeat' (first
    | with_reducible exact Held.refl _
    | with_reducible refine (h_k _).after ?_
    | with_reducible refine (State.markWait_kept _ _).held.after ?_
    | with_reducible refine (Held.fst ((State.chargeAll_kept _ _).held) (by assumption)).after ?_
    | split)

theorem State.owe_kept (s : State) (x : Cost) : Kept s (State.owe s x) := by
  unfold State.owe
  try dsimp only
  repeat' (first
    | with_reducible exact Kept.refl _
    | with_reducible refine (State.onIsland_kept _ _ _).after ?_
    | with_reducible refine (State.charge_kept _ _ (by assumption)).after ?_
    | split)

theorem State.oweAll_kept (s : State) (l : List Cost) : Kept s (State.oweAll s l) := by
  unfold State.oweAll
  try dsimp only
  repeat' (first
    | with_reducible exact Kept.refl _
    | with_reducible refine (State.owe_kept _ _).after ?_
    | with_reducible refine (each_kept ?_).after ?_
    | intro _)

end Sys2Proof.Machine
end

