-- ==== Sys2Proof/Laws/Kept/Report.lean ====
section
/-!
SUPPORT. What each operation of Machine/Report.lean keeps (Laws/Kept.lean says what that is).
-/
namespace Sys2Proof.Machine

theorem State.meter_kept (s : State) (p t f n : Nat) : Kept s (State.meter s p t f n) := by
  unfold State.meter
  try dsimp only
  repeat' (first
    | with_reducible exact Kept.refl _
    | with_reducible refine (onMeters_kept ).after ?_
    | with_reducible refine Kept.ite ?_ ?_)

theorem State.openMeter_kept (s : State) (p t : Nat) : Kept s (State.openMeter s p t) := by
  unfold State.openMeter
  try dsimp only
  repeat' (first
    | with_reducible exact Kept.refl _
    | with_reducible refine (onMeters_kept ).after ?_
    | with_reducible refine Kept.ite ?_ ?_)

theorem State.energy_kept (s : State) (p t pj : Nat) : Kept s (State.energy s p t pj) := by
  unfold State.energy
  try dsimp only
  repeat' (first
    | with_reducible exact Kept.refl _
    | with_reducible refine (State.meter_kept _ _ _ _ _).after ?_)

theorem State.meterBursts_kept (s : State) (p t n : Nat) : Kept s (State.meterBursts s p t n) := by
  unfold State.meterBursts
  try dsimp only
  repeat' (first
    | with_reducible exact Kept.refl _
    | with_reducible refine (State.energy_kept _ _ _ _).after ?_)

theorem State.meterBytes_kept (s : State) (p t n : Nat) : Kept s (State.meterBytes s p t n) := by
  unfold State.meterBytes
  try dsimp only
  repeat' (first
    | with_reducible exact Kept.refl _
    | with_reducible refine (State.energy_kept _ _ _ _).after ?_)

theorem State.meterMoved_kept (s : State) (p t c n : Nat) : Kept s (State.meterMoved s p t c n) := by
  unfold State.meterMoved
  try dsimp only
  repeat' (first
    | with_reducible exact Kept.refl _
    | with_reducible refine (State.meter_kept _ _ _ _ _).after ?_)

theorem State.setQueue_kept (s : State) (q : FaultQueue) : Kept s (State.setQueue s q) := by
  unfold State.setQueue
  try dsimp only
  repeat' (first
    | with_reducible exact Kept.refl _
    | with_reducible refine (onFaults_kept ).after ?_)

theorem State.sendRecord_kept (s : State) (i : Nat) (r : SourceRecord) : Kept s (State.sendRecord s i r) := by
  unfold State.sendRecord
  try dsimp only
  repeat' (first
    | with_reducible exact Kept.refl _
    | with_reducible refine (State.setQueue_kept _ _).after ?_
    | split)

theorem State.report_kept (s : State) (source kind : Nat) (who : Option (Nat × Nat)) (part : Option Nat) (detail address : Nat) : Kept s (State.report s source kind who part detail address) := by
  unfold State.report
  try dsimp only
  repeat' (first
    | with_reducible exact Kept.refl _
    | with_reducible refine (State.free_kept _).after ?_
    | with_reducible refine (State.sendRecord_kept _ _ _).after ?_)

theorem State.reportUnit_kept (s : State) (source kind detail address : Nat) : Kept s (State.reportUnit s source kind detail address) := by
  unfold State.reportUnit
  try dsimp only
  repeat' (first
    | with_reducible exact Kept.refl _
    | with_reducible refine (State.report_kept _ _ _ _ _ _ _).after ?_)

theorem State.reportTenant_kept (s : State) (source kind p t detail address : Nat) : Kept s (State.reportTenant s source kind p t detail address) := by
  unfold State.reportTenant
  try dsimp only
  repeat' (first
    | with_reducible exact Kept.refl _
    | with_reducible refine (State.report_kept _ _ _ _ _ _ _).after ?_)

end Sys2Proof.Machine
end

