-- ==== Sys2Proof/Laws/Kept/Caches.lean ====
section
/-!
SUPPORT. What each operation of Machine/Caches.lean keeps (Laws/Kept.lean says what that is).
-/
namespace Sys2Proof.Machine

theorem State.onCache_kept (s : State) (c : Nat) (f : ClusterCache → ClusterCache) : Kept s (State.onCache s c f) := by
  unfold State.onCache
  try dsimp only
  repeat' (first
    | with_reducible exact Kept.refl _
    | with_reducible refine (onCaches_kept ).after ?_)

theorem State.putXlat_kept (s : State) (core : Nat) (x : Xlat) : Kept s (State.putXlat s core x) := by
  unfold State.putXlat
  try dsimp only
  repeat' (first
    | with_reducible exact Kept.refl _
    | with_reducible refine (State.onCache_kept _ _ _).after ?_)

theorem State.dropXlat_kept (s : State) (core : Nat) (k : PageKey) : Kept s (State.dropXlat s core k) := by
  unfold State.dropXlat
  try dsimp only
  repeat' (first
    | with_reducible exact Kept.refl _
    | with_reducible refine (State.onCache_kept _ _ _).after ?_)

theorem State.walkLevel_kept (s : State) (c p : Nat) (lines : List Nat) : Kept s (State.walkLevel s c p lines) := by
  unfold State.walkLevel
  try dsimp only
  repeat' (first
    | with_reducible exact Kept.refl _
    | with_reducible refine (State.bump_kept _ _ _ _ _).after ?_
    | with_reducible refine (State.onCache_kept _ _ _).after ?_
    | with_reducible refine Kept.ite ?_ ?_)

theorem State.fillPage_kept (s : State) (p die base count : Nat) : Kept s (State.fillPage s p die base count) := by
  unfold State.fillPage
  try dsimp only
  repeat' (first
    | with_reducible exact Kept.refl _
    | with_reducible refine (State.onCache_kept _ _ _).after ?_
    | with_reducible refine (each_kept ?_).after ?_
    | intro _
    | split)

theorem State.fillQuarter_kept (s : State) (p sl base count : Nat) : Kept s (State.fillQuarter s p sl base count) := by
  unfold State.fillQuarter
  try dsimp only
  repeat' (first
    | with_reducible exact Kept.refl _
    | with_reducible refine (State.onCache_kept _ _ _).after ?_)

theorem State.shotDown_kept (s : State) (pages : List PageKey) (runs : List (Nat × Nat)) (lines : List (Nat × Nat)) : Kept s (State.shotDown s pages runs lines) := by
  unfold State.shotDown
  try dsimp only
  repeat' (first
    | with_reducible exact Kept.refl _
    | with_reducible refine (onCaches_kept ).after ?_)

theorem State.clearCache_kept (s : State) (c : Nat) : Kept s (State.clearCache s c) := by
  unfold State.clearCache
  try dsimp only
  repeat' (first
    | with_reducible exact Kept.refl _
    | with_reducible refine (State.onCache_kept _ _ _).after ?_)

theorem State.clearSliceLines_kept (s : State) (sl p : Nat) (kept : Bool) : Kept s (State.clearSliceLines s sl p kept) := by
  unfold State.clearSliceLines
  try dsimp only
  repeat' (first
    | with_reducible exact Kept.refl _
    | with_reducible refine (State.onCache_kept _ _ _).after ?_)

end Sys2Proof.Machine
end

