-- ==== Sys2Proof/Laws/Kept/Send.lean ====
section
/-!
SUPPORT. What each operation of Machine/Send.lean keeps (Laws/Kept.lean says what that is).
-/
namespace Sys2Proof.Machine

theorem State.onQp_kept (s : State) (n : Nat) (f : Qp → Qp) : Kept s (State.onQp s n f) := by
  unfold State.onQp
  try dsimp only
  repeat' (first
    | with_reducible exact Kept.refl _
    | with_reducible refine (onNet_kept ).after ?_)

theorem State.onNode_kept (s : State) (n : Nat) (f : Node → Node) : Kept s (State.onNode s n f) := by
  unfold State.onNode
  try dsimp only
  repeat' (first
    | with_reducible exact Kept.refl _
    | with_reducible refine (onBroker_kept ).after ?_)

theorem State.onRing_kept (s : State) (n : Nat) (f : Ring → Ring) : Kept s (State.onRing s n f) := by
  unfold State.onRing
  try dsimp only
  repeat' (first
    | with_reducible exact Kept.refl _
    | with_reducible refine (onNet_kept ).after ?_)

theorem State.post_kept (s : State) (q : Qp) (svc cls tenant : Nat) (w : Wire) : Kept s (State.post s q svc cls tenant w) := by
  unfold State.post
  try dsimp only
  repeat' (first
    | with_reducible exact Kept.refl _
    | with_reducible refine (onNet_kept ).after ?_
    | with_reducible refine (State.fresh_kept _).after ?_)

theorem State.emit_kept (s : State) (lp : Nat) (w : Wire) : Kept s (State.emit s lp w) := by
  unfold State.emit
  try dsimp only
  repeat' (first
    | with_reducible exact Kept.refl _
    | with_reducible refine (onNet_kept ).after ?_)

theorem State.control_kept (s : State) (lp : Nat) (w : Wire) : Kept s (State.control s lp w) := by
  unfold State.control
  try dsimp only
  repeat' (first
    | with_reducible exact Kept.refl _
    | with_reducible refine (onNet_kept ).after ?_)

theorem State.sendMsg_kept (s : State) (q : Qp) (relay : Nat) (m : Msg) : Kept s (State.sendMsg s q relay m) := by
  unfold State.sendMsg
  try dsimp only
  repeat' (first
    | with_reducible exact Kept.refl _
    | with_reducible refine (State.onRing_kept _ _ _).after ?_
    | with_reducible refine (State.post_kept _ _ _ _ _ _).after ?_
    | split)

theorem State.completeAs_kept (s : State) (r : Req) (relay : Nat) (st : Status) (words : List W64) (data : List Byte) : Kept s (State.completeAs s r relay st words data) := by
  unfold State.completeAs
  try dsimp only
  repeat' (first
    | with_reducible exact Kept.refl _
    | with_reducible refine (State.sendMsg_kept _ _ _ _).after ?_
    | split)

theorem State.complete_kept (s : State) (r : Req) (st : Status) (words : List W64) (data : List Byte) : Kept s (State.complete s r st words data) := by
  unfold State.complete
  try dsimp only
  repeat' (first
    | with_reducible exact Kept.refl _
    | with_reducible refine (State.completeAs_kept _ _ _ _ _ _).after ?_)

theorem State.answer_kept (s : State) (r : Req) (st : Status) : Kept s (State.answer s r st) := by
  unfold State.answer
  try dsimp only
  repeat' (first
    | with_reducible exact Kept.refl _
    | with_reducible refine (State.complete_kept _ _ _ _ _).after ?_)

theorem State.ask_kept (s : State) (node op relay p t handle : Nat) (words : List W64) (data : List Byte) (kind : Option (AskKind × Nat)) : Kept s (State.ask s node op relay p t handle words data kind) := by
  unfold State.ask
  try dsimp only
  repeat' (first
    | with_reducible exact Kept.refl _
    | with_reducible refine (onBroker_kept ).after ?_
    | with_reducible refine (State.freshTag_kept _).after ?_
    | with_reducible refine (State.sendMsg_kept _ _ _ _).after ?_
    | split)

theorem State.rdmaWrite_kept (s : State) (q : Qp) (svc cls tenant addr key : Nat) (bs : List Byte) : Kept s (State.rdmaWrite s q svc cls tenant addr key bs) := by
  unfold State.rdmaWrite
  try dsimp only
  repeat' (first
    | with_reducible exact Kept.refl _
    | with_reducible refine (State.post_kept _ _ _ _ _ _).after ?_)

theorem State.issueRead_kept (s : State) (q : Qp) (r : DevRead) : Kept s (State.issueRead s q r) := by
  unfold State.issueRead
  try dsimp only
  repeat' (first
    | with_reducible exact Kept.refl _
    | with_reducible refine (onNet_kept ).after ?_
    | with_reducible refine (State.onQp_kept _ _ _).after ?_
    | with_reducible refine (State.post_kept _ _ _ _ _ _).after ?_)

theorem State.rdmaRead_kept (s : State) (q : Qp) (svc cls tenant addr key len owner : Nat) (why : Instr) : Kept s (State.rdmaRead s q svc cls tenant addr key len owner why) := by
  unfold State.rdmaRead
  try dsimp only
  repeat' (first
    | with_reducible exact Kept.refl _
    | with_reducible refine (onNet_kept ).after ?_
    | with_reducible refine (State.fresh_kept _).after ?_
    | with_reducible refine (State.issueRead_kept _ _ _).after ?_
    | with_reducible refine Kept.ite ?_ ?_)

theorem State.endRead_kept (s : State) (r : DevRead) : Kept s (State.endRead s r) := by
  unfold State.endRead
  try dsimp only
  repeat' (first
    | with_reducible exact Kept.refl _
    | with_reducible refine (onNet_kept ).after ?_
    | with_reducible refine (State.onQp_kept _ _ _).after ?_
    | with_reducible refine (State.issueRead_kept _ _ _).after ?_
    | split)

end Sys2Proof.Machine
end

