-- ==== Sys2Proof/Laws/Kept/Pages.lean ====
section
/-!
SUPPORT. What each operation of Machine/Pages.lean keeps (Laws/Kept.lean says what that is).
-/
namespace Sys2Proof.Machine

theorem State.onSeq_kept (s : State) (h : Nat) (f : Seq → Seq) : Kept s (State.onSeq s h f) := by
  unfold State.onSeq
  try dsimp only
  repeat' (first
    | with_reducible exact Kept.refl _
    | with_reducible refine (onSeqs_kept ).after ?_)

theorem State.onPage_kept (s : State) (k : PageKey) (f : Page → Page) : Kept s (State.onPage s k f) := by
  unfold State.onPage
  try dsimp only
  repeat' (first
    | with_reducible exact Kept.refl _
    | with_reducible refine (State.onSeq_kept _ _ _).after ?_)

theorem State.clearPage_kept (s : State) (k : PageKey) : Kept s (State.clearPage s k) := by
  unfold State.clearPage
  try dsimp only
  repeat' (first
    | with_reducible exact Kept.refl _
    | with_reducible refine (State.onSeq_kept _ _ _).after ?_)

theorem State.touch_kept (s : State) (h : Nat) : Kept s (State.touch s h) := by
  unfold State.touch
  try dsimp only
  repeat' (first
    | with_reducible exact Kept.refl _
    | with_reducible refine (State.onSeq_kept _ _ _).after ?_)

theorem State.touchLinked_kept (s : State) (n h : Nat) : Kept s (State.touchLinked s n h) := by
  induction n generalizing s h with
  | zero => exact Kept.refl _
  | succ n ih =>
    rw [State.touchLinked]
    split
    · exact Kept.refl _
    · split
      · exact State.touch_kept _ _
      · exact (State.touch_kept _ _).trans (ih _ _)

theorem State.takeFrames_kept (s : State) (fs : List Nat) : Kept s (State.takeFrames s fs) := by
  unfold State.takeFrames
  try dsimp only
  repeat' (first
    | with_reducible exact Kept.refl _
    | with_reducible refine (onHbm_kept ?_).after ?_
    | with_reducible exact fun h => h)

theorem State.dropFrames_kept (s : State) (p : Nat) (fs : List Nat) : Kept s (State.dropFrames s p fs) := by
  unfold State.dropFrames
  try dsimp only
  repeat' (first
    | with_reducible exact Kept.refl _
    | with_reducible refine (onHbm_kept ?_).after ?_
    | with_reducible exact fun h => h)

theorem State.shoot_kept (s : State) (d : Shootdown) : Kept s (State.shoot s d) := by
  unfold State.shoot
  try dsimp only
  repeat' (first
    | with_reducible exact Kept.refl _
    | with_reducible assumption
    | with_reducible refine (onHbm_kept ?_).after ?_
    | with_reducible refine (State.fresh_kept _).after ?_
    | with_reducible refine (State.bump_kept _ _ _ _ _).after ?_
    | with_reducible refine (each_kept ?_).after ?_
    | intro _
    | with_reducible refine Kept.ite ?_ ?_)

theorem State.shootDown_kept (s : State) (p : Nat) (fs : List Nat) : Kept s (State.shootDown s p fs) := by
  unfold State.shootDown
  try dsimp only
  repeat' (first
    | with_reducible exact Kept.refl _
    | with_reducible refine (State.shoot_kept _ _).after ?_)

theorem State.putBytes_kept (s : State) (granule : Nat) (bs : List Byte) : Kept s (State.putBytes s granule bs) := by
  unfold State.putBytes
  try dsimp only
  repeat' (first
    | with_reducible exact Kept.refl _
    | with_reducible refine (onHbm_kept ?_).after ?_
    | with_reducible exact memWrites_wf _ _ _)

theorem State.wipeFrames_kept (s : State) (fs : List Nat) : Kept s (State.wipeFrames s fs) := by
  unfold State.wipeFrames
  try dsimp only
  repeat' (first
    | with_reducible exact Kept.refl _
    | with_reducible refine (onHbm_kept ?_).after ?_
    | with_reducible exact memZero_wf _ _ _
    | with_reducible refine (each_kept ?_).after ?_
    | intro _)

theorem State.takeRun_kept (s : State) (p i n not_ : Nat) {o0 : Nat} {o1 : State} (h_o : State.takeRun s p i n not_ = some (o0, o1)) : Kept s o1 := by
  suffices key : ∀ o, State.takeRun s p i n not_ = some o → Kept s o.2 from key _ h_o
  clear h_o
  intro o h_o
  unfold State.takeRun at h_o
  try dsimp only at h_o
  repeat (any_goals (first | split at h_o | (with_reducible replace h_o := map_some_kept h_o; obtain ⟨_, _, h_o⟩ := h_o)))
  all_goals try (exact absurd h_o (by simp only [reduceCtorEq, not_false_eq_true]))
  all_goals try (first | cases h_o | (injection h_o with h_o; try subst h_o))
  all_goals try dsimp only
  all_goals repeat' (first
    | with_reducible exact Kept.refl _
    | with_reducible refine (onHbm_kept ?_).after ?_
    | with_reducible exact fun h => h
    | with_reducible refine (State.fresh_kept _).after ?_
    | with_reducible refine (State.takeFrames_kept _ _).after ?_)

theorem State.dropRun_kept (s : State) (g : Nat) : Kept s (State.dropRun s g) := by
  unfold State.dropRun
  try dsimp only
  repeat' (first
    | with_reducible exact Kept.refl _
    | with_reducible refine (onHbm_kept ?_).after ?_
    | with_reducible exact fun h => h
    | with_reducible refine (State.dropFrames_kept _ _ _).after ?_
    | split)

theorem State.shootPage_kept (s : State) (part : Nat) (k : PageKey) (p : Page) : Kept s (State.shootPage s part k p) := by
  unfold State.shootPage
  try dsimp only
  repeat' (first
    | with_reducible exact Kept.refl _
    | with_reducible refine (State.shoot_kept _ _).after ?_)

theorem State.onFisland_kept (s : State) (i : Nat) (f : FlashIsland → FlashIsland) : Kept s (State.onFisland s i f) := by
  unfold State.onFisland
  try dsimp only
  repeat' (first
    | with_reducible exact Kept.refl _
    | with_reducible refine (onFlash_kept ).after ?_)

theorem State.journal_kept (s : State) (i : Nat) (rs : List JournalRec) : Kept s (State.journal s i rs) := by
  unfold State.journal
  try dsimp only
  repeat' (first
    | with_reducible exact Kept.refl _
    | with_reducible refine (State.onFisland_kept _ _ _).after ?_)

theorem State.freeLpn_kept (s : State) (lpn n : Nat) : Kept s (State.freeLpn s lpn n) := by
  unfold State.freeLpn
  try dsimp only
  repeat' (first
    | with_reducible exact Kept.refl _
    | with_reducible refine (onFlash_kept ).after ?_
    | with_reducible refine (State.journal_kept _ _ _).after ?_)

theorem State.freeCopy_kept (s : State) (p : Page) : Kept s (State.freeCopy s p) := by
  unfold State.freeCopy
  try dsimp only
  repeat' (first
    | with_reducible exact Kept.refl _
    | with_reducible refine (State.freeLpn_kept _ _ _).after ?_
    | split)

theorem State.shootCopy_kept (s : State) (part : Nat) (k : PageKey) (p : Page) : Kept s (State.shootCopy s part k p) := by
  unfold State.shootCopy
  try dsimp only
  repeat' (first
    | with_reducible exact Kept.refl _
    | with_reducible refine (State.shoot_kept _ _).after ?_
    | split)

theorem State.shootdownDone_kept (s : State) (d : Shootdown) : Kept s (State.shootdownDone s d) := by
  unfold State.shootdownDone
  try dsimp only
  repeat' (first
    | with_reducible exact Kept.refl _
    | with_reducible assumption
    | with_reducible refine (onHbm_kept ?_).after ?_
    | with_reducible refine (State.shotDown_kept _ _ _ _).after ?_
    | with_reducible refine (State.dropFrames_kept _ _ _).after ?_
    | with_reducible refine (State.dropRun_kept _ _).after ?_
    | with_reducible refine (State.freeLpn_kept _ _ _).after ?_
    | with_reducible refine (each_kept ?_).after ?_
    | intro _)

theorem State.losePage_kept (s : State) (k : PageKey) (reason src : Nat) : Kept s (State.losePage s k reason src) := by
  unfold State.losePage
  try dsimp only
  repeat' (first
    | with_reducible exact Kept.refl _
    | with_reducible refine (State.bump_kept _ _ _ _ _).after ?_
    | with_reducible refine (State.meter_kept _ _ _ _ _).after ?_
    | with_reducible refine (State.reportTenant_kept _ _ _ _ _ _ _).after ?_
    | with_reducible refine (State.onPage_kept _ _ _).after ?_
    | with_reducible refine (State.shootPage_kept _ _ _ _).after ?_
    | with_reducible refine (State.freeCopy_kept _ _).after ?_
    | split)

theorem State.lose_kept (s : State) (k : PageKey) (reason : Nat) : Kept s (State.lose s k reason) := by
  unfold State.lose
  try dsimp only
  repeat' (first
    | with_reducible exact Kept.refl _
    | with_reducible refine (State.losePage_kept _ _ _ _).after ?_)

theorem State.freePage_kept (s : State) (k : PageKey) : Kept s (State.freePage s k) := by
  unfold State.freePage
  try dsimp only
  repeat' (first
    | with_reducible exact Kept.refl _
    | with_reducible refine (State.clearPage_kept _ _).after ?_
    | with_reducible refine (State.shootPage_kept _ _ _ _).after ?_
    | with_reducible refine (State.freeCopy_kept _ _).after ?_
    | split)

theorem State.dropSeq_kept (s : State) (h : Nat) : Kept s (State.dropSeq s h) := by
  unfold State.dropSeq
  try dsimp only
  repeat' (first
    | with_reducible exact Kept.refl _
    | with_reducible refine (onSeqs_kept ).after ?_
    | with_reducible refine (State.shootDown_kept _ _ _).after ?_
    | with_reducible refine (State.freePage_kept _ _).after ?_
    | with_reducible refine (each_kept ?_).after ?_
    | intro _
    | split)

end Sys2Proof.Machine
end

