-- ==== Sys2Proof/Laws/Kept/Tables.lean ====
section
/-!
SUPPORT. What each operation of Machine/Tables.lean keeps (Laws/Kept.lean says what that is).
-/
namespace Sys2Proof.Machine

theorem State.setTabs_kept (s : State) (h : Nat) (more : List PageKey) (supply : List Nat) : Kept s (State.setTabs s h more supply) := by
  unfold State.setTabs
  try dsimp only
  repeat' (first
    | with_reducible exact Kept.refl _
    | with_reducible refine (State.onSeq_kept _ _ _).after ?_
    | with_reducible refine (State.dropFrames_kept _ _ _).after ?_
    | with_reducible refine (State.shoot_kept _ _).after ?_
    | split)

theorem State.takeFixed_kept (s : State) (p n : Nat) {o0 : List Nat} {o1 : State} (h_o : State.takeFixed s p n = some (o0, o1)) : Kept s o1 := by
  induction n generalizing s o0 with
  | zero => cases h_o; exact Kept.refl _
  | succ n ih =>
    rw [State.takeFixed] at h_o
    obtain ⟨fs, _, h_o⟩ := Option.bind_eq_some_iff.mp h_o
    obtain ⟨x, hx, h_o⟩ := Option.map_eq_some_iff.mp h_o
    cases h_o
    exact (State.takeFrames_kept _ _).trans (ih _ hx)

theorem State.growLedger_kept (s : State) (h : Nat) (q : Seq) : Kept s (State.growLedger s h q) := by
  unfold State.growLedger
  try dsimp only
  repeat' (first
    | with_reducible exact Kept.refl _
    | with_reducible assumption
    | with_reducible rfl
    | with_reducible refine (State.onSeq_kept _ _ _).after ?_
    | with_reducible refine (State.wipeFrames_kept _ _).after ?_
    | with_reducible refine (State.takeFixed_kept _ _ _ (by assumption)).after ?_
    | with_reducible refine (getD_map_kept ?_).after ?_
    | with_reducible refine (getD_kept ?_).after ?_
    | intro _
    | with_reducible refine Kept.ite ?_ ?_
    | split
    | dsimp only)

theorem State.fitLedger_kept (s : State) (h : Nat) (q : Seq) : Kept s (State.fitLedger s h q) := by
  unfold State.fitLedger
  try dsimp only
  repeat' (first
    | with_reducible exact Kept.refl _
    | with_reducible assumption
    | with_reducible rfl
    | with_reducible refine (State.onSeq_kept _ _ _).after ?_
    | with_reducible refine (State.shootDown_kept _ _ _).after ?_
    | with_reducible refine (State.growLedger_kept _ _ _).after ?_
    | intro _
    | with_reducible refine Kept.ite ?_ ?_
    | split
    | dsimp only)

theorem State.fitTabs_kept (s : State) (h : Nat) (q : Seq) : Kept s (State.fitTabs s h q) := by
  unfold State.fitTabs
  try dsimp only
  repeat' (first
    | with_reducible exact Kept.refl _
    | with_reducible assumption
    | with_reducible rfl
    | with_reducible refine (State.wipeFrames_kept _ _).after ?_
    | with_reducible refine (State.setTabs_kept _ _ _ _).after ?_
    | with_reducible refine (State.takeFixed_kept _ _ _ (by assumption)).after ?_
    | with_reducible refine (getD_map_kept ?_).after ?_
    | with_reducible refine (getD_kept ?_).after ?_
    | intro _
    | with_reducible refine Kept.ite ?_ ?_
    | split
    | dsimp only)

theorem State.fitFixed_kept (s : State) (h : Nat) : Kept s (State.fitFixed s h) := by
  unfold State.fitFixed
  try dsimp only
  repeat' (first
    | with_reducible exact Kept.refl _
    | with_reducible assumption
    | with_reducible rfl
    | with_reducible refine (State.fitLedger_kept _ _ _).after ?_
    | with_reducible refine (State.fitTabs_kept _ _ _).after ?_
    | intro _
    | with_reducible refine Kept.ite ?_ ?_
    | split
    | dsimp only)

theorem State.walked_kept (s : State) (c p : Nat) (levels : List (List Nat)) : Kept s (State.walked s c p levels) := by
  unfold State.walked
  try dsimp only
  repeat' (first
    | with_reducible exact Kept.refl _
    | with_reducible refine (State.bump_kept _ _ _ _ _).after ?_
    | with_reducible refine (State.walkLevel_kept _ _ _ _).after ?_
    | with_reducible refine (each_kept ?_).after ?_
    | intro _)

end Sys2Proof.Machine
end

