-- ==== Sys2Proof/Laws/Kept/Softmax.lean ====
section
/-!
SUPPORT. What each operation of Machine/Softmax.lean keeps (Laws/Kept.lean says what that is).
-/
namespace Sys2Proof.Machine

theorem State.pick_kept (s : State) (lo hi : Int) : Kept s (State.pick s lo hi).2 := by
  unfold State.pick
  try dsimp only
  repeat' (first
    | with_reducible exact Kept.refl _
    | with_reducible refine (State.free_kept _).after ?_
    | with_reducible refine Kept.ite_snd ?_ ?_)

theorem State.fp32Near_kept (s : State) (x : Int) (e : Nat) : Kept s (State.fp32Near s x e).2 := by
  unfold State.fp32Near
  try dsimp only
  repeat' (first
    | with_reducible exact Kept.refl _
    | with_reducible refine (State.pick_kept _ _ _).after ?_
    | with_reducible refine Kept.ite_snd ?_ ?_)

theorem State.update_kept (s : State) (α old β : Int) (terms : List Int) : Kept s (State.update s α old β terms).2 := by
  unfold State.update
  try dsimp only
  repeat' (first
    | with_reducible exact Kept.refl _
    | with_reducible refine (State.fp32Near_kept _ _ _).after ?_)

theorem State.expFp32_kept (s : State) (n : Nat) : Kept s (State.expFp32 s n).2 := by
  unfold State.expFp32
  try dsimp only
  repeat' (first
    | with_reducible exact Kept.refl _
    | with_reducible refine (State.pick_kept _ _ _).after ?_)

theorem State.prob_kept (s : State) (n : Nat) : Kept s (State.prob s n).2 := by
  unfold State.prob
  try dsimp only
  repeat' (first
    | with_reducible exact Kept.refl _
    | with_reducible refine (State.pick_kept _ _ _).after ?_)

theorem State.score_kept (s : State) (scale qf : Nat) (q k : List Val) : Kept s (State.score s scale qf q k).2 := by
  unfold State.score
  try dsimp only
  repeat' (first
    | with_reducible exact Kept.refl _
    | with_reducible refine (State.fp32Near_kept _ _ _).after ?_)

theorem State.scores_kept (s : State) (scale qf : Nat) (q : List Val) (x0 : List (List Val)) : Kept s (State.scores s scale qf q x0).2 := by
  induction x0 generalizing s scale qf q with
  | nil => rw [State.scores]; exact Kept.refl _
  | cons a r ih =>
    rw [State.scores]
    try dsimp only
    repeat' (first
    | with_reducible exact Kept.refl _
    | with_reducible refine (ih _ _ _ _).after ?_
    | with_reducible refine (State.score_kept _ _ _ _ _).after ?_)

theorem State.probs_kept (s : State) (top : Int) (x0 : List Int) : Kept s (State.probs s top x0).2 := by
  induction x0 generalizing s top with
  | nil => rw [State.probs]; exact Kept.refl _
  | cons a r ih =>
    rw [State.probs]
    try dsimp only
    repeat' (first
    | with_reducible exact Kept.refl _
    | with_reducible refine (ih _ _).after ?_
    | with_reducible refine (State.prob_kept _ _).after ?_)

theorem State.updateCode_kept (s : State) (α : Int) (old : W32) (β : Int) (terms : List Int) : Kept s (State.updateCode s α old β terms).2 := by
  unfold State.updateCode
  try dsimp only
  repeat' (first
    | with_reducible exact Kept.refl _
    | with_reducible refine (State.update_kept _ _ _ _ _).after ?_)

theorem State.updateAll_kept (s : State) (α β : Int) (terms : Nat → List Int) (x0 : List W32) (x1 : Nat) : Kept s (State.updateAll s α β terms x0 x1).2 := by
  induction x0 generalizing s α β terms x1 with
  | nil => rw [State.updateAll]; exact Kept.refl _
  | cons a r ih =>
    rw [State.updateAll]
    try dsimp only
    repeat' (first
    | with_reducible exact Kept.refl _
    | with_reducible refine (ih _ _ _ _ _).after ?_
    | with_reducible refine (State.updateCode_kept _ _ _ _ _).after ?_)

theorem State.codes_kept (s : State) (x0 : Nat) : Kept s (State.codes s x0).2 := by
  induction x0 generalizing s with
  | zero => rw [State.codes]; exact Kept.refl _
  | succ n ih =>
    rw [State.codes]
    try dsimp only
    repeat' (first
    | with_reducible exact Kept.refl _
    | with_reducible refine (ih _).after ?_
    | with_reducible refine (State.free_kept _).after ?_)

theorem State.openPartial_kept (s : State) (old : QPartial) : Kept s (State.openPartial s old).2 := by
  unfold State.openPartial
  try dsimp only
  repeat' (first
    | with_reducible exact Kept.refl _
    | with_reducible refine (State.pick_kept _ _ _).after ?_
    | with_reducible refine (State.codes_kept _ _).after ?_)

theorem State.tileUpdate_kept (s : State) (scale qf : Nat) (old : QPartial) (q : List Val) (keys vals : List (List Val)) : Kept s (State.tileUpdate s scale qf old q keys vals).2 := by
  unfold State.tileUpdate
  try dsimp only
  repeat' (first
    | with_reducible exact Kept.refl _
    | with_reducible refine (State.expFp32_kept _ _).after ?_
    | with_reducible refine (State.scores_kept _ _ _ _ _).after ?_
    | with_reducible refine (State.probs_kept _ _ _).after ?_
    | with_reducible refine (State.updateCode_kept _ _ _ _ _).after ?_
    | with_reducible refine (State.updateAll_kept _ _ _ _ _ _).after ?_
    | with_reducible refine Kept.ite_snd ?_ ?_)

theorem State.newPartial_kept (s : State) (scale qf : Nat) (old : QPartial) (q : List Val) (keys vals : List (List Val)) : Kept s (State.newPartial s scale qf old q keys vals).2 := by
  unfold State.newPartial
  try dsimp only
  repeat' (first
    | with_reducible exact Kept.refl _
    | with_reducible refine (State.openPartial_kept _ _).after ?_
    | with_reducible refine (State.tileUpdate_kept _ _ _ _ _ _ _).after ?_
    | with_reducible refine Kept.ite_snd ?_ ?_)

theorem State.addToPartials_kept (s : State) (scale qf : Nat) (old : List QPartial) (qs keys vals : List (List Val)) : Kept s (State.addToPartials s scale qf old qs keys vals).2 := by
  unfold State.addToPartials
  try dsimp only
  repeat' (first
    | with_reducible exact Kept.refl _
    | with_reducible refine (State.newPartial_kept _ _ _ _ _ _ _).after ?_
    | with_reducible refine (foldl_kept_snd ?_).after ?_
    | intro _
    | with_reducible refine Kept.ite_snd ?_ ?_)

theorem State.joinPartials_kept (s : State) (a b : QPartial) : Kept s (State.joinPartials s a b).2 := by
  unfold State.joinPartials
  try dsimp only
  repeat' (first
    | with_reducible exact Kept.refl _
    | with_reducible refine (State.expFp32_kept _ _).after ?_
    | with_reducible refine (State.updateCode_kept _ _ _ _ _).after ?_
    | with_reducible refine (State.updateAll_kept _ _ _ _ _ _).after ?_)

theorem State.mergePartial_kept (s : State) (a b : QPartial) : Kept s (State.mergePartial s a b).2 := by
  unfold State.mergePartial
  try dsimp only
  repeat' (first
    | with_reducible exact Kept.refl _
    | with_reducible refine (State.joinPartials_kept _ _ _).after ?_
    | with_reducible refine Kept.ite_snd ?_ ?_)

end Sys2Proof.Machine
end

