-- ==== Sys2Proof/Laws/Kept/Mort.lean ====
section
/-!
SUPPORT. What each operation of Machine/Mort.lean keeps (Laws/Kept.lean says what that is).
-/
namespace Sys2Proof.Machine

theorem State.useKey_kept (s : State) (p t : Nat) : Kept s (State.useKey s p t) := by
  unfold State.useKey
  try dsimp only
  repeat' (first
    | with_reducible exact Kept.refl _
    | with_reducible refine (onSec_kept ).after ?_
    | with_reducible refine (State.bump_kept _ _ _ _ _).after ?_
    | with_reducible refine Kept.ite ?_ ?_)

theorem State.markCycles_kept (s : State) : Kept s (State.markCycles s) := by
  unfold State.markCycles
  try dsimp only
  repeat' (first
    | with_reducible exact Kept.refl _
    | with_reducible refine (onMortise_kept ).after ?_)

theorem State.setBank_kept (s : State) (b : Nat) (slots : List (Nat × Entry)) : Kept s (State.setBank s b slots) := by
  unfold State.setBank
  try dsimp only
  repeat' (first
    | with_reducible exact Kept.refl _
    | with_reducible refine (onMortise_kept ).after ?_)

theorem State.arraySearch_kept (s : State) (k : SearchKey) (tenant : Nat) : Kept s (State.arraySearch s k tenant).2 := by
  unfold State.arraySearch
  try dsimp only
  repeat' (first
    | with_reducible exact Kept.refl _
    | with_reducible refine (State.bump_kept _ _ _ _ _).after ?_
    | with_reducible refine (State.energy_kept _ _ _ _).after ?_)

theorem State.arrayAnswer_kept (s : State) (k : SearchKey) (tenant : Nat) : Kept s (State.arrayAnswer s k tenant).2 := by
  unfold State.arrayAnswer
  try dsimp only
  repeat' (first
    | with_reducible exact Kept.refl _
    | with_reducible refine (State.bump_kept _ _ _ _ _).after ?_
    | with_reducible refine (State.arraySearch_kept _ _ _).after ?_
    | with_reducible refine Kept.ite_snd ?_ ?_)

theorem State.onNodeRec_kept (s : State) (p i : Nat) (f : PrefixNode → PrefixNode) : Kept s (State.onNodeRec s p i f) := by
  unfold State.onNodeRec
  try dsimp only
  repeat' (first
    | with_reducible exact Kept.refl _
    | with_reducible refine (onMortise_kept ).after ?_)

theorem State.removeEntry_kept (s : State) (p i : Nat) : Kept s (State.removeEntry s p i) := by
  unfold State.removeEntry
  try dsimp only
  repeat' (first
    | with_reducible exact Kept.refl _
    | with_reducible refine (onMortise_kept ).after ?_
    | with_reducible refine (State.bump_kept _ _ _ _ _).after ?_)

theorem State.deleteEntry_kept (s : State) (p i row cls : Nat) : Kept s (State.deleteEntry s p i row cls) := by
  unfold State.deleteEntry
  try dsimp only
  repeat' (first
    | with_reducible exact Kept.refl _
    | with_reducible refine (State.oweAll_kept _ _).after ?_
    | with_reducible refine (State.removeEntry_kept _ _ _).after ?_
    | with_reducible refine Kept.ite ?_ ?_)

theorem State.toSecond_kept (s : State) (e : Entry) : Kept s (State.toSecond s e) := by
  unfold State.toSecond
  try dsimp only
  repeat' (first
    | with_reducible exact Kept.refl _
    | with_reducible refine (onMortise_kept ).after ?_
    | with_reducible refine (State.bump_kept _ _ _ _ _).after ?_
    | with_reducible refine (State.onNodeRec_kept _ _ _ _).after ?_
    | split)

theorem State.placeEntry_kept (s : State) (e : Entry) : Kept s (State.placeEntry s e) := by
  unfold State.placeEntry
  try dsimp only
  repeat' (first
    | with_reducible exact Kept.refl _
    | with_reducible refine (State.bump_kept _ _ _ _ _).after ?_
    | with_reducible refine (State.oweAll_kept _ _).after ?_
    | with_reducible refine (State.setBank_kept _ _ _).after ?_
    | with_reducible refine (State.onNodeRec_kept _ _ _ _).after ?_
    | with_reducible refine (State.toSecond_kept _ _).after ?_
    | split)

theorem State.createEntry_kept (s : State) (e : Entry) (block cls holder publishers : Nat) : Kept s (State.createEntry s e block cls holder publishers) := by
  unfold State.createEntry
  try dsimp only
  repeat' (first
    | with_reducible exact Kept.refl _
    | with_reducible refine (onMortise_kept ).after ?_
    | with_reducible refine (State.bump_kept _ _ _ _ _).after ?_
    | with_reducible refine (State.placeEntry_kept _ _).after ?_)

theorem State.dropPrefix_kept (s : State) (h from_ : Nat) : Kept s (State.dropPrefix s h from_) := by
  unfold State.dropPrefix
  try dsimp only
  repeat' (first
    | with_reducible exact Kept.refl _
    | with_reducible refine (onMortise_kept ).after ?_
    | with_reducible refine (State.deleteEntry_kept _ _ _ _ _).after ?_
    | with_reducible refine (each_kept ?_).after ?_
    | intro _)

theorem State.unlink_kept (s : State) (x0 : Nat) (x1 : Nat) : Kept s (State.unlink s x0 x1) := by
  induction x0 generalizing s x1 with
  | zero => rw [State.unlink]; exact Kept.refl _
  | succ n ih =>
    rw [State.unlink]
    try dsimp only
    repeat' (first
    | with_reducible exact Kept.refl _
    | with_reducible refine (ih _ _).after ?_
    | with_reducible refine (State.onSeq_kept _ _ _).after ?_
    | with_reducible refine (State.dropSeq_kept _ _).after ?_
    | with_reducible refine (State.dropPrefix_kept _ _ _).after ?_
    | split)

theorem State.issueInsertions_kept (s : State) (h old new : Nat) : Kept s (State.issueInsertions s h old new) := by
  unfold State.issueInsertions
  try dsimp only
  repeat' (first
    | with_reducible exact Kept.refl _
    | with_reducible refine (onMortise_kept ).after ?_
    | with_reducible refine (State.fresh_kept _).after ?_
    | with_reducible refine (State.onSeq_kept _ _ _).after ?_
    | with_reducible refine (State.useKey_kept _ _ _).after ?_
    | with_reducible refine (each_kept ?_).after ?_
    | intro _
    | split)

theorem State.issueInsertion_kept (s : State) (x : Insertion) : Kept s (State.issueInsertion s x) := by
  unfold State.issueInsertion
  try dsimp only
  repeat' (first
    | with_reducible exact Kept.refl _
    | with_reducible refine (onMortise_kept ).after ?_
    | with_reducible refine (State.charged_kept _ _ _ ?_).after ?_
    | with_reducible refine (State.meterBursts_kept _ _ _ _).after ?_
    | intro _
    | with_reducible refine Kept.ite ?_ ?_)

theorem State.pumpInsertions_kept (s : State) : Kept s (State.pumpInsertions s) := by
  unfold State.pumpInsertions
  try dsimp only
  repeat' (first
    | with_reducible exact Kept.refl _
    | with_reducible refine (State.issueInsertion_kept _ _).after ?_
    | with_reducible refine (each_kept ?_).after ?_
    | intro _)

theorem State.checkHit_kept (s : State) (lk : Lookup) (pub second : Bool) (e : Option Entry) : Kept s (State.checkHit s lk pub second e).2 := by
  unfold State.checkHit
  try dsimp only
  repeat' (first
    | with_reducible exact Kept.refl _
    | with_reducible refine (State.bump_kept _ _ _ _ _).after ?_
    | with_reducible refine (State.deleteEntry_kept _ _ _ _ _).after ?_
    | split)

theorem State.chainSearch_kept (s : State) (lk : Lookup) (pub : Bool) : Kept s (State.chainSearch s lk pub).2.2 := by
  unfold State.chainSearch
  try dsimp only
  repeat' (first
    | with_reducible exact Kept.refl _
    | with_reducible refine (State.arrayAnswer_kept _ _ _).after ?_
    | with_reducible refine (State.checkHit_kept _ _ _ _ _).after ?_
    | split)

theorem State.secondAnswer_kept (s : State) (k : SearchKey) : Kept s (State.secondAnswer s k).2 := by
  unfold State.secondAnswer
  try dsimp only
  repeat' (first
    | with_reducible exact Kept.refl _
    | with_reducible refine (State.bump_kept _ _ _ _ _).after ?_)

theorem State.secondSearch_kept (s : State) (lk : Lookup) (pub : Bool) : Kept s (State.secondSearch s lk pub).2 := by
  unfold State.secondSearch
  try dsimp only
  repeat' (first
    | with_reducible exact Kept.refl _
    | with_reducible refine (State.meterBursts_kept _ _ _ _).after ?_
    | with_reducible refine (State.checkHit_kept _ _ _ _ _).after ?_
    | with_reducible refine (State.secondAnswer_kept _ _).after ?_)

theorem State.runLookup_kept (s : State) (lk : Lookup) (x0 : Nat) : Kept s (State.runLookup s lk x0).2 := by
  induction x0 generalizing s lk with
  | zero => rw [State.runLookup]; exact Kept.refl _
  | succ n ih =>
    rw [State.runLookup]
    try dsimp only
    repeat' (first
    | with_reducible exact Kept.refl _
    | with_reducible refine (ih _ _).after ?_
    | with_reducible refine (State.markWait_kept _ _).after ?_
    | with_reducible refine (State.chainSearch_kept _ _ _).after ?_
    | with_reducible refine (Kept.fst (State.chargeAll_kept _ _) (by assumption)).after ?_
    | split)

theorem State.issueSecond_kept (s : State) (lk : Lookup) : Kept s (State.issueSecond s lk).2 := by
  unfold State.issueSecond
  try dsimp only
  repeat' (first
    | with_reducible exact Kept.refl _
    | with_reducible refine (State.markWait_kept _ _).after ?_
    | with_reducible refine (Kept.fst (State.chargeAll_kept _ _) (by assumption)).after ?_
    | split)

theorem State.secondDone_kept (s : State) (lk : Lookup) : Kept s (State.secondDone s lk).2 := by
  unfold State.secondDone
  try dsimp only
  repeat' (first
    | with_reducible exact Kept.refl _
    | with_reducible refine (State.secondSearch_kept _ _ _).after ?_
    | split)

theorem State.endLookup_kept (s : State) (lk : Lookup) : Kept s (State.endLookup s lk).2 := by
  unfold State.endLookup
  try dsimp only
  repeat' (first
    | with_reducible exact Kept.refl _
    | with_reducible refine (State.bump_kept _ _ _ _ _).after ?_
    | with_reducible refine (State.meterBursts_kept _ _ _ _).after ?_
    | with_reducible refine (State.deleteEntry_kept _ _ _ _ _).after ?_
    | split)

theorem State.useHits_kept (s : State) (hits : List Hit) : Kept s (State.useHits s hits) := by
  unfold State.useHits
  try dsimp only
  repeat' (first
    | with_reducible exact Kept.refl _
    | with_reducible refine (onMortise_kept ).after ?_
    | with_reducible refine (State.bump_kept _ _ _ _ _).after ?_
    | with_reducible refine (State.oweAll_kept _ _).after ?_
    | with_reducible refine (State.onNodeRec_kept _ _ _ _).after ?_
    | with_reducible refine (State.placeEntry_kept _ _).after ?_
    | with_reducible refine (each_kept ?_).after ?_
    | intro _
    | split)

end Sys2Proof.Machine
end

