-- ==== Sys2Proof/Laws/Kept/Seqs.lean ====
section
/-!
SUPPORT. What each operation of Machine/Seqs.lean keeps (Laws/Kept.lean says what that is).
-/
namespace Sys2Proof.Machine

theorem State.syncOne_kept (s : State) (q : Seq) (k : SyncKind) (first upTo : Nat) : Kept s (State.syncOne s q k first upTo) := by
  unfold State.syncOne
  try dsimp only
  repeat' (first
    | with_reducible exact Kept.refl _
    | with_reducible refine (State.ask_kept _ _ _ _ _ _ _ _ _ _).after ?_)

theorem State.sync_kept (s : State) (q : Seq) (k : SyncKind) (first upTo : Nat) : Kept s (State.sync s q k first upTo) := by
  unfold State.sync
  try dsimp only
  repeat' (first
    | with_reducible exact Kept.refl _
    | with_reducible refine (State.syncOne_kept _ _ _ _ _).after ?_
    | with_reducible refine (each_kept ?_).after ?_
    | intro _
    | with_reducible refine Kept.ite ?_ ?_)

theorem State.onPacker_kept (s : State) (p : Nat) (f : Packer → Packer) : Kept s (State.onPacker s p f) := by
  unfold State.onPacker
  try dsimp only
  repeat' (first
    | with_reducible exact Kept.refl _
    | with_reducible refine (onPackers_kept ).after ?_)

theorem State.putImage_kept (s : State) (peer p t offset sub : Nat) (i : RelayImage) : Kept s (State.putImage s peer p t offset sub i) := by
  unfold State.putImage
  try dsimp only
  repeat' (first
    | with_reducible exact Kept.refl _
    | with_reducible refine (onSec_kept ).after ?_
    | with_reducible refine (State.bump_kept _ _ _ _ _).after ?_
    | with_reducible refine (State.meterBytes_kept _ _ _ _).after ?_
    | with_reducible refine (State.rdmaWrite_kept _ _ _ _ _ _ _ _).after ?_
    | split)

theorem State.relayOut_kept (s : State) (kind peer : Nat) (q : Seq) (handle first stop : Nat) (pages : List (PageKey × Nat)) (images : List (Nat × RelayImage)) (room forSeq : Nat) (stagings : List Nat) : Kept s (State.relayOut s kind peer q handle first stop pages images room forSeq stagings) := by
  unfold State.relayOut
  try dsimp only
  repeat' (first
    | with_reducible exact Kept.refl _
    | with_reducible refine (onBroker_kept ).after ?_
    | with_reducible refine (State.fresh_kept _).after ?_
    | with_reducible refine (State.meter_kept _ _ _ _ _).after ?_
    | with_reducible refine (State.meterMoved_kept _ _ _ _ _).after ?_
    | with_reducible refine (State.ask_kept _ _ _ _ _ _ _ _ _ _).after ?_
    | with_reducible refine (State.putImage_kept _ _ _ _ _ _ _).after ?_
    | with_reducible refine (foldl_kept_snd ?_).after ?_
    | intro _
    | split)

theorem State.mirrorPages_kept (s : State) (h old new : Nat) : Kept s (State.mirrorPages s h old new) := by
  unfold State.mirrorPages
  try dsimp only
  repeat' (first
    | with_reducible exact Kept.refl _
    | with_reducible refine (State.oweAll_kept _ _).after ?_
    | with_reducible refine (State.relayOut_kept _ _ _ _ _ _ _ _ _ _ _ _).after ?_
    | split)

theorem State.seal_kept (s : State) (h : Nat) : Kept s (State.seal s h) := by
  unfold State.seal
  try dsimp only
  repeat' (first
    | with_reducible exact Kept.refl _
    | with_reducible refine (State.onSeq_kept _ _ _).after ?_
    | with_reducible refine (State.issueInsertions_kept _ _ _ _).after ?_
    | with_reducible refine (State.mirrorPages_kept _ _ _ _).after ?_
    | split)

theorem State.writeLedger_kept (s : State) (h first : Nat) (ts : List W32) : Kept s (State.writeLedger s h first ts) := by
  unfold State.writeLedger
  try dsimp only
  repeat' (first
    | with_reducible exact Kept.refl _
    | with_reducible refine (State.onSeq_kept _ _ _).after ?_
    | with_reducible refine (State.fitFixed_kept _ _).after ?_
    | with_reducible refine (State.sync_kept _ _ _ _ _).after ?_
    | split)

theorem State.fixValid_kept (s : State) (h l k : Nat) : Kept s (State.fixValid s h l k) := by
  unfold State.fixValid
  try dsimp only
  repeat' (first
    | with_reducible exact Kept.refl _
    | with_reducible refine (State.onSeq_kept _ _ _).after ?_
    | split)

theorem State.cut_kept (s : State) (h : Nat) : Kept s (State.cut s h) := by
  unfold State.cut
  try dsimp only
  repeat' (first
    | with_reducible exact Kept.refl _
    | with_reducible refine (State.onSeq_kept _ _ _).after ?_
    | with_reducible refine (State.lose_kept _ _ _).after ?_
    | with_reducible refine (State.freePage_kept _ _).after ?_
    | with_reducible refine (State.fitFixed_kept _ _).after ?_
    | with_reducible refine (State.sync_kept _ _ _ _ _).after ?_
    | with_reducible refine (each_kept ?_).after ?_
    | intro _
    | split)

theorem State.dropAppend_kept (s : State) (a : Append) : Kept s (State.dropAppend s a) := by
  unfold State.dropAppend
  try dsimp only
  repeat' (first
    | with_reducible exact Kept.refl _
    | with_reducible refine (onWork_kept ).after ?_
    | with_reducible refine (State.dropFrames_kept _ _ _).after ?_)

theorem State.dropEmptyBlocks_kept (s : State) (h : Nat) : Kept s (State.dropEmptyBlocks s h) := by
  unfold State.dropEmptyBlocks
  try dsimp only
  repeat' (first
    | with_reducible exact Kept.refl _
    | with_reducible refine (State.onSeq_kept _ _ _).after ?_
    | with_reducible refine (State.shoot_kept _ _).after ?_
    | with_reducible refine (State.fitFixed_kept _ _).after ?_
    | split)

theorem State.rewind_kept (s : State) (h : Nat) (as : List Append) : Kept s (State.rewind s h as) := by
  unfold State.rewind
  try dsimp only
  repeat' (first
    | with_reducible exact Kept.refl _
    | with_reducible refine (State.onSeq_kept _ _ _).after ?_
    | with_reducible refine (State.freePage_kept _ _).after ?_
    | with_reducible refine (State.dropEmptyBlocks_kept _ _).after ?_
    | with_reducible refine (each_kept ?_).after ?_
    | intro _
    | split)

theorem State.appendAnswer_kept (s : State) (a : Append) (st : Status) (pos : Nat) : Kept s (State.appendAnswer s a st pos) := by
  unfold State.appendAnswer
  try dsimp only
  repeat' (first
    | with_reducible exact Kept.refl _
    | with_reducible refine (State.complete_kept _ _ _ _ _).after ?_)

theorem State.failFrom_kept (s : State) (id : Nat) (st : Option Status) (pos : Nat) : Kept s (State.failFrom s id st pos) := by
  unfold State.failFrom
  try dsimp only
  repeat' (first
    | with_reducible exact Kept.refl _
    | with_reducible refine (State.dropAppend_kept _ _).after ?_
    | with_reducible refine (State.rewind_kept _ _ _).after ?_
    | with_reducible refine (State.appendAnswer_kept _ _ _ _).after ?_
    | with_reducible refine (each_kept ?_).after ?_
    | intro _
    | split)

theorem State.failAccepted_kept (s : State) (h : Nat) (st : Option Status) : Kept s (State.failAccepted s h st) := by
  unfold State.failAccepted
  try dsimp only
  repeat' (first
    | with_reducible exact Kept.refl _
    | with_reducible refine (State.failFrom_kept _ _ _ _).after ?_
    | split)

theorem State.dropQueued_kept (s : State) (h : Nat) (st : Option Status) : Kept s (State.dropQueued s h st) := by
  unfold State.dropQueued
  try dsimp only
  repeat' (first
    | with_reducible exact Kept.refl _
    | with_reducible refine (State.endRead_kept _ _).after ?_
    | with_reducible refine (State.dropAppend_kept _ _).after ?_
    | with_reducible refine (State.appendAnswer_kept _ _ _ _).after ?_
    | with_reducible refine (each_kept ?_).after ?_
    | intro _
    | split)

theorem State.unpin_kept (s : State) (k : PageKey) : Kept s (State.unpin s k) := by
  unfold State.unpin
  try dsimp only
  repeat' (first
    | with_reducible exact Kept.refl _
    | with_reducible refine (State.onPage_kept _ _ _).after ?_)

theorem State.endGroup_kept (s : State) (g : Nat) : Kept s (State.endGroup s g) := by
  unfold State.endGroup
  try dsimp only
  repeat' (first
    | with_reducible exact Kept.refl _
    | with_reducible refine (onWork_kept ).after ?_
    | with_reducible refine (State.unpin_kept _ _).after ?_
    | split)

theorem State.dropTile_kept (s : State) (t : Tile) : Kept s (State.dropTile s t) := by
  unfold State.dropTile
  try dsimp only
  repeat' (first
    | with_reducible exact Kept.refl _
    | with_reducible refine (onWork_kept ).after ?_
    | with_reducible refine (State.endGroup_kept _ _).after ?_
    | split)

theorem State.endRow_kept (s : State) (att row : Nat) (st : Status) (pos : Nat) : Kept s (State.endRow s att row st pos) := by
  unfold State.endRow
  try dsimp only
  repeat' (first
    | with_reducible exact Kept.refl _
    | with_reducible refine (onWork_kept ).after ?_
    | with_reducible refine (State.dropTile_kept _ _).after ?_
    | with_reducible refine (each_kept ?_).after ?_
    | intro _)

theorem State.cancelRows_kept (s : State) (h node : Nat) : Kept s (State.cancelRows s h node) := by
  unfold State.cancelRows
  try dsimp only
  repeat' (first
    | with_reducible exact Kept.refl _
    | with_reducible refine (onWork_kept ).after ?_
    | with_reducible refine (State.bump_kept _ _ _ _ _).after ?_
    | with_reducible refine (State.endRead_kept _ _).after ?_
    | with_reducible refine (State.dropTile_kept _ _).after ?_
    | with_reducible refine (each_kept ?_).after ?_
    | intro _)

theorem State.stopDelivery_kept (s : State) (h : Nat) : Kept s (State.stopDelivery s h) := by
  unfold State.stopDelivery
  try dsimp only
  repeat' (first
    | with_reducible exact Kept.refl _
    | with_reducible refine (onWork_kept ).after ?_)

end Sys2Proof.Machine
end

