-- ==== Sys2Proof/Laws/Kept/Nand.lean ====
section
/-!
SUPPORT. What each operation of Machine/Nand.lean keeps (Laws/Kept.lean says what that is).
-/
namespace Sys2Proof.Machine

theorem State.onSb_kept (s : State) (i n : Nat) (f : Superblock → Superblock) : Kept s (State.onSb s i n f) := by
  unfold State.onSb
  try dsimp only
  repeat' (first
    | with_reducible exact Kept.refl _
    | with_reducible refine (onFlash_kept ).after ?_)

theorem State.chargeProgram_kept (s : State) (i p c : Nat) (tlc : Bool) (n : Nat) {o0 : State} (h_o : State.chargeProgram s i p c tlc n = some o0) : Kept s o0 := by
  suffices key : ∀ o, State.chargeProgram s i p c tlc n = some o → Kept s o from key _ h_o
  clear h_o
  intro o h_o
  unfold State.chargeProgram at h_o
  try dsimp only at h_o
  repeat (any_goals (first | split at h_o | (with_reducible replace h_o := map_some_kept h_o; obtain ⟨_, _, h_o⟩ := h_o)))
  all_goals try (exact absurd h_o (by simp only [reduceCtorEq, not_false_eq_true]))
  all_goals try (first | cases h_o | (injection h_o with h_o; try subst h_o))
  all_goals try dsimp only
  all_goals repeat' (first
    | with_reducible exact Kept.refl _
    | with_reducible refine (State.onIsland_kept _ _ _).after ?_
    | with_reducible refine (State.charge_kept _ _ (by assumption)).after ?_)

theorem State.staleDies_kept (s : State) (mine : Nat → Bool) : Kept s (State.staleDies s mine) := by
  unfold State.staleDies
  try dsimp only
  repeat' (first
    | with_reducible exact Kept.refl _
    | with_reducible refine (onFlash_kept ).after ?_)

theorem State.erased_kept (s : State) (tlc : Bool) (ks : List Nat) : Kept s (State.erased s tlc ks) := by
  unfold State.erased
  try dsimp only
  repeat' (first
    | with_reducible exact Kept.refl _
    | with_reducible refine (onFlash_kept ).after ?_)

theorem State.openSb_kept (s : State) (i : Nat) (tlc : Bool) (st : Stream) {o0 : Nat} {o1 : State} (h_o : State.openSb s i tlc st = some (o0, o1)) : Kept s o1 := by
  suffices key : ∀ o, State.openSb s i tlc st = some o → Kept s o.2 from key _ h_o
  clear h_o
  intro o h_o
  unfold State.openSb at h_o
  try dsimp only at h_o
  repeat (any_goals (first | split at h_o | (with_reducible replace h_o := map_some_kept h_o; obtain ⟨_, _, h_o⟩ := h_o)))
  all_goals try (exact absurd h_o (by simp only [reduceCtorEq, not_false_eq_true]))
  all_goals try (first | cases h_o | (injection h_o with h_o; try subst h_o))
  all_goals try dsimp only
  all_goals repeat' (first
    | with_reducible exact Kept.refl _
    | with_reducible refine (onFlash_kept ).after ?_
    | with_reducible refine (State.owe_kept _ _).after ?_
    | with_reducible refine (State.journal_kept _ _ _).after ?_
    | with_reducible refine (State.onSb_kept _ _ _ _).after ?_
    | with_reducible refine (State.erased_kept _ _ _).after ?_)

theorem State.closeSb_kept (s : State) (i n : Nat) : Kept s (State.closeSb s i n) := by
  unfold State.closeSb
  try dsimp only
  repeat' (first
    | with_reducible exact Kept.refl _
    | with_reducible refine (State.onFisland_kept _ _ _).after ?_
    | with_reducible refine (State.journal_kept _ _ _).after ?_
    | with_reducible refine (State.onSb_kept _ _ _ _).after ?_)

theorem State.takeSlots_kept (s : State) (i : Nat) (st : Stream) (n align : Nat) {o0 : Nat} {o1 : Nat} {o2 : State} (h_o : State.takeSlots s i st n align = some (o0, o1, o2)) : Kept s o2 := by
  suffices key : ∀ o, State.takeSlots s i st n align = some o → Kept s o.2.2 from key _ h_o
  clear h_o
  intro o h_o
  unfold State.takeSlots at h_o
  try dsimp only at h_o
  repeat (any_goals (first | split at h_o | (with_reducible replace h_o := bind_some_kept h_o; obtain ⟨_, _, h_o⟩ := h_o)))
  all_goals try (exact absurd h_o (by simp only [reduceCtorEq, not_false_eq_true]))
  all_goals try (first | cases h_o | (injection h_o with h_o; try subst h_o))
  all_goals try dsimp only
  all_goals repeat' (first
    | with_reducible exact Kept.refl _
    | with_reducible refine (State.onSb_kept _ _ _ _).after ?_
    | with_reducible refine (State.closeSb_kept _ _ _).after ?_
    | with_reducible refine (State.openSb_kept _ _ _ _ (by assumption)).after ?_)

theorem State.rowSeq_kept (s : State) (i n row : Nat) : Kept s (State.rowSeq s i n row).2 := by
  unfold State.rowSeq
  try dsimp only
  repeat' (first
    | with_reducible exact Kept.refl _
    | with_reducible refine (State.onFisland_kept _ _ _).after ?_
    | split)

theorem State.programSlot_kept (s : State) (i n slot : Nat) (x : FlashPage) (h : Nat) : Kept s (State.programSlot s i n slot x h) := by
  unfold State.programSlot
  try dsimp only
  repeat' (first
    | with_reducible exact Kept.refl _
    | with_reducible refine (onFlash_kept ).after ?_
    | with_reducible refine (State.owe_kept _ _).after ?_
    | with_reducible refine (State.onSb_kept _ _ _ _).after ?_
    | with_reducible refine (State.rowSeq_kept _ _ _ _).after ?_
    | split)

theorem State.noteCopy_kept (s : State) (q : Seq) (k : Nat) : Kept s (State.noteCopy s q k) := by
  unfold State.noteCopy
  try dsimp only
  repeat' (first
    | with_reducible exact Kept.refl _
    | with_reducible refine (State.energy_kept _ _ _ _).after ?_
    | with_reducible refine (State.useKey_kept _ _ _).after ?_)

theorem State.programData_kept (s : State) (i n slot : Nat) (q : Seq) (p : Page) (lpn : Nat) (why : ProgramFor) (bs : List Byte) : Kept s (State.programData s i n slot q p lpn why bs) := by
  unfold State.programData
  try dsimp only
  repeat' (first
    | with_reducible exact Kept.refl _
    | with_reducible refine (State.programSlot_kept _ _ _ _ _ _).after ?_
    | with_reducible refine (State.noteCopy_kept _ _ _).after ?_
    | with_reducible refine (each_kept ?_).after ?_
    | intro _)

theorem State.takeFine_kept (s : State) (i n : Nat) : Kept s (State.takeFine s i n).2 := by
  unfold State.takeFine
  try dsimp only
  repeat' (first
    | with_reducible exact Kept.refl _
    | with_reducible refine (onFlash_kept ).after ?_)

theorem State.takeUnit_kept (s : State) (i : Nat) : Kept s (State.takeUnit s i).2 := by
  unfold State.takeUnit
  try dsimp only
  repeat' (first
    | with_reducible exact Kept.refl _
    | with_reducible refine (onFlash_kept ).after ?_)

theorem State.programFine_kept (s : State) (i : Nat) (st : Stream) (q : Seq) (p : Page) (why : ProgramFor) (bs : List Byte) {o0 : Nat} {o1 : State}
    (h_o : State.programFine s i st q p why bs = some (o0, o1)) : Kept s o1 := by
  unfold State.programFine at h_o
  dsimp only at h_o
  split at h_o
  · cases h_o
  · obtain ⟨x, hx, e⟩ := map_some_kept h_o
    cases e
    refine (State.noteCopy_kept _ _ _).after ?_
    refine Kept.trans (State.takeFine_kept _ i p.flashPages) (?_ : Kept (s.takeFine i p.flashPages).2 x)
    obtain ⟨u, hu, ku⟩ := foldl_kept_some (fun a j t h => by
      obtain ⟨b, hb, h⟩ := bind_some_kept h
      obtain ⟨c, hc, h⟩ := map_some_kept h
      subst h
      exact ⟨b, hb, (State.takeSlots_kept _ _ _ _ _ hc).trans (State.programSlot_kept _ _ _ _ _ _)⟩) hx
    cases hu
    exact ku

theorem State.endMove_kept (s : State) (k : PageKey) : Kept s (State.endMove s k) := by
  unfold State.endMove
  try dsimp only
  repeat' (first
    | with_reducible exact Kept.refl _
    | with_reducible refine (onWork_kept ).after ?_)

theorem State.unplace_kept (s : State) (i n : Nat) (slots : List Nat) : Kept s (State.unplace s i n slots) := by
  unfold State.unplace
  try dsimp only
  repeat' (first
    | with_reducible exact Kept.refl _
    | with_reducible refine (onWork_kept ).after ?_
    | with_reducible refine (State.freeLpn_kept _ _ _).after ?_
    | with_reducible refine (each_kept ?_).after ?_
    | intro _
    | split)

theorem State.mapPage_kept (s : State) (x : FlashPage) : Kept s (State.mapPage s x) := by
  unfold State.mapPage
  try dsimp only
  repeat' (first
    | with_reducible exact Kept.refl _
    | with_reducible refine (onFlash_kept ).after ?_
    | with_reducible refine (State.journal_kept _ _ _).after ?_
    | split)

theorem State.toFlash_kept (s : State) (k : PageKey) (lpn : Nat) : Kept s (State.toFlash s k lpn) := by
  unfold State.toFlash
  try dsimp only
  repeat' (first
    | with_reducible exact Kept.refl _
    | with_reducible refine (State.bump_kept _ _ _ _ _).after ?_
    | with_reducible refine (State.onPage_kept _ _ _).after ?_
    | with_reducible refine (State.shootPage_kept _ _ _ _).after ?_
    | split)

theorem State.toCopy_kept (s : State) (q : Seq) (k : PageKey) (p : Page) (lpn : Nat) (f : Page → Page) : Kept s (State.toCopy s q k p lpn f) := by
  unfold State.toCopy
  try dsimp only
  repeat' (first
    | with_reducible exact Kept.refl _
    | with_reducible refine (State.bump_kept _ _ _ _ _).after ?_
    | with_reducible refine (State.onPage_kept _ _ _).after ?_
    | with_reducible refine (State.shootCopy_kept _ _ _ _).after ?_)

theorem State.dropCopy_kept (s : State) (k : PageKey) (x : FlashPage) : Kept s (State.dropCopy s k x) := by
  unfold State.dropCopy
  try dsimp only
  repeat' (first
    | with_reducible exact Kept.refl _
    | with_reducible refine (State.onPage_kept _ _ _).after ?_
    | with_reducible refine (State.freeLpn_kept _ _ _).after ?_
    | with_reducible refine (State.endMove_kept _ _).after ?_)

theorem State.finishMove_kept (s : State) (k : PageKey) (x : FlashPage) : Kept s (State.finishMove s k x) := by
  unfold State.finishMove
  try dsimp only
  repeat' (first
    | with_reducible exact Kept.refl _
    | with_reducible refine (State.bump_kept _ _ _ _ _).after ?_
    | with_reducible refine (State.onPage_kept _ _ _).after ?_
    | with_reducible refine (State.endMove_kept _ _).after ?_
    | with_reducible refine (State.toFlash_kept _ _ _).after ?_
    | with_reducible refine (State.toCopy_kept _ _ _ _ _ _).after ?_
    | with_reducible refine (State.dropCopy_kept _ _ _).after ?_
    | split)

theorem State.switchPage_kept (s : State) (x : FlashPage) (sb slot : Nat) : Kept s (State.switchPage s x sb slot) := by
  unfold State.switchPage
  try dsimp only
  repeat' (first
    | with_reducible exact Kept.refl _
    | with_reducible refine (onFlash_kept ).after ?_
    | with_reducible refine (State.bump_kept _ _ _ _ _).after ?_
    | with_reducible refine (State.journal_kept _ _ _).after ?_
    | with_reducible refine Kept.ite ?_ ?_)

theorem State.switchUnit_kept (s : State) (x : FlashPage) (sb : Nat) : Kept s (State.switchUnit s x sb) := by
  unfold State.switchUnit
  try dsimp only
  repeat' (first
    | with_reducible exact Kept.refl _
    | with_reducible refine (onFlash_kept ).after ?_
    | with_reducible refine (State.journal_kept _ _ _).after ?_
    | with_reducible refine Kept.ite ?_ ?_)

theorem State.consolidated_kept (s : State) (k : PageKey) (x : FlashPage) : Kept s (State.consolidated s k x) := by
  unfold State.consolidated
  try dsimp only
  repeat' (first
    | with_reducible exact Kept.refl _
    | with_reducible refine (State.freeLpn_kept _ _ _).after ?_
    | with_reducible refine (State.toCopy_kept _ _ _ _ _ _).after ?_
    | split)

theorem State.finishCopy_kept (s : State) (x : FlashPage) : Kept s (State.finishCopy s x) := by
  unfold State.finishCopy
  try dsimp only
  repeat' (first
    | with_reducible exact Kept.refl _
    | with_reducible refine (State.finishMove_kept _ _ _).after ?_
    | with_reducible refine (State.switchPage_kept _ _ _ _).after ?_
    | with_reducible refine (State.switchUnit_kept _ _ _).after ?_
    | with_reducible refine (State.consolidated_kept _ _ _).after ?_
    | split)

theorem State.confirmRows_kept (s : State) (i n row : Nat) : Kept s (State.confirmRows s i n row) := by
  unfold State.confirmRows
  try dsimp only
  repeat' (first
    | with_reducible exact Kept.refl _
    | with_reducible refine (onFlash_kept ).after ?_
    | with_reducible refine (State.onSb_kept _ _ _ _).after ?_
    | with_reducible refine (State.mapPage_kept _ _).after ?_
    | with_reducible refine (State.finishCopy_kept _ _).after ?_
    | with_reducible refine (each_kept ?_).after ?_
    | intro _
    | split)

theorem State.padRow_kept (s : State) (i n row : Nat) : Kept s (State.padRow s i n row) := by
  unfold State.padRow
  try dsimp only
  repeat' (first
    | with_reducible exact Kept.refl _
    | with_reducible refine (State.bump_kept _ _ _ _ _).after ?_
    | with_reducible refine (State.owe_kept _ _).after ?_
    | with_reducible refine (State.onSb_kept _ _ _ _).after ?_
    | with_reducible refine (State.programSlot_kept _ _ _ _ _ _).after ?_
    | with_reducible refine (State.unplace_kept _ _ _ _).after ?_
    | with_reducible refine (each_kept ?_).after ?_
    | intro _
    | split)

theorem State.noteWrites_kept (s : State) (programmed copied : Nat) : Kept s (State.noteWrites s programmed copied) := by
  unfold State.noteWrites
  try dsimp only
  repeat' (first
    | with_reducible exact Kept.refl _
    | with_reducible refine (onFlash_kept ).after ?_
    | with_reducible refine (State.bump_kept _ _ _ _ _).after ?_)

theorem State.relocate_kept (s : State) (x : FlashPage) {o0 : State} (h_o : State.relocate s x = some o0) : Kept s o0 := by
  suffices key : ∀ o, State.relocate s x = some o → Kept s o from key _ h_o
  clear h_o
  intro o h_o
  unfold State.relocate at h_o
  try dsimp only at h_o
  repeat (any_goals (first | split at h_o | (with_reducible replace h_o := map_some_kept h_o; obtain ⟨_, _, h_o⟩ := h_o)))
  all_goals try (exact absurd h_o (by simp only [reduceCtorEq, not_false_eq_true]))
  all_goals try (first | cases h_o | (injection h_o with h_o; try subst h_o))
  all_goals try dsimp only
  all_goals repeat' (first
    | with_reducible exact Kept.refl _
    | with_reducible refine (State.onSb_kept _ _ _ _).after ?_
    | with_reducible refine (State.programSlot_kept _ _ _ _ _ _).after ?_
    | with_reducible refine (State.noteWrites_kept _ _ _).after ?_
    | with_reducible refine (State.takeSlots_kept _ _ _ _ _ (by assumption)).after ?_)

theorem State.relocateUnit_kept (s : State) (i sb : Nat) (pages : List FlashPage) {o0 : State} (h_o : State.relocateUnit s i sb pages = some o0) : Kept s o0 := by
  suffices key : ∀ o, State.relocateUnit s i sb pages = some o → Kept s o from key _ h_o
  clear h_o
  intro o h_o
  unfold State.relocateUnit at h_o
  try dsimp only at h_o
  repeat (any_goals (first | split at h_o | (with_reducible replace h_o := map_some_kept h_o; obtain ⟨_, _, h_o⟩ := h_o)))
  all_goals try (exact absurd h_o (by simp only [reduceCtorEq, not_false_eq_true]))
  all_goals try (first | cases h_o | (injection h_o with h_o; try subst h_o))
  all_goals try dsimp only
  all_goals repeat' (first
    | with_reducible exact Kept.refl _
    | with_reducible refine (State.onSb_kept _ _ _ _).after ?_
    | with_reducible refine (State.programSlot_kept _ _ _ _ _ _).after ?_
    | with_reducible refine (State.noteWrites_kept _ _ _).after ?_
    | with_reducible refine (each_kept ?_).after ?_
    | with_reducible refine (State.takeSlots_kept _ _ _ _ _ (by assumption)).after ?_
    | intro _)

theorem State.eraseSb_kept (s : State) (i n : Nat) : Kept s (State.eraseSb s i n) := by
  unfold State.eraseSb
  try dsimp only
  repeat' (first
    | with_reducible exact Kept.refl _
    | with_reducible refine (onFlash_kept ).after ?_
    | with_reducible refine (State.journal_kept _ _ _).after ?_
    | with_reducible refine (State.erased_kept _ _ _).after ?_
    | split)

theorem State.flashLostFor_kept (s : State) (k : PageKey) (reason die : Nat) : Kept s (State.flashLostFor s k reason die) := by
  unfold State.flashLostFor
  try dsimp only
  repeat' (first
    | with_reducible exact Kept.refl _
    | with_reducible refine (State.bump_kept _ _ _ _ _).after ?_
    | with_reducible refine (State.onPage_kept _ _ _).after ?_
    | with_reducible refine (State.freeCopy_kept _ _).after ?_
    | with_reducible refine (State.losePage_kept _ _ _ _).after ?_
    | split)

theorem State.flashLost_kept (s : State) (k : PageKey) (die : Nat) : Kept s (State.flashLost s k die) := by
  unfold State.flashLost
  try dsimp only
  repeat' (first
    | with_reducible exact Kept.refl _
    | with_reducible refine (State.flashLostFor_kept _ _ _ _).after ?_)

theorem State.leaveDie_kept (s : State) (b : Superblock) (x : FlashPage) : Kept s (State.leaveDie s b x).2 := by
  unfold State.leaveDie
  try dsimp only
  repeat' (first
    | with_reducible exact Kept.refl _
    | with_reducible refine (State.bump_kept _ _ _ _ _).after ?_
    | with_reducible refine (State.markWait_kept _ _).after ?_
    | with_reducible refine (Kept.fst (State.chargeAll_kept _ _) (by assumption)).after ?_
    | with_reducible refine (State.relocate_kept _ _ (by assumption)).after ?_
    | split)

theorem State.pumpDies_kept (s : State) : Kept s (State.pumpDies s) := by
  unfold State.pumpDies
  try dsimp only
  repeat' (first
    | with_reducible exact Kept.refl _
    | with_reducible refine (State.flashLostFor_kept _ _ _ _).after ?_
    | with_reducible refine (State.leaveDie_kept _ _ _).after ?_
    | with_reducible refine (foldl_kept_snd ?_).after ?_
    | intro _
    | split)

theorem State.reissue_kept (s : State) (x : FlashPage) (b : Superblock) {o0 : State} (h_o : State.reissue s x b = some o0) : Kept s o0 := by
  suffices key : ∀ o, State.reissue s x b = some o → Kept s o from key _ h_o
  clear h_o
  intro o h_o
  unfold State.reissue at h_o
  try dsimp only at h_o
  repeat (any_goals (first | split at h_o | (with_reducible replace h_o := map_some_kept h_o; obtain ⟨_, _, h_o⟩ := h_o)))
  all_goals try (exact absurd h_o (by simp only [reduceCtorEq, not_false_eq_true]))
  all_goals try (first | cases h_o | (injection h_o with h_o; try subst h_o))
  all_goals try dsimp only
  all_goals repeat' (first
    | with_reducible exact Kept.refl _
    | with_reducible refine (onFlash_kept ).after ?_
    | with_reducible refine (State.owe_kept _ _).after ?_
    | with_reducible refine (State.onSb_kept _ _ _ _).after ?_
    | with_reducible refine (State.programSlot_kept _ _ _ _ _ _).after ?_
    | with_reducible refine (State.takeSlots_kept _ _ _ _ _ (by assumption)).after ?_)

theorem State.replaceProgram_kept (s : State) (b : Superblock) (x : FlashPage) : Kept s (State.replaceProgram s b x) := by
  unfold State.replaceProgram
  try dsimp only
  repeat' (first
    | with_reducible exact Kept.refl _
    | with_reducible refine (onFlash_kept ).after ?_
    | with_reducible refine (State.closeSb_kept _ _ _).after ?_
    | with_reducible refine (State.padRow_kept _ _ _ _).after ?_
    | with_reducible refine (State.reissue_kept _ _ _ (by assumption)).after ?_
    | with_reducible refine (getD_kept ?_).after ?_
    | intro _
    | with_reducible refine Kept.ite ?_ ?_)

theorem State.pumpPrograms_kept (s : State) : Kept s (State.pumpPrograms s) := by
  unfold State.pumpPrograms
  try dsimp only
  repeat' (first
    | with_reducible exact Kept.refl _
    | with_reducible refine (State.replaceProgram_kept _ _ _).after ?_
    | with_reducible refine (each_kept ?_).after ?_
    | intro _
    | split)

theorem State.startRead_kept (s : State) (lpn n p c : Nat) (why : ReadFor) : Kept s (State.startRead s lpn n p c why) := by
  unfold State.startRead
  try dsimp only
  repeat' (first
    | with_reducible exact Kept.refl _
    | with_reducible refine (onFlash_kept ).after ?_
    | with_reducible refine (State.fresh_kept _).after ?_)

theorem State.issueFlashRead_kept (s : State) (r : FlashRead) : Kept s (State.issueFlashRead s r) := by
  unfold State.issueFlashRead
  try dsimp only
  repeat' (first
    | with_reducible exact Kept.refl _
    | with_reducible refine (onFlash_kept ).after ?_
    | with_reducible refine (State.energy_kept _ _ _ _).after ?_
    | with_reducible refine (State.useKey_kept _ _ _).after ?_)

theorem State.pumpReads_kept (s : State) : Kept s (State.pumpReads s) := by
  unfold State.pumpReads
  try dsimp only
  repeat' (first
    | with_reducible exact Kept.refl _
    | with_reducible refine (State.markWait_kept _ _).after ?_
    | with_reducible refine (State.issueFlashRead_kept _ _).after ?_
    | with_reducible refine (foldl_kept_snd ?_).after ?_
    | with_reducible refine (Kept.fst (State.chargeAll_kept _ _) (by assumption)).after ?_
    | intro _
    | split)

end Sys2Proof.Machine
end

