-- ==== Sys2Proof/Laws/Kept/Alloc.lean ====
section
/-!
SUPPORT. What each operation of Machine/Alloc.lean keeps (Laws/Kept.lean says what that is).
-/
namespace Sys2Proof.Machine

theorem State.reclaimClean_kept (s : State) (p h n : Nat) : Kept s (State.reclaimClean s p h n) := by
  unfold State.reclaimClean
  try dsimp only
  repeat' (first
    | with_reducible exact Kept.refl _
    | with_reducible refine (State.bump_kept _ _ _ _ _).after ?_
    | with_reducible refine (State.toFlash_kept _ _ _).after ?_
    | with_reducible refine (foldl_kept_snd ?_).after ?_
    | intro _
    | split)

theorem State.reclaimFor_kept (s : State) (p h n : Nat) : Kept s (State.reclaimFor s p h n) := by
  unfold State.reclaimFor
  try dsimp only
  repeat' (first
    | with_reducible exact Kept.refl _
    | with_reducible refine (State.reclaimClean_kept _ _ _ _).after ?_)

theorem State.addMove_kept (s : State) (k : PageKey) (kind : MoveKind) : Kept s (State.addMove s k kind) := by
  unfold State.addMove
  try dsimp only
  repeat' (first
    | with_reducible exact Kept.refl _
    | with_reducible refine (onWork_kept ).after ?_
    | with_reducible refine (State.fresh_kept _).after ?_
    | with_reducible refine Kept.ite ?_ ?_)

theorem State.assignUnits_kept (s : State) (st : Stream) (x0 : Nat) (x1 : List (Move × Nat)) : Kept s (State.assignUnits s st x0 x1) := by
  induction x0 generalizing s st x1 with
  | zero => rw [State.assignUnits]; exact Kept.refl _
  | succ n ih =>
    rw [State.assignUnits]
    try dsimp only
    repeat' (first
    | with_reducible exact Kept.refl _
    | with_reducible refine (ih _ _ _).after ?_
    | with_reducible refine (onFlash_kept ).after ?_
    | with_reducible refine (onWork_kept ).after ?_
    | with_reducible refine (State.takeUnit_kept _ _).after ?_
    | with_reducible refine (State.takeSlots_kept _ _ _ _ _ (by assumption)).after ?_
    | split)

theorem State.assignBatch_kept (s : State) (h : Nat) (mine : MoveKind → Bool) (st : Stream) : Kept s (State.assignBatch s h mine st) := by
  unfold State.assignBatch
  try dsimp only
  repeat' (first
    | with_reducible exact Kept.refl _
    | with_reducible refine (State.assignUnits_kept _ _ _ _).after ?_
    | split)

theorem State.startDemotions_kept (s : State) (p h n : Nat) : Kept s (State.startDemotions s p h n) := by
  unfold State.startDemotions
  try dsimp only
  repeat' (first
    | with_reducible exact Kept.refl _
    | with_reducible refine (State.bump_kept _ _ _ _ _).after ?_
    | with_reducible refine (State.lose_kept _ _ _).after ?_
    | with_reducible refine (State.addMove_kept _ _ _).after ?_
    | with_reducible refine (State.assignBatch_kept _ _ _ _).after ?_
    | with_reducible refine (each_kept ?_).after ?_
    | with_reducible refine (foldl_kept_snd ?_).after ?_
    | intro _
    | split)

theorem State.makeRoom_kept (s : State) (p h n : Nat) : Kept s (State.makeRoom s p h n) := by
  unfold State.makeRoom
  try dsimp only
  repeat' (first
    | with_reducible exact Kept.refl _
    | with_reducible refine (State.reclaimFor_kept _ _ _ _).after ?_
    | with_reducible refine (State.startDemotions_kept _ _ _ _).after ?_)

theorem State.onStaging_kept (s : State) (id : Nat) (f : Staging → Staging) : Kept s (State.onStaging s id f) := by
  unfold State.onStaging
  try dsimp only
  repeat' (first
    | with_reducible exact Kept.refl _
    | with_reducible refine (onWork_kept ).after ?_)

theorem State.fetchStaging_kept (s : State) (g : Staging) : Kept s (State.fetchStaging s g) := by
  unfold State.fetchStaging
  try dsimp only
  repeat' (first
    | with_reducible exact Kept.refl _
    | with_reducible refine (State.relayOut_kept _ _ _ _ _ _ _ _ _ _ _ _).after ?_
    | with_reducible refine (State.startRead_kept _ _ _ _ _ _).after ?_
    | split)

theorem State.placeStaging_kept (s : State) (id : Nat) : Kept s (State.placeStaging s id) := by
  unfold State.placeStaging
  try dsimp only
  repeat' (first
    | with_reducible exact Kept.refl _
    | with_reducible refine (State.takeFrames_kept _ _).after ?_
    | with_reducible refine (State.makeRoom_kept _ _ _ _).after ?_
    | with_reducible refine (State.onStaging_kept _ _ _).after ?_
    | with_reducible refine (State.fetchStaging_kept _ _).after ?_
    | with_reducible refine (State.takeRun_kept _ _ _ _ _ (by assumption)).after ?_
    | split)

theorem State.stagePage_kept (s : State) (k : PageKey) (kind : StageKind) (pin : Bool) : Kept s (State.stagePage s k kind pin).2 := by
  unfold State.stagePage
  try dsimp only
  repeat' (first
    | with_reducible exact Kept.refl _
    | with_reducible refine (onWork_kept ).after ?_
    | with_reducible refine (State.fresh_kept _).after ?_
    | with_reducible refine (State.onStaging_kept _ _ _).after ?_
    | with_reducible refine (State.placeStaging_kept _ _).after ?_
    | split)

theorem State.retryStagings_kept (s : State) : Kept s (State.retryStagings s) := by
  unfold State.retryStagings
  try dsimp only
  repeat' (first
    | with_reducible exact Kept.refl _
    | with_reducible refine (State.placeStaging_kept _ _).after ?_
    | with_reducible refine (each_kept ?_).after ?_
    | intro _)

theorem State.endStaging_kept (s : State) (id : Nat) (ok : Bool) : Kept s (State.endStaging s id ok) := by
  unfold State.endStaging
  try dsimp only
  repeat' (first
    | with_reducible exact Kept.refl _
    | with_reducible refine (onWork_kept ).after ?_)

theorem State.dropPlace_kept (s : State) (part : Nat) (g : Staging) : Kept s (State.dropPlace s part g) := by
  unfold State.dropPlace
  try dsimp only
  repeat' (first
    | with_reducible exact Kept.refl _
    | with_reducible refine (State.dropFrames_kept _ _ _).after ?_
    | with_reducible refine (State.dropRun_kept _ _).after ?_
    | split)

theorem State.failStaging_kept (s : State) (id reason src : Nat) : Kept s (State.failStaging s id reason src) := by
  unfold State.failStaging
  try dsimp only
  repeat' (first
    | with_reducible exact Kept.refl _
    | with_reducible refine (State.losePage_kept _ _ _ _).after ?_
    | with_reducible refine (State.endStaging_kept _ _ _).after ?_
    | with_reducible refine (State.dropPlace_kept _ _ _).after ?_
    | split)

end Sys2Proof.Machine
end

