-- ==== Sys2Proof/Laws/Kept/Lease.lean ====
section
/-!
SUPPORT. What each operation of Machine/Lease.lean keeps (Laws/Kept.lean says what that is).
-/
namespace Sys2Proof.Machine

theorem State.tryPlace_kept (s : State) (h : Nat) : Kept s (State.tryPlace s h) := by
  unfold State.tryPlace
  try dsimp only
  repeat' (first
    | with_reducible exact Kept.refl _
    | with_reducible refine (State.onNode_kept _ _ _).after ?_
    | with_reducible refine (State.ask_kept _ _ _ _ _ _ _ _ _ _).after ?_
    | with_reducible refine (State.rdmaWrite_kept _ _ _ _ _ _ _ _).after ?_
    | with_reducible refine (State.onSeq_kept _ _ _).after ?_
    | split)

theorem State.retryPlaces_kept (s : State) (p : Nat) : Kept s (State.retryPlaces s p) := by
  unfold State.retryPlaces
  try dsimp only
  repeat' (first
    | with_reducible exact Kept.refl _
    | with_reducible refine (State.tryPlace_kept _ _).after ?_
    | with_reducible refine (each_kept ?_).after ?_
    | intro _)

theorem State.endOffer_kept (s : State) (h tag : Nat) : Kept s (State.endOffer s h tag) := by
  unfold State.endOffer
  try dsimp only
  repeat' (first
    | with_reducible exact Kept.refl _
    | with_reducible refine (onBroker_kept ).after ?_
    | with_reducible refine (State.onNode_kept _ _ _).after ?_
    | with_reducible refine (State.onSeq_kept _ _ _).after ?_
    | split)

theorem State.answerAdmit_kept (s : State) (h node : Nat) (st : Status) : Kept s (State.answerAdmit s h node st) := by
  unfold State.answerAdmit
  try dsimp only
  repeat' (first
    | with_reducible exact Kept.refl _
    | with_reducible refine (State.bump_kept _ _ _ _ _).after ?_
    | with_reducible refine (State.meter_kept _ _ _ _ _).after ?_
    | with_reducible refine (State.complete_kept _ _ _ _ _).after ?_
    | with_reducible refine (State.onSeq_kept _ _ _).after ?_
    | split)

theorem State.answerHandoff_kept (s : State) (h : Nat) (node : Option Nat) (st : Status) : Kept s (State.answerHandoff s h node st) := by
  unfold State.answerHandoff
  try dsimp only
  repeat' (first
    | with_reducible exact Kept.refl _
    | with_reducible refine (State.complete_kept _ _ _ _ _).after ?_
    | with_reducible refine (State.onSeq_kept _ _ _).after ?_
    | split)

theorem State.turnReport_kept (s : State) (h : Nat) (st : Status) : Kept s (State.turnReport s h st) := by
  unfold State.turnReport
  try dsimp only
  repeat' (first
    | with_reducible exact Kept.refl _
    | with_reducible refine (State.meter_kept _ _ _ _ _).after ?_
    | with_reducible refine (State.ask_kept _ _ _ _ _ _ _ _ _ _).after ?_
    | split)

theorem State.endTurn_kept (s : State) (h : Nat) (st : Status) : Kept s (State.endTurn s h st) := by
  unfold State.endTurn
  try dsimp only
  repeat' (first
    | with_reducible exact Kept.refl _
    | with_reducible refine (State.onSeq_kept _ _ _).after ?_
    | with_reducible refine (State.turnReport_kept _ _ _).after ?_)

theorem State.acceptPlace_kept (s : State) (h node tag : Nat) (ph : TurnPhase) : Kept s (State.acceptPlace s h node tag ph) := by
  unfold State.acceptPlace
  try dsimp only
  repeat' (first
    | with_reducible exact Kept.refl _
    | with_reducible refine (State.meter_kept _ _ _ _ _).after ?_
    | with_reducible refine (State.onNode_kept _ _ _).after ?_
    | with_reducible refine (State.onSeq_kept _ _ _).after ?_
    | with_reducible refine (State.endOffer_kept _ _ _).after ?_
    | with_reducible refine (State.answerAdmit_kept _ _ _ _).after ?_
    | with_reducible refine (State.answerHandoff_kept _ _ _ _).after ?_
    | split)

theorem State.refusePlace_kept (s : State) (h node tag : Nat) (ph : TurnPhase) : Kept s (State.refusePlace s h node tag ph) := by
  unfold State.refusePlace
  try dsimp only
  repeat' (first
    | with_reducible exact Kept.refl _
    | with_reducible refine (State.meter_kept _ _ _ _ _).after ?_
    | with_reducible refine (State.onNode_kept _ _ _).after ?_
    | with_reducible refine (State.onSeq_kept _ _ _).after ?_
    | with_reducible refine (State.tryPlace_kept _ _).after ?_
    | with_reducible refine (State.endOffer_kept _ _ _).after ?_
    | split)

theorem State.choose_kept (s : State) (h : Nat) (ph : TurnPhase) : Kept s (State.choose s h ph) := by
  unfold State.choose
  try dsimp only
  repeat' (first
    | with_reducible exact Kept.refl _
    | with_reducible refine (State.onSeq_kept _ _ _).after ?_
    | with_reducible refine (State.tryPlace_kept _ _).after ?_)

theorem State.releaseSeq_kept (s : State) (h : Nat) : Kept s (State.releaseSeq s h) := by
  unfold State.releaseSeq
  try dsimp only
  repeat' (first
    | with_reducible exact Kept.refl _
    | with_reducible refine (State.onSeq_kept _ _ _).after ?_
    | with_reducible refine (State.freePage_kept _ _).after ?_
    | with_reducible refine (State.dropSeq_kept _ _).after ?_
    | with_reducible refine (State.dropPrefix_kept _ _ _).after ?_
    | with_reducible refine (State.unlink_kept _ _ _).after ?_
    | with_reducible refine (State.sync_kept _ _ _ _ _).after ?_
    | with_reducible refine (each_kept ?_).after ?_
    | intro _
    | split)

theorem State.finishRelease_kept (s : State) (h : Nat) : Kept s (State.finishRelease s h) := by
  unfold State.finishRelease
  try dsimp only
  repeat' (first
    | with_reducible exact Kept.refl _
    | with_reducible refine (State.complete_kept _ _ _ _ _).after ?_
    | with_reducible refine (State.onSeq_kept _ _ _).after ?_
    | with_reducible refine (State.releaseSeq_kept _ _).after ?_
    | split)

theorem State.loseHolder_kept (s : State) (h node : Nat) : Kept s (State.loseHolder s h node) := by
  unfold State.loseHolder
  try dsimp only
  repeat' (first
    | with_reducible exact Kept.refl _
    | with_reducible refine (State.onSeq_kept _ _ _).after ?_
    | with_reducible refine (State.cut_kept _ _).after ?_
    | with_reducible refine (State.failAccepted_kept _ _ _).after ?_
    | with_reducible refine (State.dropQueued_kept _ _ _).after ?_
    | with_reducible refine (State.cancelRows_kept _ _ _).after ?_
    | with_reducible refine (State.stopDelivery_kept _ _).after ?_
    | with_reducible refine (State.choose_kept _ _ _).after ?_
    | split)

end Sys2Proof.Machine
end

