-- ==== Sys2Proof/Laws/Kept/Admit.lean ====
section
/-!
SUPPORT. What each operation of Machine/Admit.lean keeps (Laws/Kept.lean says what that is).
-/
namespace Sys2Proof.Machine

theorem State.takeGen_kept (s : State) (p slot : Nat) : Kept s (State.takeGen s p slot).2 := by
  unfold State.takeGen
  try dsimp only
  repeat' (first
    | with_reducible exact Kept.refl _
    | with_reducible refine (onSlotGens_kept ).after ?_
    | with_reducible refine (State.free_kept _).after ?_
    | with_reducible refine Kept.ite_snd ?_ ?_)

theorem State.newSeq_kept (s : State) (p t slot : Nat) (b : AdmitBody) (tokens : List W32) (turn : Turn) : Kept s (State.newSeq s p t slot b tokens turn).2 := by
  unfold State.newSeq
  try dsimp only
  repeat' (first
    | with_reducible exact Kept.refl _
    | with_reducible refine (onSeqs_kept ).after ?_
    | with_reducible refine (State.openMeter_kept _ _ _).after ?_
    | with_reducible refine (State.fitFixed_kept _ _).after ?_
    | with_reducible refine (State.sync_kept _ _ _ _ _).after ?_
    | with_reducible refine (State.takeGen_kept _ _ _).after ?_)

theorem State.commitLink_kept (s : State) (h holder len : Nat) : Kept s (State.commitLink s h holder len) := by
  unfold State.commitLink
  try dsimp only
  repeat' (first
    | with_reducible exact Kept.refl _
    | with_reducible refine (State.onSeq_kept _ _ _).after ?_
    | split)

theorem State.resumeStaging_kept (s : State) (h : Nat) : Kept s (State.resumeStaging s h) := by
  unfold State.resumeStaging
  try dsimp only
  repeat' (first
    | with_reducible exact Kept.refl _
    | with_reducible refine (State.onSeq_kept _ _ _).after ?_
    | with_reducible refine (State.stagePage_kept _ _ _ _).after ?_
    | with_reducible refine (each_kept ?_).after ?_
    | intro _
    | split)

theorem State.storePage_kept (s : State) (k : PageKey) (fmt valid : Nat) (fs : List Nat) (bs : List Byte) : Kept s (State.storePage s k fmt valid fs bs) := by
  unfold State.storePage
  try dsimp only
  repeat' (first
    | with_reducible exact Kept.refl _
    | with_reducible refine (State.onSeq_kept _ _ _).after ?_
    | with_reducible refine (State.takeFrames_kept _ _).after ?_
    | with_reducible refine (State.putBytes_kept _ _ _).after ?_)

theorem State.installMirror_kept (s : State) (h : Nat) (m : Mirror) (i : Nat) : Kept s (State.installMirror s h m i).2 := by
  unfold State.installMirror
  try dsimp only
  repeat' (first
    | with_reducible exact Kept.refl _
    | with_reducible refine (State.storePage_kept _ _ _ _ _ _).after ?_
    | with_reducible refine (foldl_kept_snd ?_).after ?_
    | intro _
    | split)

theorem State.useMirror_kept (s : State) (h : Nat) : Kept s (State.useMirror s h) := by
  unfold State.useMirror
  try dsimp only
  repeat' (first
    | with_reducible exact Kept.refl _
    | with_reducible refine (onBroker_kept ).after ?_
    | with_reducible refine (State.onSeq_kept _ _ _).after ?_
    | with_reducible refine (State.fitFixed_kept _ _).after ?_
    | with_reducible refine (State.issueInsertions_kept _ _ _ _).after ?_
    | with_reducible refine (State.installMirror_kept _ _ _ _).after ?_
    | with_reducible refine (foldl_kept_thd ?_).after ?_
    | intro _
    | split)

theorem State.admitOn_kept (s : State) (h : Nat) : Kept s (State.admitOn s h) := by
  unfold State.admitOn
  try dsimp only
  repeat' (first
    | with_reducible exact Kept.refl _
    | with_reducible refine (State.tryPlace_kept _ _).after ?_
    | with_reducible refine (State.useMirror_kept _ _).after ?_)

theorem State.newLookup_kept (s : State) (for_ : LookupFor) (p t variant mask kvHeads : Nat) (ts : List W32) (priv pub : Bool) : Kept s (State.newLookup s for_ p t variant mask kvHeads ts priv pub).2 := by
  unfold State.newLookup
  try dsimp only
  repeat' (first
    | with_reducible exact Kept.refl _
    | with_reducible refine (State.fresh_kept _).after ?_
    | with_reducible refine (State.useKey_kept _ _ _).after ?_
    | with_reducible refine Kept.ite ?_ ?_)

theorem State.probeHome_kept (s : State) (h len : Nat) (pub : Bool) : Kept s (State.probeHome s h len pub).2 := by
  unfold State.probeHome
  try dsimp only
  repeat' (first
    | with_reducible exact Kept.refl _
    | with_reducible refine (State.ask_kept _ _ _ _ _ _ _ _ _ _).after ?_
    | with_reducible refine (State.onSeq_kept _ _ _).after ?_
    | split)

theorem State.dropLookup_kept (s : State) (id : Nat) : Kept s (State.dropLookup s id) := by
  unfold State.dropLookup
  try dsimp only
  repeat' (first
    | with_reducible exact Kept.refl _
    | with_reducible refine (onMortise_kept ).after ?_)

theorem State.keepLookup_kept (s : State) (lk : Lookup) : Kept s (State.keepLookup s lk) := by
  unfold State.keepLookup
  try dsimp only
  repeat' (first
    | with_reducible exact Kept.refl _
    | with_reducible refine (onMortise_kept ).after ?_)

theorem State.admitMatched_kept (s : State) (lk : Lookup) (h : Nat) (m : Match) : Kept s (State.admitMatched s lk h m) := by
  unfold State.admitMatched
  try dsimp only
  repeat' (first
    | with_reducible exact Kept.refl _
    | with_reducible refine (State.bump_kept _ _ _ _ _).after ?_
    | with_reducible refine (State.meter_kept _ _ _ _ _).after ?_
    | with_reducible refine (State.useHits_kept _ _).after ?_
    | with_reducible refine (State.commitLink_kept _ _ _ _).after ?_
    | with_reducible refine (State.resumeStaging_kept _ _).after ?_
    | with_reducible refine (State.admitOn_kept _ _).after ?_
    | with_reducible refine (State.probeHome_kept _ _ _ _).after ?_
    | with_reducible refine Kept.ite ?_ ?_)

theorem State.lookupEnds_kept (s : State) (lk : Lookup) : Kept s (State.lookupEnds s lk) := by
  unfold State.lookupEnds
  try dsimp only
  repeat' (first
    | with_reducible exact Kept.refl _
    | with_reducible refine (State.complete_kept _ _ _ _ _).after ?_
    | with_reducible refine (State.dropLookup_kept _ _).after ?_
    | with_reducible refine (State.keepLookup_kept _ _).after ?_
    | with_reducible refine (State.admitMatched_kept _ _ _ _).after ?_
    | with_reducible refine (Kept.snd (State.endLookup_kept _ _) (by assumption)).after ?_
    | split)

theorem State.advanceLookup_kept (s : State) (lk : Lookup) : Kept s (State.advanceLookup s lk).2 := by
  unfold State.advanceLookup
  try dsimp only
  repeat' (first
    | with_reducible exact Kept.refl _
    | with_reducible refine (State.runLookup_kept _ _ _).after ?_
    | with_reducible refine (State.issueSecond_kept _ _).after ?_
    | split)

theorem State.turnLookup_kept (s : State) (lk : Lookup) : Kept s (State.turnLookup s lk) := by
  unfold State.turnLookup
  try dsimp only
  repeat' (first
    | with_reducible exact Kept.refl _
    | with_reducible refine (State.charged_kept _ _ _ ?_).after ?_
    | with_reducible refine (State.keepLookup_kept _ _).after ?_
    | with_reducible refine (State.lookupEnds_kept _ _).after ?_
    | with_reducible refine (State.advanceLookup_kept _ _).after ?_
    | intro _
    | with_reducible refine Kept.ite ?_ ?_)

theorem State.pumpLookups_kept (s : State) : Kept s (State.pumpLookups s) := by
  unfold State.pumpLookups
  try dsimp only
  repeat' (first
    | with_reducible exact Kept.refl _
    | with_reducible refine (State.turnLookup_kept _ _).after ?_
    | with_reducible refine (each_kept ?_).after ?_
    | intro _
    | split)

theorem State.startLookup_kept (s : State) (lk : Lookup) : Kept s (State.startLookup s lk) := by
  unfold State.startLookup
  try dsimp only
  repeat' (first
    | with_reducible exact Kept.refl _
    | with_reducible refine (onMortise_kept ).after ?_
    | with_reducible refine (State.turnLookup_kept _ _).after ?_)

theorem State.admitLookup_kept (s : State) (h : Nat) (want : Bool) : Kept s (State.admitLookup s h want) := by
  unfold State.admitLookup
  try dsimp only
  repeat' (first
    | with_reducible exact Kept.refl _
    | with_reducible refine (State.onSeq_kept _ _ _).after ?_
    | with_reducible refine (State.resumeStaging_kept _ _).after ?_
    | with_reducible refine (State.admitOn_kept _ _).after ?_
    | with_reducible refine (State.newLookup_kept _ _ _ _ _ _ _ _ _ _).after ?_
    | with_reducible refine (State.startLookup_kept _ _).after ?_
    | split)

theorem State.refuseAdmit_kept (s : State) (h : Nat) (st : Status) : Kept s (State.refuseAdmit s h st) := by
  unfold State.refuseAdmit
  try dsimp only
  repeat' (first
    | with_reducible exact Kept.refl _
    | with_reducible refine (State.complete_kept _ _ _ _ _).after ?_
    | with_reducible refine (State.onSeq_kept _ _ _).after ?_
    | with_reducible refine (State.fitFixed_kept _ _).after ?_
    | with_reducible refine (State.sync_kept _ _ _ _ _).after ?_
    | with_reducible refine (State.answerAdmit_kept _ _ _ _).after ?_
    | with_reducible refine (State.releaseSeq_kept _ _).after ?_
    | split)

end Sys2Proof.Machine
end

