-- ==== Sys2Proof/Laws/Kept/Gone.lean ====
section
/-!
SUPPORT. What each operation of Machine/Gone.lean keeps (Laws/Kept.lean says what that is).
-/
namespace Sys2Proof.Machine

theorem State.endDelivery_kept (s : State) (d : Delivery) (st : Status) (lost : Nat) : Kept s (State.endDelivery s d st lost) := by
  unfold State.endDelivery
  try dsimp only
  repeat' (first
    | with_reducible exact Kept.refl _
    | with_reducible refine (onWork_kept ).after ?_
    | with_reducible refine (State.complete_kept _ _ _ _ _).after ?_)

theorem State.rerouteEgress_kept (s : State) (n : Nat) (st : Status) : Kept s (State.rerouteEgress s n st) := by
  unfold State.rerouteEgress
  try dsimp only
  repeat' (first
    | with_reducible exact Kept.refl _
    | with_reducible refine (onNet_kept ).after ?_
    | with_reducible refine (State.sendMsg_kept _ _ _ _).after ?_
    | with_reducible refine (foldl_kept_snd ?_).after ?_
    | intro _
    | split)

theorem State.leaveRing_kept (s : State) (n r : Nat) : Kept s (State.leaveRing s n r) := by
  unfold State.leaveRing
  try dsimp only
  repeat' (first
    | with_reducible exact Kept.refl _
    | with_reducible refine (onNet_kept ).after ?_
    | with_reducible refine (State.onRing_kept _ _ _).after ?_
    | with_reducible refine (State.sendMsg_kept _ _ _ _).after ?_
    | with_reducible refine (each_kept ?_).after ?_
    | intro _
    | split)

theorem State.errQp_kept (s : State) (n : Nat) (access : Bool) : Kept s (State.errQp s n access) := by
  unfold State.errQp
  try dsimp only
  repeat' (first
    | with_reducible exact Kept.refl _
    | with_reducible refine (onNet_kept ).after ?_
    | with_reducible refine (onWork_kept ).after ?_
    | with_reducible refine (State.onQp_kept _ _ _).after ?_
    | with_reducible refine (State.answer_kept _ _ _).after ?_
    | with_reducible refine (State.dropAppend_kept _ _).after ?_
    | with_reducible refine (State.appendAnswer_kept _ _ _ _).after ?_
    | with_reducible refine (State.endDelivery_kept _ _ _ _).after ?_
    | with_reducible refine (State.rerouteEgress_kept _ _ _).after ?_
    | with_reducible refine (State.leaveRing_kept _ _ _).after ?_
    | with_reducible refine (each_kept ?_).after ?_
    | intro _
    | split)

theorem State.readmitHere_kept (s : State) (m : Mirror) : Kept s (State.readmitHere s m).2 := by
  unfold State.readmitHere
  try dsimp only
  repeat' (first
    | with_reducible exact Kept.refl _
    | with_reducible refine (State.bump_kept _ _ _ _ _).after ?_
    | with_reducible refine (State.meter_kept _ _ _ _ _).after ?_
    | with_reducible refine (State.newSeq_kept _ _ _ _ _ _ _).after ?_
    | with_reducible refine (State.admitLookup_kept _ _ _).after ?_
    | split)

theorem State.sendReadmit_kept (s : State) (m : Mirror) (peer : Nat) : Kept s (State.sendReadmit s m peer) := by
  unfold State.sendReadmit
  try dsimp only
  repeat' (first
    | with_reducible exact Kept.refl _
    | with_reducible refine (State.ask_kept _ _ _ _ _ _ _ _ _ _).after ?_)

theorem State.readmit_kept (s : State) (m : Mirror) : Kept s (State.readmit s m) := by
  unfold State.readmit
  try dsimp only
  repeat' (first
    | with_reducible exact Kept.refl _
    | with_reducible refine (State.readmitHere_kept _ _).after ?_
    | with_reducible refine (State.sendReadmit_kept _ _ _).after ?_
    | split)

theorem State.dropPeerPages_kept (s : State) (n : Nat) : Kept s (State.dropPeerPages s n) := by
  unfold State.dropPeerPages
  try dsimp only
  repeat' (first
    | with_reducible exact Kept.refl _
    | with_reducible refine (State.lose_kept _ _ _).after ?_
    | with_reducible refine (each_kept ?_).after ?_
    | intro _)

theorem State.endPeerWork_kept (s : State) (n : Nat) : Kept s (State.endPeerWork s n) := by
  unfold State.endPeerWork
  try dsimp only
  repeat' (first
    | with_reducible exact Kept.refl _
    | with_reducible refine (onBroker_kept ).after ?_
    | with_reducible refine (State.failStaging_kept _ _ _ _).after ?_
    | with_reducible refine (State.admitOn_kept _ _).after ?_
    | with_reducible refine (each_kept ?_).after ?_
    | intro _)

theorem State.peerGone_kept (s : State) (nd : Node) : Kept s (State.peerGone s nd) := by
  unfold State.peerGone
  try dsimp only
  repeat' (first
    | with_reducible exact Kept.refl _
    | with_reducible refine (onBroker_kept ).after ?_
    | with_reducible refine (State.readmit_kept _ _).after ?_
    | with_reducible refine (State.dropPeerPages_kept _ _).after ?_
    | with_reducible refine (State.endPeerWork_kept _ _).after ?_
    | with_reducible refine (each_kept ?_).after ?_
    | intro _)

theorem State.declineAdvice_kept (s : State) (p node : Nat) : Kept s (State.declineAdvice s p node) := by
  unfold State.declineAdvice
  try dsimp only
  repeat' (first
    | with_reducible exact Kept.refl _
    | with_reducible refine (onBroker_kept ).after ?_)

theorem State.returnLeases_kept (s : State) (nd : Node) : Kept s (State.returnLeases s nd) := by
  unfold State.returnLeases
  try dsimp only
  repeat' (first
    | with_reducible exact Kept.refl _
    | with_reducible refine (onBroker_kept ).after ?_
    | with_reducible refine (State.refusePlace_kept _ _ _ _ _).after ?_
    | with_reducible refine (State.loseHolder_kept _ _ _).after ?_
    | with_reducible refine (State.declineAdvice_kept _ _ _).after ?_
    | with_reducible refine (each_kept ?_).after ?_
    | intro _)

theorem State.forgetNode_kept (s : State) (n : Nat) : Kept s (State.forgetNode s n) := by
  unfold State.forgetNode
  try dsimp only
  repeat' (first
    | with_reducible exact Kept.refl _
    | with_reducible refine (onBroker_kept ).after ?_
    | with_reducible refine (onNet_kept ).after ?_
    | with_reducible refine (State.note_kept _ _ _ _ _).after ?_)

theorem State.removeNode_kept (s : State) (n : Nat) : Kept s (State.removeNode s n) := by
  unfold State.removeNode
  try dsimp only
  repeat' (first
    | with_reducible exact Kept.refl _
    | with_reducible refine (State.errQp_kept _ _ _).after ?_
    | with_reducible refine (State.returnLeases_kept _ _).after ?_
    | with_reducible refine (State.forgetNode_kept _ _).after ?_
    | with_reducible refine (each_kept ?_).after ?_
    | intro _
    | split)

theorem State.nodeGone_kept (s : State) (n : Nat) : Kept s (State.nodeGone s n) := by
  unfold State.nodeGone
  try dsimp only
  repeat' (first
    | with_reducible exact Kept.refl _
    | with_reducible refine (State.bump_kept _ _ _ _ _).after ?_
    | with_reducible refine (State.note_kept _ _ _ _ _).after ?_
    | with_reducible refine (State.peerGone_kept _ _).after ?_
    | with_reducible refine (State.removeNode_kept _ _).after ?_
    | split)

theorem State.qpError_kept (s : State) (n : Nat) (access : Bool) : Kept s (State.qpError s n access) := by
  unfold State.qpError
  try dsimp only
  repeat' (first
    | with_reducible exact Kept.refl _
    | with_reducible refine (State.errQp_kept _ _ _).after ?_
    | with_reducible refine (State.nodeGone_kept _ _).after ?_
    | split)

theorem State.freedByPartner_kept (s : State) (p : Nat) : Kept s (State.freedByPartner s p) := by
  unfold State.freedByPartner
  try dsimp only
  repeat' (first
    | with_reducible exact Kept.refl _
    | with_reducible refine (State.bump_kept _ _ _ _ _).after ?_
    | with_reducible refine (State.failAccepted_kept _ _ _).after ?_
    | with_reducible refine (State.dropQueued_kept _ _ _).after ?_
    | with_reducible refine (State.releaseSeq_kept _ _).after ?_
    | with_reducible refine (each_kept ?_).after ?_
    | intro _)

end Sys2Proof.Machine
end

