-- ==== Sys2Proof/Laws/Kept/Check.lean ====
section
/-!
SUPPORT. What each operation of Machine/Check.lean keeps (Laws/Kept.lean says what that is).
-/
namespace Sys2Proof.Machine

theorem State.policer_kept (s : State) (die p t : Nat) : Kept s (State.policer s die p t).2.2 := by
  unfold State.policer
  try dsimp only
  repeat' (first
    | with_reducible exact Kept.refl _
    | with_reducible refine (onNet_kept ).after ?_
    | with_reducible refine (State.bump_kept _ _ _ _ _).after ?_
    | split)

theorem State.police_kept (s : State) (die p t bytes : Nat) (always : Bool) : Kept s (State.police s die p t bytes always).2.2 := by
  unfold State.police
  try dsimp only
  repeat' (first
    | with_reducible exact Kept.refl _
    | with_reducible refine (onNet_kept ).after ?_
    | with_reducible refine (State.policer_kept _ _ _ _).after ?_
    | with_reducible refine Kept.ite ?_ ?_)

theorem State.noteRefusal_kept (s : State) (q : Qp) (h : Hdr) (st : Status) : Kept s (State.noteRefusal s q h st) := by
  unfold State.noteRefusal
  try dsimp only
  repeat' (first
    | with_reducible exact Kept.refl _
    | with_reducible refine (State.bump_kept _ _ _ _ _).after ?_
    | with_reducible refine (State.report_kept _ _ _ _ _ _ _).after ?_
    | split)

theorem State.heard_kept (s : State) (q : Qp) : Kept s (State.heard s q) := by
  unfold State.heard
  try dsimp only
  repeat' (first
    | with_reducible exact Kept.refl _
    | with_reducible refine (State.onQp_kept _ _ _).after ?_
    | with_reducible refine (State.onNode_kept _ _ _).after ?_
    | split)

theorem State.takeIn_kept (s : State) (q : Qp) (length : Nat) : Kept s (State.takeIn s q length) := by
  unfold State.takeIn
  try dsimp only
  repeat' (first
    | with_reducible exact Kept.refl _
    | with_reducible refine (onNet_kept ).after ?_
    | with_reducible refine (State.onRing_kept _ _ _).after ?_
    | split)

theorem State.arrived_kept (s : State) (q : Qp) (m : Rx) : Kept s (State.arrived s q m) := by
  unfold State.arrived
  try dsimp only
  repeat' (first
    | with_reducible exact Kept.refl _
    | with_reducible refine (State.bump_kept _ _ _ _ _).after ?_
    | with_reducible refine (State.heard_kept _ _).after ?_
    | with_reducible refine (State.takeIn_kept _ _ _).after ?_)

theorem State.policed_kept (s : State) (q : Qp) (m : Rx) (op refBytes : Nat) : Kept s (State.policed s q m op refBytes).2.2 := by
  unfold State.policed
  try dsimp only
  repeat' (first
    | with_reducible exact Kept.refl _
    | with_reducible refine (State.police_kept _ _ _ _ _ _).after ?_)

theorem State.vet_kept (s : State) (q : Qp) (m : Rx) (op : Nat) (ep : EpochUse) (refBytes : Nat) (quiet : Bool) (run : State → State) (h_run : ∀ a0, Kept a0 (run a0)) : Kept s (State.vet s q m op ep refBytes quiet run) := by
  unfold State.vet
  try dsimp only
  repeat' (first
    | with_reducible exact Kept.refl _
    | with_reducible refine (h_run _).after ?_
    | with_reducible refine (State.bump_kept _ _ _ _ _).after ?_
    | with_reducible refine (State.meterBytes_kept _ _ _ _).after ?_
    | with_reducible refine (State.answer_kept _ _ _).after ?_
    | with_reducible refine (State.noteRefusal_kept _ _ _ _).after ?_
    | with_reducible refine (State.policed_kept _ _ _ _ _).after ?_
    | split)

theorem State.vet_held (s : State) (q : Qp) (m : Rx) (op : Nat) (ep : EpochUse) (refBytes : Nat) (quiet : Bool) (run : State → State) (h_run : ∀ a0, Held a0 (run a0)) : Held s (State.vet s q m op ep refBytes quiet run) := by
  unfold State.vet
  try dsimp only
  repeat' (first
    | with_reducible exact Held.refl _
    | with_reducible refine (h_run _).after ?_
    | with_reducible refine (State.bump_kept _ _ _ _ _).held.after ?_
    | with_reducible refine (State.meterBytes_kept _ _ _ _).held.after ?_
    | with_reducible refine (State.answer_kept _ _ _).held.after ?_
    | with_reducible refine (State.noteRefusal_kept _ _ _ _).held.after ?_
    | with_reducible refine (State.policed_kept _ _ _ _ _).held.after ?_
    | split)

theorem State.receive_kept (s : State) (m : Rx) (op : Nat) (ep : EpochUse) (refBytes : Nat) (quiet : Bool) (run : State → State) (h_run : ∀ a0, Kept a0 (run a0)) : Kept s (State.receive s m op ep refBytes quiet run) := by
  unfold State.receive
  try dsimp only
  repeat' (first
    | with_reducible exact Kept.refl _
    | with_reducible assumption
    | with_reducible refine (State.arrived_kept _ _ _).after ?_
    | with_reducible refine (State.vet_kept _ _ _ _ _ _ _ _ ?_).after ?_
    | split)

theorem State.receive_held (s : State) (m : Rx) (op : Nat) (ep : EpochUse) (refBytes : Nat) (quiet : Bool) (run : State → State) (h_run : ∀ a0, Held a0 (run a0)) : Held s (State.receive s m op ep refBytes quiet run) := by
  unfold State.receive
  try dsimp only
  repeat' (first
    | with_reducible exact Held.refl _
    | with_reducible assumption
    | with_reducible refine (State.arrived_kept _ _ _).held.after ?_
    | with_reducible refine (State.vet_held _ _ _ _ _ _ _ _ ?_).after ?_
    | split)

theorem State.enter_kept (s : State) (m : Rx) (handle : Nat) (i : Instr) (run : State → State) (h_run : ∀ a0, Kept a0 (run a0)) : Kept s (State.enter s m handle i run) := by
  unfold State.enter
  try dsimp only
  repeat' (first
    | with_reducible exact Kept.refl _
    | with_reducible refine (h_run _).after ?_
    | with_reducible refine (State.onSeq_kept _ _ _).after ?_
    | split)

theorem State.enter_held (s : State) (m : Rx) (handle : Nat) (i : Instr) (run : State → State) (h_run : ∀ a0, Held a0 (run a0)) : Held s (State.enter s m handle i run) := by
  unfold State.enter
  try dsimp only
  repeat' (first
    | with_reducible exact Held.refl _
    | with_reducible refine (h_run _).after ?_
    | with_reducible refine (State.onSeq_kept _ _ _).held.after ?_
    | split)

end Sys2Proof.Machine
end

