-- ==== Sys2Proof/Laws/Kept/Appends.lean ====
section
/-!
SUPPORT. What each operation of Machine/Appends.lean keeps (Laws/Kept.lean says what that is).
-/
namespace Sys2Proof.Machine

theorem State.onAppend_kept (s : State) (id : Nat) (f : Append → Append) : Kept s (State.onAppend s id f) := by
  unfold State.onAppend
  try dsimp only
  repeat' (first
    | with_reducible exact Kept.refl _
    | with_reducible refine (onWork_kept ).after ?_)

theorem State.pinHome_kept (s : State) (h : Nat) : Kept s (State.pinHome s h) := by
  unfold State.pinHome
  try dsimp only
  repeat' (first
    | with_reducible exact Kept.refl _
    | with_reducible refine (State.onSeq_kept _ _ _).after ?_
    | split)

theorem State.takeWith_kept (find : State → Nat → Nat → Option (List Nat)) (s : State) (a : Append) (n left : Nat) : Kept s (State.takeWith find s a n left).2 := by
  unfold State.takeWith
  try dsimp only
  repeat' (first
    | with_reducible exact Kept.refl _
    | with_reducible assumption
    | with_reducible refine (onHbm_kept ?_).after ?_
    | with_reducible refine (State.takeFrames_kept _ _).after ?_
    | with_reducible refine (foldl_kept_snd ?_).after ?_
    | with_reducible refine (foldl_kept_thd ?_).after ?_
    | intro _
    | split)

theorem State.takeOpen_kept (s : State) (a : Append) (n : Nat) : Kept s (State.takeOpen s a n).2 := by
  unfold State.takeOpen
  try dsimp only
  repeat' (first
    | with_reducible exact Kept.refl _
    | with_reducible refine (State.takeWith_kept _ _ _ _ _).after ?_)

theorem State.takeReserve_kept (s : State) (a : Append) (n left : Nat) : Kept s (State.takeReserve s a n left).2 := by
  unfold State.takeReserve
  try dsimp only
  repeat' (first
    | with_reducible exact Kept.refl _
    | with_reducible refine (State.meter_kept _ _ _ _ _).after ?_
    | with_reducible refine (State.takeWith_kept _ _ _ _ _).after ?_
    | with_reducible refine Kept.ite ?_ ?_)

theorem State.recycle_kept (s : State) (a : Append) (q : Seq) (n : Nat) : Kept s (State.recycle s a q n).2 := by
  unfold State.recycle
  try dsimp only
  repeat' (first
    | with_reducible exact Kept.refl _
    | with_reducible refine (State.bump_kept _ _ _ _ _).after ?_
    | with_reducible refine (State.lose_kept _ _ _).after ?_
    | with_reducible refine (State.onAppend_kept _ _ _).after ?_
    | with_reducible refine (foldl_kept_snd ?_).after ?_
    | intro _
    | with_reducible refine Kept.ite_snd ?_ ?_)

theorem State.toScatter_kept (s : State) (id : Nat) : Kept s (State.toScatter s id) := by
  unfold State.toScatter
  try dsimp only
  repeat' (first
    | with_reducible exact Kept.refl _
    | with_reducible refine (State.stagePage_kept _ _ _ _).after ?_
    | with_reducible refine (State.onAppend_kept _ _ _).after ?_
    | split)

theorem State.placeAppend_kept (s : State) (a : Append) : Kept s (State.placeAppend s a) := by
  unfold State.placeAppend
  try dsimp only
  repeat' (first
    | with_reducible exact Kept.refl _
    | with_reducible refine (State.bump_kept _ _ _ _ _).after ?_
    | with_reducible refine (State.peak_kept _ _ _ _ _).after ?_
    | with_reducible refine (State.onSeq_kept _ _ _).after ?_
    | with_reducible refine (State.wipeFrames_kept _ _).after ?_
    | with_reducible refine (State.setTabs_kept _ _ _ _).after ?_
    | with_reducible refine (State.storePage_kept _ _ _ _ _ _).after ?_
    | with_reducible refine (State.onAppend_kept _ _ _).after ?_
    | with_reducible refine (State.toScatter_kept _ _).after ?_
    | with_reducible refine (foldl_kept ?_).after ?_
    | intro _
    | split)

theorem State.placeOrWait_kept (s : State) (a : Append) : Kept s (State.placeOrWait s a) := by
  unfold State.placeOrWait
  try dsimp only
  repeat' (first
    | with_reducible exact Kept.refl _
    | with_reducible refine (State.onAppend_kept _ _ _).after ?_
    | with_reducible refine (State.placeAppend_kept _ _).after ?_
    | with_reducible refine Kept.ite ?_ ?_)

theorem State.allocAppend_kept (s : State) (id : Nat) : Kept s (State.allocAppend s id) := by
  unfold State.allocAppend
  try dsimp only
  repeat' (first
    | with_reducible exact Kept.refl _
    | with_reducible refine (State.bump_kept _ _ _ _ _).after ?_
    | with_reducible refine (State.reclaimFor_kept _ _ _ _).after ?_
    | with_reducible refine (State.startDemotions_kept _ _ _ _).after ?_
    | with_reducible refine (State.onAppend_kept _ _ _).after ?_
    | with_reducible refine (State.takeOpen_kept _ _ _).after ?_
    | with_reducible refine (State.placeOrWait_kept _ _).after ?_
    | split)

theorem State.exhausted_kept (s : State) (a : Append) : Kept s (State.exhausted s a) := by
  unfold State.exhausted
  try dsimp only
  repeat' (first
    | with_reducible exact Kept.refl _
    | with_reducible refine (State.bump_kept _ _ _ _ _).after ?_
    | with_reducible refine (State.onSeq_kept _ _ _).after ?_
    | with_reducible refine (State.cut_kept _ _).after ?_
    | with_reducible refine (State.failFrom_kept _ _ _ _).after ?_
    | split)

theorem State.noFrame_kept (s : State) (a : Append) : Kept s (State.noFrame s a) := by
  unfold State.noFrame
  try dsimp only
  repeat' (first
    | with_reducible exact Kept.refl _
    | with_reducible refine (State.failFrom_kept _ _ _ _).after ?_
    | with_reducible refine (State.exhausted_kept _ _).after ?_
    | with_reducible refine Kept.ite ?_ ?_)

theorem State.forceAlloc_kept (s : State) (id : Nat) : Kept s (State.forceAlloc s id) := by
  unfold State.forceAlloc
  try dsimp only
  repeat' (first
    | with_reducible exact Kept.refl _
    | with_reducible refine (State.reclaimFor_kept _ _ _ _).after ?_
    | with_reducible refine (State.onAppend_kept _ _ _).after ?_
    | with_reducible refine (State.takeOpen_kept _ _ _).after ?_
    | with_reducible refine (State.takeReserve_kept _ _ _ _).after ?_
    | with_reducible refine (State.recycle_kept _ _ _ _).after ?_
    | with_reducible refine (State.placeOrWait_kept _ _).after ?_
    | with_reducible refine (State.noFrame_kept _ _).after ?_
    | split)

theorem State.tryAlloc_kept (s : State) (id : Nat) : Kept s (State.tryAlloc s id) := by
  unfold State.tryAlloc
  try dsimp only
  repeat' (first
    | with_reducible exact Kept.refl _
    | with_reducible refine (State.allocAppend_kept _ _).after ?_
    | with_reducible refine (State.forceAlloc_kept _ _).after ?_
    | split)

theorem State.beginAlloc_kept (s : State) (id : Nat) : Kept s (State.beginAlloc s id) := by
  unfold State.beginAlloc
  try dsimp only
  repeat' (first
    | with_reducible exact Kept.refl _
    | with_reducible refine (State.onAppend_kept _ _ _).after ?_
    | with_reducible refine (State.tryAlloc_kept _ _).after ?_
    | split)

theorem State.refuseAppend_kept (s : State) (a : Append) (st : Status) (pos : Nat) : Kept s (State.refuseAppend s a st pos) := by
  unfold State.refuseAppend
  try dsimp only
  repeat' (first
    | with_reducible exact Kept.refl _
    | with_reducible refine (onWork_kept ).after ?_
    | with_reducible refine (State.appendAnswer_kept _ _ _ _).after ?_)

theorem State.acceptAppend_kept (s : State) (a : Append) (q : Seq) : Kept s (State.acceptAppend s a q) := by
  unfold State.acceptAppend
  try dsimp only
  repeat' (first
    | with_reducible exact Kept.refl _
    | with_reducible refine (State.onSeq_kept _ _ _).after ?_
    | with_reducible refine (State.onAppend_kept _ _ _).after ?_
    | with_reducible refine (State.pinHome_kept _ _).after ?_
    | with_reducible refine (State.beginAlloc_kept _ _).after ?_)

theorem State.acceptOne_kept (s : State) (a : Append) : Kept s (State.acceptOne s a) := by
  unfold State.acceptOne
  try dsimp only
  repeat' (first
    | with_reducible exact Kept.refl _
    | with_reducible refine (State.refuseAppend_kept _ _ _ _).after ?_
    | with_reducible refine (State.acceptAppend_kept _ _ _).after ?_
    | split)

theorem State.acceptPending_kept (s : State) (h : Nat) (x0 : Nat) : Kept s (State.acceptPending s h x0) := by
  induction x0 generalizing s h with
  | zero => rw [State.acceptPending]; exact Kept.refl _
  | succ n ih =>
    rw [State.acceptPending]
    try dsimp only
    repeat' (first
    | with_reducible exact Kept.refl _
    | with_reducible refine (ih _ _).after ?_
    | with_reducible refine (State.acceptOne_kept _ _).after ?_
    | split)

theorem State.acceptAll_kept (s : State) (h : Nat) : Kept s (State.acceptAll s h) := by
  unfold State.acceptAll
  try dsimp only
  repeat' (first
    | with_reducible exact Kept.refl _
    | with_reducible refine (State.acceptPending_kept _ _ _).after ?_)

theorem State.queueAppend_kept (s : State) (m : Rx) (b : AppendBody) (refresh : Bool) (q : Seq) (i : Instr) : Kept s (State.queueAppend s m b refresh q i) := by
  unfold State.queueAppend
  try dsimp only
  repeat' (first
    | with_reducible exact Kept.refl _
    | with_reducible refine (onWork_kept ).after ?_
    | with_reducible refine (State.fresh_kept _).after ?_
    | with_reducible refine (State.meterBytes_kept _ _ _ _).after ?_
    | with_reducible refine (State.rdmaRead_kept _ _ _ _ _ _ _ _ _ _).after ?_
    | with_reducible refine (State.acceptAll_kept _ _).after ?_
    | split)

theorem State.rejectAppend_kept (s : State) (m : Rx) (st : Status) : Kept s (State.rejectAppend s m st) := by
  unfold State.rejectAppend
  try dsimp only
  repeat' (first
    | with_reducible exact Kept.refl _
    | with_reducible refine (State.complete_kept _ _ _ _ _).after ?_)

theorem State.runAppend_kept (s : State) (m : Rx) (b : AppendBody) (refresh : Bool) (i : Instr) : Kept s (State.runAppend s m b refresh i) := by
  unfold State.runAppend
  try dsimp only
  repeat' (first
    | with_reducible exact Kept.refl _
    | with_reducible refine (State.touch_kept _ _).after ?_
    | with_reducible refine (State.queueAppend_kept _ _ _ _ _ _).after ?_
    | with_reducible refine (State.rejectAppend_kept _ _ _).after ?_
    | split)

theorem State.appendRead_kept (s : State) (id : Nat) (bs : List Byte) : Kept s (State.appendRead s id bs) := by
  unfold State.appendRead
  try dsimp only
  repeat' (first
    | with_reducible exact Kept.refl _
    | with_reducible refine (State.onAppend_kept _ _ _).after ?_
    | with_reducible refine (State.acceptAll_kept _ _).after ?_
    | split)

theorem State.writePosition_kept (s : State) (q : Seq) (l k pos : Nat) (vals : List Byte) (fmt : Nat) : Kept s (State.writePosition s q l k pos vals fmt) := by
  unfold State.writePosition
  try dsimp only
  repeat' (first
    | with_reducible exact Kept.refl _
    | with_reducible refine (onHbm_kept ?_).after ?_
    | with_reducible exact memWrites_wf _ _ _
    | with_reducible refine (foldl_kept ?_).after ?_
    | intro _
    | split)

theorem State.scatter_kept (s : State) (q : Seq) (a : Append) : Kept s (State.scatter s q a) := by
  unfold State.scatter
  try dsimp only
  repeat' (first
    | with_reducible exact Kept.refl _
    | with_reducible refine (State.writePosition_kept _ _ _ _ _ _ _).after ?_
    | with_reducible refine (foldl_kept ?_).after ?_
    | intro _
    | with_reducible refine Kept.ite ?_ ?_)

theorem State.dirtyTargets_kept (s : State) (q : Seq) (a : Append) : Kept s (State.dirtyTargets s q a) := by
  unfold State.dirtyTargets
  try dsimp only
  repeat' (first
    | with_reducible exact Kept.refl _
    | with_reducible refine (State.onPage_kept _ _ _).after ?_
    | with_reducible refine (State.freeCopy_kept _ _).after ?_
    | with_reducible refine (each_kept ?_).after ?_
    | intro _)

theorem State.noteAppend_kept (s : State) (q : Seq) (a : Append) : Kept s (State.noteAppend s q a) := by
  unfold State.noteAppend
  try dsimp only
  repeat' (first
    | with_reducible exact Kept.refl _
    | with_reducible refine (State.meterBursts_kept _ _ _ _).after ?_
    | with_reducible refine (State.meterMoved_kept _ _ _ _ _).after ?_
    | with_reducible refine (State.walked_kept _ _ _ _).after ?_
    | with_reducible refine (each_kept ?_).after ?_
    | intro _)

theorem State.completeAppend_kept (s : State) (q : Seq) (a : Append) : Kept s (State.completeAppend s q a) := by
  unfold State.completeAppend
  try dsimp only
  repeat' (first
    | with_reducible exact Kept.refl _
    | with_reducible refine (onWork_kept ).after ?_
    | with_reducible refine (State.bump_kept _ _ _ _ _).after ?_
    | with_reducible refine (State.meter_kept _ _ _ _ _).after ?_
    | with_reducible refine (State.wipeFrames_kept _ _).after ?_
    | with_reducible refine (State.seal_kept _ _).after ?_
    | with_reducible refine (State.writeLedger_kept _ _ _ _).after ?_
    | with_reducible refine (State.fixValid_kept _ _ _ _).after ?_
    | with_reducible refine (State.appendAnswer_kept _ _ _ _).after ?_
    | with_reducible refine (State.storePage_kept _ _ _ _ _ _).after ?_
    | with_reducible refine (State.scatter_kept _ _ _).after ?_
    | with_reducible refine (State.dirtyTargets_kept _ _ _).after ?_
    | with_reducible refine (State.noteAppend_kept _ _ _).after ?_
    | with_reducible refine (each_kept ?_).after ?_
    | with_reducible refine (foldl_kept ?_).after ?_
    | intro _
    | with_reducible refine Kept.ite ?_ ?_)

theorem State.tryComplete_kept (s : State) (a : Append) (q : Seq) : Kept s (State.tryComplete s a q) := by
  unfold State.tryComplete
  try dsimp only
  repeat' (first
    | with_reducible exact Kept.refl _
    | with_reducible refine (State.bump_kept _ _ _ _ _).after ?_
    | with_reducible refine (State.charged_kept _ _ _ ?_).after ?_
    | with_reducible refine (State.failFrom_kept _ _ _ _).after ?_
    | with_reducible refine (State.toScatter_kept _ _).after ?_
    | with_reducible refine (State.completeAppend_kept _ _ _).after ?_
    | intro _
    | split)

theorem State.turnAppend_kept (s : State) (id : Nat) : Kept s (State.turnAppend s id) := by
  unfold State.turnAppend
  try dsimp only
  repeat' (first
    | with_reducible exact Kept.refl _
    | with_reducible refine (State.placeOrWait_kept _ _).after ?_
    | with_reducible refine (State.tryComplete_kept _ _ _).after ?_
    | split)

theorem State.pumpAppends_kept (s : State) (h : Nat) : Kept s (State.pumpAppends s h) := by
  unfold State.pumpAppends
  try dsimp only
  repeat' (first
    | with_reducible exact Kept.refl _
    | with_reducible refine (State.turnAppend_kept _ _).after ?_
    | with_reducible refine (each_kept ?_).after ?_
    | intro _)

end Sys2Proof.Machine
end

