-- ==== Sys2Proof/Laws/Kept/Stages.lean ====
section
/-!
SUPPORT. What each operation of Machine/Stages.lean keeps (Laws/Kept.lean says what that is).
-/
namespace Sys2Proof.Machine

theorem State.endStage_kept (s : State) (r : StageReq) (stale timeout : Bool) : Kept s (State.endStage s r stale timeout) := by
  unfold State.endStage
  try dsimp only
  repeat' (first
    | with_reducible exact Kept.refl _
    | with_reducible refine (onWork_kept ).after ?_
    | with_reducible refine (State.complete_kept _ _ _ _ _).after ?_
    | with_reducible refine Kept.ite ?_ ?_)

theorem State.setPinned_kept (s : State) (k : PageKey) (v : Bool) : Kept s (State.setPinned s k v) := by
  unfold State.setPinned
  try dsimp only
  repeat' (first
    | with_reducible exact Kept.refl _
    | with_reducible refine (State.onPage_kept _ _ _).after ?_)

theorem State.walkPages_kept (s : State) (c p cls : Nat) (ks : List PageKey) : Kept s (State.walkPages s c p cls ks) := by
  unfold State.walkPages
  try dsimp only
  repeat' (first
    | with_reducible exact Kept.refl _
    | with_reducible refine (State.owe_kept _ _).after ?_
    | with_reducible refine (State.walked_kept _ _ _ _).after ?_
    | with_reducible refine (each_kept ?_).after ?_
    | intro _)

theorem State.markGlobal_kept (s : State) (h : Nat) (q : Seq) (b : StageBody) (own : List (Seq × Page)) : Kept s (State.markGlobal s h q b own) := by
  unfold State.markGlobal
  try dsimp only
  repeat' (first
    | with_reducible exact Kept.refl _
    | with_reducible refine (State.onSeq_kept _ _ _).after ?_
    | with_reducible refine (State.onPage_kept _ _ _).after ?_
    | with_reducible refine (each_kept ?_).after ?_
    | intro _
    | with_reducible refine Kept.ite ?_ ?_)

theorem State.clearPins_kept (s : State) (req : Req) (ps : List (Seq × Page)) : Kept s (State.clearPins s req ps) := by
  unfold State.clearPins
  try dsimp only
  repeat' (first
    | with_reducible exact Kept.refl _
    | with_reducible refine (onWork_kept ).after ?_
    | with_reducible refine (State.complete_kept _ _ _ _ _).after ?_
    | with_reducible refine (State.setPinned_kept _ _ _).after ?_
    | with_reducible refine (each_kept ?_).after ?_
    | intro _)

theorem State.beginStage_kept (s : State) (req : Req) (b : StageBody) (pin : Bool) (q : Seq) (h : Nat) (ps : List (Seq × Page)) : Kept s (State.beginStage s req b pin q h ps) := by
  unfold State.beginStage
  try dsimp only
  repeat' (first
    | with_reducible exact Kept.refl _
    | with_reducible refine (onWork_kept ).after ?_
    | with_reducible refine (State.fresh_kept _).after ?_
    | with_reducible refine (State.complete_kept _ _ _ _ _).after ?_
    | with_reducible refine (State.stagePage_kept _ _ _ _).after ?_
    | with_reducible refine (State.endStage_kept _ _ _ _).after ?_
    | with_reducible refine (State.setPinned_kept _ _ _).after ?_
    | with_reducible refine (each_kept ?_).after ?_
    | with_reducible refine (foldl_kept_snd ?_).after ?_
    | intro _
    | with_reducible refine Kept.ite ?_ ?_)

theorem State.runStage_kept (s : State) (m : Rx) (b : StageBody) (action : Nat) : Kept s (State.runStage s m b action) := by
  unfold State.runStage
  try dsimp only
  repeat' (first
    | with_reducible exact Kept.refl _
    | with_reducible refine (State.complete_kept _ _ _ _ _).after ?_
    | with_reducible refine (State.answer_kept _ _ _).after ?_
    | with_reducible refine (State.touchLinked_kept _ _ _).after ?_
    | with_reducible refine (State.pinHome_kept _ _).after ?_
    | with_reducible refine (State.walkPages_kept _ _ _ _ _).after ?_
    | with_reducible refine (State.markGlobal_kept _ _ _ _ _).after ?_
    | with_reducible refine (State.clearPins_kept _ _ _).after ?_
    | with_reducible refine (State.beginStage_kept _ _ _ _ _ _ _).after ?_
    | split)

theorem State.endStages_kept (s : State) : Kept s (State.endStages s) := by
  unfold State.endStages
  try dsimp only
  repeat' (first
    | with_reducible exact Kept.refl _
    | with_reducible refine (State.endStage_kept _ _ _ _).after ?_
    | with_reducible refine (each_kept ?_).after ?_
    | intro _)

theorem State.landStaging_kept (s : State) (g : Staging) (q : Seq) (p : Page) (a : Nat) : Kept s (State.landStaging s g q p a) := by
  unfold State.landStaging
  try dsimp only
  repeat' (first
    | with_reducible exact Kept.refl _
    | with_reducible refine (State.bump_kept _ _ _ _ _).after ?_
    | with_reducible refine (State.meter_kept _ _ _ _ _).after ?_
    | with_reducible refine (State.meterBursts_kept _ _ _ _).after ?_
    | with_reducible refine (State.meterMoved_kept _ _ _ _ _).after ?_
    | with_reducible refine (State.onPage_kept _ _ _).after ?_
    | with_reducible refine (State.putBytes_kept _ _ _).after ?_
    | with_reducible refine (State.endStaging_kept _ _ _).after ?_
    | with_reducible refine Kept.ite ?_ ?_)

theorem State.finishStaging_kept (s : State) (g : Staging) : Kept s (State.finishStaging s g) := by
  unfold State.finishStaging
  try dsimp only
  repeat' (first
    | with_reducible exact Kept.refl _
    | with_reducible refine (State.charged_kept _ _ _ ?_).after ?_
    | with_reducible refine (State.endStaging_kept _ _ _).after ?_
    | with_reducible refine (State.dropPlace_kept _ _ _).after ?_
    | with_reducible refine (State.landStaging_kept _ _ _ _ _).after ?_
    | intro _
    | split)

theorem State.pumpStagings_kept (s : State) : Kept s (State.pumpStagings s) := by
  unfold State.pumpStagings
  try dsimp only
  repeat' (first
    | with_reducible exact Kept.refl _
    | with_reducible refine (State.finishStaging_kept _ _).after ?_
    | with_reducible refine (each_kept ?_).after ?_
    | intro _)

theorem State.onDelivery_kept (s : State) (id : Nat) (f : Delivery → Delivery) : Kept s (State.onDelivery s id f) := by
  unfold State.onDelivery
  try dsimp only
  repeat' (first
    | with_reducible exact Kept.refl _
    | with_reducible refine (onWork_kept ).after ?_)

theorem State.deliverWait_kept (s : State) (id : Nat) : Kept s (State.deliverWait s id) := by
  unfold State.deliverWait
  try dsimp only
  repeat' (first
    | with_reducible exact Kept.refl _
    | with_reducible refine (State.bump_kept _ _ _ _ _).after ?_
    | with_reducible refine (State.onDelivery_kept _ _ _).after ?_
    | split)

theorem State.beginDeliver_kept (s : State) (m : Rx) (b : DeliverBody) (q : Seq) (e : Nat) : Kept s (State.beginDeliver s m b q e) := by
  unfold State.beginDeliver
  try dsimp only
  repeat' (first
    | with_reducible exact Kept.refl _
    | with_reducible refine (onWork_kept ).after ?_
    | with_reducible refine (State.fresh_kept _).after ?_
    | with_reducible refine (State.pinHome_kept _ _).after ?_)

theorem State.runDeliver_kept (s : State) (m : Rx) (b : DeliverBody) : Kept s (State.runDeliver s m b) := by
  unfold State.runDeliver
  try dsimp only
  repeat' (first
    | with_reducible exact Kept.refl _
    | with_reducible refine (State.answer_kept _ _ _).after ?_
    | with_reducible refine (State.touchLinked_kept _ _ _).after ?_
    | with_reducible refine (State.beginDeliver_kept _ _ _ _ _).after ?_
    | split)

theorem State.sendLayer_kept (s : State) (d : Delivery) (q : Seq) (qp : Qp) (ps : List (Seq × Page)) : Kept s (State.sendLayer s d q qp ps) := by
  unfold State.sendLayer
  try dsimp only
  repeat' (first
    | with_reducible exact Kept.refl _
    | with_reducible refine (State.bump_kept _ _ _ _ _).after ?_
    | with_reducible refine (State.meterBursts_kept _ _ _ _).after ?_
    | with_reducible refine (State.meterBytes_kept _ _ _ _).after ?_
    | with_reducible refine (State.post_kept _ _ _ _ _ _).after ?_
    | with_reducible refine (State.walked_kept _ _ _ _).after ?_
    | with_reducible refine (State.onDelivery_kept _ _ _).after ?_
    | with_reducible refine (State.deliverWait_kept _ _).after ?_
    | with_reducible refine (each_kept ?_).after ?_
    | with_reducible refine (foldl_kept ?_).after ?_
    | intro _)

theorem State.writeLayer_kept (s : State) (d : Delivery) : Kept s (State.writeLayer s d) := by
  unfold State.writeLayer
  try dsimp only
  repeat' (first
    | with_reducible exact Kept.refl _
    | with_reducible refine (State.charged_kept _ _ _ ?_).after ?_
    | with_reducible refine (State.stagePage_kept _ _ _ _).after ?_
    | with_reducible refine (State.endDelivery_kept _ _ _ _).after ?_
    | with_reducible refine (State.onDelivery_kept _ _ _).after ?_
    | with_reducible refine (State.sendLayer_kept _ _ _ _ _).after ?_
    | with_reducible refine (each_kept ?_).after ?_
    | intro _
    | split)

end Sys2Proof.Machine
end

