-- ==== Sys2Proof/Laws/Kept/Attends.lean ====
section
/-!
SUPPORT. What each operation of Machine/Attends.lean keeps (Laws/Kept.lean says what that is).
-/
namespace Sys2Proof.Machine

theorem State.onAttend_kept (s : State) (id : Nat) (f : Attend → Attend) : Kept s (State.onAttend s id f) := by
  unfold State.onAttend
  try dsimp only
  repeat' (first
    | with_reducible exact Kept.refl _
    | with_reducible refine (onWork_kept ).after ?_)

theorem State.onRow_kept (s : State) (id i : Nat) (f : Row → Row) : Kept s (State.onRow s id i f) := by
  unfold State.onRow
  try dsimp only
  repeat' (first
    | with_reducible exact Kept.refl _
    | with_reducible refine (State.onAttend_kept _ _ _).after ?_)

theorem State.addTile_kept (s : State) (att row : Nat) (noFusion : Bool) (q owner : Seq) (p : Page) (core : Nat) (inl : Bool) : Kept s (State.addTile s att row noFusion q owner p core inl) := by
  unfold State.addTile
  try dsimp only
  repeat' (first
    | with_reducible exact Kept.refl _
    | with_reducible refine (onWork_kept ).after ?_
    | with_reducible refine (State.fresh_kept _).after ?_
    | with_reducible refine (State.bump_kept _ _ _ _ _).after ?_
    | with_reducible refine (State.peak_kept _ _ _ _ _).after ?_
    | with_reducible refine (State.meter_kept _ _ _ _ _).after ?_
    | with_reducible refine (State.stagePage_kept _ _ _ _).after ?_
    | split)

theorem State.releaseFused_kept (s : State) (e p : Nat) : Kept s (State.releaseFused s e p) := by
  unfold State.releaseFused
  try dsimp only
  repeat' (first
    | with_reducible exact Kept.refl _
    | with_reducible refine (onWork_kept ).after ?_)

theorem State.addAccums_kept (s : State) (att row k g home : Nat) (cores : List Nat) : Kept s (State.addAccums s att row k g home cores) := by
  unfold State.addAccums
  try dsimp only
  repeat' (first
    | with_reducible exact Kept.refl _
    | with_reducible refine (onWork_kept ).after ?_
    | with_reducible refine (State.fresh_kept _).after ?_
    | with_reducible refine (foldl_kept ?_).after ?_
    | intro _)

theorem State.layerAhead_kept (s : State) (q : Seq) (r : Row) (l : Nat) : Kept s (State.layerAhead s q r l) := by
  unfold State.layerAhead
  try dsimp only
  repeat' (first
    | with_reducible exact Kept.refl _
    | with_reducible refine (State.stagePage_kept _ _ _ _).after ?_
    | with_reducible refine (each_kept ?_).after ?_
    | intro _)

theorem State.stopRow_kept (s : State) (att i : Nat) (st : Status) (pos : Nat) (refresh : Bool) : Kept s (State.stopRow s att i st pos refresh) := by
  unfold State.stopRow
  try dsimp only
  repeat' (first
    | with_reducible exact Kept.refl _
    | with_reducible refine (State.onRow_kept _ _ _ _).after ?_)

theorem State.scanGlobals_kept (s : State) (q : Seq) (r : Row) (l : Nat) : Kept s (State.scanGlobals s q r l) := by
  unfold State.scanGlobals
  try dsimp only
  repeat' (first
    | with_reducible exact Kept.refl _
    | with_reducible refine (State.oweAll_kept _ _).after ?_
    | with_reducible refine (State.walkPages_kept _ _ _ _ _).after ?_)

theorem State.addTiles_kept (s : State) (att i : Nat) (b : AttendBody) (q : Seq) (r : Row) : Kept s (State.addTiles s att i b q r) := by
  unfold State.addTiles
  try dsimp only
  repeat' (first
    | with_reducible exact Kept.refl _
    | with_reducible refine (State.addTile_kept _ _ _ _ _ _ _ _ _).after ?_
    | with_reducible refine (State.addAccums_kept _ _ _ _ _ _ _).after ?_
    | with_reducible refine (foldl_kept ?_).after ?_
    | intro _
    | split)

theorem State.countSkips_kept (s : State) (q : Seq) (r : Row) (l used : Nat) : Kept s (State.countSkips s q r l used) := by
  unfold State.countSkips
  try dsimp only
  repeat' (first
    | with_reducible exact Kept.refl _
    | with_reducible refine (State.bump_kept _ _ _ _ _).after ?_)

theorem State.refreshPages_kept (s : State) (ps : List (Seq × Page)) : Kept s (State.refreshPages s ps) := by
  unfold State.refreshPages
  try dsimp only
  repeat' (first
    | with_reducible exact Kept.refl _
    | with_reducible refine (State.lose_kept _ _ _).after ?_
    | with_reducible refine (each_kept ?_).after ?_
    | intro _)

theorem State.placeRow_kept (s : State) (att i : Nat) (b : AttendBody) (q : Seq) (r : Row) : Kept s (State.placeRow s att i b q r) := by
  unfold State.placeRow
  try dsimp only
  repeat' (first
    | with_reducible exact Kept.refl _
    | with_reducible refine (State.onRow_kept _ _ _ _).after ?_
    | with_reducible refine (State.releaseFused_kept _ _ _).after ?_
    | with_reducible refine (State.layerAhead_kept _ _ _ _).after ?_
    | with_reducible refine (State.stopRow_kept _ _ _ _ _ _).after ?_
    | with_reducible refine (State.scanGlobals_kept _ _ _ _).after ?_
    | with_reducible refine (State.addTiles_kept _ _ _ _ _ _).after ?_
    | with_reducible refine (State.countSkips_kept _ _ _ _ _).after ?_
    | with_reducible refine (State.refreshPages_kept _ _).after ?_
    | split)

theorem State.dispatchNext_kept (s : State) (a : Attend) {o0 : State} (h_o : State.dispatchNext s a = some o0) : Kept s o0 := by
  suffices key : ∀ o, State.dispatchNext s a = some o → Kept s o from key _ h_o
  clear h_o
  intro o h_o
  unfold State.dispatchNext at h_o
  try dsimp only at h_o
  repeat (any_goals (split at h_o))
  all_goals try (exact absurd h_o (by simp only [reduceCtorEq, not_false_eq_true]))
  all_goals try (first | cases h_o | (injection h_o with h_o; try subst h_o))
  all_goals try dsimp only
  all_goals repeat' (first
    | with_reducible exact Kept.refl _
    | with_reducible refine (State.touchLinked_kept _ _ _).after ?_
    | with_reducible refine (State.pinHome_kept _ _).after ?_
    | with_reducible refine (State.stopRow_kept _ _ _ _ _ _).after ?_
    | with_reducible refine (State.placeRow_kept _ _ _ _ _ _).after ?_)

theorem State.turnAttend_kept (s : State) (id : Nat) (x0 : Nat) : Kept s (State.turnAttend s id x0) := by
  induction x0 generalizing s id with
  | zero => rw [State.turnAttend]; exact Kept.refl _
  | succ n ih =>
    rw [State.turnAttend]
    try dsimp only
    repeat' (first
    | with_reducible exact Kept.refl _
    | with_reducible refine (ih _ _).after ?_
    | with_reducible refine (State.onAttend_kept _ _ _).after ?_
    | with_reducible refine (State.dispatchNext_kept _ _ (by assumption)).after ?_
    | split)

theorem State.pumpAttends_kept (s : State) : Kept s (State.pumpAttends s) := by
  unfold State.pumpAttends
  try dsimp only
  repeat' (first
    | with_reducible exact Kept.refl _
    | with_reducible refine (State.turnAttend_kept _ _ _).after ?_
    | with_reducible refine (each_kept ?_).after ?_
    | intro _)

theorem State.newAttend_kept (s : State) (m : Rx) (b : AttendBody) (ready : Bool) : Kept s (State.newAttend s m b ready).2 := by
  unfold State.newAttend
  try dsimp only
  repeat' (first
    | with_reducible exact Kept.refl _
    | with_reducible refine (onWork_kept ).after ?_
    | with_reducible refine (State.fresh_kept _).after ?_
    | with_reducible refine (State.touch_kept _ _).after ?_
    | with_reducible refine (each_kept ?_).after ?_
    | intro _)

theorem State.runAttend_kept (s : State) (m : Rx) (b : AttendBody) (i : Instr) : Kept s (State.runAttend s m b i) := by
  unfold State.runAttend
  try dsimp only
  repeat' (first
    | with_reducible exact Kept.refl _
    | with_reducible refine (State.meterBytes_kept _ _ _ _).after ?_
    | with_reducible refine (State.answer_kept _ _ _).after ?_
    | with_reducible refine (State.rdmaRead_kept _ _ _ _ _ _ _ _ _ _).after ?_
    | with_reducible refine (State.turnAttend_kept _ _ _).after ?_
    | with_reducible refine (State.newAttend_kept _ _ _ _).after ?_
    | split)

theorem State.attendRead_kept (s : State) (id : Nat) (bs : List Byte) : Kept s (State.attendRead s id bs) := by
  unfold State.attendRead
  try dsimp only
  repeat' (first
    | with_reducible exact Kept.refl _
    | with_reducible refine (State.onAttend_kept _ _ _).after ?_
    | with_reducible refine (State.turnAttend_kept _ _ _).after ?_
    | split)

theorem State.enterAttend_kept (s : State) (m : Rx) (b : AttendBody) (but : Option Nat) (i : Instr) (run : State → State) (h_run : ∀ a0, Kept a0 (run a0)) : Kept s (State.enterAttend s m b but i run) := by
  unfold State.enterAttend
  try dsimp only
  repeat' (first
    | with_reducible exact Kept.refl _
    | with_reducible refine (h_run _).after ?_
    | with_reducible refine (onSeqs_kept ).after ?_
    | with_reducible refine (State.onSeq_kept _ _ _).after ?_
    | split)

theorem State.enterAttend_held (s : State) (m : Rx) (b : AttendBody) (but : Option Nat) (i : Instr) (run : State → State) (h_run : ∀ a0, Held a0 (run a0)) : Held s (State.enterAttend s m b but i run) := by
  unfold State.enterAttend
  try dsimp only
  repeat' (first
    | with_reducible exact Held.refl _
    | with_reducible refine (h_run _).after ?_
    | with_reducible refine (onSeqs_kept ).held.after ?_
    | with_reducible refine (State.onSeq_kept _ _ _).held.after ?_
    | split)

theorem State.onTile_kept (s : State) (id : Nat) (f : Tile → Tile) : Kept s (State.onTile s id f) := by
  unfold State.onTile
  try dsimp only
  repeat' (first
    | with_reducible exact Kept.refl _
    | with_reducible refine (onWork_kept ).after ?_)

theorem State.translated_kept (s : State) (t : Tile) (r : Row) (q : Seq) (p : Page) : Kept s (State.translated s t r q p) := by
  unfold State.translated
  try dsimp only
  repeat' (first
    | with_reducible exact Kept.refl _
    | with_reducible refine (State.bump_kept _ _ _ _ _).after ?_
    | with_reducible refine (State.putXlat_kept _ _ _).after ?_
    | with_reducible refine (State.walked_kept _ _ _ _).after ?_
    | with_reducible refine Kept.ite ?_ ?_)

theorem State.pinFails_kept (s : State) (t : Tile) (r : Row) (q : Seq) (p : Page) : Kept s (State.pinFails s t r q p) := by
  unfold State.pinFails
  try dsimp only
  repeat' (first
    | with_reducible exact Kept.refl _
    | with_reducible refine (State.bump_kept _ _ _ _ _).after ?_
    | with_reducible refine (State.charged_kept _ _ _ ?_).after ?_
    | with_reducible refine (State.dropXlat_kept _ _ _).after ?_
    | with_reducible refine (State.translated_kept _ _ _ _ _).after ?_
    | intro _
    | with_reducible refine Kept.ite ?_ ?_)

theorem State.kept_kept (s : State) (t : Tile) (part : Nat) (p : Page) : Kept s (State.kept s t part p) := by
  unfold State.kept
  try dsimp only
  repeat' (first
    | with_reducible exact Kept.refl _
    | with_reducible refine (State.fillPage_kept _ _ _ _ _).after ?_
    | with_reducible refine (State.fillQuarter_kept _ _ _ _ _).after ?_
    | with_reducible refine Kept.ite ?_ ?_)

theorem State.joinGroup_kept (s : State) (t : Tile) (r : Row) (g : Group) (q : Seq) (p : Page) (cycles : Nat) : Kept s (State.joinGroup s t r g q p cycles) := by
  unfold State.joinGroup
  try dsimp only
  repeat' (first
    | with_reducible exact Kept.refl _
    | with_reducible refine (onWork_kept ).after ?_
    | with_reducible refine (State.bump_kept _ _ _ _ _).after ?_
    | with_reducible refine (State.energy_kept _ _ _ _).after ?_
    | with_reducible refine (State.onRow_kept _ _ _ _).after ?_
    | with_reducible refine (State.onTile_kept _ _ _).after ?_
    | with_reducible refine (State.translated_kept _ _ _ _ _).after ?_
    | with_reducible refine (each_kept ?_).after ?_
    | intro _)

theorem State.openGroup_kept (s : State) (t : Tile) (r : Row) (q : Seq) (p : Page) (cycles : Nat) : Kept s (State.openGroup s t r q p cycles) := by
  unfold State.openGroup
  try dsimp only
  repeat' (first
    | with_reducible exact Kept.refl _
    | with_reducible refine (onWork_kept ).after ?_
    | with_reducible refine (State.fresh_kept _).after ?_
    | with_reducible refine (State.bump_kept _ _ _ _ _).after ?_
    | with_reducible refine (State.meter_kept _ _ _ _ _).after ?_
    | with_reducible refine (State.energy_kept _ _ _ _).after ?_
    | with_reducible refine (State.meterBursts_kept _ _ _ _).after ?_
    | with_reducible refine (State.meterMoved_kept _ _ _ _ _).after ?_
    | with_reducible refine (State.onPage_kept _ _ _).after ?_
    | with_reducible refine (State.onTile_kept _ _ _).after ?_
    | with_reducible refine (State.translated_kept _ _ _ _ _).after ?_
    | with_reducible refine (State.kept_kept _ _ _ _).after ?_)

theorem State.loseRow_kept (s : State) (t : Tile) (d : Nat) : Kept s (State.loseRow s t d) := by
  unfold State.loseRow
  try dsimp only
  repeat' (first
    | with_reducible exact Kept.refl _
    | with_reducible refine (State.endRow_kept _ _ _ _ _).after ?_)

theorem State.holdTile_kept (s : State) (t : Tile) (p : Page) (q : Seq) : Kept s (State.holdTile s t p q) := by
  unfold State.holdTile
  try dsimp only
  repeat' (first
    | with_reducible exact Kept.refl _
    | with_reducible refine (State.bump_kept _ _ _ _ _).after ?_
    | with_reducible refine (State.meter_kept _ _ _ _ _).after ?_
    | with_reducible refine (State.stagePage_kept _ _ _ _).after ?_
    | with_reducible refine (State.onTile_kept _ _ _).after ?_)

theorem State.startTile_kept (s : State) (t : Tile) (a : Attend) (r : Row) (q : Seq) (p : Page) : Kept s (State.startTile s t a r q p) := by
  unfold State.startTile
  try dsimp only
  repeat' (first
    | with_reducible exact Kept.refl _
    | with_reducible refine (State.charged_kept _ _ _ ?_).after ?_
    | with_reducible refine (State.pinFails_kept _ _ _ _ _).after ?_
    | with_reducible refine (State.joinGroup_kept _ _ _ _ _ _ _).after ?_
    | with_reducible refine (State.openGroup_kept _ _ _ _ _ _).after ?_
    | intro _
    | split)

theorem State.startInline_kept (s : State) (t : Tile) (a : Attend) (r : Row) (q : Seq) : Kept s (State.startInline s t a r q) := by
  unfold State.startInline
  try dsimp only
  repeat' (first
    | with_reducible exact Kept.refl _
    | with_reducible refine (State.bump_kept _ _ _ _ _).after ?_
    | with_reducible refine (State.charged_kept _ _ _ ?_).after ?_
    | with_reducible refine (State.onTile_kept _ _ _).after ?_
    | intro _
    | with_reducible refine Kept.ite ?_ ?_)

theorem State.issueTile_kept (s : State) (t : Tile) : Kept s (State.issueTile s t) := by
  unfold State.issueTile
  try dsimp only
  repeat' (first
    | with_reducible exact Kept.refl _
    | with_reducible refine (State.dropTile_kept _ _).after ?_
    | with_reducible refine (State.endRow_kept _ _ _ _ _).after ?_
    | with_reducible refine (State.onRow_kept _ _ _ _).after ?_
    | with_reducible refine (State.refreshPages_kept _ _).after ?_
    | with_reducible refine (State.loseRow_kept _ _ _).after ?_
    | with_reducible refine (State.holdTile_kept _ _ _ _).after ?_
    | with_reducible refine (State.startTile_kept _ _ _ _ _ _).after ?_
    | with_reducible refine (State.startInline_kept _ _ _ _ _).after ?_
    | split)

theorem State.onAccum_kept (s : State) (id : Nat) (f : Accum → Accum) : Kept s (State.onAccum s id f) := by
  unfold State.onAccum
  try dsimp only
  repeat' (first
    | with_reducible exact Kept.refl _
    | with_reducible refine (onWork_kept ).after ?_)

theorem State.finishTile_kept (s : State) (t : Tile) (scale qf : Nat) (qs keys vals : List (List Val)) : Kept s (State.finishTile s t scale qf qs keys vals) := by
  unfold State.finishTile
  try dsimp only
  repeat' (first
    | with_reducible exact Kept.refl _
    | with_reducible refine (State.addToPartials_kept _ _ _ _ _ _ _).after ?_
    | with_reducible refine (State.dropTile_kept _ _).after ?_
    | with_reducible refine (State.onAccum_kept _ _ _).after ?_
    | split)

theorem State.closeRow_kept (s : State) (att row : Nat) : Kept s (State.closeRow s att row) := by
  unfold State.closeRow
  try dsimp only
  repeat' (first
    | with_reducible exact Kept.refl _
    | with_reducible refine (State.onRow_kept _ _ _ _).after ?_
    | with_reducible refine Kept.ite ?_ ?_)

theorem State.mergeUp_kept (s : State) (a : Accum) : Kept s (State.mergeUp s a) := by
  unfold State.mergeUp
  try dsimp only
  repeat' (first
    | with_reducible exact Kept.refl _
    | with_reducible refine (onWork_kept ).after ?_
    | with_reducible refine (State.bump_kept _ _ _ _ _).after ?_
    | with_reducible refine (State.mergePartial_kept _ _ _).after ?_
    | with_reducible refine (State.onAccum_kept _ _ _).after ?_
    | with_reducible refine (State.closeRow_kept _ _ _).after ?_
    | with_reducible refine (foldl_kept_snd ?_).after ?_
    | intro _
    | split)

theorem State.countRow_kept (s : State) (r : Row) : Kept s (State.countRow s r) := by
  unfold State.countRow
  try dsimp only
  repeat' (first
    | with_reducible exact Kept.refl _
    | with_reducible refine (State.bump_kept _ _ _ _ _).after ?_
    | with_reducible refine (State.meter_kept _ _ _ _ _).after ?_
    | split)

theorem State.completeAttend_kept (s : State) (a : Attend) : Kept s (State.completeAttend s a) := by
  unfold State.completeAttend
  try dsimp only
  repeat' (first
    | with_reducible exact Kept.refl _
    | with_reducible refine (onWork_kept ).after ?_
    | with_reducible refine (State.randomBytes_kept _ _).after ?_
    | with_reducible refine (State.meterBytes_kept _ _ _ _).after ?_
    | with_reducible refine (State.complete_kept _ _ _ _ _).after ?_
    | with_reducible refine (State.rdmaWrite_kept _ _ _ _ _ _ _ _).after ?_
    | with_reducible refine (State.countRow_kept _ _).after ?_
    | with_reducible refine (foldl_kept ?_).after ?_
    | with_reducible refine (foldl_kept_thd ?_).after ?_
    | intro _
    | split)

theorem State.endedAttend_kept (s : State) (m : Rx) (b : AttendBody) (st : Status) : Kept s (State.endedAttend s m b st) := by
  unfold State.endedAttend
  try dsimp only
  repeat' (first
    | with_reducible exact Kept.refl _
    | with_reducible refine (State.answer_kept _ _ _).after ?_
    | with_reducible refine (State.completeAttend_kept _ _).after ?_
    | with_reducible refine Kept.ite ?_ ?_)

end Sys2Proof.Machine
end

