-- ==== Sys2Proof/Laws/Kept/Turns.lean ====
section
/-!
SUPPORT. What each operation of Machine/Turns.lean keeps (Laws/Kept.lean says what that is).
-/
namespace Sys2Proof.Machine

theorem State.startDrain_kept (s : State) (h : Nat) (toDecode : Bool) (f : Turn → Turn) : Kept s (State.startDrain s h toDecode f) := by
  unfold State.startDrain
  try dsimp only
  repeat' (first
    | with_reducible exact Kept.refl _
    | with_reducible refine (State.onSeq_kept _ _ _).after ?_)

theorem State.runHandoff_kept (s : State) (m : Rx) (b : HandoffBody) : Kept s (State.runHandoff s m b) := by
  unfold State.runHandoff
  try dsimp only
  repeat' (first
    | with_reducible exact Kept.refl _
    | with_reducible refine (State.bump_kept _ _ _ _ _).after ?_
    | with_reducible refine (State.meter_kept _ _ _ _ _).after ?_
    | with_reducible refine (State.answer_kept _ _ _).after ?_
    | with_reducible refine (State.startDrain_kept _ _ _ _).after ?_
    | split)

theorem State.runEndTurn_kept (s : State) (m : Rx) (b : ReleaseBody) : Kept s (State.runEndTurn s m b) := by
  unfold State.runEndTurn
  try dsimp only
  repeat' (first
    | with_reducible exact Kept.refl _
    | with_reducible refine (State.answer_kept _ _ _).after ?_
    | with_reducible refine (State.startDrain_kept _ _ _ _).after ?_
    | split)

theorem State.sealSb_kept (s : State) (b : Superblock) : Kept s (State.sealSb s b) := by
  unfold State.sealSb
  try dsimp only
  repeat' (first
    | with_reducible exact Kept.refl _
    | with_reducible refine (State.closeSb_kept _ _ _).after ?_
    | with_reducible refine (State.padRow_kept _ _ _ _).after ?_
    | with_reducible refine (foldl_kept ?_).after ?_
    | intro _
    | split)

theorem State.secureMark_kept (s : State) (h : Nat) : Kept s (State.secureMark s h).2 := by
  unfold State.secureMark
  try dsimp only
  repeat' (first
    | with_reducible exact Kept.refl _
    | with_reducible refine (State.onSb_kept _ _ _ _).after ?_
    | with_reducible refine (State.sealSb_kept _ _).after ?_
    | with_reducible refine (each_kept ?_).after ?_
    | intro _
    | with_reducible refine Kept.ite ?_ ?_)

theorem State.finishFreeing_kept (s : State) (h : Nat) : Kept s (State.finishFreeing s h) := by
  unfold State.finishFreeing
  try dsimp only
  repeat' (first
    | with_reducible exact Kept.refl _
    | with_reducible refine (onFlash_kept ).after ?_
    | with_reducible refine (State.onSeq_kept _ _ _).after ?_
    | with_reducible refine (State.finishRelease_kept _ _).after ?_
    | with_reducible refine (State.secureMark_kept _ _).after ?_
    | split)

theorem State.runFree_kept (s : State) (m : Rx) (b : ReleaseBody) (op : Nat) : Kept s (State.runFree s m b op) := by
  unfold State.runFree
  try dsimp only
  repeat' (first
    | with_reducible exact Kept.refl _
    | with_reducible refine (State.complete_kept _ _ _ _ _).after ?_
    | with_reducible refine (State.answer_kept _ _ _).after ?_
    | with_reducible refine (State.onSeq_kept _ _ _).after ?_
    | with_reducible refine (State.dropPrefix_kept _ _ _).after ?_
    | with_reducible refine (State.finishFreeing_kept _ _).after ?_
    | split)

theorem State.checkTarget_kept (s : State) (h : Nat) : Kept s (State.checkTarget s h) := by
  unfold State.checkTarget
  try dsimp only
  repeat' (first
    | with_reducible exact Kept.refl _
    | with_reducible refine (State.onSeq_kept _ _ _).after ?_
    | split)

theorem State.answerEndTurn_kept (s : State) (h : Nat) : Kept s (State.answerEndTurn s h) := by
  unfold State.answerEndTurn
  try dsimp only
  repeat' (first
    | with_reducible exact Kept.refl _
    | with_reducible refine (State.complete_kept _ _ _ _ _).after ?_
    | with_reducible refine (State.onSeq_kept _ _ _).after ?_
    | split)

theorem State.endDrain_kept (s : State) (h : Nat) (toDecode : Bool) : Kept s (State.endDrain s h toDecode) := by
  unfold State.endDrain
  try dsimp only
  repeat' (first
    | with_reducible exact Kept.refl _
    | with_reducible refine (State.onSeq_kept _ _ _).after ?_
    | with_reducible refine (State.cut_kept _ _).after ?_
    | with_reducible refine (State.answerHandoff_kept _ _ _ _).after ?_
    | with_reducible refine (State.turnReport_kept _ _ _).after ?_
    | with_reducible refine (State.endTurn_kept _ _ _).after ?_
    | with_reducible refine (State.choose_kept _ _ _).after ?_
    | with_reducible refine (State.checkTarget_kept _ _).after ?_
    | with_reducible refine (State.answerEndTurn_kept _ _).after ?_
    | split)

end Sys2Proof.Machine
end

