-- ==== Sys2Proof/Laws/Kept/Prefixes.lean ====
section
/-!
SUPPORT. What each operation of Machine/Prefixes.lean keeps (Laws/Kept.lean says what that is).
-/
namespace Sys2Proof.Machine

theorem State.weighEntry_kept (s : State) (q : Seq) (i : Nat) (e : Option Entry) : Kept s (State.weighEntry s q i e).2 := by
  unfold State.weighEntry
  try dsimp only
  repeat' (first
    | with_reducible exact Kept.refl _
    | with_reducible refine (State.bump_kept _ _ _ _ _).after ?_
    | with_reducible refine (State.deleteEntry_kept _ _ _ _ _).after ?_
    | split)

theorem State.publicSearch_kept (s : State) (q : Seq) (i fp : Nat) : Kept s (State.publicSearch s q i fp).2 := by
  unfold State.publicSearch
  try dsimp only
  repeat' (first
    | with_reducible exact Kept.refl _
    | with_reducible refine (State.arrayAnswer_kept _ _ _).after ?_
    | with_reducible refine (State.secondAnswer_kept _ _).after ?_
    | with_reducible refine (State.weighEntry_kept _ _ _ _).after ?_
    | with_reducible refine Kept.ite_snd ?_ ?_)

theorem State.joinEntry_kept (s : State) (q : Seq) (cls i fp : Nat) (e : Entry) (n : PrefixNode) : Kept s (State.joinEntry s q cls i fp e n) := by
  unfold State.joinEntry
  try dsimp only
  repeat' (first
    | with_reducible exact Kept.refl _
    | with_reducible refine (State.onNodeRec_kept _ _ _ _).after ?_
    | with_reducible refine (State.removeEntry_kept _ _ _).after ?_
    | with_reducible refine (State.createEntry_kept _ _ _ _ _ _).after ?_
    | with_reducible refine Kept.ite ?_ ?_)

theorem State.publishBlock_kept (s : State) (q : Seq) (cls i fp : Nat) : Kept s (State.publishBlock s q cls i fp) := by
  unfold State.publishBlock
  try dsimp only
  repeat' (first
    | with_reducible exact Kept.refl _
    | with_reducible refine (onMortise_kept ).after ?_
    | with_reducible refine (State.meterBursts_kept _ _ _ _).after ?_
    | with_reducible refine (State.createEntry_kept _ _ _ _ _ _).after ?_
    | with_reducible refine (State.publicSearch_kept _ _ _ _).after ?_
    | with_reducible refine (State.joinEntry_kept _ _ _ _ _ _ _).after ?_
    | split)

theorem State.endJob_kept (s : State) (j : PubJob) (st : Status) (ws : List W64) : Kept s (State.endJob s j st ws) := by
  unfold State.endJob
  try dsimp only
  repeat' (first
    | with_reducible exact Kept.refl _
    | with_reducible refine (onMortise_kept ).after ?_
    | with_reducible refine (State.complete_kept _ _ _ _ _).after ?_)

theorem State.turnJob_kept (s : State) (id : Nat) (x0 : Nat) : Kept s (State.turnJob s id x0) := by
  induction x0 generalizing s id with
  | zero => rw [State.turnJob]; exact Kept.refl _
  | succ n ih =>
    rw [State.turnJob]
    try dsimp only
    repeat' (first
    | with_reducible exact Kept.refl _
    | with_reducible refine (ih _ _).after ?_
    | with_reducible refine (onMortise_kept ).after ?_
    | with_reducible refine (State.markWait_kept _ _).after ?_
    | with_reducible refine (State.publishBlock_kept _ _ _ _ _).after ?_
    | with_reducible refine (State.endJob_kept _ _ _ _).after ?_
    | with_reducible refine (Kept.fst (State.chargeAll_kept _ _) (by assumption)).after ?_
    | split)

theorem State.pumpJobs_kept (s : State) : Kept s (State.pumpJobs s) := by
  unfold State.pumpJobs
  try dsimp only
  repeat' (first
    | with_reducible exact Kept.refl _
    | with_reducible refine (State.turnJob_kept _ _ _).after ?_
    | with_reducible refine (each_kept ?_).after ?_
    | intro _)

theorem State.runPublish_kept (s : State) (m : Rx) (b : PublishBody) : Kept s (State.runPublish s m b) := by
  unfold State.runPublish
  try dsimp only
  repeat' (first
    | with_reducible exact Kept.refl _
    | with_reducible refine (onMortise_kept ).after ?_
    | with_reducible refine (State.fresh_kept _).after ?_
    | with_reducible refine (State.answer_kept _ _ _).after ?_
    | with_reducible refine (State.turnJob_kept _ _ _).after ?_
    | split)

theorem State.unpublishBlock_kept (s : State) (q : Seq) (fp : Nat) : Kept s (State.unpublishBlock s q fp) := by
  unfold State.unpublishBlock
  try dsimp only
  repeat' (first
    | with_reducible exact Kept.refl _
    | with_reducible refine (onMortise_kept ).after ?_
    | with_reducible refine (State.onNodeRec_kept _ _ _ _).after ?_
    | with_reducible refine (State.deleteEntry_kept _ _ _ _ _).after ?_
    | split)

theorem State.runUnpublish_kept (s : State) (m : Rx) (first : Nat) : Kept s (State.runUnpublish s m first) := by
  unfold State.runUnpublish
  try dsimp only
  repeat' (first
    | with_reducible exact Kept.refl _
    | with_reducible refine (State.complete_kept _ _ _ _ _).after ?_
    | with_reducible refine (State.answer_kept _ _ _).after ?_
    | with_reducible refine (State.unpublishBlock_kept _ _ _).after ?_
    | with_reducible refine (each_kept ?_).after ?_
    | intro _
    | split)

end Sys2Proof.Machine
end

