-- ==== Sys2Proof/Laws/Kept/Summary.lean ====
section
/-!
SUPPORT. What each operation of Machine/Summary.lean keeps (Laws/Kept.lean says what that is).
-/
namespace Sys2Proof.Machine

theorem State.noteThrottle_kept (s : State) : Kept s (State.noteThrottle s) := by
  unfold State.noteThrottle
  try dsimp only
  repeat' (first
    | with_reducible exact Kept.refl _
    | with_reducible refine (onPower_kept ).after ?_
    | with_reducible refine Kept.ite ?_ ?_)

theorem State.interrupt_kept (s : State) (byte : Nat) : Kept s (State.interrupt s byte) := by
  unfold State.interrupt
  try dsimp only
  repeat' (first
    | with_reducible exact Kept.refl _
    | with_reducible rfl
    | with_reducible refine (onMgmt_kept ?_ ?_).after ?_)

theorem State.seeNow_kept (s : State) : Kept s (State.seeNow s) := by
  unfold State.seeNow
  try dsimp only
  repeat' (first
    | with_reducible exact Kept.refl _
    | with_reducible rfl
    | with_reducible refine (onMgmt_kept ?_ ?_).after ?_)

theorem State.alert_kept (s : State) : Kept s (State.alert s) := by
  unfold State.alert
  try dsimp only
  repeat' (first
    | with_reducible exact Kept.refl _
    | with_reducible refine (State.interrupt_kept _ _).after ?_
    | with_reducible refine (State.seeNow_kept _).after ?_
    | with_reducible refine Kept.ite ?_ ?_)

end Sys2Proof.Machine
end

