-- ==== Sys2Proof/Laws/Kept/Settle.lean ====
section
/-!
SUPPORT. What each operation of Machine/Settle.lean keeps (Laws/Kept.lean says what that is).
-/
namespace Sys2Proof.Machine

theorem State.endQueued_kept (s : State) (i : Instr) (st : Status) : Kept s (State.endQueued s i st) := by
  unfold State.endQueued
  try dsimp only
  repeat' (first
    | with_reducible exact Kept.refl _
    | with_reducible refine (State.answer_kept _ _ _).after ?_
    | with_reducible refine (State.rejectAppend_kept _ _ _).after ?_
    | with_reducible refine (State.endedAttend_kept _ _ _ _).after ?_
    | split)

theorem State.runQueued_kept (s : State) (h : Nat) (i : Instr) : Kept s (State.runQueued s h i) := by
  unfold State.runQueued
  try dsimp only
  repeat' (first
    | with_reducible exact Kept.refl _
    | with_reducible refine (State.runAppend_kept _ _ _ _ _).after ?_
    | with_reducible refine (State.runStage_kept _ _ _ _).after ?_
    | with_reducible refine (State.runDeliver_kept _ _ _).after ?_
    | with_reducible refine (State.runAttend_kept _ _ _ _).after ?_
    | with_reducible refine (State.enterAttend_kept _ _ _ _ _ _ ?_).after ?_
    | with_reducible refine (State.runHandoff_kept _ _ _).after ?_
    | with_reducible refine (State.runEndTurn_kept _ _ _).after ?_
    | with_reducible refine (State.runFree_kept _ _ _ _).after ?_
    | with_reducible refine (State.runPublish_kept _ _ _).after ?_
    | with_reducible refine (State.runUnpublish_kept _ _ _).after ?_
    | with_reducible refine (State.endQueued_kept _ _ _).after ?_
    | intro _
    | split)

theorem State.drainQueue_kept (s : State) (h : Nat) (x0 : Nat) : Kept s (State.drainQueue s h x0) := by
  induction x0 generalizing s h with
  | zero => rw [State.drainQueue]; exact Kept.refl _
  | succ n ih =>
    rw [State.drainQueue]
    try dsimp only
    repeat' (first
    | with_reducible exact Kept.refl _
    | with_reducible refine (ih _ _).after ?_
    | with_reducible refine (State.onSeq_kept _ _ _).after ?_
    | with_reducible refine (State.runQueued_kept _ _ _).after ?_
    | split)

theorem State.settleSeq_kept (s : State) (h : Nat) : Kept s (State.settleSeq s h) := by
  unfold State.settleSeq
  try dsimp only
  repeat' (first
    | with_reducible exact Kept.refl _
    | with_reducible refine (State.onSeq_kept _ _ _).after ?_
    | with_reducible refine (State.fitFixed_kept _ _).after ?_
    | with_reducible refine (State.cut_kept _ _).after ?_
    | with_reducible refine (State.acceptAll_kept _ _).after ?_
    | with_reducible refine (State.pumpAppends_kept _ _).after ?_
    | with_reducible refine (State.finishFreeing_kept _ _).after ?_
    | with_reducible refine (State.drainQueue_kept _ _ _).after ?_
    | split)

theorem State.noteIdle_kept (s : State) : Kept s (State.noteIdle s) := by
  unfold State.noteIdle
  try dsimp only
  repeat' (first
    | with_reducible exact Kept.refl _
    | with_reducible refine (onPower_kept ).after ?_)

theorem State.noteReadOnly_kept (s : State) : Kept s (State.noteReadOnly s) := by
  unfold State.noteReadOnly
  try dsimp only
  repeat' (first
    | with_reducible exact Kept.refl _
    | with_reducible refine (State.onFisland_kept _ _ _).after ?_
    | with_reducible refine (each_kept ?_).after ?_
    | intro _)

theorem State.eraseKey_kept (s : State) (k : TenantKey) : Kept s (State.eraseKey s k) := by
  unfold State.eraseKey
  try dsimp only
  repeat' (first
    | with_reducible exact Kept.refl _
    | with_reducible refine (onMortise_kept ).after ?_
    | with_reducible refine (onSec_kept ).after ?_
    | with_reducible refine (State.losePage_kept _ _ _ _).after ?_
    | with_reducible refine (State.deleteEntry_kept _ _ _ _ _).after ?_
    | with_reducible refine (each_kept ?_).after ?_
    | intro _)

theorem State.finishErases_kept (s : State) : Kept s (State.finishErases s) := by
  unfold State.finishErases
  try dsimp only
  repeat' (first
    | with_reducible exact Kept.refl _
    | with_reducible refine (State.eraseKey_kept _ _).after ?_
    | with_reducible refine (each_kept ?_).after ?_
    | intro _)

theorem State.settleWork_kept (s : State) : Kept s (State.settleWork s) := by
  unfold State.settleWork
  try dsimp only
  repeat' (first
    | with_reducible exact Kept.refl _
    | with_reducible refine (State.pumpInsertions_kept _).after ?_
    | with_reducible refine (State.pumpDies_kept _).after ?_
    | with_reducible refine (State.pumpPrograms_kept _).after ?_
    | with_reducible refine (State.pumpReads_kept _).after ?_
    | with_reducible refine (State.placeStaging_kept _ _).after ?_
    | with_reducible refine (State.pumpLookups_kept _).after ?_
    | with_reducible refine (State.endStages_kept _).after ?_
    | with_reducible refine (State.pumpStagings_kept _).after ?_
    | with_reducible refine (State.pumpAttends_kept _).after ?_
    | with_reducible refine (State.pumpJobs_kept _).after ?_
    | with_reducible refine (State.settleSeq_kept _ _).after ?_
    | with_reducible refine (State.noteIdle_kept _).after ?_
    | with_reducible refine (State.noteReadOnly_kept _).after ?_
    | with_reducible refine (State.finishErases_kept _).after ?_
    | with_reducible refine (each_kept ?_).after ?_
    | intro _
    | with_reducible refine Kept.ite ?_ ?_)

theorem State.settle_kept (s : State) : Kept s (State.settle s) := by
  unfold State.settle
  try dsimp only
  repeat' (first
    | with_reducible exact Kept.refl _
    | with_reducible refine (State.alert_kept _).after ?_
    | with_reducible refine (State.settleWork_kept _).after ?_)

theorem State.event_kept (s : State) (run : State → State) (h_run : ∀ a0, Kept a0 (run a0)) : Next s (State.event s run) := by
  unfold State.event
  try dsimp only
  repeat' (first
    | with_reducible apply Next.of
    | with_reducible exact Kept.refl _
    | with_reducible exact h_run _
    | with_reducible refine (State.settle_kept _).after ?_
    | with_reducible refine Kept.ite ?_ ?_)

theorem State.event_held (s : State) (run : State → State) (h_run : ∀ a0, Held a0 (run a0)) : NextHeld s (State.event s run) := by
  unfold State.event
  try dsimp only
  repeat' (first
    | with_reducible apply NextHeld.of
    | with_reducible exact Held.refl _
    | with_reducible exact h_run _
    | with_reducible refine (State.settle_kept _).held.after ?_
    | with_reducible refine Held.ite ?_ ?_)

theorem State.dropAsk_kept (s : State) (a : Ask) : Kept s (State.dropAsk s a) := by
  unfold State.dropAsk
  try dsimp only
  repeat' (first
    | with_reducible exact Kept.refl _
    | with_reducible refine (onBroker_kept ).after ?_)

theorem State.reply_kept (s : State) (r : Reply) (mine : AskKind → Bool) (run : Ask → State → State) (h_run : ∀ a0 a1, Kept a1 (run a0 a1)) : Kept s (State.reply s r mine run) := by
  unfold State.reply
  try dsimp only
  repeat' (first
    | with_reducible exact Kept.refl _
    | with_reducible refine (h_run _ _).after ?_
    | with_reducible refine (State.heard_kept _ _).after ?_
    | with_reducible refine (State.settle_kept _).after ?_
    | with_reducible refine (State.dropAsk_kept _ _).after ?_
    | split)

theorem State.reply_held (s : State) (r : Reply) (mine : AskKind → Bool) (run : Ask → State → State) (h_run : ∀ a0 a1, Held a1 (run a0 a1)) : Held s (State.reply s r mine run) := by
  unfold State.reply
  try dsimp only
  repeat' (first
    | with_reducible exact Held.refl _
    | with_reducible refine (h_run _ _).after ?_
    | with_reducible refine (State.heard_kept _ _).held.after ?_
    | with_reducible refine (State.settle_kept _).held.after ?_
    | with_reducible refine (State.dropAsk_kept _ _).held.after ?_
    | split)

theorem State.request_kept (s : State) (m : Rx) (op refBytes : Nat) (i : Instr) (run : State → State) (h_run : ∀ a0, Kept a0 (run a0)) : Kept s (State.request s m op refBytes i run) := by
  unfold State.request
  try dsimp only
  repeat' (first
    | with_reducible exact Kept.refl _
    | with_reducible assumption
    | with_reducible refine (State.receive_kept _ _ _ _ _ _ _ ?_).after ?_
    | with_reducible refine (State.enter_kept _ _ _ _ _ ?_).after ?_
    | with_reducible refine (State.settle_kept _).after ?_
    | intro _)

theorem State.request_held (s : State) (m : Rx) (op refBytes : Nat) (i : Instr) (run : State → State) (h_run : ∀ a0, Held a0 (run a0)) : Held s (State.request s m op refBytes i run) := by
  unfold State.request
  try dsimp only
  repeat' (first
    | with_reducible exact Held.refl _
    | with_reducible assumption
    | with_reducible refine (State.receive_held _ _ _ _ _ _ _ ?_).after ?_
    | with_reducible refine (State.enter_held _ _ _ _ _ ?_).after ?_
    | with_reducible refine (State.settle_kept _).held.after ?_
    | intro _)

end Sys2Proof.Machine
end

