-- ==== Sys2Proof/Laws/Kept/AppendCmds.lean ====
section
/-!
SUPPORT. What each operation of Machine/AppendCmds.lean keeps (Laws/Kept.lean says what that is).
-/
namespace Sys2Proof.Machine

theorem execAppend_kept (m : Rx) (b : AppendBody) (s : State) : Next s (execAppend m b s) := by
  unfold execAppend
  try dsimp only
  repeat' (first
    | with_reducible apply Next.of
    | with_reducible exact Kept.refl _
    | with_reducible refine (State.runAppend_kept _ _ _ _ _).after ?_
    | with_reducible refine (State.request_kept _ _ _ _ _ _ ?_).after ?_
    | intro _)

theorem execRefreshAppend_kept (m : Rx) (b : AppendBody) (s : State) : Next s (execRefreshAppend m b s) := by
  unfold execRefreshAppend
  try dsimp only
  repeat' (first
    | with_reducible apply Next.of
    | with_reducible exact Kept.refl _
    | with_reducible refine (State.runAppend_kept _ _ _ _ _).after ?_
    | with_reducible refine (State.request_kept _ _ _ _ _ _ ?_).after ?_
    | intro _)

theorem execAppendCompletion_kept (id : Nat) (s : State) : Next s (execAppendCompletion id s) := by
  unfold execAppendCompletion
  try dsimp only
  repeat' (first
    | with_reducible exact Kept.refl _
    | with_reducible refine (State.onAppend_kept _ _ _).after ?_
    | with_reducible refine (State.tryComplete_kept _ _ _).after ?_
    | with_reducible refine State.event_kept _ _ ?_
    | intro _
    | split)

theorem execFrameFreedForAppend_kept (id : Nat) (s : State) : Next s (execFrameFreedForAppend id s) := by
  unfold execFrameFreedForAppend
  try dsimp only
  repeat' (first
    | with_reducible exact Kept.refl _
    | with_reducible refine (State.tryAlloc_kept _ _).after ?_
    | with_reducible refine State.event_kept _ _ ?_
    | intro _
    | split)

theorem State.expireHold_kept (s : State) (a : Append) : Kept s (State.expireHold s a) := by
  unfold State.expireHold
  try dsimp only
  repeat' (first
    | with_reducible exact Kept.refl _
    | with_reducible refine (State.noFrame_kept _ _).after ?_
    | with_reducible refine (State.forceAlloc_kept _ _).after ?_
    | split)

theorem execAppendHoldExpiry_kept (id : Nat) (s : State) : Next s (execAppendHoldExpiry id s) := by
  unfold execAppendHoldExpiry
  try dsimp only
  repeat' (first
    | with_reducible exact Kept.refl _
    | with_reducible refine State.event_kept _ _ ?_
    | with_reducible refine (State.expireHold_kept _ _).after ?_
    | intro _
    | split)

theorem execStage_kept (m : Rx) (b : StageBody) (s : State) : Next s (execStage m b s) := by
  unfold execStage
  try dsimp only
  repeat' (first
    | with_reducible apply Next.of
    | with_reducible exact Kept.refl _
    | with_reducible refine (State.runStage_kept _ _ _ _).after ?_
    | with_reducible refine (State.request_kept _ _ _ _ _ _ ?_).after ?_
    | intro _)

theorem execStageAndPin_kept (m : Rx) (b : StageBody) (s : State) : Next s (execStageAndPin m b s) := by
  unfold execStageAndPin
  try dsimp only
  repeat' (first
    | with_reducible apply Next.of
    | with_reducible exact Kept.refl _
    | with_reducible refine (State.runStage_kept _ _ _ _).after ?_
    | with_reducible refine (State.request_kept _ _ _ _ _ _ ?_).after ?_
    | intro _)

theorem execClearPinned_kept (m : Rx) (b : StageBody) (s : State) : Next s (execClearPinned m b s) := by
  unfold execClearPinned
  try dsimp only
  repeat' (first
    | with_reducible apply Next.of
    | with_reducible exact Kept.refl _
    | with_reducible refine (State.runStage_kept _ _ _ _).after ?_
    | with_reducible refine (State.request_kept _ _ _ _ _ _ ?_).after ?_
    | intro _)

theorem execStagingDone_kept (id : Nat) (s : State) : Next s (execStagingDone id s) := by
  unfold execStagingDone
  try dsimp only
  repeat' (first
    | with_reducible exact Kept.refl _
    | with_reducible refine (State.onStaging_kept _ _ _).after ?_
    | with_reducible refine (State.finishStaging_kept _ _).after ?_
    | with_reducible refine State.event_kept _ _ ?_
    | intro _
    | split)

theorem State.releaseHeld_kept (s : State) (id : Nat) : Kept s (State.releaseHeld s id) := by
  unfold State.releaseHeld
  try dsimp only
  repeat' (first
    | with_reducible exact Kept.refl _
    | with_reducible refine (State.bump_kept _ _ _ _ _).after ?_
    | with_reducible refine (State.endRow_kept _ _ _ _ _).after ?_
    | with_reducible refine (each_kept ?_).after ?_
    | intro _
    | split)

theorem execStageTimeout_kept (id : Nat) (s : State) : Next s (execStageTimeout id s) := by
  unfold execStageTimeout
  try dsimp only
  repeat' (first
    | with_reducible exact Kept.refl _
    | with_reducible refine (State.bump_kept _ _ _ _ _).after ?_
    | with_reducible refine (State.endDelivery_kept _ _ _ _).after ?_
    | with_reducible refine (State.endStage_kept _ _ _ _).after ?_
    | with_reducible refine State.event_kept _ _ ?_
    | with_reducible refine (State.releaseHeld_kept _ _).after ?_
    | intro _
    | split)

theorem execDeliver_kept (m : Rx) (b : DeliverBody) (s : State) : Next s (execDeliver m b s) := by
  unfold execDeliver
  try dsimp only
  repeat' (first
    | with_reducible apply Next.of
    | with_reducible exact Kept.refl _
    | with_reducible refine (State.runDeliver_kept _ _ _).after ?_
    | with_reducible refine (State.request_kept _ _ _ _ _ _ ?_).after ?_
    | intro _)

theorem execDeliverLayerWrite_kept (id : Nat) (s : State) : Next s (execDeliverLayerWrite id s) := by
  unfold execDeliverLayerWrite
  try dsimp only
  repeat' (first
    | with_reducible exact Kept.refl _
    | with_reducible refine (State.endDelivery_kept _ _ _ _).after ?_
    | with_reducible refine (State.writeLayer_kept _ _).after ?_
    | with_reducible refine State.event_kept _ _ ?_
    | intro _
    | split)

theorem State.runProgress_kept (s : State) (m : Rx) (tag count : Nat) : Kept s (State.runProgress s m tag count) := by
  unfold State.runProgress
  try dsimp only
  repeat' (first
    | with_reducible exact Kept.refl _
    | with_reducible refine (State.answer_kept _ _ _).after ?_
    | with_reducible refine (State.onDelivery_kept _ _ _).after ?_
    | with_reducible refine (State.deliverWait_kept _ _).after ?_
    | split)

theorem execProgress_kept (m : Rx) (tag : W32) (count : W16) (s : State) : Next s (execProgress m tag count s) := by
  unfold execProgress
  try dsimp only
  repeat' (first
    | with_reducible apply Next.of
    | with_reducible exact Kept.refl _
    | with_reducible refine (State.receive_kept _ _ _ _ _ _ _ ?_).after ?_
    | with_reducible refine (State.settle_kept _).after ?_
    | with_reducible refine (State.runProgress_kept _ _ _ _).after ?_
    | intro _)

theorem execDeliveryIdleTimeout_kept (id : Nat) (s : State) : Next s (execDeliveryIdleTimeout id s) := by
  unfold execDeliveryIdleTimeout
  try dsimp only
  repeat' (first
    | with_reducible exact Kept.refl _
    | with_reducible refine (State.endDelivery_kept _ _ _ _).after ?_
    | with_reducible refine State.event_kept _ _ ?_
    | intro _
    | split)

theorem execDeliverCompletion_kept (id : Nat) (s : State) : Next s (execDeliverCompletion id s) := by
  unfold execDeliverCompletion
  try dsimp only
  repeat' (first
    | with_reducible exact Kept.refl _
    | with_reducible refine (State.endDelivery_kept _ _ _ _).after ?_
    | with_reducible refine State.event_kept _ _ ?_
    | intro _
    | split)

end Sys2Proof.Machine
end

