-- ==== Sys2Proof/Laws/Kept/AttendCmds.lean ====
section
/-!
SUPPORT. What each operation of Machine/AttendCmds.lean keeps (Laws/Kept.lean says what that is).
-/
namespace Sys2Proof.Machine

theorem execAttend_kept (m : Rx) (b : AttendBody) (s : State) : Next s (execAttend m b s) := by
  unfold execAttend
  try dsimp only
  repeat' (first
    | with_reducible apply Next.of
    | with_reducible exact Kept.refl _
    | with_reducible refine (State.receive_kept _ _ _ _ _ _ _ ?_).after ?_
    | with_reducible refine (State.runAttend_kept _ _ _ _).after ?_
    | with_reducible refine (State.enterAttend_kept _ _ _ _ _ _ ?_).after ?_
    | with_reducible refine (State.settle_kept _).after ?_
    | intro _)

theorem execTileIssue_kept (tile : Nat) (s : State) : Next s (execTileIssue tile s) := by
  unfold execTileIssue
  try dsimp only
  repeat' (first
    | with_reducible exact Kept.refl _
    | with_reducible refine (State.issueTile_kept _ _).after ?_
    | with_reducible refine State.event_kept _ _ ?_
    | intro _
    | split)

theorem execFuseWaitExpiry_kept (tile : Nat) (s : State) : Next s (execFuseWaitExpiry tile s) := by
  unfold execFuseWaitExpiry
  try dsimp only
  repeat' (first
    | with_reducible exact Kept.refl _
    | with_reducible refine (State.bump_kept _ _ _ _ _).after ?_
    | with_reducible refine (State.onTile_kept _ _ _).after ?_
    | with_reducible refine State.event_kept _ _ ?_
    | intro _
    | split)

theorem State.requeueGroup_kept (s : State) (g : Nat) : Kept s (State.requeueGroup s g) := by
  unfold State.requeueGroup
  try dsimp only
  repeat' (first
    | with_reducible exact Kept.refl _
    | with_reducible refine (onWork_kept ).after ?_
    | with_reducible refine (State.unpin_kept _ _).after ?_
    | split)

theorem State.fetchFailed_kept (s : State) (t : Tile) (p : Page) : Kept s (State.fetchFailed s t p) := by
  unfold State.fetchFailed
  try dsimp only
  repeat' (first
    | with_reducible exact Kept.refl _
    | with_reducible refine (State.bump_kept _ _ _ _ _).after ?_
    | with_reducible refine (State.report_kept _ _ _ _ _ _ _).after ?_
    | with_reducible refine (State.onPage_kept _ _ _).after ?_
    | with_reducible refine (State.losePage_kept _ _ _ _).after ?_
    | with_reducible refine (State.startRead_kept _ _ _ _ _ _).after ?_
    | with_reducible refine (State.loseRow_kept _ _ _).after ?_
    | with_reducible refine (State.requeueGroup_kept _ _).after ?_
    | with_reducible refine (each_kept ?_).after ?_
    | intro _
    | split)

theorem State.countExpand_kept (s : State) (core : Nat) (p : Page) (js : List Nat) : Kept s (State.countExpand s core p js) := by
  unfold State.countExpand
  try dsimp only
  repeat' (first
    | with_reducible exact Kept.refl _
    | with_reducible refine (State.bump_kept _ _ _ _ _).after ?_
    | with_reducible refine (State.bumpFree_kept _ _ _ _ _).after ?_
    | with_reducible refine Kept.ite ?_ ?_)

theorem State.computePage_kept (s : State) (t : Tile) (a : Attend) (r : Row) (q o : Seq) (p : Page) (bs : List Byte) (qs : List (List Val)) : Kept s (State.computePage s t a r q o p bs qs) := by
  unfold State.computePage
  try dsimp only
  repeat' (first
    | with_reducible exact Kept.refl _
    | with_reducible refine (State.onRow_kept _ _ _ _).after ?_
    | with_reducible refine (State.finishTile_kept _ _ _ _ _ _ _).after ?_
    | with_reducible refine (State.countExpand_kept _ _ _ _).after ?_
    | with_reducible refine Kept.ite ?_ ?_)

theorem State.computeTile_kept (s : State) (t : Tile) (a : Attend) (r : Row) (v : HbmVerdict) : Kept s (State.computeTile s t a r v) := by
  unfold State.computeTile
  try dsimp only
  repeat' (first
    | with_reducible exact Kept.refl _
    | with_reducible refine (State.report_kept _ _ _ _ _ _ _).after ?_
    | with_reducible refine (State.endRow_kept _ _ _ _ _).after ?_
    | with_reducible refine (State.loseRow_kept _ _ _).after ?_
    | with_reducible refine (State.finishTile_kept _ _ _ _ _ _ _).after ?_
    | with_reducible refine (State.requeueGroup_kept _ _).after ?_
    | with_reducible refine (State.fetchFailed_kept _ _ _).after ?_
    | with_reducible refine (State.computePage_kept _ _ _ _ _ _ _ _ _).after ?_
    | split)

theorem execTileCompute_kept (tile : Nat) (verdict : HbmVerdict) (s : State) : Next s (execTileCompute tile verdict s) := by
  unfold execTileCompute
  try dsimp only
  repeat' (first
    | with_reducible exact Kept.refl _
    | with_reducible refine (State.dropTile_kept _ _).after ?_
    | with_reducible refine State.event_kept _ _ ?_
    | with_reducible refine (State.computeTile_kept _ _ _ _ _).after ?_
    | intro _
    | split)

theorem execScarfMerge_kept (partial_ : Nat) (s : State) : Next s (execScarfMerge partial_ s) := by
  unfold execScarfMerge
  try dsimp only
  repeat' (first
    | with_reducible exact Kept.refl _
    | with_reducible refine (State.mergeUp_kept _ _).after ?_
    | with_reducible refine State.event_kept _ _ ?_
    | intro _
    | split)

theorem execAttendCompletion_kept (id : Nat) (s : State) : Next s (execAttendCompletion id s) := by
  unfold execAttendCompletion
  try dsimp only
  repeat' (first
    | with_reducible exact Kept.refl _
    | with_reducible refine (State.completeAttend_kept _ _).after ?_
    | with_reducible refine State.event_kept _ _ ?_
    | intro _
    | split)

end Sys2Proof.Machine
end

