-- ==== Sys2Proof/Laws/Kept/Placing.lean ====
section
/-!
SUPPORT. What each operation of Machine/Placing.lean keeps (Laws/Kept.lean says what that is).
-/
namespace Sys2Proof.Machine

theorem State.acceptAdmit_kept (s : State) (m : Rx) (b : AdmitBody) (tokens : List W32) : Kept s (State.acceptAdmit s m b tokens) := by
  unfold State.acceptAdmit
  try dsimp only
  repeat' (first
    | with_reducible exact Kept.refl _
    | with_reducible refine (State.answer_kept _ _ _).after ?_
    | with_reducible refine (State.onSeq_kept _ _ _).after ?_
    | with_reducible refine (State.fitFixed_kept _ _).after ?_
    | with_reducible refine (State.sync_kept _ _ _ _ _).after ?_
    | with_reducible refine (State.newSeq_kept _ _ _ _ _ _ _).after ?_
    | with_reducible refine (State.admitLookup_kept _ _ _).after ?_
    | split)

theorem State.runAdmit_kept (s : State) (m : Rx) (b : AdmitBody) (tokens : List W32) : Kept s (State.runAdmit s m b tokens) := by
  unfold State.runAdmit
  try dsimp only
  repeat' (first
    | with_reducible exact Kept.refl _
    | with_reducible refine (State.bump_kept _ _ _ _ _).after ?_
    | with_reducible refine (State.answer_kept _ _ _).after ?_
    | with_reducible refine (State.acceptAdmit_kept _ _ _ _).after ?_
    | split)

theorem State.readTokens_kept (s : State) (m : Rx) (op addr key len : Nat) (i : Instr) : Kept s (State.readTokens s m op addr key len i) := by
  unfold State.readTokens
  try dsimp only
  repeat' (first
    | with_reducible exact Kept.refl _
    | with_reducible refine (State.meterBytes_kept _ _ _ _).after ?_
    | with_reducible refine (State.rdmaRead_kept _ _ _ _ _ _ _ _ _ _).after ?_
    | split)

theorem execAdmit_kept (m : Rx) (b : AdmitBody) (s : State) : Next s (execAdmit m b s) := by
  unfold execAdmit
  try dsimp only
  repeat' (first
    | with_reducible apply Next.of
    | with_reducible exact Kept.refl _
    | with_reducible refine (State.receive_kept _ _ _ _ _ _ _ ?_).after ?_
    | with_reducible refine (State.settle_kept _).after ?_
    | with_reducible refine (State.runAdmit_kept _ _ _ _).after ?_
    | with_reducible refine (State.readTokens_kept _ _ _ _ _ _ _).after ?_
    | intro _
    | with_reducible refine Kept.ite ?_ ?_)

theorem execPlaceCompletion_kept (r : Reply) (s : State) : Next s (execPlaceCompletion r s) := by
  unfold execPlaceCompletion
  try dsimp only
  repeat' (first
    | with_reducible apply Next.of
    | with_reducible exact Kept.refl _
    | with_reducible refine (State.acceptPlace_kept _ _ _ _ _).after ?_
    | with_reducible refine (State.refusePlace_kept _ _ _ _ _).after ?_
    | with_reducible refine (State.reply_kept _ _ _ _ ?_).after ?_
    | intro _
    | split)

theorem execAcceptTimeout_kept (handle : W64) (s : State) : Next s (execAcceptTimeout handle s) := by
  unfold execAcceptTimeout
  try dsimp only
  repeat' (first
    | with_reducible exact Kept.refl _
    | with_reducible refine (State.refusePlace_kept _ _ _ _ _).after ?_
    | with_reducible refine State.event_kept _ _ ?_
    | intro _
    | split)

theorem State.dropLookups_kept (s : State) (h : Nat) : Kept s (State.dropLookups s h) := by
  unfold State.dropLookups
  try dsimp only
  repeat' (first
    | with_reducible exact Kept.refl _
    | with_reducible refine (onMortise_kept ).after ?_)

theorem State.waitEnds_kept (s : State) (h : Nat) (q : Seq) (ph : TurnPhase) : Kept s (State.waitEnds s h q ph) := by
  unfold State.waitEnds
  try dsimp only
  repeat' (first
    | with_reducible exact Kept.refl _
    | with_reducible refine (State.bump_kept _ _ _ _ _).after ?_
    | with_reducible refine (State.answerHandoff_kept _ _ _ _).after ?_
    | with_reducible refine (State.endTurn_kept _ _ _).after ?_
    | with_reducible refine (State.refuseAdmit_kept _ _ _).after ?_
    | with_reducible refine (State.dropLookups_kept _ _).after ?_
    | split)

theorem execPlacementWaitExpiry_kept (handle : W64) (s : State) : Next s (execPlacementWaitExpiry handle s) := by
  unfold execPlacementWaitExpiry
  try dsimp only
  repeat' (first
    | with_reducible exact Kept.refl _
    | with_reducible refine State.event_kept _ _ ?_
    | with_reducible refine (State.waitEnds_kept _ _ _ _).after ?_
    | intro _
    | split)

theorem execHandoff_kept (m : Rx) (b : HandoffBody) (s : State) : Next s (execHandoff m b s) := by
  unfold execHandoff
  try dsimp only
  repeat' (first
    | with_reducible apply Next.of
    | with_reducible exact Kept.refl _
    | with_reducible refine (State.runHandoff_kept _ _ _).after ?_
    | with_reducible refine (State.request_kept _ _ _ _ _ _ ?_).after ?_
    | intro _)

theorem execReleaseEndTurn_kept (m : Rx) (b : ReleaseBody) (s : State) : Next s (execReleaseEndTurn m b s) := by
  unfold execReleaseEndTurn
  try dsimp only
  repeat' (first
    | with_reducible apply Next.of
    | with_reducible exact Kept.refl _
    | with_reducible refine (State.runEndTurn_kept _ _ _).after ?_
    | with_reducible refine (State.request_kept _ _ _ _ _ _ ?_).after ?_
    | intro _)

theorem execReleaseFree_kept (m : Rx) (b : ReleaseBody) (s : State) : Next s (execReleaseFree m b s) := by
  unfold execReleaseFree
  try dsimp only
  repeat' (first
    | with_reducible apply Next.of
    | with_reducible exact Kept.refl _
    | with_reducible refine (State.runFree_kept _ _ _ _).after ?_
    | with_reducible refine (State.request_kept _ _ _ _ _ _ ?_).after ?_
    | intro _)

theorem execReleaseSecure_kept (m : Rx) (b : ReleaseBody) (s : State) : Next s (execReleaseSecure m b s) := by
  unfold execReleaseSecure
  try dsimp only
  repeat' (first
    | with_reducible apply Next.of
    | with_reducible exact Kept.refl _
    | with_reducible refine (State.runFree_kept _ _ _ _).after ?_
    | with_reducible refine (State.request_kept _ _ _ _ _ _ ?_).after ?_
    | intro _)

theorem execDrainComplete_kept (handle : W64) (s : State) : Next s (execDrainComplete handle s) := by
  unfold execDrainComplete
  try dsimp only
  repeat' (first
    | with_reducible exact Kept.refl _
    | with_reducible refine (State.endDrain_kept _ _ _).after ?_
    | with_reducible refine State.event_kept _ _ ?_
    | intro _
    | split)

theorem State.runLookupFor_kept (s : State) (m : Rx) (b : LookupBody) (tokens : List W32) : Kept s (State.runLookupFor s m b tokens) := by
  unfold State.runLookupFor
  try dsimp only
  repeat' (first
    | with_reducible exact Kept.refl _
    | with_reducible refine (State.newLookup_kept _ _ _ _ _ _ _ _ _ _).after ?_
    | with_reducible refine (State.startLookup_kept _ _).after ?_)

theorem execLookup_kept (m : Rx) (b : LookupBody) (s : State) : Next s (execLookup m b s) := by
  unfold execLookup
  try dsimp only
  repeat' (first
    | with_reducible apply Next.of
    | with_reducible exact Kept.refl _
    | with_reducible refine (State.answer_kept _ _ _).after ?_
    | with_reducible refine (State.receive_kept _ _ _ _ _ _ _ ?_).after ?_
    | with_reducible refine (State.settle_kept _).after ?_
    | with_reducible refine (State.readTokens_kept _ _ _ _ _ _ _).after ?_
    | with_reducible refine (State.runLookupFor_kept _ _ _ _).after ?_
    | intro _
    | with_reducible refine Kept.ite ?_ ?_)

theorem execPublish_kept (m : Rx) (b : PublishBody) (s : State) : Next s (execPublish m b s) := by
  unfold execPublish
  try dsimp only
  repeat' (first
    | with_reducible apply Next.of
    | with_reducible exact Kept.refl _
    | with_reducible refine (State.runPublish_kept _ _ _).after ?_
    | with_reducible refine (State.request_kept _ _ _ _ _ _ ?_).after ?_
    | intro _)

theorem execUnpublish_kept (m : Rx) (first : BitVec 23) (s : State) : Next s (execUnpublish m first s) := by
  unfold execUnpublish
  try dsimp only
  repeat' (first
    | with_reducible apply Next.of
    | with_reducible exact Kept.refl _
    | with_reducible refine (State.runUnpublish_kept _ _ _).after ?_
    | with_reducible refine (State.request_kept _ _ _ _ _ _ ?_).after ?_
    | intro _)

theorem execSecondLevelSearchDone_kept (id : Nat) (s : State) : Next s (execSecondLevelSearchDone id s) := by
  unfold execSecondLevelSearchDone
  try dsimp only
  repeat' (first
    | with_reducible exact Kept.refl _
    | with_reducible refine (State.secondDone_kept _ _).after ?_
    | with_reducible refine (State.keepLookup_kept _ _).after ?_
    | with_reducible refine (State.turnLookup_kept _ _).after ?_
    | with_reducible refine State.event_kept _ _ ?_
    | intro _
    | split)

end Sys2Proof.Machine
end

