-- ==== Sys2Proof/Laws/Kept/Fabric.lean ====
section
/-!
SUPPORT. What each operation of Machine/Fabric.lean keeps (Laws/Kept.lean says what that is).
-/
namespace Sys2Proof.Machine

theorem State.newCommandRing_kept (s : State) (n qp : Nat) (r : CmReq) : Kept s (State.newCommandRing s n qp r).2 := by
  unfold State.newCommandRing
  try dsimp only
  repeat' (first
    | with_reducible exact Kept.refl _
    | with_reducible refine (State.free_kept _).after ?_)

theorem State.openQp_kept (s : State) (r : CmReq) {o0 : State} (h_o : State.openQp s r = some o0) : Kept s o0 := by
  suffices key : ∀ o, State.openQp s r = some o → Kept s o from key _ h_o
  clear h_o
  intro o h_o
  unfold State.openQp at h_o
  try dsimp only at h_o
  repeat (any_goals (first | split at h_o | (with_reducible replace h_o := map_some_kept h_o; obtain ⟨_, _, h_o⟩ := h_o)))
  all_goals try (exact absurd h_o (by simp only [reduceCtorEq, not_false_eq_true]))
  all_goals try (first | cases h_o | (injection h_o with h_o; try subst h_o))
  all_goals try dsimp only
  all_goals repeat' (first
    | with_reducible exact Kept.refl _
    | with_reducible refine (onNet_kept ).after ?_
    | with_reducible refine (State.control_kept _ _ _).after ?_
    | with_reducible refine (State.newCommandRing_kept _ _ _ _).after ?_)

theorem execCmReq_kept (r : CmReq) (s : State) : Next s (execCmReq r s) := by
  unfold execCmReq
  try dsimp only
  repeat' (first
    | with_reducible exact Kept.refl _
    | with_reducible refine (State.control_kept _ _ _).after ?_
    | with_reducible refine State.event_kept _ _ ?_
    | with_reducible refine (State.openQp_kept _ _ (by assumption)).after ?_
    | intro _
    | split)

theorem execCmRtu_kept (qp : Nat) (s : State) : Next s (execCmRtu qp s) := by
  unfold execCmRtu
  try dsimp only
  repeat' (first
    | with_reducible exact Kept.refl _
    | with_reducible refine (State.onQp_kept _ _ _).after ?_
    | with_reducible refine State.event_kept _ _ ?_
    | intro _)

theorem execCmDisconnect_kept (qp : Nat) (s : State) : Next s (execCmDisconnect qp s) := by
  unfold execCmDisconnect
  try dsimp only
  repeat' (first
    | with_reducible exact Kept.refl _
    | with_reducible refine (onNet_kept ).after ?_
    | with_reducible refine (State.control_kept _ _ _).after ?_
    | with_reducible refine (State.qpError_kept _ _ _).after ?_
    | with_reducible refine State.event_kept _ _ ?_
    | intro _
    | split)

theorem State.sendAck_kept (s : State) (q : Qp) : Kept s (State.sendAck s q) := by
  unfold State.sendAck
  try dsimp only
  repeat' (first
    | with_reducible exact Kept.refl _
    | with_reducible refine (State.onQp_kept _ _ _).after ?_
    | with_reducible refine (State.control_kept _ _ _).after ?_)

theorem State.rxPackets_kept (s : State) (q : Qp) (n : Nat) : Kept s (State.rxPackets s q n) := by
  unfold State.rxPackets
  try dsimp only
  repeat' (first
    | with_reducible exact Kept.refl _
    | with_reducible refine (State.onQp_kept _ _ _).after ?_
    | with_reducible refine (State.sendAck_kept _ _).after ?_
    | with_reducible refine Kept.ite ?_ ?_)

theorem execAckCoalescingTimeout_kept (qp : Nat) (s : State) : Next s (execAckCoalescingTimeout qp s) := by
  unfold execAckCoalescingTimeout
  try dsimp only
  repeat' (first
    | with_reducible exact Kept.refl _
    | with_reducible refine State.event_kept _ _ ?_
    | with_reducible refine (State.sendAck_kept _ _).after ?_
    | intro _
    | split)

theorem State.refuseAccess_kept (s : State) (q : Qp) : Kept s (State.refuseAccess s q) := by
  unfold State.refuseAccess
  try dsimp only
  repeat' (first
    | with_reducible exact Kept.refl _
    | with_reducible refine (State.control_kept _ _ _).after ?_
    | with_reducible refine (State.qpError_kept _ _ _).after ?_)

theorem State.refuseCode_kept (s : State) (q : Qp) (length : Nat) (bs : List Byte) : Kept s (State.refuseCode s q length bs) := by
  unfold State.refuseCode
  try dsimp only
  repeat' (first
    | with_reducible exact Kept.refl _
    | with_reducible refine (State.answer_kept _ _ _).after ?_
    | with_reducible refine (State.noteRefusal_kept _ _ _ _).after ?_
    | with_reducible refine (State.vet_kept _ _ _ _ _ _ _ _ ?_).after ?_
    | intro _
    | with_reducible refine Kept.ite ?_ ?_)

theorem State.ringTake_kept (s : State) (q : Qp) (r : Ring) (w : RingWrite) (n : Nat) : Kept s (State.ringTake s q r w n) := by
  unfold State.ringTake
  try dsimp only
  repeat' (first
    | with_reducible exact Kept.refl _
    | with_reducible refine (State.onRing_kept _ _ _).after ?_
    | with_reducible refine (State.refuseCode_kept _ _ _ _).after ?_
    | with_reducible refine Kept.ite ?_ ?_)

theorem execRingMessageWrite_kept (w : RingWrite) (s : State) : Next s (execRingMessageWrite w s) := by
  unfold execRingMessageWrite
  try dsimp only
  repeat' (first
    | with_reducible exact Kept.refl _
    | with_reducible refine (State.onRing_kept _ _ _).after ?_
    | with_reducible refine (State.answer_kept _ _ _).after ?_
    | with_reducible refine (State.heard_kept _ _).after ?_
    | with_reducible refine State.event_kept _ _ ?_
    | with_reducible refine (State.rxPackets_kept _ _ _).after ?_
    | with_reducible refine (State.refuseAccess_kept _ _).after ?_
    | with_reducible refine (State.ringTake_kept _ _ _ _ _).after ?_
    | intro _
    | split)

theorem execRingConsumerUpdate_kept (qp : Nat) (value : W64) (s : State) : Next s (execRingConsumerUpdate qp value s) := by
  unfold execRingConsumerUpdate
  try dsimp only
  repeat' (first
    | with_reducible exact Kept.refl _
    | with_reducible refine (State.onRing_kept _ _ _).after ?_
    | with_reducible refine State.event_kept _ _ ?_
    | with_reducible refine (State.rxPackets_kept _ _ _).after ?_
    | intro _
    | split)

theorem execSendReceived_kept (qp length : Nat) (s : State) : Next s (execSendReceived qp length s) := by
  unfold execSendReceived
  try dsimp only
  repeat' (first
    | with_reducible exact Kept.refl _
    | with_reducible refine (onNet_kept ).after ?_
    | with_reducible refine (State.control_kept _ _ _).after ?_
    | with_reducible refine State.event_kept _ _ ?_
    | with_reducible refine (State.rxPackets_kept _ _ _).after ?_
    | intro _
    | split)

theorem execNodeReadOrWriteRefused_kept (qp : Nat) (isRead : Bool) (s : State) : Next s (execNodeReadOrWriteRefused qp isRead s) := by
  unfold execNodeReadOrWriteRefused
  try dsimp only
  repeat' (first
    | with_reducible exact Kept.refl _
    | with_reducible refine (State.control_kept _ _ _).after ?_
    | with_reducible refine State.event_kept _ _ ?_
    | with_reducible refine (State.refuseAccess_kept _ _).after ?_
    | intro _
    | split)

theorem State.writeEntry_kept (s : State) (r : Ring) (q : Qp) (svc cls tenant bytes : Nat) (m : Option Msg) : Kept s (State.writeEntry s r q svc cls tenant bytes m) := by
  unfold State.writeEntry
  try dsimp only
  repeat' (first
    | with_reducible exact Kept.refl _
    | with_reducible refine (State.onRing_kept _ _ _).after ?_
    | with_reducible refine (State.post_kept _ _ _ _ _ _).after ?_)

theorem execCompletionRingWrite_kept (ring : Nat) (s : State) : Next s (execCompletionRingWrite ring s) := by
  unfold execCompletionRingWrite
  try dsimp only
  repeat' (first
    | with_reducible exact Kept.refl _
    | with_reducible refine (State.onRing_kept _ _ _).after ?_
    | with_reducible refine State.event_kept _ _ ?_
    | with_reducible refine (State.writeEntry_kept _ _ _ _ _ _ _ _).after ?_
    | intro _
    | split)

theorem State.readDone_kept (s : State) (r : DevRead) (bs : List Byte) : Kept s (State.readDone s r bs) := by
  unfold State.readDone
  try dsimp only
  repeat' (first
    | with_reducible exact Kept.refl _
    | with_reducible refine (State.appendRead_kept _ _ _).after ?_
    | with_reducible refine (State.attendRead_kept _ _ _).after ?_
    | with_reducible refine (State.runAdmit_kept _ _ _ _).after ?_
    | with_reducible refine (State.runLookupFor_kept _ _ _ _).after ?_
    | split)

theorem execRdmaReadComplete_kept (id : Nat) (result : ReadResult) (s : State) : Next s (execRdmaReadComplete id result s) := by
  unfold execRdmaReadComplete
  try dsimp only
  repeat' (first
    | with_reducible exact Kept.refl _
    | with_reducible refine (State.endRead_kept _ _).after ?_
    | with_reducible refine (State.qpError_kept _ _ _).after ?_
    | with_reducible refine State.event_kept _ _ ?_
    | with_reducible refine (State.readDone_kept _ _ _).after ?_
    | intro _
    | split)

theorem State.freeAcked_kept (s : State) (q : Nat) (count : Nat) : Kept s (State.freeAcked s q count) := by
  unfold State.freeAcked
  try dsimp only
  repeat' (first
    | with_reducible exact Kept.refl _
    | with_reducible refine (onBroker_kept ).after ?_
    | with_reducible refine (State.shootDown_kept _ _ _).after ?_
    | with_reducible refine (each_kept ?_).after ?_
    | intro _)

theorem State.ackPackets_kept (s : State) (q : Qp) (n : Nat) : Kept s (State.ackPackets s q n) := by
  unfold State.ackPackets
  try dsimp only
  repeat' (first
    | with_reducible exact Kept.refl _
    | with_reducible refine (State.onQp_kept _ _ _).after ?_
    | with_reducible refine (State.freeAcked_kept _ _ _).after ?_)

theorem State.resend_kept (s : State) (q : Qp) : Kept s (State.resend s q) := by
  unfold State.resend
  try dsimp only
  repeat' (first
    | with_reducible exact Kept.refl _
    | with_reducible refine (onNet_kept ).after ?_
    | with_reducible refine (State.fresh_kept _).after ?_
    | with_reducible refine (State.bump_kept _ _ _ _ _).after ?_
    | with_reducible refine (State.onQp_kept _ _ _).after ?_
    | with_reducible refine Kept.ite ?_ ?_)

theorem State.retry_kept (s : State) (q : Qp) : Kept s (State.retry s q) := by
  unfold State.retry
  try dsimp only
  repeat' (first
    | with_reducible exact Kept.refl _
    | with_reducible refine (State.reportUnit_kept _ _ _ _ _).after ?_
    | with_reducible refine (State.onQp_kept _ _ _).after ?_
    | with_reducible refine (State.qpError_kept _ _ _).after ?_
    | with_reducible refine (State.resend_kept _ _).after ?_
    | with_reducible refine Kept.ite ?_ ?_)

theorem execAckReceived_kept (qp : Nat) (kind : AckKind) (s : State) : Next s (execAckReceived qp kind s) := by
  unfold execAckReceived
  try dsimp only
  repeat' (first
    | with_reducible exact Kept.refl _
    | with_reducible refine (State.qpError_kept _ _ _).after ?_
    | with_reducible refine State.event_kept _ _ ?_
    | with_reducible refine (State.ackPackets_kept _ _ _).after ?_
    | with_reducible refine (State.retry_kept _ _).after ?_
    | intro _
    | split)

theorem execAckTimeout_kept (qp : Nat) (s : State) : Next s (execAckTimeout qp s) := by
  unfold execAckTimeout
  try dsimp only
  repeat' (first
    | with_reducible exact Kept.refl _
    | with_reducible refine State.event_kept _ _ ?_
    | with_reducible refine (State.retry_kept _ _).after ?_
    | intro _
    | split)

theorem execRnrNakReceived_kept (qp : Nat) (s : State) : Next s (execRnrNakReceived qp s) := by
  unfold execRnrNakReceived
  try dsimp only
  repeat' (first
    | with_reducible exact Kept.refl _
    | with_reducible refine (State.onQp_kept _ _ _).after ?_
    | with_reducible refine (State.qpError_kept _ _ _).after ?_
    | with_reducible refine State.event_kept _ _ ?_
    | with_reducible refine (State.resend_kept _ _).after ?_
    | intro _
    | split)

theorem execCePacketReceived_kept (qp : Nat) (s : State) : Next s (execCePacketReceived qp s) := by
  unfold execCePacketReceived
  try dsimp only
  repeat' (first
    | with_reducible exact Kept.refl _
    | with_reducible refine (State.bump_kept _ _ _ _ _).after ?_
    | with_reducible refine (State.onQp_kept _ _ _).after ?_
    | with_reducible refine (State.control_kept _ _ _).after ?_
    | with_reducible refine State.event_kept _ _ ?_
    | intro _
    | split)

theorem execCnpReceived_kept (qp : Nat) (s : State) : Next s (execCnpReceived qp s) := by
  unfold execCnpReceived
  try dsimp only
  repeat' (first
    | with_reducible exact Kept.refl _
    | with_reducible refine (State.bump_kept _ _ _ _ _).after ?_
    | with_reducible refine (State.onQp_kept _ _ _).after ?_
    | with_reducible refine State.event_kept _ _ ?_
    | intro _
    | split)

theorem execRateIncreaseEvent_kept (qp : Nat) (s : State) : Next s (execRateIncreaseEvent qp s) := by
  unfold execRateIncreaseEvent
  try dsimp only
  repeat' (first
    | with_reducible exact Kept.refl _
    | with_reducible refine (State.onQp_kept _ _ _).after ?_
    | with_reducible refine State.event_kept _ _ ?_
    | intro _
    | split)

theorem execAlphaTimerExpiry_kept (qp : Nat) (s : State) : Next s (execAlphaTimerExpiry qp s) := by
  unfold execAlphaTimerExpiry
  try dsimp only
  repeat' (first
    | with_reducible exact Kept.refl _
    | with_reducible refine (State.onQp_kept _ _ _).after ?_
    | with_reducible refine State.event_kept _ _ ?_
    | intro _
    | split)

theorem State.onLp_kept (s : State) (n : Nat) (f : LogicalPort → LogicalPort) : Kept s (State.onLp s n f) := by
  unfold State.onLp
  try dsimp only
  repeat' (first
    | with_reducible exact Kept.refl _
    | with_reducible refine (onNet_kept ).after ?_)

theorem State.portEvent_kept (s : State) (n : Nat) (run : State → LogicalPort → State) (h_run : ∀ a0 a1, Kept a0 (run a0 a1)) : Next s (State.portEvent s n run) := by
  unfold State.portEvent
  try dsimp only
  repeat' (first
    | with_reducible exact Kept.refl _
    | with_reducible exact h_run _ _
    | with_reducible refine State.event_kept _ _ ?_
    | intro _
    | split)

theorem State.portEvent_held (s : State) (n : Nat) (run : State → LogicalPort → State) (h_run : ∀ a0 a1, Held a0 (run a0 a1)) : NextHeld s (State.portEvent s n run) := by
  unfold State.portEvent
  try dsimp only
  repeat' (first
    | with_reducible exact Held.refl _
    | with_reducible exact h_run _ _
    | with_reducible refine State.event_held _ _ ?_
    | intro _
    | split)

theorem execPfcFrameReceived_kept (lp : Nat) (pause enable : BitVec 8) (s : State) : Next s (execPfcFrameReceived lp pause enable s) := by
  unfold execPfcFrameReceived
  try dsimp only
  repeat' (first
    | with_reducible exact Kept.refl _
    | with_reducible refine (State.bump_kept _ _ _ _ _).after ?_
    | with_reducible refine (State.onLp_kept _ _ _).after ?_
    | with_reducible refine State.portEvent_kept _ _ _ ?_
    | with_reducible refine (foldl_kept ?_).after ?_
    | intro _
    | with_reducible refine Kept.ite ?_ ?_)

theorem execIngressBufferThreshold_kept (lp share : Nat) (s : State) : Next s (execIngressBufferThreshold lp share s) := by
  unfold execIngressBufferThreshold
  try dsimp only
  repeat' (first
    | with_reducible exact Kept.refl _
    | with_reducible refine (State.bump_kept _ _ _ _ _).after ?_
    | with_reducible refine (State.control_kept _ _ _).after ?_
    | with_reducible refine (State.onLp_kept _ _ _).after ?_
    | with_reducible refine State.portEvent_kept _ _ _ ?_
    | intro _
    | with_reducible refine Kept.ite ?_ ?_)

theorem execPauseWatchdog_kept (lp priority : Nat) (s : State) : Next s (execPauseWatchdog lp priority s) := by
  unfold execPauseWatchdog
  try dsimp only
  repeat' (first
    | with_reducible exact Kept.refl _
    | with_reducible refine (State.bump_kept _ _ _ _ _).after ?_
    | with_reducible refine (State.reportUnit_kept _ _ _ _ _).after ?_
    | with_reducible refine (State.onLp_kept _ _ _).after ?_
    | with_reducible refine State.portEvent_kept _ _ _ ?_
    | intro _
    | split)

theorem execFrameCheckDrop_kept (lp : Nat) (check : FrameCheck) (s : State) : Next s (execFrameCheckDrop lp check s) := by
  unfold execFrameCheckDrop
  try dsimp only
  repeat' (first
    | with_reducible exact Kept.refl _
    | with_reducible refine (State.bump_kept _ _ _ _ _).after ?_
    | with_reducible refine (State.reportUnit_kept _ _ _ _ _).after ?_
    | with_reducible refine State.portEvent_kept _ _ _ ?_
    | intro _
    | split)

theorem execUnsupportedFrameDrop_kept (lp : Nat) (frame : UnsupportedFrame) (s : State) : Next s (execUnsupportedFrameDrop lp frame s) := by
  unfold execUnsupportedFrameDrop
  try dsimp only
  repeat' (first
    | with_reducible exact Kept.refl _
    | with_reducible refine (State.bump_kept _ _ _ _ _).after ?_
    | with_reducible refine State.portEvent_kept _ _ _ ?_
    | intro _
    | split)

end Sys2Proof.Machine
end

