-- ==== Sys2Proof/Laws/Kept/Egress.lean ====
section
/-!
SUPPORT. What each operation of Machine/Egress.lean keeps (Laws/Kept.lean says what that is).
-/
namespace Sys2Proof.Machine

theorem State.ensureSub_kept (s : State) (e : Egress) : Kept s (State.ensureSub s e) := by
  unfold State.ensureSub
  try dsimp only
  repeat' (first
    | with_reducible exact Kept.refl _
    | with_reducible refine (onNet_kept ).after ?_
    | with_reducible refine Kept.ite ?_ ?_)

theorem State.dropIdleSubs_kept (s : State) (die : Nat) : Kept s (State.dropIdleSubs s die) := by
  unfold State.dropIdleSubs
  try dsimp only
  repeat' (first
    | with_reducible exact Kept.refl _
    | with_reducible refine (onNet_kept ).after ?_)

theorem State.frameCharge_kept (s : State) (e : Egress) {o0 : State} (h_o : State.frameCharge s e = some o0) : Kept s o0 := by
  suffices key : ∀ o, State.frameCharge s e = some o → Kept s o from key _ h_o
  clear h_o
  intro o h_o
  unfold State.frameCharge at h_o
  try dsimp only at h_o
  repeat (any_goals (split at h_o))
  all_goals try (exact absurd h_o (by simp only [reduceCtorEq, not_false_eq_true]))
  all_goals try (first | cases h_o | (injection h_o with h_o; try subst h_o))
  all_goals try dsimp only
  all_goals repeat' (first
    | with_reducible exact Kept.refl _
    | with_reducible refine (State.charge_kept _ _ (by assumption)).after ?_)

theorem State.noteChoice_kept (s : State) (p : LogicalPort) (svcs : List (Nat × Int)) (subs : List (Subscriber × Int)) : Kept s (State.noteChoice s p svcs subs) := by
  unfold State.noteChoice
  try dsimp only
  repeat' (first
    | with_reducible exact Kept.refl _
    | with_reducible refine (onNet_kept ).after ?_
    | with_reducible refine (State.onLp_kept _ _ _).after ?_)

theorem State.takeTokens_kept (s : State) (p : LogicalPort) (x : Subscriber) (q : Qp) (e : Egress) : Kept s (State.takeTokens s p x q e) := by
  unfold State.takeTokens
  try dsimp only
  repeat' (first
    | with_reducible exact Kept.refl _
    | with_reducible refine (onNet_kept ).after ?_
    | with_reducible refine (State.onQp_kept _ _ _).after ?_
    | with_reducible refine (State.onLp_kept _ _ _).after ?_)

theorem State.countFrame_kept (s : State) (x : Subscriber) (q : Qp) (e : Egress) : Kept s (State.countFrame s x q e) := by
  unfold State.countFrame
  try dsimp only
  repeat' (first
    | with_reducible exact Kept.refl _
    | with_reducible refine (State.bump_kept _ _ _ _ _).after ?_
    | with_reducible refine (State.onQp_kept _ _ _).after ?_
    | with_reducible refine Kept.ite ?_ ?_)

theorem State.advance_kept (s : State) (q : Qp) (e : Egress) : Kept s (State.advance s q e) := by
  unfold State.advance
  try dsimp only
  repeat' (first
    | with_reducible exact Kept.refl _
    | with_reducible refine (onBroker_kept ).after ?_
    | with_reducible refine (onNet_kept ).after ?_
    | with_reducible refine (State.meterBytes_kept _ _ _ _).after ?_
    | with_reducible refine (State.emit_kept _ _ _).after ?_
    | split)

theorem State.sendFrame_kept (s : State) (p : LogicalPort) (v : Nat) (svcs : List (Nat × Int)) : Kept s (State.sendFrame s p v svcs) := by
  unfold State.sendFrame
  try dsimp only
  repeat' (first
    | with_reducible exact Kept.refl _
    | with_reducible refine (State.dropIdleSubs_kept _ _).after ?_
    | with_reducible refine (State.noteChoice_kept _ _ _ _).after ?_
    | with_reducible refine (State.takeTokens_kept _ _ _ _ _).after ?_
    | with_reducible refine (State.countFrame_kept _ _ _ _).after ?_
    | with_reducible refine (State.advance_kept _ _ _).after ?_
    | with_reducible refine (State.frameCharge_kept _ _ (by assumption)).after ?_
    | split)

theorem State.markEgress_kept (s : State) (p : LogicalPort) : Kept s (State.markEgress s p) := by
  unfold State.markEgress
  try dsimp only
  repeat' (first
    | with_reducible exact Kept.refl _
    | with_reducible refine (State.markWait_kept _ _).after ?_
    | with_reducible refine (each_kept ?_).after ?_
    | intro _)

theorem execEgressFrameSend_kept (lp : Nat) (s : State) : Next s (execEgressFrameSend lp s) := by
  unfold execEgressFrameSend
  try dsimp only
  repeat' (first
    | with_reducible exact Kept.refl _
    | with_reducible refine (State.emit_kept _ _ _).after ?_
    | with_reducible refine (State.onLp_kept _ _ _).after ?_
    | with_reducible refine State.portEvent_kept _ _ _ ?_
    | with_reducible refine (State.ensureSub_kept _ _).after ?_
    | with_reducible refine (State.sendFrame_kept _ _ _ _).after ?_
    | with_reducible refine (State.markEgress_kept _ _).after ?_
    | with_reducible refine (each_kept ?_).after ?_
    | intro _
    | split)

theorem State.openWindow_kept (s : State) (old : State) (die : Nat) : Kept s (State.openWindow s old die) := by
  unfold State.openWindow
  try dsimp only
  repeat' (first
    | with_reducible exact Kept.refl _
    | with_reducible refine (onNet_kept ).after ?_
    | with_reducible refine (State.dropIdleSubs_kept _ _).after ?_)

theorem execShaperWindowBoundary_kept (die : Nat) (s : State) : Next s (execShaperWindowBoundary die s) := by
  unfold execShaperWindowBoundary
  try dsimp only
  repeat' (first
    | with_reducible exact Kept.refl _
    | with_reducible refine State.event_kept _ _ ?_
    | with_reducible refine (State.openWindow_kept _ _ _).after ?_
    | intro _
    | with_reducible refine Kept.ite ?_ ?_)

end Sys2Proof.Machine
end

