-- ==== Sys2Proof/Laws/Kept/Moves.lean ====
section
/-!
SUPPORT. What each operation of Machine/Moves.lean keeps (Laws/Kept.lean says what that is).
-/
namespace Sys2Proof.Machine

theorem State.readForMove_kept (s : State) (q : Seq) (p : Page) (kind : MoveKind) : Kept s (State.readForMove s q p kind) := by
  unfold State.readForMove
  try dsimp only
  repeat' (first
    | with_reducible exact Kept.refl _
    | with_reducible refine (State.onPage_kept _ _ _).after ?_
    | with_reducible refine (State.startRead_kept _ _ _ _ _ _).after ?_
    | split)

theorem State.startMove_kept (s : State) (q : Seq) (p : Page) (kind : MoveKind) : Kept s (State.startMove s q p kind) := by
  unfold State.startMove
  try dsimp only
  repeat' (first
    | with_reducible exact Kept.refl _
    | with_reducible refine (State.bump_kept _ _ _ _ _).after ?_
    | with_reducible refine (State.addMove_kept _ _ _).after ?_
    | with_reducible refine (State.readForMove_kept _ _ _ _).after ?_
    | with_reducible refine Kept.ite ?_ ?_)

theorem State.scanSeq_kept (s : State) (q : Seq) : Kept s (State.scanSeq s q) := by
  unfold State.scanSeq
  try dsimp only
  repeat' (first
    | with_reducible exact Kept.refl _
    | with_reducible refine (State.onSeq_kept _ _ _).after ?_
    | with_reducible refine (State.assignBatch_kept _ _ _ _).after ?_
    | with_reducible refine (State.startMove_kept _ _ _ _).after ?_
    | with_reducible refine (each_kept ?_).after ?_
    | intro _
    | split)

theorem execAgeScanVisit_kept (handle : W64) (s : State) : Next s (execAgeScanVisit handle s) := by
  unfold execAgeScanVisit
  try dsimp only
  repeat' (first
    | with_reducible exact Kept.refl _
    | with_reducible refine (State.charged_kept _ _ _ ?_).after ?_
    | with_reducible refine State.event_kept _ _ ?_
    | with_reducible refine (State.scanSeq_kept _ _).after ?_
    | intro _
    | split)

theorem State.onMove_kept (s : State) (id : Nat) (f : Move → Move) : Kept s (State.onMove s id f) := by
  unfold State.onMove
  try dsimp only
  repeat' (first
    | with_reducible exact Kept.refl _
    | with_reducible refine (onWork_kept ).after ?_)

theorem State.dropMove_kept (s : State) (m : Move) (p : Option Page) : Kept s (State.dropMove s m p) := by
  unfold State.dropMove
  try dsimp only
  repeat' (first
    | with_reducible exact Kept.refl _
    | with_reducible refine (State.freeLpn_kept _ _ _).after ?_
    | with_reducible refine (State.endMove_kept _ _).after ?_
    | split)

theorem State.unitSeq_kept (s : State) (i sb slot lpn : Nat) : Kept s (State.unitSeq s i sb slot lpn) := by
  unfold State.unitSeq
  try dsimp only
  repeat' (first
    | with_reducible exact Kept.refl _
    | with_reducible refine (onFlash_kept ).after ?_
    | split)

theorem State.beginProgram_kept (s : State) (m : Move) (l k : Nat) : Kept s (State.beginProgram s m l k) := by
  unfold State.beginProgram
  try dsimp only
  repeat' (first
    | with_reducible exact Kept.refl _
    | with_reducible refine (State.noteWrites_kept _ _ _).after ?_
    | with_reducible refine (State.onMove_kept _ _ _).after ?_)

theorem State.programMove_kept (s : State) (m : Move) (q : Seq) (p : Page) (cls : Nat) (archive : Bool) (why : ProgramFor) (bs : List Byte) : Kept s (State.programMove s m q p cls archive why bs) := by
  unfold State.programMove
  try dsimp only
  repeat' (first
    | with_reducible exact Kept.refl _
    | with_reducible refine (State.markWait_kept _ _).after ?_
    | with_reducible refine (State.programData_kept _ _ _ _ _ _ _ _ _).after ?_
    | with_reducible refine (State.unitSeq_kept _ _ _ _ _).after ?_
    | with_reducible refine (State.beginProgram_kept _ _ _ _).after ?_
    | with_reducible refine (State.chargeProgram_kept _ _ _ _ _ _ (by assumption)).after ?_
    | with_reducible refine (State.programFine_kept _ _ _ _ _ _ _ (by assumption)).after ?_
    | split)

theorem State.copyOut_kept (s : State) (m : Move) (q : Seq) (p : Page) (cls : Nat) : Kept s (State.copyOut s m q p cls) := by
  unfold State.copyOut
  try dsimp only
  repeat' (first
    | with_reducible exact Kept.refl _
    | with_reducible refine (State.onPage_kept _ _ _).after ?_
    | with_reducible refine (State.toFlash_kept _ _ _).after ?_
    | with_reducible refine (State.dropMove_kept _ _ _).after ?_
    | with_reducible refine (State.programMove_kept _ _ _ _ _ _ _ _).after ?_
    | split)

theorem State.gather_kept (s : State) (p fmt : Nat) (raw : List Byte) : Kept s (State.gather s p fmt raw) := by
  unfold State.gather
  try dsimp only
  repeat' (first
    | with_reducible exact Kept.refl _
    | with_reducible refine (State.onPacker_kept _ _ _).after ?_)

theorem State.passOver_kept (s : State) (m : Move) (q : Seq) (p : Page) (raw : List Byte) : Kept s (State.passOver s m q p raw) := by
  unfold State.passOver
  try dsimp only
  repeat' (first
    | with_reducible exact Kept.refl _
    | with_reducible refine (State.meterBursts_kept _ _ _ _).after ?_
    | with_reducible refine (State.onPage_kept _ _ _).after ?_
    | with_reducible refine (State.endMove_kept _ _).after ?_
    | with_reducible refine (State.gather_kept _ _ _ _).after ?_)

theorem State.storePacked_kept (s : State) (m : Move) (q : Seq) (p : Page) (gen a : Nat) (img : List Byte) : Kept s (State.storePacked s m q p gen a img) := by
  unfold State.storePacked
  try dsimp only
  repeat' (first
    | with_reducible exact Kept.refl _
    | with_reducible refine (State.bump_kept _ _ _ _ _).after ?_
    | with_reducible refine (State.meterBursts_kept _ _ _ _).after ?_
    | with_reducible refine (State.onPage_kept _ _ _).after ?_
    | with_reducible refine (State.putBytes_kept _ _ _).after ?_
    | with_reducible refine (State.shootPage_kept _ _ _ _).after ?_
    | with_reducible refine (State.freeCopy_kept _ _).after ?_)

theorem State.packPage_kept (s : State) (m : Move) (q : Seq) (p : Page) : Kept s (State.packPage s m q p) := by
  unfold State.packPage
  try dsimp only
  repeat' (first
    | with_reducible exact Kept.refl _
    | with_reducible refine (State.bump_kept _ _ _ _ _).after ?_
    | with_reducible refine (State.charged_kept _ _ _ ?_).after ?_
    | with_reducible refine (State.passOver_kept _ _ _ _ _).after ?_
    | with_reducible refine (State.storePacked_kept _ _ _ _ _ _ _).after ?_
    | with_reducible refine (State.takeRun_kept _ _ _ _ _ (by assumption)).after ?_
    | intro _
    | split)

theorem State.newPlace_kept (s : State) (q : Seq) (p : Page) (avoid : Nat) {o0 : Nat} {o1 : List Nat} {o2 : State} (h_o : State.newPlace s q p avoid = some (o0, o1, o2)) : Kept s o2 := by
  suffices key : ∀ o, State.newPlace s q p avoid = some o → Kept s o.2.2 from key _ h_o
  clear h_o
  intro o h_o
  unfold State.newPlace at h_o
  try dsimp only at h_o
  repeat (any_goals (first | split at h_o | (with_reducible replace h_o := map_some_kept h_o; obtain ⟨_, _, h_o⟩ := h_o)))
  all_goals try (exact absurd h_o (by simp only [reduceCtorEq, not_false_eq_true]))
  all_goals try (first | cases h_o | (injection h_o with h_o; try subst h_o))
  all_goals try dsimp only
  all_goals repeat' (first
    | with_reducible exact Kept.refl _
    | with_reducible refine (State.takeFrames_kept _ _).after ?_
    | with_reducible refine (State.takeRun_kept _ _ _ _ _ (by assumption)).after ?_)

theorem State.rePlace_kept (s : State) (q : Seq) (p : Page) (avoid : Nat) (k : State → State) {o0 : State} (h_o : State.rePlace s q p avoid k = some o0) (h_k : ∀ a0, Kept a0 (k a0)) : Kept s o0 := by
  suffices key : ∀ o, State.rePlace s q p avoid k = some o → Kept s o from key _ h_o
  clear h_o
  intro o h_o
  unfold State.rePlace at h_o
  try dsimp only at h_o
  repeat (any_goals (first | split at h_o | (with_reducible replace h_o := map_some_kept h_o; obtain ⟨_, _, h_o⟩ := h_o)))
  all_goals try (exact absurd h_o (by simp only [reduceCtorEq, not_false_eq_true]))
  all_goals try (first | cases h_o | (injection h_o with h_o; try subst h_o))
  all_goals try dsimp only
  all_goals repeat' (first
    | with_reducible exact Kept.refl _
    | with_reducible refine (h_k _).after ?_
    | with_reducible refine (State.bump_kept _ _ _ _ _).after ?_
    | with_reducible refine (State.charged_kept _ _ _ ?_).after ?_
    | with_reducible refine (State.meterBursts_kept _ _ _ _).after ?_
    | with_reducible refine (State.onPage_kept _ _ _).after ?_
    | with_reducible refine (State.putBytes_kept _ _ _).after ?_
    | with_reducible refine (State.shootPage_kept _ _ _ _).after ?_
    | with_reducible refine (State.newPlace_kept _ _ _ _ (by assumption)).after ?_
    | intro _
    | split)

theorem State.rePlace_held (s : State) (q : Seq) (p : Page) (avoid : Nat) (k : State → State) {o0 : State} (h_o : State.rePlace s q p avoid k = some o0) (h_k : ∀ a0, Held a0 (k a0)) : Held s o0 := by
  suffices key : ∀ o, State.rePlace s q p avoid k = some o → Held s o from key _ h_o
  clear h_o
  intro o h_o
  unfold State.rePlace at h_o
  try dsimp only at h_o
  repeat (any_goals (first | split at h_o | (with_reducible replace h_o := map_some_kept h_o; obtain ⟨_, _, h_o⟩ := h_o)))
  all_goals try (exact absurd h_o (by simp only [reduceCtorEq, not_false_eq_true]))
  all_goals try (first | cases h_o | (injection h_o with h_o; try subst h_o))
  all_goals try dsimp only
  all_goals repeat' (first
    | with_reducible exact Held.refl _
    | with_reducible refine (h_k _).after ?_
    | with_reducible refine (State.bump_kept _ _ _ _ _).held.after ?_
    | with_reducible refine (State.charged_held _ _ _ ?_).after ?_
    | with_reducible refine (State.meterBursts_kept _ _ _ _).held.after ?_
    | with_reducible refine (State.onPage_kept _ _ _).held.after ?_
    | with_reducible refine (State.putBytes_kept _ _ _).held.after ?_
    | with_reducible refine (State.shootPage_kept _ _ _ _).held.after ?_
    | with_reducible refine (State.newPlace_kept _ _ _ _ (by assumption)).held.after ?_
    | intro _
    | split)

theorem State.drainOut_kept (s : State) (m : Move) (q : Seq) (p : Page) : Kept s (State.drainOut s m q p) := by
  unfold State.drainOut
  try dsimp only
  repeat' (first
    | with_reducible exact Kept.refl _
    | with_reducible refine (State.assignBatch_kept _ _ _ _).after ?_
    | with_reducible refine (State.copyOut_kept _ _ _ _ _).after ?_
    | split)

theorem State.drainPage_kept (s : State) (m : Move) (q : Seq) (p : Page) : Kept s (State.drainPage s m q p) := by
  unfold State.drainPage
  try dsimp only
  repeat' (first
    | with_reducible exact Kept.refl _
    | with_reducible refine (State.bump_kept _ _ _ _ _).after ?_
    | with_reducible refine (State.lose_kept _ _ _).after ?_
    | with_reducible refine (State.dropMove_kept _ _ _).after ?_
    | with_reducible refine (State.copyOut_kept _ _ _ _ _).after ?_
    | with_reducible refine (State.drainOut_kept _ _ _ _).after ?_
    | with_reducible refine (State.rePlace_kept _ _ _ _ _ (by assumption) ?_).after ?_
    | intro _
    | split)

theorem State.makeMove_kept (s : State) (m : Move) (q : Seq) (p : Page) : Kept s (State.makeMove s m q p) := by
  unfold State.makeMove
  try dsimp only
  repeat' (first
    | with_reducible exact Kept.refl _
    | with_reducible refine (State.programMove_kept _ _ _ _ _ _ _ _).after ?_
    | with_reducible refine (State.copyOut_kept _ _ _ _ _).after ?_
    | with_reducible refine (State.packPage_kept _ _ _ _).after ?_
    | with_reducible refine (State.drainPage_kept _ _ _ _).after ?_
    | split)

theorem State.skipMove_kept (s : State) (m : Move) : Kept s (State.skipMove s m) := by
  unfold State.skipMove
  try dsimp only
  repeat' (first
    | with_reducible exact Kept.refl _
    | with_reducible refine (State.bump_kept _ _ _ _ _).after ?_
    | with_reducible refine (State.unplace_kept _ _ _ _).after ?_
    | split)

theorem execPageMove_kept (id : Nat) (s : State) : Next s (execPageMove id s) := by
  unfold execPageMove
  try dsimp only
  repeat' (first
    | with_reducible exact Kept.refl _
    | with_reducible refine State.event_kept _ _ ?_
    | with_reducible refine (State.dropMove_kept _ _ _).after ?_
    | with_reducible refine (State.makeMove_kept _ _ _ _).after ?_
    | with_reducible refine (State.skipMove_kept _ _).after ?_
    | intro _
    | split)

theorem execShootdownComplete_kept (id : Nat) (s : State) : Next s (execShootdownComplete id s) := by
  unfold execShootdownComplete
  try dsimp only
  repeat' (first
    | with_reducible exact Kept.refl _
    | with_reducible refine (State.shootdownDone_kept _ _).after ?_
    | with_reducible refine State.event_kept _ _ ?_
    | intro _
    | split)

theorem execExtentEvacuation_kept (extent : Nat) (s : State) : Next s (execExtentEvacuation extent s) := by
  unfold execExtentEvacuation
  try dsimp only
  repeat' (first
    | with_reducible exact Kept.refl _
    | exact fun s => (Kept.refl s)
    | with_reducible refine (State.bump_kept _ _ _ _ _).after ?_
    | with_reducible refine State.event_kept _ _ ?_
    | with_reducible refine (each_kept ?_).after ?_
    | with_reducible refine (State.rePlace_kept _ _ _ _ _ (by assumption) ?_).after ?_
    | with_reducible refine (getD_kept ?_).after ?_
    | intro _
    | split)

theorem State.growHeads_kept (s : State) (q : Seq) : Kept s (State.growHeads s q) := by
  unfold State.growHeads
  try dsimp only
  repeat' (first
    | with_reducible exact Kept.refl _
    | with_reducible refine (State.onSeq_kept _ _ _).after ?_
    | with_reducible refine (State.fitFixed_kept _ _).after ?_
    | with_reducible refine Kept.ite ?_ ?_)

theorem execHeadTableGrowth_kept (handle : W64) (s : State) : Next s (execHeadTableGrowth handle s) := by
  unfold execHeadTableGrowth
  try dsimp only
  repeat' (first
    | with_reducible exact Kept.refl _
    | with_reducible refine (State.beginAlloc_kept _ _).after ?_
    | with_reducible refine State.event_kept _ _ ?_
    | with_reducible refine (State.growHeads_kept _ _).after ?_
    | intro _
    | split)

theorem execTableBuild_kept (partition : Nat) (s : State) : Next s (execTableBuild partition s) := by
  unfold execTableBuild
  try dsimp only
  repeat' (first
    | with_reducible exact Kept.refl _
    | with_reducible refine (State.bump_kept _ _ _ _ _).after ?_
    | with_reducible refine (State.charged_kept _ _ _ ?_).after ?_
    | with_reducible refine (State.onPacker_kept _ _ _).after ?_
    | with_reducible refine State.event_kept _ _ ?_
    | intro _
    | split)

theorem execTableSetInstalled_kept (partition : Nat) (s : State) : Next s (execTableSetInstalled partition s) := by
  unfold execTableSetInstalled
  try dsimp only
  repeat' (first
    | with_reducible exact Kept.refl _
    | with_reducible refine (State.onPacker_kept _ _ _).after ?_
    | with_reducible refine State.event_kept _ _ ?_
    | intro _
    | split)

end Sys2Proof.Machine
end

