-- ==== Sys2Proof/Laws/Kept/FlashCmds.lean ====
section
/-!
SUPPORT. What each operation of Machine/FlashCmds.lean keeps (Laws/Kept.lean says what that is).
-/
namespace Sys2Proof.Machine

theorem State.flashEvent_kept (s : State) (num : Nat) (run : Nat → State → State) (h_run : ∀ a0 a1, Kept a1 (run a0 a1)) : Next s (State.flashEvent s num run) := by
  unfold State.flashEvent
  try dsimp only
  repeat' (first
    | with_reducible exact Kept.refl _
    | with_reducible exact h_run _ _
    | with_reducible refine State.event_kept _ _ ?_
    | intro _
    | with_reducible refine Kept.ite ?_ ?_)

theorem State.flashEvent_held (s : State) (num : Nat) (run : Nat → State → State) (h_run : ∀ a0 a1, Held a1 (run a0 a1)) : NextHeld s (State.flashEvent s num run) := by
  unfold State.flashEvent
  try dsimp only
  repeat' (first
    | with_reducible exact Held.refl _
    | with_reducible exact h_run _ _
    | with_reducible refine State.event_held _ _ ?_
    | intro _
    | with_reducible refine Held.ite ?_ ?_)

theorem execFlashProgramConfirm_kept (island superblock row : Nat) (s : State) : Next s (execFlashProgramConfirm island superblock row s) := by
  unfold execFlashProgramConfirm
  try dsimp only
  repeat' (first
    | with_reducible exact Kept.refl _
    | with_reducible refine (State.confirmRows_kept _ _ _ _).after ?_
    | with_reducible refine State.flashEvent_kept _ _ _ ?_
    | intro _)

theorem execRowPadTimeout_kept (island superblock row : Nat) (s : State) : Next s (execRowPadTimeout island superblock row s) := by
  unfold execRowPadTimeout
  try dsimp only
  repeat' (first
    | with_reducible exact Kept.refl _
    | with_reducible refine (State.padRow_kept _ _ _ _).after ?_
    | with_reducible refine State.flashEvent_kept _ _ _ ?_
    | intro _
    | with_reducible refine Kept.ite ?_ ?_)

theorem State.noteRead_kept (s : State) (b : Superblock) (slot : Nat) (v : FlashVerdict) : Kept s (State.noteRead s b slot v) := by
  unfold State.noteRead
  try dsimp only
  repeat' (first
    | with_reducible exact Kept.refl _
    | with_reducible refine (State.bump_kept _ _ _ _ _).after ?_
    | with_reducible refine (State.reportUnit_kept _ _ _ _ _).after ?_
    | with_reducible refine (each_kept ?_).after ?_
    | intro _
    | split)

theorem State.restoreClean_kept (s : State) (k : PageKey) (lpn : Nat) (bs : List Byte) : Kept s (State.restoreClean s k lpn bs) := by
  unfold State.restoreClean
  try dsimp only
  repeat' (first
    | with_reducible exact Kept.refl _
    | with_reducible refine (State.bump_kept _ _ _ _ _).after ?_
    | with_reducible refine (State.onPage_kept _ _ _).after ?_
    | with_reducible refine (State.putBytes_kept _ _ _).after ?_
    | with_reducible refine (State.shootPage_kept _ _ _ _).after ?_
    | with_reducible refine (State.toFlash_kept _ _ _).after ?_
    | with_reducible refine (State.newPlace_kept _ _ _ _ (by assumption)).after ?_
    | split)

theorem State.kerfRead_kept (s : State) (m : Move) (q : Seq) (p : Page) (bs : List Byte) : Kept s (State.kerfRead s m q p bs) := by
  unfold State.kerfRead
  try dsimp only
  repeat' (first
    | with_reducible exact Kept.refl _
    | with_reducible refine (State.bump_kept _ _ _ _ _).after ?_
    | with_reducible refine (State.peak_kept _ _ _ _ _).after ?_
    | with_reducible refine (State.onMove_kept _ _ _).after ?_
    | with_reducible refine (State.dropMove_kept _ _ _).after ?_
    | split)

theorem State.moveRead_kept (s : State) (k : PageKey) (kind : MoveKind) (bs : List Byte) : Kept s (State.moveRead s k kind bs) := by
  unfold State.moveRead
  try dsimp only
  repeat' (first
    | with_reducible exact Kept.refl _
    | with_reducible refine (State.assignBatch_kept _ _ _ _).after ?_
    | with_reducible refine (State.onMove_kept _ _ _).after ?_
    | with_reducible refine (State.dropMove_kept _ _ _).after ?_
    | with_reducible refine (State.kerfRead_kept _ _ _ _ _).after ?_
    | split)

theorem State.readFails_kept (s : State) (r : FlashRead) (die : Nat) : Kept s (State.readFails s r die) := by
  unfold State.readFails
  try dsimp only
  repeat' (first
    | with_reducible exact Kept.refl _
    | with_reducible refine (State.bump_kept _ _ _ _ _).after ?_
    | with_reducible refine (State.losePage_kept _ _ _ _).after ?_
    | with_reducible refine (State.flashLost_kept _ _ _).after ?_
    | with_reducible refine (State.failStaging_kept _ _ _ _).after ?_
    | with_reducible refine (State.dropMove_kept _ _ _).after ?_
    | split)

theorem State.readArrives_kept (s : State) (r : FlashRead) : Kept s (State.readArrives s r) := by
  unfold State.readArrives
  try dsimp only
  repeat' (first
    | with_reducible exact Kept.refl _
    | with_reducible refine (State.onStaging_kept _ _ _).after ?_
    | with_reducible refine (State.restoreClean_kept _ _ _ _).after ?_
    | with_reducible refine (State.moveRead_kept _ _ _ _).after ?_
    | split)

theorem State.endFlashRead_kept (s : State) (r : FlashRead) (lpn : Nat) (verdict : FlashVerdict) : Kept s (State.endFlashRead s r lpn verdict).2 := by
  unfold State.endFlashRead
  try dsimp only
  repeat' (first
    | with_reducible exact Kept.refl _
    | with_reducible refine (State.oweAll_kept _ _).after ?_
    | with_reducible refine (State.noteRead_kept _ _ _ _).after ?_
    | split)

theorem State.endFlashReads_kept (s : State) (r : FlashRead) (verdict : FlashVerdict) (l : List Nat) : Kept s (State.endFlashReads s r verdict l).2 := by
  unfold State.endFlashReads
  try dsimp only
  repeat' (first
    | with_reducible exact Kept.refl _
    | with_reducible refine (State.endFlashRead_kept _ _ _ _).after ?_
    | with_reducible refine (foldl_kept_snd ?_).after ?_
    | intro _)

theorem execFlashReadComplete_kept (id : Nat) (verdict : FlashVerdict) (s : State) : Next s (execFlashReadComplete id verdict s) := by
  unfold execFlashReadComplete
  try dsimp only
  repeat' (first
    | with_reducible exact Kept.refl _
    | with_reducible refine (onFlash_kept ).after ?_
    | with_reducible refine State.event_kept _ _ ?_
    | with_reducible refine (State.readFails_kept _ _ _).after ?_
    | with_reducible refine (State.readArrives_kept _ _).after ?_
    | with_reducible refine (Kept.snd (State.endFlashReads_kept _ _ _ _) (by assumption)).after ?_
    | intro _
    | split)

theorem State.retireMember_kept (s : State) (i n member : Nat) : Kept s (State.retireMember s i n member) := by
  unfold State.retireMember
  try dsimp only
  repeat' (first
    | with_reducible exact Kept.refl _
    | with_reducible refine (onFlash_kept ).after ?_
    | with_reducible refine (State.onFisland_kept _ _ _).after ?_
    | with_reducible refine (State.journal_kept _ _ _).after ?_
    | with_reducible refine (State.onSb_kept _ _ _ _).after ?_
    | split)

theorem execFlashEraseFailure_kept (island superblock member : Nat) (s : State) : Next s (execFlashEraseFailure island superblock member s) := by
  unfold execFlashEraseFailure
  try dsimp only
  repeat' (first
    | with_reducible exact Kept.refl _
    | with_reducible refine (State.bump_kept _ _ _ _ _).after ?_
    | with_reducible refine (State.reportUnit_kept _ _ _ _ _).after ?_
    | with_reducible refine State.flashEvent_kept _ _ _ ?_
    | with_reducible refine (State.retireMember_kept _ _ _ _).after ?_
    | intro _
    | split)

theorem State.programFails_kept (s : State) (i n slot : Nat) (b : Superblock) : Kept s (State.programFails s i n slot b) := by
  unfold State.programFails
  try dsimp only
  repeat' (first
    | with_reducible exact Kept.refl _
    | with_reducible refine (State.reportUnit_kept _ _ _ _ _).after ?_
    | with_reducible refine (State.onSb_kept _ _ _ _).after ?_
    | with_reducible refine (State.closeSb_kept _ _ _).after ?_
    | with_reducible refine Kept.ite ?_ ?_)

theorem execFlashProgramFailure_kept (island superblock slot : Nat) (s : State) : Next s (execFlashProgramFailure island superblock slot s) := by
  unfold execFlashProgramFailure
  try dsimp only
  repeat' (first
    | with_reducible exact Kept.refl _
    | with_reducible refine (State.replaceProgram_kept _ _ _).after ?_
    | with_reducible refine State.flashEvent_kept _ _ _ ?_
    | with_reducible refine (State.programFails_kept _ _ _ _ _).after ?_
    | intro _
    | split)

theorem State.targetFails_kept (s : State) (i superblock member : Nat) (b : Superblock) : Kept s (State.targetFails s i superblock member b) := by
  unfold State.targetFails
  try dsimp only
  repeat' (first
    | with_reducible exact Kept.refl _
    | with_reducible refine (onFlash_kept ).after ?_
    | with_reducible refine (State.owe_kept _ _).after ?_
    | with_reducible refine (State.onSb_kept _ _ _ _).after ?_
    | with_reducible refine (each_kept ?_).after ?_
    | with_reducible refine (State.relocate_kept _ _ (by assumption)).after ?_
    | with_reducible refine (State.relocateUnit_kept _ _ _ _ (by assumption)).after ?_
    | with_reducible refine (getD_map_kept ?_).after ?_
    | with_reducible refine (getD_kept ?_).after ?_
    | intro _)

theorem execGcTargetFailure_kept (island superblock member : Nat) (s : State) : Next s (execGcTargetFailure island superblock member s) := by
  unfold execGcTargetFailure
  try dsimp only
  repeat' (first
    | with_reducible exact Kept.refl _
    | with_reducible refine State.flashEvent_kept _ _ _ ?_
    | with_reducible refine (State.targetFails_kept _ _ _ _ _).after ?_
    | intro _
    | split)

theorem State.gcJob_kept (s : State) (i : Nat) (b : Superblock) (foreground : Bool) (job : List FlashPage) : Kept s (State.gcJob s i b foreground job).2 := by
  unfold State.gcJob
  dsimp only
  split
  · exact State.markWait_kept _ _
  · next h =>
    split
    · exact Kept.refl _
    · next t k =>
      refine Kept.trans (State.chargeTo_kept _ _ _ h) ?_
      split at k
      · exact State.relocateUnit_kept _ _ _ _ k
      · obtain ⟨_, _, k⟩ := bind_some_kept k
        exact State.relocate_kept _ _ k

theorem State.gcSb_kept (s : State) (i n : Nat) (foreground : Bool) : Kept s (State.gcSb s i n foreground) := by
  unfold State.gcSb
  try dsimp only
  repeat' (first
    | with_reducible exact Kept.refl _
    | with_reducible refine (State.gcJob_kept _ _ _ _ _).after ?_
    | with_reducible refine (foldl_kept_snd ?_).after ?_
    | intro _
    | split)

theorem State.consolidate_kept (s : State) (i : Nat) (q : Seq) {o0 : State} (h_o : State.consolidate s i q = some o0) : Kept s o0 := by
  suffices key : ∀ o, State.consolidate s i q = some o → Kept s o from key _ h_o
  clear h_o
  intro o h_o
  unfold State.consolidate at h_o
  try dsimp only at h_o
  repeat (any_goals (first | split at h_o | (with_reducible replace h_o := map_some_kept h_o; obtain ⟨_, _, h_o⟩ := h_o)))
  all_goals try (exact absurd h_o (by simp only [reduceCtorEq, not_false_eq_true]))
  all_goals try (first | cases h_o | (injection h_o with h_o; try subst h_o))
  all_goals try dsimp only
  all_goals repeat' (first
    | with_reducible exact Kept.refl _
    | with_reducible refine (onFlash_kept ).after ?_
    | with_reducible refine (State.bump_kept _ _ _ _ _).after ?_
    | with_reducible refine (State.programData_kept _ _ _ _ _ _ _ _ _).after ?_
    | with_reducible refine (State.takeUnit_kept _ _).after ?_
    | with_reducible refine (State.unitSeq_kept _ _ _ _ _).after ?_
    | with_reducible refine (foldl_kept_snd ?_).after ?_
    | with_reducible refine (State.takeSlots_kept _ _ _ _ _ (by assumption)).after ?_
    | intro _)

theorem State.consolidateCold_kept (s : State) (i : Nat) (tlc : Bool) : Kept s (State.consolidateCold s i tlc) := by
  unfold State.consolidateCold
  try dsimp only
  repeat' (first
    | with_reducible exact Kept.refl _
    | with_reducible refine (State.markWait_kept _ _).after ?_
    | with_reducible refine (State.chargeTo_kept _ _ _ (by assumption)).after ?_
    | with_reducible refine (State.consolidate_kept _ _ _ (by assumption)).after ?_
    | with_reducible refine (getD_kept ?_).after ?_
    | intro _
    | split)

theorem execGarbageCollection_kept (island : Nat) (tlc : Bool) (s : State) : Next s (execGarbageCollection island tlc s) := by
  unfold execGarbageCollection
  try dsimp only
  repeat' (first
    | with_reducible exact Kept.refl _
    | with_reducible refine (State.bump_kept _ _ _ _ _).after ?_
    | with_reducible refine (State.onSb_kept _ _ _ _).after ?_
    | with_reducible refine State.flashEvent_kept _ _ _ ?_
    | with_reducible refine (State.gcSb_kept _ _ _ _).after ?_
    | with_reducible refine (State.consolidateCold_kept _ _ _).after ?_
    | intro _
    | split)

theorem State.eraseVictim_kept (s : State) (i n : Nat) (b : Superblock) : Kept s (State.eraseVictim s i n b) := by
  unfold State.eraseVictim
  try dsimp only
  repeat' (first
    | with_reducible exact Kept.refl _
    | with_reducible refine (onFlash_kept ).after ?_
    | with_reducible refine (State.bump_kept _ _ _ _ _).after ?_
    | with_reducible refine (State.eraseSb_kept _ _ _).after ?_
    | with_reducible refine (State.retireMember_kept _ _ _ _).after ?_
    | split)

theorem execVictimErase_kept (island superblock : Nat) (s : State) : Next s (execVictimErase island superblock s) := by
  unfold execVictimErase
  try dsimp only
  repeat' (first
    | with_reducible exact Kept.refl _
    | with_reducible refine (State.charged_kept _ _ _ ?_).after ?_
    | with_reducible refine State.flashEvent_kept _ _ _ ?_
    | with_reducible refine (State.eraseVictim_kept _ _ _ _).after ?_
    | intro _
    | split)

theorem execSecureReleaseComplete_kept (handle : W64) (s : State) : Next s (execSecureReleaseComplete handle s) := by
  unfold execSecureReleaseComplete
  try dsimp only
  repeat' (first
    | with_reducible exact Kept.refl _
    | with_reducible refine (onFlash_kept ).after ?_
    | with_reducible refine (State.peak_kept _ _ _ _ _).after ?_
    | with_reducible refine (State.complete_kept _ _ _ _ _).after ?_
    | with_reducible refine State.event_kept _ _ ?_
    | intro _
    | split)

theorem State.programSystem_kept (s : State) (i : Nat) (x : FlashPage) {o0 : State} (h_o : State.programSystem s i x = some o0) : Kept s o0 := by
  suffices key : ∀ o, State.programSystem s i x = some o → Kept s o from key _ h_o
  clear h_o
  intro o h_o
  unfold State.programSystem at h_o
  try dsimp only at h_o
  repeat (any_goals (first | split at h_o | (with_reducible replace h_o := map_some_kept h_o; obtain ⟨_, _, h_o⟩ := h_o)))
  all_goals try (exact absurd h_o (by simp only [reduceCtorEq, not_false_eq_true]))
  all_goals try (first | cases h_o | (injection h_o with h_o; try subst h_o))
  all_goals try dsimp only
  all_goals repeat' (first
    | with_reducible exact Kept.refl _
    | with_reducible refine (State.programSlot_kept _ _ _ _ _ _).after ?_
    | with_reducible refine (State.takeSlots_kept _ _ _ _ _ (by assumption)).after ?_)

theorem State.writeJournal_kept (s : State) (i ckpt : Nat) (rs : List JournalRec) {o0 : State} (h_o : State.writeJournal s i ckpt rs = some o0) : Kept s o0 := by
  suffices key : ∀ o, State.writeJournal s i ckpt rs = some o → Kept s o from key _ h_o
  clear h_o
  intro o h_o
  unfold State.writeJournal at h_o
  try dsimp only at h_o
  repeat (any_goals (first | split at h_o | (with_reducible replace h_o := map_some_kept h_o; obtain ⟨_, _, h_o⟩ := h_o)))
  all_goals try (exact absurd h_o (by simp only [reduceCtorEq, not_false_eq_true]))
  all_goals try (first | cases h_o | (injection h_o with h_o; try subst h_o))
  all_goals try dsimp only
  all_goals repeat' (first
    | with_reducible exact Kept.refl _
    | with_reducible refine (State.onFisland_kept _ _ _).after ?_
    | with_reducible refine (State.programSystem_kept _ _ _ (by assumption)).after ?_)

theorem State.writeRecs_kept (s : State) (i ckpt : Nat) (rs : List JournalRec) : Kept s (State.writeRecs s i ckpt rs) := by
  unfold State.writeRecs
  refine elim_kept fun x h => (State.bump_kept _ _ _ _ _).after ?_
  obtain ⟨u, hu, ku⟩ := foldl_kept_some (fun a j t h => by
    obtain ⟨b, hb, h⟩ := bind_some_kept h
    exact ⟨b, hb, State.writeJournal_kept _ _ _ _ h⟩) h
  cases hu
  exact (State.onFisland_kept _ _ _).trans ku

theorem State.flushJournal_kept (s : State) (i : Nat) : Kept s (State.flushJournal s i) := by
  unfold State.flushJournal
  try dsimp only
  repeat' (first
    | with_reducible exact Kept.refl _
    | with_reducible refine (State.charged_kept _ _ _ ?_).after ?_
    | with_reducible refine (State.writeRecs_kept _ _ _ _).after ?_
    | intro _
    | split)

theorem State.flushNow_kept (s : State) (i : Nat) : Kept s (State.flushNow s i) := by
  unfold State.flushNow
  try dsimp only
  repeat' (first
    | with_reducible exact Kept.refl _
    | with_reducible refine (State.owe_kept _ _).after ?_
    | with_reducible refine (State.writeRecs_kept _ _ _ _).after ?_
    | split)

theorem execJournalFlush_kept (island : Nat) (s : State) : Next s (execJournalFlush island s) := by
  unfold execJournalFlush
  try dsimp only
  repeat' (first
    | with_reducible exact Kept.refl _
    | with_reducible refine State.flashEvent_kept _ _ _ ?_
    | with_reducible refine (State.flushJournal_kept _ _).after ?_
    | intro _
    | split)

theorem execCheckpoint_kept (island : Nat) (s : State) : Next s (execCheckpoint island s) := by
  unfold execCheckpoint
  try dsimp only
  repeat' (first
    | with_reducible exact Kept.refl _
    | with_reducible rfl
    | with_reducible refine (onClock_kept ?_ ?_ ?_).after ?_
    | with_reducible refine (onFlash_kept ).after ?_
    | with_reducible refine (State.charged_kept _ _ _ ?_).after ?_
    | with_reducible refine (State.onFisland_kept _ _ _).after ?_
    | with_reducible refine (State.journal_kept _ _ _).after ?_
    | with_reducible refine State.flashEvent_kept _ _ _ ?_
    | with_reducible exact fun _ => Nat.le_refl _
    | with_reducible refine (State.programSystem_kept _ _ _ (by assumption)).after ?_
    | with_reducible refine (elim_kept ?_).after ?_
    | intro _
    | split)

theorem State.patrolled_kept (s : State) (x : Nat × Nat × Nat) : Kept s (State.patrolled s x) := by
  unfold State.patrolled
  try dsimp only
  repeat' (first
    | with_reducible exact Kept.refl _
    | with_reducible refine (onFlash_kept ).after ?_
    | with_reducible refine (State.note_kept _ _ _ _ _).after ?_
    | with_reducible refine Kept.ite ?_ ?_)

theorem State.patrolVerdict_kept (s : State) (b : Superblock) (x : FlashPage) (v : FlashVerdict) : Kept s (State.patrolVerdict s b x v) := by
  unfold State.patrolVerdict
  try dsimp only
  repeat' (first
    | with_reducible exact Kept.refl _
    | with_reducible refine (State.bump_kept _ _ _ _ _).after ?_
    | with_reducible refine (State.owe_kept _ _).after ?_
    | with_reducible refine (State.flashLost_kept _ _ _).after ?_
    | with_reducible refine (State.relocate_kept _ _ (by assumption)).after ?_
    | with_reducible refine (elim_kept ?_).after ?_
    | intro _
    | split)

theorem execFlashPatrolRead_kept (island superblock slot : Nat) (verdict : FlashVerdict) (s : State) : Next s (execFlashPatrolRead island superblock slot verdict s) := by
  unfold execFlashPatrolRead
  try dsimp only
  repeat' (first
    | with_reducible exact Kept.refl _
    | with_reducible refine (State.charged_kept _ _ _ ?_).after ?_
    | with_reducible refine (State.oweAll_kept _ _).after ?_
    | with_reducible refine State.flashEvent_kept _ _ _ ?_
    | with_reducible refine (State.noteRead_kept _ _ _ _).after ?_
    | with_reducible refine (State.patrolled_kept _ _).after ?_
    | with_reducible refine (State.patrolVerdict_kept _ _ _ _).after ?_
    | intro _
    | split)

theorem execDieTemperatureSample_kept (island : Nat) (temps : List Int) (s : State) : Next s (execDieTemperatureSample island temps s) := by
  unfold execDieTemperatureSample
  try dsimp only
  repeat' (first
    | with_reducible exact Kept.refl _
    | with_reducible refine (State.onFisland_kept _ _ _).after ?_
    | with_reducible refine State.flashEvent_kept _ _ _ ?_
    | intro _)

theorem State.hbmPageFails_kept (s : State) (k : PageKey) (p : Page) (src : Nat) : Kept s (State.hbmPageFails s k p src) := by
  unfold State.hbmPageFails
  try dsimp only
  repeat' (first
    | with_reducible exact Kept.refl _
    | with_reducible refine (State.onPage_kept _ _ _).after ?_
    | with_reducible refine (State.losePage_kept _ _ _ _).after ?_
    | with_reducible refine (State.startRead_kept _ _ _ _ _ _).after ?_
    | split)

theorem State.ledgerFails_kept (s : State) (q : Seq) (j : Nat) : Kept s (State.ledgerFails s q j) := by
  unfold State.ledgerFails
  try dsimp only
  repeat' (first
    | with_reducible exact Kept.refl _
    | with_reducible refine (State.report_kept _ _ _ _ _ _ _).after ?_
    | with_reducible refine (State.onSeq_kept _ _ _).after ?_
    | with_reducible refine Kept.ite ?_ ?_)

theorem State.patrolUnit_kept (s : State) (channel : Nat) : Kept s (State.patrolUnit s channel) := by
  unfold State.patrolUnit
  try dsimp only
  repeat' (first
    | with_reducible exact Kept.refl _
    | with_reducible refine (onHbm_kept ?_).after ?_
    | with_reducible exact fun h => h
    | with_reducible refine (State.note_kept _ _ _ _ _).after ?_
    | with_reducible refine Kept.ite ?_ ?_)

theorem execHbmPatrolRead_kept (channel unit : Nat) (verdict : HbmVerdict) (s : State) : Next s (execHbmPatrolRead channel unit verdict s) := by
  unfold execHbmPatrolRead
  try dsimp only
  repeat' (first
    | with_reducible exact Kept.refl _
    | with_reducible refine (State.bump_kept _ _ _ _ _).after ?_
    | with_reducible refine (State.charged_kept _ _ _ ?_).after ?_
    | with_reducible refine (State.reportUnit_kept _ _ _ _ _).after ?_
    | with_reducible refine State.event_kept _ _ ?_
    | with_reducible refine (State.hbmPageFails_kept _ _ _ _).after ?_
    | with_reducible refine (State.ledgerFails_kept _ _ _).after ?_
    | with_reducible refine (State.patrolUnit_kept _ _).after ?_
    | intro _
    | split)

end Sys2Proof.Machine
end

