-- ==== Sys2Proof/Laws/Kept/Fences.lean ====
section
/-!
SUPPORT. What each operation of Machine/Fences.lean keeps (Laws/Kept.lean says what that is).
-/
namespace Sys2Proof.Machine

theorem State.goFatal_kept (s : State) : Kept s (State.goFatal s) := by
  unfold State.goFatal
  try dsimp only
  repeat' (first
    | with_reducible exact Kept.refl _
    | with_reducible rfl
    | with_reducible refine (onDev_kept ?_).after ?_
    | with_reducible refine (onFaults_kept ).after ?_
    | with_reducible refine (onNet_kept ).after ?_)

theorem State.endRowsOn_kept (s : State) (core cluster : Nat → Bool) : Kept s (State.endRowsOn s core cluster) := by
  unfold State.endRowsOn
  try dsimp only
  repeat' (first
    | with_reducible exact Kept.refl _
    | with_reducible refine (State.endRow_kept _ _ _ _ _).after ?_
    | with_reducible refine (each_kept ?_).after ?_
    | intro _)

theorem State.dropMoves_kept (s : State) (mine : PageKey → Bool) : Kept s (State.dropMoves s mine) := by
  unfold State.dropMoves
  try dsimp only
  repeat' (first
    | with_reducible exact Kept.refl _
    | with_reducible refine (State.onPage_kept _ _ _).after ?_
    | with_reducible refine (State.dropMove_kept _ _ _).after ?_
    | with_reducible refine (each_kept ?_).after ?_
    | intro _)

theorem State.markIslands_kept (s : State) (is : List Nat) (st : IslandState) : Kept s (State.markIslands s is st) := by
  unfold State.markIslands
  try dsimp only
  repeat' (first
    | with_reducible exact Kept.refl _
    | with_reducible refine (onIslands_kept ).after ?_)

theorem State.clearCluster_kept (s : State) (c : Nat) (homed : List Nat) : Kept s (State.clearCluster s c homed) := by
  unfold State.clearCluster
  try dsimp only
  repeat' (first
    | with_reducible exact Kept.refl _
    | with_reducible refine (onSeqs_kept ).after ?_
    | with_reducible refine (State.clearCache_kept _ _).after ?_
    | with_reducible refine (State.failAccepted_kept _ _ _).after ?_
    | with_reducible refine (State.endRowsOn_kept _ _ _).after ?_
    | with_reducible refine (State.dropMoves_kept _ _).after ?_
    | with_reducible refine (each_kept ?_).after ?_
    | intro _)

theorem State.recallTiles_kept (s : State) (k : PageKey) : Kept s (State.recallTiles s k) := by
  unfold State.recallTiles
  try dsimp only
  repeat' (first
    | with_reducible exact Kept.refl _
    | with_reducible refine (onWork_kept ).after ?_)

theorem State.offChannel_kept (s : State) (k : PageKey) (src : Nat) : Kept s (State.offChannel s k src) := by
  unfold State.offChannel
  try dsimp only
  repeat' (first
    | with_reducible exact Kept.refl _
    | with_reducible refine (State.losePage_kept _ _ _ _).after ?_
    | with_reducible refine (State.toFlash_kept _ _ _).after ?_
    | with_reducible refine (State.recallTiles_kept _ _).after ?_
    | split)

theorem State.fixedOffChannel_kept (s : State) (h ch : Nat) : Kept s (State.fixedOffChannel s h ch) := by
  unfold State.fixedOffChannel
  try dsimp only
  repeat' (first
    | with_reducible exact Kept.refl _
    | with_reducible assumption
    | with_reducible refine (onHbm_kept ?_).after ?_
    | with_reducible refine (State.onSeq_kept _ _ _).after ?_
    | with_reducible refine (State.losePage_kept _ _ _ _).after ?_
    | with_reducible refine (State.fitFixed_kept _ _).after ?_
    | with_reducible refine (State.ledgerFails_kept _ _ _).after ?_
    | with_reducible refine (each_kept ?_).after ?_
    | intro _
    | split)

theorem State.stagingOffChannel_kept (s : State) (ch : Nat) (g : Staging) : Kept s (State.stagingOffChannel s ch g) := by
  unfold State.stagingOffChannel
  try dsimp only
  repeat' (first
    | with_reducible exact Kept.refl _
    | with_reducible refine (onFlash_kept ).after ?_
    | with_reducible refine (State.onStaging_kept _ _ _).after ?_
    | with_reducible refine (State.dropPlace_kept _ _ _).after ?_
    | with_reducible refine Kept.ite ?_ ?_)

theorem State.clearChannel_kept (s : State) (ch : Nat) : Kept s (State.clearChannel s ch) := by
  unfold State.clearChannel
  try dsimp only
  repeat' (first
    | with_reducible exact Kept.refl _
    | with_reducible refine (onBroker_kept ).after ?_
    | with_reducible refine (State.failAccepted_kept _ _ _).after ?_
    | with_reducible refine (State.dropMoves_kept _ _).after ?_
    | with_reducible refine (State.offChannel_kept _ _ _).after ?_
    | with_reducible refine (State.fixedOffChannel_kept _ _ _).after ?_
    | with_reducible refine (State.stagingOffChannel_kept _ _ _).after ?_
    | with_reducible refine (each_kept ?_).after ?_
    | intro _)

theorem State.portDown_kept (s : State) (lp link : Nat) : Kept s (State.portDown s lp link) := by
  unfold State.portDown
  try dsimp only
  repeat' (first
    | with_reducible exact Kept.refl _
    | with_reducible refine (State.qpError_kept _ _ _).after ?_
    | with_reducible refine (State.onLp_kept _ _ _).after ?_
    | with_reducible refine (each_kept ?_).after ?_
    | intro _)

theorem State.setPortMode_kept (s : State) (p mode : Nat) (down : Nat → Bool) : Kept s (State.setPortMode s p mode down) := by
  unfold State.setPortMode
  try dsimp only
  repeat' (first
    | with_reducible exact Kept.refl _
    | with_reducible refine (onNet_kept ).after ?_
    | with_reducible refine (State.onLp_kept _ _ _).after ?_
    | with_reducible refine (each_kept ?_).after ?_
    | intro _)

theorem State.clearLane_kept (s : State) (n : Nat) : Kept s (State.clearLane s n) := by
  unfold State.clearLane
  try dsimp only
  repeat' (first
    | with_reducible exact Kept.refl _
    | with_reducible refine (State.portDown_kept _ _ _).after ?_
    | with_reducible refine (State.setPortMode_kept _ _ _ _).after ?_
    | with_reducible refine Kept.ite ?_ ?_)

theorem State.giveUp_kept (s : State) : Kept s (State.giveUp s) := by
  unfold State.giveUp
  try dsimp only
  repeat' (first
    | with_reducible exact Kept.refl _
    | with_reducible rfl
    | with_reducible refine (onEpochs_kept ?_).after ?_
    | with_reducible refine (State.ask_kept _ _ _ _ _ _ _ _ _ _).after ?_
    | with_reducible refine (each_kept ?_).after ?_
    | intro _
    | with_reducible refine Kept.ite ?_ ?_)

theorem State.clearUnit_kept (s : State) (u : Nat) (homes : List (Nat × List Nat)) : Kept s (State.clearUnit s u homes) := by
  unfold State.clearUnit
  try dsimp only
  repeat' (first
    | with_reducible exact Kept.refl _
    | with_reducible refine (State.removeEntry_kept _ _ _).after ?_
    | with_reducible refine (State.endRowsOn_kept _ _ _).after ?_
    | with_reducible refine (State.markIslands_kept _ _ _).after ?_
    | with_reducible refine (State.clearCluster_kept _ _ _).after ?_
    | with_reducible refine (State.clearChannel_kept _ _).after ?_
    | with_reducible refine (State.portDown_kept _ _ _).after ?_
    | with_reducible refine (State.clearLane_kept _ _).after ?_
    | with_reducible refine (State.giveUp_kept _).after ?_
    | with_reducible refine (each_kept ?_).after ?_
    | with_reducible refine (foldl_kept ?_).after ?_
    | intro _
    | with_reducible refine Kept.ite ?_ ?_)

theorem State.fenceUnit_kept (s : State) (src : Nat) : Kept s (State.fenceUnit s src) := by
  unfold State.fenceUnit
  try dsimp only
  repeat' (first
    | with_reducible exact Kept.refl _
    | with_reducible refine (onFaults_kept ).after ?_
    | with_reducible refine (State.goFatal_kept _).after ?_
    | with_reducible refine (State.clearUnit_kept _ _ _).after ?_
    | with_reducible refine Kept.ite ?_ ?_)

theorem State.repairLane_kept (s : State) (ch : Nat) : Kept s (State.repairLane s ch) := by
  unfold State.repairLane
  try dsimp only
  repeat' (first
    | with_reducible exact Kept.refl _
    | with_reducible refine (onHbm_kept ?_).after ?_
    | with_reducible exact fun h => h
    | with_reducible refine (State.reportUnit_kept _ _ _ _ _).after ?_
    | with_reducible refine Kept.ite ?_ ?_)

theorem State.failLaneGroup_kept (s : State) (n : Nat) : Kept s (State.failLaneGroup s n) := by
  unfold State.failLaneGroup
  try dsimp only
  repeat' (first
    | with_reducible exact Kept.refl _
    | with_reducible refine (onFaults_kept ).after ?_
    | with_reducible refine (State.fenceUnit_kept _ _).after ?_
    | with_reducible refine Kept.ite ?_ ?_)

end Sys2Proof.Machine
end

