-- ==== Sys2Proof/Laws/Kept/Collector.lean ====
section
/-!
SUPPORT. What each operation of Machine/Collector.lean keeps (Laws/Kept.lean says what that is).
-/
namespace Sys2Proof.Machine

theorem State.react_kept (s : State) (src kind : Nat) (stop : Option Nat) : Kept s (State.react s src kind stop) := by
  unfold State.react
  try dsimp only
  repeat' (first
    | with_reducible exact Kept.refl _
    | with_reducible refine (onPower_kept ).after ?_
    | with_reducible refine (State.noteThrottle_kept _).after ?_
    | with_reducible refine (State.goFatal_kept _).after ?_
    | with_reducible refine (State.fenceUnit_kept _ _).after ?_
    | with_reducible refine (State.repairLane_kept _ _).after ?_
    | split)

theorem State.setEventLog_kept (s : State) (src kind : Nat) (l : List Nat) : Kept s (State.setEventLog s src kind l) := by
  unfold State.setEventLog
  try dsimp only
  repeat' (first
    | with_reducible exact Kept.refl _
    | with_reducible refine (onFaults_kept ).after ?_)

theorem State.escalate_kept (s : State) (r : SourceRecord) : Kept s (State.escalate s r).2 := by
  unfold State.escalate
  try dsimp only
  repeat' (first
    | with_reducible exact Kept.refl _
    | with_reducible refine (State.bump_kept _ _ _ _ _).after ?_
    | with_reducible refine (State.setEventLog_kept _ _ _ _).after ?_
    | with_reducible refine Kept.ite_snd ?_ ?_)

theorem State.eventEffect_kept (s : State) (r : SourceRecord) : Kept s (State.eventEffect s r) := by
  unfold State.eventEffect
  try dsimp only
  repeat' (first
    | with_reducible exact Kept.refl _
    | with_reducible refine (State.bump_kept _ _ _ _ _).after ?_
    | with_reducible refine (State.onLp_kept _ _ _).after ?_
    | with_reducible refine Kept.ite ?_ ?_)

theorem State.collectWith_kept (s : State) (r0 : SourceRecord) (stop : Option Nat) : Kept s (State.collectWith s r0 stop) := by
  unfold State.collectWith
  try dsimp only
  repeat' (first
    | with_reducible exact Kept.refl _
    | with_reducible refine (onFaults_kept ).after ?_
    | with_reducible refine (State.bump_kept _ _ _ _ _).after ?_
    | with_reducible refine (State.meter_kept _ _ _ _ _).after ?_
    | with_reducible refine (State.goFatal_kept _).after ?_
    | with_reducible refine (State.react_kept _ _ _ _).after ?_
    | with_reducible refine (State.escalate_kept _ _).after ?_
    | with_reducible refine (State.eventEffect_kept _ _).after ?_
    | with_reducible refine Kept.ite ?_ ?_)

theorem State.collect_kept (s : State) (r : SourceRecord) : Kept s (State.collect s r) := by
  unfold State.collect
  try dsimp only
  repeat' (first
    | with_reducible exact Kept.refl _
    | with_reducible refine (State.collectWith_kept _ _ _).after ?_)

theorem State.collectUnit_kept (s : State) (src kind detail : Nat) (stop : Option Nat) : Kept s (State.collectUnit s src kind detail stop) := by
  unfold State.collectUnit
  try dsimp only
  repeat' (first
    | with_reducible exact Kept.refl _
    | with_reducible refine (State.free_kept _).after ?_
    | with_reducible refine (State.collectWith_kept _ _ _).after ?_)

theorem State.detect_kept (s : State) (i : Nat) (r : SourceRecord) : Kept s (State.detect s i r) := by
  unfold State.detect
  try dsimp only
  repeat' (first
    | with_reducible exact Kept.refl _
    | with_reducible refine (State.sendRecord_kept _ _ _).after ?_
    | with_reducible refine (State.failLaneGroup_kept _ _).after ?_
    | with_reducible refine Kept.ite ?_ ?_)

theorem execFaultRecord_kept (a : FaultArrival) (s : State) : Next s (execFaultRecord a s) := by
  unfold execFaultRecord
  try dsimp only
  repeat' (first
    | with_reducible apply Next.of
    | with_reducible exact Kept.refl _
    | with_reducible refine (State.setQueue_kept _ _).after ?_
    | with_reducible refine (State.settle_kept _).after ?_
    | with_reducible refine (State.collect_kept _ _).after ?_
    | with_reducible refine (State.detect_kept _ _ _).after ?_
    | split)

theorem execFaultQueueDropReport_kept (island : Nat) (s : State) : Next s (execFaultQueueDropReport island s) := by
  unfold execFaultQueueDropReport
  try dsimp only
  repeat' (first
    | with_reducible apply Next.of
    | with_reducible exact Kept.refl _
    | with_reducible refine (State.bump_kept _ _ _ _ _).after ?_
    | with_reducible refine (State.setQueue_kept _ _).after ?_
    | with_reducible refine (State.reportUnit_kept _ _ _ _ _).after ?_
    | with_reducible refine Kept.ite ?_ ?_)

theorem State.severe_kept (s : State) (p : SeverePair) (broken : Bool) : Kept s (State.severe s p broken) := by
  unfold State.severe
  try dsimp only
  repeat' (first
    | with_reducible exact Kept.refl _
    | with_reducible refine (State.onIsland_kept _ _ _).after ?_
    | with_reducible refine (State.react_kept _ _ _ _).after ?_
    | with_reducible refine (State.collectUnit_kept _ _ _ _ _).after ?_
    | split)

theorem execSevereSignal_kept (pair : SeverePair) (broken : Bool) (s : State) : Next s (execSevereSignal pair broken s) := by
  unfold execSevereSignal
  try dsimp only
  repeat' (first
    | with_reducible apply Next.of
    | with_reducible exact Kept.refl _
    | with_reducible refine (State.settle_kept _).after ?_
    | with_reducible refine (State.severe_kept _ _ _).after ?_
    | with_reducible refine Kept.ite ?_ ?_)

theorem execTrussHandshakeTimeout_kept (waiter : Nat) (stop : Option Nat) (s : State) : Next s (execTrussHandshakeTimeout waiter stop s) := by
  unfold execTrussHandshakeTimeout
  try dsimp only
  repeat' (first
    | with_reducible apply Next.of
    | with_reducible exact Kept.refl _
    | with_reducible refine (State.bump_kept _ _ _ _ _).after ?_
    | with_reducible refine (State.settle_kept _).after ?_
    | with_reducible refine (State.severe_kept _ _ _).after ?_
    | with_reducible refine Kept.ite ?_ ?_)

end Sys2Proof.Machine
end

