-- ==== Sys2Proof/Laws/Kept/Islands.lean ====
section
/-!
SUPPORT. What each operation of Machine/Islands.lean keeps (Laws/Kept.lean says what that is).
-/
namespace Sys2Proof.Machine

theorem State.endThermal_kept (s : State) : Kept s (State.endThermal s) := by
  unfold State.endThermal
  try dsimp only
  repeat' (first
    | with_reducible exact Kept.refl _
    | with_reducible refine (onPower_kept ).after ?_
    | with_reducible refine Kept.ite ?_ ?_)

theorem State.wake_kept (s : State) (cs : List Nat) : Kept s (State.wake s cs) := by
  unfold State.wake
  try dsimp only
  repeat' (first
    | with_reducible exact Kept.refl _
    | with_reducible refine (onPower_kept ).after ?_)

theorem State.wakeBusy_kept (s : State) : Kept s (State.wakeBusy s) := by
  unfold State.wakeBusy
  try dsimp only
  repeat' (first
    | with_reducible exact Kept.refl _
    | with_reducible refine (State.wake_kept _ _).after ?_
    | with_reducible refine (each_kept ?_).after ?_
    | intro _)

theorem State.countTruss_kept (s : State) (x : Island) : Kept s (State.countTruss s x) := by
  unfold State.countTruss
  try dsimp only
  repeat' (first
    | with_reducible exact Kept.refl _
    | with_reducible refine (State.bumpFree_kept _ _ _ _ _).after ?_
    | with_reducible refine (each_kept ?_).after ?_
    | intro _
    | with_reducible refine Kept.ite ?_ ?_)

theorem State.turnPeriod_kept (s : State) (x : Island) : Kept s (State.turnPeriod s x) := by
  unfold State.turnPeriod
  try dsimp only
  repeat' (first
    | with_reducible exact Kept.refl _
    | with_reducible refine (onPower_kept ).after ?_
    | with_reducible refine (State.onIsland_kept _ _ _).after ?_
    | with_reducible refine (State.countTruss_kept _ _).after ?_
    | with_reducible refine Kept.ite ?_ ?_)

theorem State.turnKind_kept (s : State) (i : Nat) : Kept s (State.turnKind s i) := by
  unfold State.turnKind
  try dsimp only
  repeat' (first
    | with_reducible exact Kept.refl _
    | with_reducible refine (onNet_kept ).after ?_
    | with_reducible refine (State.bump_kept _ _ _ _ _).after ?_
    | with_reducible refine (State.onIsland_kept _ _ _).after ?_
    | with_reducible refine (State.noteThrottle_kept _).after ?_
    | with_reducible refine (State.openWindow_kept _ _ _).after ?_
    | with_reducible refine (State.wakeBusy_kept _).after ?_
    | split)

theorem State.turnClock_kept (s : State) (i : Nat) : Kept s (State.turnClock s i) := by
  unfold State.turnClock
  try dsimp only
  repeat' (first
    | with_reducible exact Kept.refl _
    | with_reducible refine (onIslands_kept ).after ?_
    | with_reducible refine (State.onIsland_kept _ _ _).after ?_
    | with_reducible refine (State.endThermal_kept _).after ?_
    | split)

theorem execPeriodBoundary_kept (island : Nat) (s : State) : Next s (execPeriodBoundary island s) := by
  unfold execPeriodBoundary
  try dsimp only
  repeat' (first
    | with_reducible apply Next.of
    | with_reducible exact Kept.refl _
    | with_reducible refine (State.onIsland_kept _ _ _).after ?_
    | with_reducible refine (State.settle_kept _).after ?_
    | with_reducible refine (State.turnPeriod_kept _ _).after ?_
    | with_reducible refine (State.turnKind_kept _ _).after ?_
    | with_reducible refine (State.turnClock_kept _ _).after ?_
    | split)

theorem execClockRelockDone_kept (island : Nat) (s : State) : Next s (execClockRelockDone island s) := by
  unfold execClockRelockDone
  try dsimp only
  repeat' (first
    | with_reducible apply Next.of
    | with_reducible exact Kept.refl _
    | with_reducible refine (State.onIsland_kept _ _ _).after ?_
    | with_reducible refine (State.markCycles_kept _).after ?_
    | with_reducible refine Kept.ite ?_ ?_)

end Sys2Proof.Machine
end

