-- ==== Sys2Proof/Laws/Kept/Mailboxes.lean ====
section
/-!
SUPPORT. What each operation of Machine/Mailboxes.lean keeps (Laws/Kept.lean says what that is).
-/
namespace Sys2Proof.Machine

theorem State.emptyBox_kept (s : State) (p n : Nat) : Kept s (State.emptyBox s p n) := by
  unfold State.emptyBox
  try dsimp only
  repeat' (first
    | with_reducible exact Kept.refl _
    | with_reducible refine (onMailboxes_kept ).after ?_)

theorem State.wakeEvent_kept (s : State) (p : Nat) : Kept s (State.wakeEvent s p) := by
  unfold State.wakeEvent
  try dsimp only
  repeat' (first
    | with_reducible exact Kept.refl _
    | with_reducible refine (State.wake_kept _ _).after ?_
    | with_reducible refine Kept.ite ?_ ?_)

theorem State.boxAnswer_kept (s : State) (r : Option Req) (st : Status) (words : List W64) : Kept s (State.boxAnswer s r st words) := by
  unfold State.boxAnswer
  try dsimp only
  repeat' (first
    | with_reducible exact Kept.refl _
    | with_reducible refine (State.complete_kept _ _ _ _ _).after ?_
    | split)

theorem State.takeBox_kept (s : State) (b : Mailbox) : Kept s (State.takeBox s b) := by
  unfold State.takeBox
  try dsimp only
  repeat' (first
    | with_reducible exact Kept.refl _
    | with_reducible refine (State.bump_kept _ _ _ _ _).after ?_
    | with_reducible refine (State.emptyBox_kept _ _ _).after ?_
    | with_reducible refine (State.boxAnswer_kept _ _ _ _).after ?_)

theorem State.discardBox_kept (s : State) (b : Mailbox) (st : Status) : Kept s (State.discardBox s b st) := by
  unfold State.discardBox
  try dsimp only
  repeat' (first
    | with_reducible exact Kept.refl _
    | with_reducible refine (State.emptyBox_kept _ _ _).after ?_
    | with_reducible refine (State.boxAnswer_kept _ _ _ _).after ?_)

theorem State.forwardTo_kept (s : State) (nd : Node) (b : Mailbox) (h : Hdr) : Kept s (State.forwardTo s nd b h) := by
  unfold State.forwardTo
  try dsimp only
  repeat' (first
    | with_reducible exact Kept.refl _
    | with_reducible refine (onBroker_kept ).after ?_
    | with_reducible refine (onMailboxes_kept ).after ?_
    | with_reducible refine (State.sendMsg_kept _ _ _ _).after ?_
    | with_reducible refine (State.discardBox_kept _ _ _).after ?_
    | split)

theorem State.forwardBox_kept (s : State) (b : Mailbox) : Kept s (State.forwardBox s b) := by
  unfold State.forwardBox
  try dsimp only
  repeat' (first
    | with_reducible exact Kept.refl _
    | with_reducible refine (State.discardBox_kept _ _ _).after ?_
    | with_reducible refine (State.forwardTo_kept _ _ _ _).after ?_
    | split)

theorem State.fillBox_kept (s : State) (p n : Nat) (h : Hdr) (body : List Byte) (oper : Bool) (sender : Nat) (req : Option Req) : Kept s (State.fillBox s p n h body oper sender req) := by
  unfold State.fillBox
  try dsimp only
  repeat' (first
    | with_reducible exact Kept.refl _
    | with_reducible refine (onMailboxes_kept ).after ?_
    | with_reducible refine (State.wakeEvent_kept _ _).after ?_
    | with_reducible refine (State.forwardBox_kept _ _).after ?_
    | with_reducible refine Kept.ite ?_ ?_)

theorem State.boxEntry_kept (s : State) (w : MailboxWrite) (answers : Bool) (run : State → Qp → Nat → Nat → State) (h_run : ∀ a0 a1 a2 a3, Kept a0 (run a0 a1 a2 a3)) : Kept s (State.boxEntry s w answers run) := by
  unfold State.boxEntry
  try dsimp only
  repeat' (first
    | with_reducible exact Kept.refl _
    | with_reducible refine (h_run _ _ _ _).after ?_
    | with_reducible refine (State.bump_kept _ _ _ _ _).after ?_
    | with_reducible refine (State.control_kept _ _ _).after ?_
    | with_reducible refine (State.answer_kept _ _ _).after ?_
    | with_reducible refine (State.qpError_kept _ _ _).after ?_
    | with_reducible refine (State.heard_kept _ _).after ?_
    | with_reducible refine (State.rxPackets_kept _ _ _).after ?_
    | with_reducible refine (State.refuseAccess_kept _ _).after ?_
    | split)

theorem State.boxEntry_held (s : State) (w : MailboxWrite) (answers : Bool) (run : State → Qp → Nat → Nat → State) (h_run : ∀ a0 a1 a2 a3, Held a0 (run a0 a1 a2 a3)) : Held s (State.boxEntry s w answers run) := by
  unfold State.boxEntry
  try dsimp only
  repeat' (first
    | with_reducible exact Held.refl _
    | with_reducible refine (h_run _ _ _ _).after ?_
    | with_reducible refine (State.bump_kept _ _ _ _ _).held.after ?_
    | with_reducible refine (State.control_kept _ _ _).held.after ?_
    | with_reducible refine (State.answer_kept _ _ _).held.after ?_
    | with_reducible refine (State.qpError_kept _ _ _).held.after ?_
    | with_reducible refine (State.heard_kept _ _).held.after ?_
    | with_reducible refine (State.rxPackets_kept _ _ _).held.after ?_
    | with_reducible refine (State.refuseAccess_kept _ _).held.after ?_
    | split)

theorem State.boxMessage_kept (s : State) (w : MailboxWrite) (q : Qp) (p n : Nat) : Kept s (State.boxMessage s w q p n) := by
  unfold State.boxMessage
  try dsimp only
  repeat' (first
    | with_reducible exact Kept.refl _
    | with_reducible refine (State.bump_kept _ _ _ _ _).after ?_
    | with_reducible refine (State.meterBytes_kept _ _ _ _).after ?_
    | with_reducible refine (State.control_kept _ _ _).after ?_
    | with_reducible refine (State.police_kept _ _ _ _ _ _).after ?_
    | with_reducible refine (State.noteRefusal_kept _ _ _ _).after ?_
    | with_reducible refine (State.wakeEvent_kept _ _).after ?_
    | with_reducible refine (State.boxAnswer_kept _ _ _ _).after ?_
    | with_reducible refine (State.fillBox_kept _ _ _ _ _ _ _ _).after ?_
    | split)

theorem execMailboxWrite_kept (w : MailboxWrite) (s : State) : Next s (execMailboxWrite w s) := by
  unfold execMailboxWrite
  try dsimp only
  repeat' (first
    | with_reducible apply Next.of
    | with_reducible exact Kept.refl _
    | with_reducible assumption
    | with_reducible rfl
    | with_reducible refine State.event_kept _ _ ?_
    | with_reducible refine (State.boxEntry_kept _ _ _ _ ?_).after ?_
    | with_reducible refine (State.boxMessage_kept _ _ _ _ _).after ?_
    | with_reducible refine Next.ite ?_ ?_
    | intro _
    | with_reducible refine Kept.ite ?_ ?_
    | split
    | dsimp only)

theorem execMailboxDoorbell_kept (w : MailboxWrite) (s : State) : Next s (execMailboxDoorbell w s) := by
  unfold execMailboxDoorbell
  try dsimp only
  repeat' (first
    | with_reducible apply Next.of
    | with_reducible exact Kept.refl _
    | with_reducible assumption
    | with_reducible rfl
    | with_reducible refine State.event_kept _ _ ?_
    | with_reducible refine (State.wakeEvent_kept _ _).after ?_
    | with_reducible refine (State.boxEntry_kept _ _ _ _ ?_).after ?_
    | with_reducible refine Next.ite ?_ ?_
    | intro _
    | with_reducible refine Kept.ite ?_ ?_
    | split
    | dsimp only)

theorem execMailboxReceiverCompletion_kept (r : Reply) (s : State) : Next s (execMailboxReceiverCompletion r s) := by
  unfold execMailboxReceiverCompletion
  try dsimp only
  repeat' (first
    | with_reducible apply Next.of
    | with_reducible exact Kept.refl _
    | with_reducible refine (State.reply_kept _ _ _ _ ?_).after ?_
    | with_reducible refine (State.takeBox_kept _ _).after ?_
    | with_reducible refine (State.discardBox_kept _ _ _).after ?_
    | intro _
    | split)

theorem execMailboxDeliveryTimeout_kept (partition box : Nat) (s : State) : Next s (execMailboxDeliveryTimeout partition box s) := by
  unfold execMailboxDeliveryTimeout
  try dsimp only
  repeat' (first
    | with_reducible exact Kept.refl _
    | with_reducible refine (onBroker_kept ).after ?_
    | with_reducible refine State.event_kept _ _ ?_
    | with_reducible refine (State.discardBox_kept _ _ _).after ?_
    | intro _
    | split)

theorem State.operatorTake_kept (s : State) (p n : Nat) : Kept s (State.operatorTake s p n) := by
  unfold State.operatorTake
  try dsimp only
  repeat' (first
    | with_reducible exact Kept.refl _
    | with_reducible refine (State.takeBox_kept _ _).after ?_
    | split)

theorem State.operatorSend_kept (s : State) (p n t : Nat) (body : List Byte) : Kept s (State.operatorSend s p n t body).2 := by
  unfold State.operatorSend
  try dsimp only
  repeat' (first
    | with_reducible exact Kept.refl _
    | with_reducible refine (State.bump_kept _ _ _ _ _).after ?_
    | with_reducible refine (State.fillBox_kept _ _ _ _ _ _ _ _).after ?_
    | with_reducible refine Kept.ite_snd ?_ ?_)

theorem execClusterGate_kept (cluster : Nat) (s : State) : Next s (execClusterGate cluster s) := by
  unfold execClusterGate
  try dsimp only
  repeat' (first
    | with_reducible exact Kept.refl _
    | with_reducible refine (onPower_kept ).after ?_
    | with_reducible refine (State.clearCache_kept _ _).after ?_
    | with_reducible refine State.event_kept _ _ ?_
    | with_reducible refine (State.markIslands_kept _ _ _).after ?_
    | intro _
    | with_reducible refine Kept.ite ?_ ?_)

theorem execClusterWake_kept (cluster : Nat) (s : State) : Next s (execClusterWake cluster s) := by
  unfold execClusterWake
  try dsimp only
  repeat' (first
    | with_reducible exact Kept.refl _
    | with_reducible refine (onPower_kept ).after ?_
    | with_reducible refine (State.note_kept _ _ _ _ _).after ?_
    | with_reducible refine (State.onIsland_kept _ _ _).after ?_
    | with_reducible refine State.event_kept _ _ ?_
    | intro _
    | split)

theorem State.holdOff_kept (s : State) (c : Nat) (on : Bool) : Kept s (State.holdOff s c on) := by
  unfold State.holdOff
  try dsimp only
  repeat' (first
    | with_reducible exact Kept.refl _
    | with_reducible refine (onPower_kept ).after ?_)

theorem execPowerCapStep_kept (s : State) : Next s (execPowerCapStep s) := by
  unfold execPowerCapStep
  try dsimp only
  repeat' (first
    | with_reducible apply Next.of
    | with_reducible exact Kept.refl _
    | with_reducible refine (onPower_kept ).after ?_
    | with_reducible refine Kept.ite ?_ ?_)

end Sys2Proof.Machine
end

