-- ==== Sys2Proof/Laws/Kept/Endings.lean ====
section
/-!
SUPPORT. What each operation of Machine/Endings.lean keeps (Laws/Kept.lean says what that is).
-/
namespace Sys2Proof.Machine

theorem State.endReads_kept (s : State) (mine : Nat → Bool) (st : Status) : Kept s (State.endReads s mine st) := by
  unfold State.endReads
  try dsimp only
  repeat' (first
    | with_reducible exact Kept.refl _
    | with_reducible refine (State.answer_kept _ _ _).after ?_
    | with_reducible refine (State.endRead_kept _ _).after ?_
    | with_reducible refine (each_kept ?_).after ?_
    | intro _
    | split)

theorem State.endOwned_kept (s : State) (id : Nat) : Kept s (State.endOwned s id) := by
  unfold State.endOwned
  try dsimp only
  repeat' (first
    | with_reducible exact Kept.refl _
    | with_reducible refine (State.endRead_kept _ _).after ?_
    | with_reducible refine (each_kept ?_).after ?_
    | intro _)

theorem State.endAppends_kept (s : State) (mine : Nat → Bool) (st : Status) : Kept s (State.endAppends s mine st) := by
  unfold State.endAppends
  try dsimp only
  repeat' (first
    | with_reducible exact Kept.refl _
    | with_reducible refine (State.dropAppend_kept _ _).after ?_
    | with_reducible refine (State.appendAnswer_kept _ _ _ _).after ?_
    | with_reducible refine (State.failFrom_kept _ _ _ _).after ?_
    | with_reducible refine (State.endOwned_kept _ _).after ?_
    | with_reducible refine (each_kept ?_).after ?_
    | intro _
    | with_reducible refine Kept.ite ?_ ?_)

theorem State.endAttends_kept (s : State) (mine : Nat → Bool) (st : Status) : Kept s (State.endAttends s mine st) := by
  unfold State.endAttends
  try dsimp only
  repeat' (first
    | with_reducible exact Kept.refl _
    | with_reducible refine (State.endRow_kept _ _ _ _ _).after ?_
    | with_reducible refine (State.completeAttend_kept _ _).after ?_
    | with_reducible refine (State.endOwned_kept _ _).after ?_
    | with_reducible refine (each_kept ?_).after ?_
    | intro _
    | split)

theorem State.endTransfers_kept (s : State) (mine : Nat → Bool) (st : Status) : Kept s (State.endTransfers s mine st) := by
  unfold State.endTransfers
  try dsimp only
  repeat' (first
    | with_reducible exact Kept.refl _
    | with_reducible refine (State.endDelivery_kept _ _ _ _).after ?_
    | with_reducible refine (State.endStage_kept _ _ _ _).after ?_
    | with_reducible refine (each_kept ?_).after ?_
    | intro _)

theorem State.endUnder_kept (s : State) (mine : Nat → Bool) (st : Status) : Kept s (State.endUnder s mine st) := by
  unfold State.endUnder
  try dsimp only
  repeat' (first
    | with_reducible exact Kept.refl _
    | with_reducible refine (State.endReads_kept _ _ _).after ?_
    | with_reducible refine (State.endAppends_kept _ _ _).after ?_
    | with_reducible refine (State.endAttends_kept _ _ _).after ?_
    | with_reducible refine (State.endTransfers_kept _ _ _).after ?_)

theorem State.endTurnReqs_kept (s : State) (h : Nat) (st : Status) : Kept s (State.endTurnReqs s h st) := by
  unfold State.endTurnReqs
  try dsimp only
  repeat' (first
    | with_reducible exact Kept.refl _
    | with_reducible refine (onMortise_kept ).after ?_
    | with_reducible refine (State.complete_kept _ _ _ _ _).after ?_
    | with_reducible refine (State.onSeq_kept _ _ _).after ?_
    | with_reducible refine (State.endOffer_kept _ _ _).after ?_
    | with_reducible refine (State.answerHandoff_kept _ _ _ _).after ?_
    | with_reducible refine (State.endTurn_kept _ _ _).after ?_
    | with_reducible refine (State.refuseAdmit_kept _ _ _).after ?_
    | split)

theorem State.endRequests_kept (s : State) : Kept s (State.endRequests s) := by
  unfold State.endRequests
  try dsimp only
  repeat' (first
    | with_reducible exact Kept.refl _
    | with_reducible refine (onFlash_kept ).after ?_
    | with_reducible refine (onMortise_kept ).after ?_
    | with_reducible refine (State.answer_kept _ _ _).after ?_
    | with_reducible refine (State.onSeq_kept _ _ _).after ?_
    | with_reducible refine (State.endJob_kept _ _ _ _).after ?_
    | with_reducible refine (State.endQueued_kept _ _ _).after ?_
    | with_reducible refine (State.discardBox_kept _ _ _).after ?_
    | with_reducible refine (State.endUnder_kept _ _ _).after ?_
    | with_reducible refine (State.endTurnReqs_kept _ _ _).after ?_
    | with_reducible refine (each_kept ?_).after ?_
    | intro _
    | split)

end Sys2Proof.Machine
end

