-- ==== Sys2Proof/Laws/Kept/Nodes.lean ====
section
/-!
SUPPORT. What each operation of Machine/Nodes.lean keeps (Laws/Kept.lean says what that is).
-/
namespace Sys2Proof.Machine

theorem State.resync_kept (s : State) (p : Nat) : Kept s (State.resync s p) := by
  unfold State.resync
  try dsimp only
  repeat' (first
    | with_reducible exact Kept.refl _
    | with_reducible refine (State.sync_kept _ _ _ _ _).after ?_
    | with_reducible refine (each_kept ?_).after ?_
    | intro _)

theorem State.registered_kept (s : State) (n : Nat) : Kept s (State.registered s n) := by
  unfold State.registered
  try dsimp only
  repeat' (first
    | with_reducible exact Kept.refl _
    | with_reducible refine (onBroker_kept ).after ?_
    | with_reducible refine (State.retryPlaces_kept _ _).after ?_
    | with_reducible refine (State.resync_kept _ _).after ?_
    | split)

theorem State.bindQp_kept (s : State) (q n : Nat) : Kept s (State.bindQp s q n) := by
  unfold State.bindQp
  try dsimp only
  repeat' (first
    | with_reducible exact Kept.refl _
    | with_reducible refine (State.onQp_kept _ _ _).after ?_)

theorem State.enrol_kept (s : State) (q : Qp) (tenant n : Nat) (b : RegisterBody) : Kept s (State.enrol s q tenant n b) := by
  unfold State.enrol
  try dsimp only
  repeat' (first
    | with_reducible exact Kept.refl _
    | with_reducible refine (onBroker_kept ).after ?_
    | with_reducible refine (State.free_kept _).after ?_
    | with_reducible refine (State.bindQp_kept _ _ _).after ?_)

theorem State.welcome_kept (s : State) (m : Rx) (n : Nat) : Kept s (State.welcome s m n) := by
  unfold State.welcome
  try dsimp only
  repeat' (first
    | with_reducible exact Kept.refl _
    | with_reducible refine (State.complete_kept _ _ _ _ _).after ?_
    | with_reducible refine (State.registered_kept _ _).after ?_
    | split)

theorem State.runRegister_kept (s : State) (m : Rx) (b : RegisterBody) : Kept s (State.runRegister s m b) := by
  unfold State.runRegister
  try dsimp only
  repeat' (first
    | with_reducible exact Kept.refl _
    | with_reducible refine (State.onNode_kept _ _ _).after ?_
    | with_reducible refine (State.answer_kept _ _ _).after ?_
    | with_reducible refine (State.bindQp_kept _ _ _).after ?_
    | with_reducible refine (State.enrol_kept _ _ _ _ _).after ?_
    | with_reducible refine (State.welcome_kept _ _ _).after ?_
    | split)

theorem execRegister_kept (m : Rx) (b : RegisterBody) (s : State) : Next s (execRegister m b s) := by
  unfold execRegister
  try dsimp only
  repeat' (first
    | with_reducible apply Next.of
    | with_reducible exact Kept.refl _
    | with_reducible refine (State.receive_kept _ _ _ _ _ _ _ ?_).after ?_
    | with_reducible refine (State.settle_kept _).after ?_
    | with_reducible refine (State.runRegister_kept _ _ _).after ?_
    | intro _)

theorem State.beat_kept (s : State) (n : Nat) (b : HeartbeatBody) : Kept s (State.beat s n b) := by
  unfold State.beat
  try dsimp only
  repeat' (first
    | with_reducible exact Kept.refl _
    | with_reducible refine (State.onNode_kept _ _ _).after ?_)

theorem State.runHeartbeat_kept (s : State) (m : Rx) (b : HeartbeatBody) : Kept s (State.runHeartbeat s m b) := by
  unfold State.runHeartbeat
  try dsimp only
  repeat' (first
    | with_reducible exact Kept.refl _
    | with_reducible refine (State.complete_kept _ _ _ _ _).after ?_
    | with_reducible refine (State.answer_kept _ _ _).after ?_
    | with_reducible refine (State.retryPlaces_kept _ _).after ?_
    | with_reducible refine (State.beat_kept _ _ _).after ?_
    | split)

theorem execHeartbeat_kept (m : Rx) (b : HeartbeatBody) (s : State) : Next s (execHeartbeat m b s) := by
  unfold execHeartbeat
  try dsimp only
  repeat' (first
    | with_reducible apply Next.of
    | with_reducible exact Kept.refl _
    | with_reducible refine (State.receive_kept _ _ _ _ _ _ _ ?_).after ?_
    | with_reducible refine (State.settle_kept _).after ?_
    | with_reducible refine (State.runHeartbeat_kept _ _ _).after ?_
    | intro _)

theorem State.leave_kept (s : State) (m : Rx) (nd : Node) : Kept s (State.leave s m nd) := by
  unfold State.leave
  try dsimp only
  repeat' (first
    | with_reducible exact Kept.refl _
    | with_reducible refine (onBroker_kept ).after ?_
    | with_reducible refine (State.sendMsg_kept _ _ _ _).after ?_
    | with_reducible refine (State.returnLeases_kept _ _).after ?_
    | with_reducible refine (State.forgetNode_kept _ _).after ?_
    | split)

theorem State.runDeregister_kept (s : State) (m : Rx) (leases : Bool) : Kept s (State.runDeregister s m leases) := by
  unfold State.runDeregister
  try dsimp only
  repeat' (first
    | with_reducible exact Kept.refl _
    | with_reducible refine (State.answer_kept _ _ _).after ?_
    | with_reducible refine (State.leave_kept _ _ _).after ?_
    | split)

theorem execDeregister_kept (m : Rx) (s : State) : Next s (execDeregister m s) := by
  unfold execDeregister
  try dsimp only
  repeat' (first
    | with_reducible apply Next.of
    | with_reducible exact Kept.refl _
    | with_reducible refine (State.receive_kept _ _ _ _ _ _ _ ?_).after ?_
    | with_reducible refine (State.settle_kept _).after ?_
    | with_reducible refine (State.runDeregister_kept _ _ _).after ?_
    | intro _)

theorem execDeregisterReturnLeases_kept (m : Rx) (s : State) : Next s (execDeregisterReturnLeases m s) := by
  unfold execDeregisterReturnLeases
  try dsimp only
  repeat' (first
    | with_reducible apply Next.of
    | with_reducible exact Kept.refl _
    | with_reducible refine (State.receive_kept _ _ _ _ _ _ _ ?_).after ?_
    | with_reducible refine (State.settle_kept _).after ?_
    | with_reducible refine (State.runDeregister_kept _ _ _).after ?_
    | intro _)

theorem execLeaseTimeout_kept (node : Nat) (s : State) : Next s (execLeaseTimeout node s) := by
  unfold execLeaseTimeout
  try dsimp only
  repeat' (first
    | with_reducible exact Kept.refl _
    | with_reducible refine (State.nodeGone_kept _ _).after ?_
    | with_reducible refine State.event_kept _ _ ?_
    | intro _
    | split)

theorem execPeerTimeout_kept (node : Nat) (s : State) : Next s (execPeerTimeout node s) := by
  unfold execPeerTimeout
  try dsimp only
  repeat' (first
    | with_reducible exact Kept.refl _
    | with_reducible refine (State.nodeGone_kept _ _).after ?_
    | with_reducible refine State.event_kept _ _ ?_
    | intro _
    | split)

theorem execPeerHeartbeatSend_kept (s : State) : Next s (execPeerHeartbeatSend s) := by
  unfold execPeerHeartbeatSend
  try dsimp only
  repeat' (first
    | with_reducible exact Kept.refl _
    | with_reducible refine (onBroker_kept ).after ?_
    | with_reducible refine (State.ask_kept _ _ _ _ _ _ _ _ _ _).after ?_
    | with_reducible refine State.event_kept _ _ ?_
    | with_reducible refine (each_kept ?_).after ?_
    | intro _
    | with_reducible refine Kept.ite ?_ ?_)

theorem State.setAdvice_kept (s : State) (a : Advice) : Kept s (State.setAdvice s a) := by
  unfold State.setAdvice
  try dsimp only
  repeat' (first
    | with_reducible exact Kept.refl _
    | with_reducible refine (onBroker_kept ).after ?_)

theorem State.sendAdvice_kept (s : State) (p : Nat) (nd : Node) (role : Nat) (u : (Nat × Nat) × (Nat × Nat)) : Kept s (State.sendAdvice s p nd role u) := by
  unfold State.sendAdvice
  try dsimp only
  repeat' (first
    | with_reducible exact Kept.refl _
    | with_reducible refine (State.bump_kept _ _ _ _ _).after ?_
    | with_reducible refine (State.ask_kept _ _ _ _ _ _ _ _ _ _).after ?_
    | with_reducible refine (State.setAdvice_kept _ _).after ?_)

theorem State.evaluateAdvice_kept (s : State) (p : Nat) : Kept s (State.evaluateAdvice s p) := by
  unfold State.evaluateAdvice
  try dsimp only
  repeat' (first
    | with_reducible exact Kept.refl _
    | with_reducible refine (State.setAdvice_kept _ _).after ?_
    | with_reducible refine (State.sendAdvice_kept _ _ _ _ _).after ?_
    | split)

theorem execAdviceEvaluation_kept (partition : Nat) (s : State) : Next s (execAdviceEvaluation partition s) := by
  unfold execAdviceEvaluation
  try dsimp only
  repeat' (first
    | with_reducible exact Kept.refl _
    | with_reducible refine State.event_kept _ _ ?_
    | with_reducible refine (State.evaluateAdvice_kept _ _).after ?_
    | intro _)

theorem execRoleAdviceCompletion_kept (r : Reply) (s : State) : Next s (execRoleAdviceCompletion r s) := by
  unfold execRoleAdviceCompletion
  try dsimp only
  repeat' (first
    | with_reducible apply Next.of
    | with_reducible exact Kept.refl _
    | with_reducible refine (State.declineAdvice_kept _ _ _).after ?_
    | with_reducible refine (State.reply_kept _ _ _ _ ?_).after ?_
    | intro _
    | split)

theorem execAdviceHoldEnd_kept (partition node : Nat) (s : State) : Next s (execAdviceHoldEnd partition node s) := by
  unfold execAdviceHoldEnd
  try dsimp only
  repeat' (first
    | with_reducible exact Kept.refl _
    | with_reducible refine State.event_kept _ _ ?_
    | with_reducible refine (State.setAdvice_kept _ _).after ?_
    | intro _)

end Sys2Proof.Machine
end

