-- ==== Sys2Proof/Laws/Kept/Commit.lean ====
section
/-!
SUPPORT. What each operation of Machine/Commit.lean keeps (Laws/Kept.lean says what that is).
-/
namespace Sys2Proof.Machine

theorem State.writeTables_kept (s : State) : Kept s (State.writeTables s) := by
  unfold State.writeTables
  try dsimp only
  repeat' (first
    | with_reducible exact Kept.refl _
    | with_reducible refine (onIslands_kept ).after ?_)

theorem State.newKeys_kept (s : State) (p : Nat) : Kept s (State.newKeys s p) := by
  unfold State.newKeys
  try dsimp only
  repeat' (first
    | with_reducible exact Kept.refl _
    | with_reducible rfl
    | with_reducible refine (onEpochs_kept ?_).after ?_
    | with_reducible refine (State.fresh_kept _).after ?_)

theorem State.drainFixed_kept (s : State) (chs : List Nat) (h : Nat) : Kept s (State.drainFixed s chs h) := by
  unfold State.drainFixed
  try dsimp only
  repeat' (first
    | with_reducible exact Kept.refl _
    | with_reducible refine (State.oweAll_kept _ _).after ?_
    | with_reducible refine (State.onSeq_kept _ _ _).after ?_
    | with_reducible refine (State.shootDown_kept _ _ _).after ?_
    | with_reducible refine (State.fitFixed_kept _ _).after ?_
    | split)

theorem State.drainPeerPages_kept (s : State) (chs : List Nat) : Kept s (State.drainPeerPages s chs) := by
  unfold State.drainPeerPages
  try dsimp only
  repeat' (first
    | with_reducible exact Kept.refl _
    | with_reducible refine (onBroker_kept ).after ?_
    | with_reducible refine (State.takeFrames_kept _ _).after ?_
    | with_reducible refine (State.dropFrames_kept _ _ _).after ?_
    | with_reducible refine (State.putBytes_kept _ _ _).after ?_
    | with_reducible refine (each_kept ?_).after ?_
    | intro _
    | split)

theorem State.drainPages_kept (s : State) : Kept s (State.drainPages s) := by
  unfold State.drainPages
  try dsimp only
  repeat' (first
    | with_reducible exact Kept.refl _
    | with_reducible refine (State.addMove_kept _ _ _).after ?_
    | with_reducible refine (State.dropMove_kept _ _ _).after ?_
    | with_reducible refine (each_kept ?_).after ?_
    | intro _
    | with_reducible refine Kept.ite ?_ ?_)

theorem State.newSalt_kept (s : State) (x : Nat × List Byte) : Kept s (State.newSalt s x) := by
  unfold State.newSalt
  try dsimp only
  repeat' (first
    | with_reducible exact Kept.refl _
    | with_reducible rfl
    | with_reducible refine (onMortise_kept ).after ?_
    | with_reducible refine (onObjs_kept ?_).after ?_
    | with_reducible refine (State.deleteEntry_kept _ _ _ _ _).after ?_
    | with_reducible refine (each_kept ?_).after ?_
    | intro _
    | with_reducible refine Kept.ite ?_ ?_)

theorem State.partitionChange_kept (s : State) (old : SMap) (p : Nat) : Kept s (State.partitionChange s old p) := by
  unfold State.partitionChange
  try dsimp only
  repeat' (first
    | with_reducible exact Kept.refl _
    | with_reducible refine (onHbm_kept ?_).after ?_
    | with_reducible exact memZero_wf _ _ _
    | with_reducible refine (State.onSeq_kept _ _ _).after ?_
    | with_reducible refine (State.deleteEntry_kept _ _ _ _ _).after ?_
    | with_reducible refine (State.seal_kept _ _).after ?_
    | with_reducible refine (State.resync_kept _ _).after ?_
    | with_reducible refine (each_kept ?_).after ?_
    | intro _
    | with_reducible refine Kept.ite ?_ ?_)

theorem State.acceptCommit_held (s : State) : Held s (State.acceptCommit s) := by
  unfold State.acceptCommit
  try dsimp only
  repeat' (first
    | with_reducible exact Held.refl _
    | with_reducible refine (onEpochs_held ?_).after ?_
    | with_reducible refine (onObjs_held).after ?_
    | with_reducible refine (onSeqs_kept ).held.after ?_
    | with_reducible refine (State.writeTables_kept _).held.after ?_
    | with_reducible refine (State.newKeys_kept _ _).held.after ?_
    | with_reducible refine (State.drainFixed_kept _ _ _).held.after ?_
    | with_reducible refine (State.drainPeerPages_kept _ _).held.after ?_
    | with_reducible refine (State.drainPages_kept _).held.after ?_
    | with_reducible refine (State.newSalt_kept _ _).held.after ?_
    | with_reducible refine (State.partitionChange_kept _ _ _).held.after ?_
    | with_reducible refine (each_held ?_).after ?_
    | omega
    | intro _
    | split
    | dsimp only)

theorem State.commit_held (s : State) : Held s (State.commit s).2 := by
  unfold State.commit
  try dsimp only
  repeat' (first
    | with_reducible exact Held.refl _
    | with_reducible assumption
    | with_reducible refine (onEpochs_held ?_).after ?_
    | with_reducible refine (State.settle_kept _).held.after ?_
    | with_reducible refine (State.acceptCommit_held _).after ?_
    | intro _
    | split)

theorem State.discard_kept (s : State) : Kept s (State.discard s) := by
  unfold State.discard
  try dsimp only
  repeat' (first
    | with_reducible exact Kept.refl _
    | with_reducible rfl
    | with_reducible refine (onObjs_kept ?_).after ?_)

theorem State.endEpoch_kept (s : State) : Kept s (State.endEpoch s) := by
  unfold State.endEpoch
  try dsimp only
  repeat' (first
    | with_reducible exact Kept.refl _
    | with_reducible rfl
    | with_reducible refine (onEpochs_kept ?_).after ?_
    | with_reducible refine (onSeqs_kept ).after ?_)

theorem execDrainLimitExpiry_kept (s : State) : Next s (execDrainLimitExpiry s) := by
  unfold execDrainLimitExpiry
  try dsimp only
  repeat' (first
    | with_reducible exact Kept.refl _
    | with_reducible rfl
    | with_reducible refine (onEpochs_kept ?_).after ?_
    | with_reducible refine State.event_kept _ _ ?_
    | with_reducible refine (State.endUnder_kept _ _ _).after ?_
    | with_reducible refine (State.endEpoch_kept _).after ?_
    | intro _
    | with_reducible refine Kept.ite ?_ ?_)

theorem execEpochDrainEnd_kept (s : State) : Next s (execEpochDrainEnd s) := by
  unfold execEpochDrainEnd
  try dsimp only
  repeat' (first
    | with_reducible exact Kept.refl _
    | with_reducible refine State.event_kept _ _ ?_
    | with_reducible refine (State.endEpoch_kept _).after ?_
    | intro _
    | with_reducible refine Kept.ite ?_ ?_)

theorem State.endSliceQps_kept (s : State) (n : Nat) : Kept s (State.endSliceQps s n) := by
  unfold State.endSliceQps
  try dsimp only
  repeat' (first
    | with_reducible exact Kept.refl _
    | with_reducible refine (State.qpError_kept _ _ _).after ?_
    | with_reducible refine (each_kept ?_).after ?_
    | intro _)

theorem State.dropPartition_kept (s : State) (p : Nat) : Kept s (State.dropPartition s p) := by
  unfold State.dropPartition
  try dsimp only
  repeat' (first
    | with_reducible exact Kept.refl _
    | with_reducible rfl
    | with_reducible refine (onEpochs_kept ?_).after ?_
    | with_reducible refine (onNet_kept ).after ?_
    | with_reducible refine (onPackers_kept ).after ?_)

theorem State.clearLines_kept (s : State) (slice : Nat) : Kept s (State.clearLines s slice) := by
  unfold State.clearLines
  try dsimp only
  repeat' (first
    | with_reducible exact Kept.refl _
    | with_reducible refine (State.clearSliceLines_kept _ _ _ _).after ?_
    | split)

theorem execSliceDrainDone_kept (slice : Nat) (s : State) : Next s (execSliceDrainDone slice s) := by
  unfold execSliceDrainDone
  try dsimp only
  repeat' (first
    | with_reducible exact Kept.refl _
    | with_reducible rfl
    | with_reducible refine (onEpochs_kept ?_).after ?_
    | with_reducible refine State.event_kept _ _ ?_
    | with_reducible refine (State.drainPages_kept _).after ?_
    | with_reducible refine (State.endSliceQps_kept _ _).after ?_
    | with_reducible refine (State.clearLines_kept _ _).after ?_
    | intro _
    | split)

theorem State.zeroSlice_kept (s : State) (slice : Nat) : Kept s (State.zeroSlice s slice) := by
  unfold State.zeroSlice
  try dsimp only
  repeat' (first
    | with_reducible exact Kept.refl _
    | with_reducible refine (onHbm_kept ?_).after ?_
    | with_reducible exact memZero_wf _ _ _
    | with_reducible refine (each_kept ?_).after ?_
    | intro _)

theorem State.assignSlice_kept (s : State) (slice : Nat) (to_ : Option Nat) : Kept s (State.assignSlice s slice to_) := by
  unfold State.assignSlice
  try dsimp only
  repeat' (first
    | with_reducible exact Kept.refl _
    | with_reducible rfl
    | with_reducible refine (onEpochs_kept ?_).after ?_)

theorem State.dropUnowned_kept (s : State) (slice : Nat) : Kept s (State.dropUnowned s slice) := by
  unfold State.dropUnowned
  try dsimp only
  repeat' (first
    | with_reducible exact Kept.refl _
    | with_reducible rfl
    | with_reducible refine (onEpochs_kept ?_).after ?_
    | with_reducible refine (State.dropPartition_kept _ _).after ?_
    | with_reducible refine (each_kept ?_).after ?_
    | intro _)

theorem execZeroingDone_kept (slice : Nat) (s : State) : Next s (execZeroingDone slice s) := by
  unfold execZeroingDone
  try dsimp only
  repeat' (first
    | with_reducible exact Kept.refl _
    | with_reducible rfl
    | with_reducible refine (onDev_kept ?_).after ?_
    | with_reducible refine State.event_kept _ _ ?_
    | with_reducible refine (State.writeTables_kept _).after ?_
    | with_reducible refine (State.zeroSlice_kept _ _).after ?_
    | with_reducible refine (State.assignSlice_kept _ _ _).after ?_
    | with_reducible refine (State.dropUnowned_kept _ _).after ?_
    | intro _
    | split)

theorem execReservationLimitExpiry_kept (s : State) : Next s (execReservationLimitExpiry s) := by
  unfold execReservationLimitExpiry
  try dsimp only
  repeat' (first
    | with_reducible apply Next.of
    | with_reducible exact Kept.refl _
    | with_reducible rfl
    | with_reducible refine (onObjs_kept ?_).after ?_
    | split)

end Sys2Proof.Machine
end

