-- ==== Sys2Proof/Laws/Kept/Resets.lean ====
section
/-!
SUPPORT. What each operation of Machine/Resets.lean keeps (Laws/Kept.lean says what that is).
-/
namespace Sys2Proof.Machine

theorem State.freeBoot_kept (s : State) : Kept s (State.freeBoot s).2 := by
  unfold State.freeBoot
  try dsimp only
  repeat' (first
    | with_reducible exact Kept.refl _
    | with_reducible refine (State.free_kept _).after ?_)

theorem State.cleared_held (s : State) (power : Bool) : Held s (State.cleared s power) := by
  refine ⟨rfl, ?_, fun _ => ⟨Nat.le_refl 1, (by decide : 1 ≤ 65535)⟩, ?_, id, rfl, fun _ => ⟨List.Pairwise.nil, fun _ h => absurd h List.not_mem_nil⟩⟩
  · intro h
    cases power
    · exact h
    · exact Nat.le_refl _
  · intro h
    cases power
    · exact h
    · show (s.mgmt.creds.map _).any Cred.admin = true
      rw [List.any_map]
      exact h

theorem State.bootFaultAt_kept (s : State) (src step : Nat) : Kept s (State.bootFaultAt s src step) := by
  unfold State.bootFaultAt
  try dsimp only
  repeat' (first
    | with_reducible exact Kept.refl _
    | with_reducible refine (onFaults_kept ).after ?_
    | with_reducible refine (State.collectUnit_kept _ _ _ _ _).after ?_)

theorem State.stopBoot_kept (s : State) (step : Nat) : Kept s (State.stopBoot s step) := by
  unfold State.stopBoot
  try dsimp only
  repeat' (first
    | with_reducible exact Kept.refl _
    | with_reducible rfl
    | with_reducible refine (onDev_kept ?_).after ?_
    | with_reducible refine (State.bootFaultAt_kept _ _ _).after ?_)

theorem State.loadImage_held (s : State) (b : BootReport) : Held s (State.loadImage s b).2 := by
  unfold State.loadImage
  try dsimp only
  repeat' (first
    | with_reducible exact Held.refl _
    | with_reducible refine (onDev_kept ?_).held.after ?_
    | with_reducible refine (onFaults_kept ).held.after ?_
    | with_reducible refine (onFw_held ?_).after ?_
    | with_reducible refine (onObjs_held).after ?_
    | with_reducible refine (State.collectUnit_kept _ _ _ _ _).held.after ?_
    | dsimp only
    | omega
    | with_reducible refine Held.ite_snd ?_ ?_
    | dsimp only)

theorem State.setRail_kept (s : State) (die : Nat) : Kept s (State.setRail s die) := by
  unfold State.setRail
  try dsimp only
  repeat' (first
    | with_reducible exact Kept.refl _
    | with_reducible refine (onPower_kept ).after ?_
    | with_reducible refine (State.free_kept _).after ?_)

theorem State.bootStacks_kept (s : State) (b : BootReport) : Kept s (State.bootStacks s b) := by
  unfold State.bootStacks
  try dsimp only
  repeat' (first
    | with_reducible exact Kept.refl _
    | with_reducible refine (State.fenceUnit_kept _ _).after ?_
    | with_reducible refine (State.collectUnit_kept _ _ _ _ _).after ?_
    | with_reducible refine (each_kept ?_).after ?_
    | intro _)

theorem State.formatFlash_kept (s : State) (i : Nat) : Kept s (State.formatFlash s i) := by
  unfold State.formatFlash
  try dsimp only
  repeat' (first
    | with_reducible exact Kept.refl _
    | with_reducible refine (onFlash_kept ).after ?_)

theorem State.bootFlash_kept (s : State) (b : BootReport) (adopted discarded : Nat) : Kept s (State.bootFlash s b adopted discarded) := by
  unfold State.bootFlash
  try dsimp only
  repeat' (first
    | with_reducible exact Kept.refl _
    | with_reducible refine (onFlash_kept ).after ?_
    | with_reducible refine (State.free_kept _).after ?_
    | with_reducible refine (State.note_kept _ _ _ _ _).after ?_
    | with_reducible refine (State.bootFaultAt_kept _ _ _).after ?_
    | with_reducible refine (State.formatFlash_kept _ _).after ?_
    | with_reducible refine (each_kept ?_).after ?_
    | intro _
    | with_reducible refine Kept.ite ?_ ?_)

theorem State.bootPorts_kept (s : State) (b : BootReport) : Kept s (State.bootPorts s b) := by
  unfold State.bootPorts
  try dsimp only
  repeat' (first
    | with_reducible exact Kept.refl _
    | with_reducible refine (onNet_kept ).after ?_
    | with_reducible refine (State.onLp_kept _ _ _).after ?_
    | with_reducible refine (State.fenceUnit_kept _ _).after ?_
    | with_reducible refine (State.bootFaultAt_kept _ _ _).after ?_
    | with_reducible refine (each_kept ?_).after ?_
    | intro _)

theorem State.bootMap_kept (s : State) : Kept s (State.bootMap s) := by
  unfold State.bootMap
  try dsimp only
  repeat' (first
    | with_reducible exact Kept.refl _
    | with_reducible rfl
    | with_reducible refine (onEpochs_kept ?_).after ?_
    | with_reducible refine (State.writeTables_kept _).after ?_
    | with_reducible refine (State.newKeys_kept _ _).after ?_
    | with_reducible refine (each_kept ?_).after ?_
    | intro _)

theorem State.recordOwed_kept (s : State) : Kept s (State.recordOwed s) := by
  unfold State.recordOwed
  try dsimp only
  repeat' (first
    | with_reducible exact Kept.refl _
    | with_reducible refine (onFaults_kept ).after ?_
    | with_reducible refine (State.free_kept _).after ?_
    | with_reducible refine (State.collectUnit_kept _ _ _ _ _).after ?_
    | split)

theorem State.loadPort_kept (s : State) : Kept s (State.loadPort s) := by
  unfold State.loadPort
  try dsimp only
  repeat' (first
    | with_reducible exact Kept.refl _
    | with_reducible rfl
    | with_reducible refine (onMgmt_kept ?_ ?_).after ?_)

theorem State.runBoot_held (s : State) (b : BootReport) (adopted discarded : Nat) : Held s (State.runBoot s b adopted discarded) := by
  unfold State.runBoot
  try dsimp only
  repeat' (first
    | with_reducible exact Held.refl _
    | with_reducible rfl
    | with_reducible refine (onDev_kept ?_).held.after ?_
    | with_reducible refine (State.free_kept _).held.after ?_
    | with_reducible refine (State.interrupt_kept _ _).held.after ?_
    | with_reducible refine (State.seeNow_kept _).held.after ?_
    | with_reducible refine (State.bootFaultAt_kept _ _ _).held.after ?_
    | with_reducible refine (State.stopBoot_kept _ _).held.after ?_
    | with_reducible refine (State.loadImage_held _ _).after ?_
    | with_reducible refine (State.setRail_kept _ _).held.after ?_
    | with_reducible refine (State.bootStacks_kept _ _).held.after ?_
    | with_reducible refine (State.bootFlash_kept _ _ _ _).held.after ?_
    | with_reducible refine (State.bootPorts_kept _ _).held.after ?_
    | with_reducible refine (State.bootMap_kept _).held.after ?_
    | with_reducible refine (State.recordOwed_kept _).held.after ?_
    | with_reducible refine (State.loadPort_kept _).held.after ?_
    | with_reducible refine (foldl_held ?_).after ?_
    | intro _
    | with_reducible refine Held.ite ?_ ?_)

theorem State.reboot_held (s : State) (b : BootReport) (power : Bool) : Held s (State.reboot s b power) := by
  unfold State.reboot
  try dsimp only
  repeat' (first
    | with_reducible exact Held.refl _
    | with_reducible rfl
    | with_reducible refine (onDev_kept ?_).held.after ?_
    | with_reducible refine (State.newKeys_kept _ _).held.after ?_
    | with_reducible refine (State.cleared_held _ _).after ?_
    | with_reducible refine (State.runBoot_held _ _ _ _).after ?_
    | with_reducible refine Held.ite ?_ ?_)

theorem State.resetRows_kept (s : State) (p : Nat) : Kept s (State.resetRows s p) := by
  unfold State.resetRows
  try dsimp only
  repeat' (first
    | with_reducible exact Kept.refl _
    | with_reducible refine (onWork_kept ).after ?_
    | with_reducible refine (State.bump_kept _ _ _ _ _).after ?_
    | with_reducible refine (State.dropTile_kept _ _).after ?_
    | with_reducible refine (each_kept ?_).after ?_
    | intro _)

theorem State.resetWork_kept (s : State) (p : Nat) : Kept s (State.resetWork s p) := by
  unfold State.resetWork
  try dsimp only
  repeat' (first
    | with_reducible exact Kept.refl _
    | with_reducible refine (onBroker_kept ).after ?_
    | with_reducible refine (onFlash_kept ).after ?_
    | with_reducible refine (onMortise_kept ).after ?_
    | with_reducible refine (onWork_kept ).after ?_
    | with_reducible refine (State.failAccepted_kept _ _ _).after ?_
    | with_reducible refine (State.dropQueued_kept _ _ _).after ?_
    | with_reducible refine (State.dropPlace_kept _ _ _).after ?_
    | with_reducible refine (State.dropMoves_kept _ _).after ?_
    | with_reducible refine (each_kept ?_).after ?_
    | intro _)

theorem State.resetSync_kept (s : State) (q : Seq) : Kept s (State.resetSync s q) := by
  unfold State.resetSync
  try dsimp only
  repeat' (first
    | with_reducible exact Kept.refl _
    | with_reducible refine (State.freshTag_kept _).after ?_
    | with_reducible refine (State.emit_kept _ _ _).after ?_
    | split)

theorem State.resetSeq_kept (s : State) (h : Nat) : Kept s (State.resetSeq s h) := by
  unfold State.resetSeq
  try dsimp only
  repeat' (first
    | with_reducible exact Kept.refl _
    | with_reducible refine (State.dropSeq_kept _ _).after ?_
    | with_reducible refine (State.dropPrefix_kept _ _ _).after ?_
    | with_reducible refine (State.resetSync_kept _ _).after ?_
    | split)

theorem State.resetNet_kept (s : State) (p : Nat) : Kept s (State.resetNet s p) := by
  unfold State.resetNet
  try dsimp only
  repeat' (first
    | with_reducible exact Kept.refl _
    | with_reducible refine (onBroker_kept ).after ?_
    | with_reducible refine (onMailboxes_kept ).after ?_
    | with_reducible refine (onMortise_kept ).after ?_
    | with_reducible refine (onNet_kept ).after ?_
    | with_reducible refine (State.bump_kept _ _ _ _ _).after ?_
    | with_reducible refine (State.note_kept _ _ _ _ _).after ?_
    | with_reducible refine (State.forgetNode_kept _ _).after ?_
    | with_reducible refine (each_kept ?_).after ?_
    | intro _)

theorem State.resetPartition_kept (s : State) (p : Nat) : Kept s (State.resetPartition s p) := by
  unfold State.resetPartition
  try dsimp only
  repeat' (first
    | with_reducible exact Kept.refl _
    | with_reducible assumption
    | with_reducible rfl
    | with_reducible refine (onDev_kept ?_).after ?_
    | with_reducible refine (onEpochs_kept ?_).after ?_
    | with_reducible refine (onHbm_kept ?_).after ?_
    | with_reducible refine (onPackers_kept ).after ?_
    | with_reducible refine (State.clearSliceLines_kept _ _ _ _).after ?_
    | with_reducible refine (State.dropFrames_kept _ _ _).after ?_
    | with_reducible refine (State.resetRows_kept _ _).after ?_
    | with_reducible refine (State.resetWork_kept _ _).after ?_
    | with_reducible refine (State.resetSeq_kept _ _).after ?_
    | with_reducible refine (State.resetNet_kept _ _).after ?_
    | with_reducible refine (each_kept ?_).after ?_
    | intro _)

theorem State.unfence_kept (s : State) (mine : Nat → Bool) : Kept s (State.unfence s mine) := by
  unfold State.unfence
  try dsimp only
  repeat' (first
    | with_reducible exact Kept.refl _
    | with_reducible refine (onFaults_kept ).after ?_)

theorem State.resetCluster_kept (s : State) (c : Nat) : Kept s (State.resetCluster s c) := by
  unfold State.resetCluster
  try dsimp only
  repeat' (first
    | with_reducible exact Kept.refl _
    | with_reducible refine (State.onIsland_kept _ _ _).after ?_
    | with_reducible refine (State.clusterBack_kept _ _).after ?_
    | with_reducible refine (State.markIslands_kept _ _ _).after ?_
    | with_reducible refine (State.clearCluster_kept _ _ _).after ?_
    | with_reducible refine (State.unfence_kept _ _).after ?_)

theorem State.resetPort_kept (s : State) (p : Nat) : Kept s (State.resetPort s p) := by
  unfold State.resetPort
  try dsimp only
  repeat' (first
    | with_reducible exact Kept.refl _
    | with_reducible rfl
    | with_reducible refine (onDev_kept ?_).after ?_
    | with_reducible refine (State.portDown_kept _ _ _).after ?_
    | with_reducible refine (State.setPortMode_kept _ _ _ _).after ?_
    | with_reducible refine (State.unfence_kept _ _).after ?_
    | with_reducible refine (each_kept ?_).after ?_
    | intro _)

theorem State.resetDie_kept (s : State) (b : BootReport) : Kept s (State.resetDie s b) := by
  unfold State.resetDie
  try dsimp only
  repeat' (first
    | with_reducible exact Kept.refl _
    | with_reducible refine (onFlash_kept ).after ?_
    | with_reducible refine (onIslands_kept ).after ?_
    | with_reducible refine (onNet_kept ).after ?_
    | with_reducible refine (State.clusterBack_kept _ _).after ?_
    | with_reducible refine (State.clearCache_kept _ _).after ?_
    | with_reducible refine (State.staleDies_kept _ _).after ?_
    | with_reducible refine (State.onLp_kept _ _ _).after ?_
    | with_reducible refine (State.portDown_kept _ _ _).after ?_
    | with_reducible refine (State.fenceUnit_kept _ _).after ?_
    | with_reducible refine (State.collectUnit_kept _ _ _ _ _).after ?_
    | with_reducible refine (State.setRail_kept _ _).after ?_
    | with_reducible refine (State.unfence_kept _ _).after ?_
    | with_reducible refine (each_kept ?_).after ?_
    | with_reducible refine (foldl_kept ?_).after ?_
    | intro _
    | with_reducible refine Kept.ite ?_ ?_)

theorem State.requestReset_held (s : State) (w : Nat) (boot : Option BootReport) (i3c : Bool) : Held s (State.requestReset s w boot i3c).2 := by
  unfold State.requestReset
  have hb : ∀ b : Option BootReport, Held s (match b with | some b => (b, s) | none => s.freeBoot).2 := by
    intro b
    cases b
    · exact (State.freeBoot_kept _).held
    · exact Held.refl _
  have note : ∀ (t : State) (n : Nat), Held t (t.onDev fun d => { d with lastReset := n }) := fun t n => (onDev_kept rfl).held
  refine Held.ite_snd (Held.refl _) (Held.ite_snd (Held.refl _) (Held.ite_snd ?_ (Held.ite_snd (Held.refl _) (Held.ite_snd ?_ (Held.ite_snd ?_
    (Held.ite_snd ?_ (Held.ite_snd ?_ (Held.refl _))))))))
  all_goals refine Held.ite_snd ?_ (Held.refl _)
  · exact (State.reboot_held _ _ _).after (hb boot)
  · exact (note _ _).after ((State.resetDie_kept _ _).held.after (hb boot))
  · exact (note _ _).after (State.resetCluster_kept _ _).held
  · exact (note _ _).after (State.resetPartition_kept _ _).held
  · exact (note _ _).after (State.resetPort_kept _ _).held

theorem State.linkReset_kept (s : State) (p : Nat) : Kept s (State.linkReset s p) := by
  unfold State.linkReset
  try dsimp only
  repeat' (first
    | with_reducible exact Kept.refl _
    | with_reducible refine (State.portDown_kept _ _ _).after ?_
    | with_reducible refine (State.setPortMode_kept _ _ _ _).after ?_
    | with_reducible refine (State.unfence_kept _ _).after ?_
    | with_reducible refine (each_kept ?_).after ?_
    | intro _)

theorem execLinkTrained_kept (port : Nat) (s : State) : Next s (execLinkTrained port s) := by
  unfold execLinkTrained
  try dsimp only
  repeat' (first
    | with_reducible apply Next.of
    | with_reducible exact Kept.refl _
    | with_reducible rfl
    | with_reducible refine (onDev_kept ?_).after ?_
    | with_reducible refine (State.settle_kept _).after ?_
    | with_reducible refine (State.onLp_kept _ _ _).after ?_
    | with_reducible refine (each_kept ?_).after ?_
    | intro _
    | with_reducible refine Kept.ite ?_ ?_)

theorem State.beginShutdown_kept (s : State) : Kept s (State.beginShutdown s) := by
  unfold State.beginShutdown
  try dsimp only
  repeat' (first
    | with_reducible exact Kept.refl _
    | with_reducible rfl
    | with_reducible refine (onDev_kept ?_).after ?_
    | with_reducible refine Kept.ite ?_ ?_)

theorem State.writeOwed_kept (s : State) (i : Nat) (x : FlashPage) : Kept s (State.writeOwed s i x) := by
  unfold State.writeOwed
  try dsimp only
  repeat' (first
    | with_reducible exact Kept.refl _
    | with_reducible refine (State.owe_kept _ _).after ?_
    | with_reducible refine (State.programSystem_kept _ _ _ (by assumption)).after ?_
    | with_reducible refine (getD_kept ?_).after ?_
    | intro _)

theorem State.fullCheckpoint_kept (s : State) (i : Nat) : Kept s (State.fullCheckpoint s i) := by
  unfold State.fullCheckpoint
  try dsimp only
  repeat' (first
    | with_reducible exact Kept.refl _
    | with_reducible refine (onFlash_kept ).after ?_
    | with_reducible refine (State.onFisland_kept _ _ _).after ?_
    | with_reducible refine (State.flushNow_kept _ _).after ?_
    | with_reducible refine (State.writeOwed_kept _ _ _).after ?_)

theorem State.saveAll_held (s : State) : Held s (State.saveAll s) := by
  unfold State.saveAll
  try dsimp only
  repeat' (first
    | with_reducible exact Held.refl _
    | with_reducible refine (onClock_held ?_).after ?_
    | with_reducible refine (onMeters_kept ).held.after ?_
    | with_reducible exact fun _ => Nat.le_refl _)

theorem execShutdownRequestTimeout_held (s : State) : NextHeld s (execShutdownRequestTimeout s) := by
  unfold execShutdownRequestTimeout
  try dsimp only
  repeat' (first
    | with_reducible exact Held.refl _
    | with_reducible rfl
    | with_reducible refine (onDev_kept ?_).held.after ?_
    | with_reducible refine State.event_held _ _ ?_
    | with_reducible refine (State.endRequests_kept _).held.after ?_
    | with_reducible refine (State.fullCheckpoint_kept _ _).held.after ?_
    | with_reducible refine (State.saveAll_held _).after ?_
    | with_reducible refine (each_held ?_).after ?_
    | intro _
    | split)

theorem State.holdInReset_kept (s : State) : Kept s (State.holdInReset s) := by
  unfold State.holdInReset
  try dsimp only
  repeat' (first
    | with_reducible exact Kept.refl _
    | with_reducible rfl
    | with_reducible refine (onDev_kept ?_).after ?_
    | with_reducible refine (onFaults_kept ).after ?_
    | with_reducible refine (onNet_kept ).after ?_)

theorem execVddAuxLoss_kept (s : State) : Next s (execVddAuxLoss s) := by
  unfold execVddAuxLoss
  try dsimp only
  repeat' (first
    | with_reducible apply Next.of
    | with_reducible exact Kept.refl _
    | with_reducible refine (State.holdInReset_kept _).after ?_)

end Sys2Proof.Machine
end

