-- ==== Sys2Proof/Laws/Kept/Updates.lean ====
section
/-!
SUPPORT. What each operation of Machine/Updates.lean keeps (Laws/Kept.lean says what that is).
-/
namespace Sys2Proof.Machine

theorem State.landImage_kept (s : State) (bytes : List Byte) : Kept s (State.landImage s bytes) := by
  unfold State.landImage
  try dsimp only
  repeat' (first
    | with_reducible exact Kept.refl _
    | with_reducible rfl
    | with_reducible refine (onFw_kept ?_).after ?_)

theorem State.dropImage_kept (s : State) : Kept s (State.dropImage s) := by
  unfold State.dropImage
  try dsimp only
  repeat' (first
    | with_reducible exact Kept.refl _
    | with_reducible rfl
    | with_reducible refine (onFw_kept ?_).after ?_
    | with_reducible refine Kept.ite ?_ ?_)

theorem State.imageFails_kept (s : State) : Kept s (State.imageFails s) := by
  unfold State.imageFails
  try dsimp only
  repeat' (first
    | with_reducible exact Kept.refl _
    | with_reducible rfl
    | with_reducible refine (onFw_kept ?_).after ?_
    | with_reducible refine (State.collectUnit_kept _ _ _ _ _).after ?_)

theorem State.verifyImage_kept (s : State) (signed configOk : Bool) (version : Nat) : Kept s (State.verifyImage s signed configOk version).2 := by
  unfold State.verifyImage
  try dsimp only
  repeat' (first
    | with_reducible exact Kept.refl _
    | with_reducible rfl
    | with_reducible refine (onFw_kept ?_).after ?_
    | with_reducible refine (State.imageFails_kept _).after ?_
    | with_reducible refine Kept.ite_snd ?_ ?_)

theorem State.closeAtt_kept (s : State) (mine : AttSession → Bool) : Kept s (State.closeAtt s mine) := by
  unfold State.closeAtt
  try dsimp only
  repeat' (first
    | with_reducible exact Kept.refl _
    | with_reducible refine (onSec_kept ).after ?_)

theorem State.startSwitch_kept (s : State) (r : SwitchReport) : Kept s (State.startSwitch s r).2 := by
  unfold State.startSwitch
  try dsimp only
  repeat' (first
    | with_reducible exact Kept.refl _
    | with_reducible rfl
    | with_reducible refine (onFw_kept ?_).after ?_
    | with_reducible refine (State.imageFails_kept _).after ?_
    | with_reducible refine (State.closeAtt_kept _ _).after ?_
    | with_reducible refine Kept.ite_snd ?_ ?_)

theorem State.freeSwitch_kept (s : State) : Kept s (State.freeSwitch s).2 := by
  unfold State.freeSwitch
  try dsimp only
  repeat' (first
    | with_reducible exact Kept.refl _
    | with_reducible refine (State.free_kept _).after ?_)

theorem State.resumeTimers_kept (s : State) (held : Nat) : Kept s (State.resumeTimers s held) := by
  unfold State.resumeTimers
  try dsimp only
  repeat' (first
    | with_reducible exact Kept.refl _
    | with_reducible refine (onBroker_kept ).after ?_)

theorem execFirmwareHoldLimitExpiry_held (s : State) : NextHeld s (execFirmwareHoldLimitExpiry s) := by
  unfold execFirmwareHoldLimitExpiry
  try dsimp only
  repeat' (first
    | with_reducible apply NextHeld.of
    | with_reducible exact Held.refl _
    | with_reducible refine (onFw_held ?_).after ?_
    | with_reducible refine (State.settle_kept _).held.after ?_
    | with_reducible refine (State.endRequests_kept _).held.after ?_
    | with_reducible refine (State.imageFails_kept _).held.after ?_
    | with_reducible refine (State.resumeTimers_kept _ _).held.after ?_
    | omega
    | split
    | dsimp only)

end Sys2Proof.Machine
end

