-- ==== Sys2Proof/Laws/Kept/Attestation.lean ====
section
/-!
SUPPORT. What each operation of Machine/Attestation.lean keeps (Laws/Kept.lean says what that is).
-/
namespace Sys2Proof.Machine

theorem State.onAtt_kept (s : State) (slot : Nat) (f : AttSession → AttSession) : Kept s (State.onAtt s slot f) := by
  unfold State.onAtt
  try dsimp only
  repeat' (first
    | with_reducible exact Kept.refl _
    | with_reducible refine (onSec_kept ).after ?_)

theorem State.failAtt_kept (s : State) (slot : Nat) : Kept s (State.failAtt s slot) := by
  unfold State.failAtt
  try dsimp only
  repeat' (first
    | with_reducible exact Kept.refl _
    | with_reducible refine (State.bump_kept _ _ _ _ _).after ?_
    | with_reducible refine (State.onAtt_kept _ _ _).after ?_)

theorem State.cryptoWork_kept (s : State) : Kept s (State.cryptoWork s) := by
  unfold State.cryptoWork
  try dsimp only
  repeat' (first
    | with_reducible exact Kept.refl _
    | with_reducible refine (State.owe_kept _ _).after ?_)

theorem State.sealAtt_kept (s : State) (a : AttSession) (type : Nat) (plain : List Byte) : Kept s (State.sealAtt s a type plain) := by
  unfold State.sealAtt
  try dsimp only
  repeat' (first
    | with_reducible exact Kept.refl _
    | with_reducible refine (State.onAtt_kept _ _ _).after ?_)

theorem State.openAtt_kept (s : State) (slot kind p : Nat) (nonce ek : List Byte) : Kept s (State.openAtt s slot kind p nonce ek) := by
  unfold State.openAtt
  try dsimp only
  repeat' (first
    | with_reducible exact Kept.refl _
    | with_reducible refine (State.randomBytes_kept _ _).after ?_
    | with_reducible refine (State.onAtt_kept _ _ _).after ?_
    | with_reducible refine (State.cryptoWork_kept _).after ?_)

theorem State.attHello_kept (s : State) (slot kind p : Nat) (nonce ek : List Byte) : Kept s (State.attHello s slot kind p nonce ek).2 := by
  unfold State.attHello
  try dsimp only
  repeat' (first
    | with_reducible exact Kept.refl _
    | with_reducible refine (State.failAtt_kept _ _).after ?_
    | with_reducible refine (State.openAtt_kept _ _ _ _ _ _).after ?_
    | split)

theorem execAttestHelloTenantKeys_kept (slot : Nat) (partition : Byte) (nonce ek : List Byte) (s : State) : Next s (execAttestHelloTenantKeys slot partition nonce ek s) := by
  unfold execAttestHelloTenantKeys
  try dsimp only
  repeat' (first
    | with_reducible apply Next.of
    | with_reducible exact Kept.refl _
    | with_reducible refine (State.attHello_kept _ _ _ _ _ _).after ?_
    | with_reducible refine Kept.ite ?_ ?_)

theorem execAttestHelloPeerPairing_kept (slot : Nat) (partition : Byte) (nonce ek : List Byte) (s : State) : Next s (execAttestHelloPeerPairing slot partition nonce ek s) := by
  unfold execAttestHelloPeerPairing
  try dsimp only
  repeat' (first
    | with_reducible apply Next.of
    | with_reducible exact Kept.refl _
    | with_reducible refine (State.attHello_kept _ _ _ _ _ _).after ?_
    | with_reducible refine Kept.ite ?_ ?_)

theorem execAttestHelloReportOnly_kept (slot : Nat) (partition : Byte) (nonce : List Byte) (s : State) : Next s (execAttestHelloReportOnly slot partition nonce s) := by
  unfold execAttestHelloReportOnly
  try dsimp only
  repeat' (first
    | with_reducible apply Next.of
    | with_reducible exact Kept.refl _
    | with_reducible refine (State.attHello_kept _ _ _ _ _ _).after ?_
    | with_reducible refine Kept.ite ?_ ?_)

theorem State.keyPeer_kept (s : State) (peer : Nat) (a : AttSession) : Kept s (State.keyPeer s peer a) := by
  unfold State.keyPeer
  try dsimp only
  repeat' (first
    | with_reducible exact Kept.refl _
    | with_reducible refine (onSec_kept ).after ?_
    | with_reducible refine (State.bump_kept _ _ _ _ _).after ?_)

theorem State.attDone_kept (s : State) (a : AttSession) (st : Status) : Kept s (State.attDone s a st) := by
  unfold State.attDone
  try dsimp only
  repeat' (first
    | with_reducible exact Kept.refl _
    | with_reducible refine (State.cryptoWork_kept _).after ?_
    | with_reducible refine (State.sealAtt_kept _ _ _ _).after ?_)

theorem State.attFinish_kept (s : State) (a : AttSession) (opens sigOk : Bool) (hash : List Byte) : Kept s (State.attFinish s a opens sigOk hash) := by
  unfold State.attFinish
  try dsimp only
  repeat' (first
    | with_reducible exact Kept.refl _
    | with_reducible refine (State.onAtt_kept _ _ _).after ?_
    | with_reducible refine (State.failAtt_kept _ _).after ?_
    | with_reducible refine (State.keyPeer_kept _ _ _).after ?_
    | with_reducible refine (State.attDone_kept _ _ _).after ?_
    | split)

theorem execAttestFinish_kept (slot : Nat) (opens sigOk : Bool) (identityHash : List Byte) (s : State) : Next s (execAttestFinish slot opens sigOk identityHash s) := by
  unfold execAttestFinish
  try dsimp only
  repeat' (first
    | with_reducible apply Next.of
    | with_reducible exact Kept.refl _
    | with_reducible refine (State.settle_kept _).after ?_
    | with_reducible refine (State.attFinish_kept _ _ _ _ _).after ?_
    | split)

theorem State.placeHello_kept (s : State) (slot : Nat) : Kept s (State.placeHello s slot) := by
  unfold State.placeHello
  try dsimp only
  repeat' (first
    | with_reducible exact Kept.refl _
    | with_reducible refine (State.randomBytes_kept _ _).after ?_
    | with_reducible refine (State.onAtt_kept _ _ _).after ?_
    | with_reducible refine (State.cryptoWork_kept _).after ?_)

theorem State.startPair_kept (s : State) (slot : Nat) : Kept s (State.startPair s slot).2 := by
  unfold State.startPair
  try dsimp only
  repeat' (first
    | with_reducible exact Kept.refl _
    | with_reducible refine (State.placeHello_kept _ _).after ?_
    | split)

theorem State.pairingAnswered_kept (s : State) (a : AttSession) (sigOk : Bool) (hash : List Byte) : Kept s (State.pairingAnswered s a sigOk hash) := by
  unfold State.pairingAnswered
  try dsimp only
  repeat' (first
    | with_reducible exact Kept.refl _
    | with_reducible refine (State.randomBytes_kept _ _).after ?_
    | with_reducible refine (State.onAtt_kept _ _ _).after ?_
    | with_reducible refine (State.failAtt_kept _ _).after ?_
    | with_reducible refine (State.cryptoWork_kept _).after ?_
    | with_reducible refine (State.sealAtt_kept _ _ _ _).after ?_
    | with_reducible refine (State.keyPeer_kept _ _ _).after ?_
    | split)

theorem execPairingDeviceReceived_kept (slot : Nat) (sigOk : Bool) (identityHash : List Byte) (s : State) : Next s (execPairingDeviceReceived slot sigOk identityHash s) := by
  unfold execPairingDeviceReceived
  try dsimp only
  repeat' (first
    | with_reducible apply Next.of
    | with_reducible exact Kept.refl _
    | with_reducible refine (State.settle_kept _).after ?_
    | with_reducible refine (State.pairingAnswered_kept _ _ _ _).after ?_
    | split)

theorem execPeerLinkRekey_kept (peer : Nat) (s : State) : Next s (execPeerLinkRekey peer s) := by
  unfold execPeerLinkRekey
  try dsimp only
  repeat' (first
    | with_reducible exact Kept.refl _
    | with_reducible refine (onSec_kept ).after ?_
    | with_reducible refine State.event_kept _ _ ?_
    | with_reducible refine (State.placeHello_kept _ _).after ?_
    | intro _
    | split)

theorem State.keyReply_kept (s : State) (a : AttSession) (t : Nat) (st : Status) : Kept s (State.keyReply s a t st) := by
  unfold State.keyReply
  try dsimp only
  repeat' (first
    | with_reducible exact Kept.refl _
    | with_reducible refine (State.cryptoWork_kept _).after ?_
    | with_reducible refine (State.sealAtt_kept _ _ _ _).after ?_)

theorem State.keyRecord_kept (s : State) (k : KeyRecord) (run : State → AttSession → Status × State) (h_run : ∀ a0 a1, Kept a0 (run a0 a1).2) : Kept s (State.keyRecord s k run) := by
  unfold State.keyRecord
  try dsimp only
  repeat' (first
    | with_reducible exact Kept.refl _
    | with_reducible refine (h_run _ _).after ?_
    | with_reducible refine (State.onAtt_kept _ _ _).after ?_
    | with_reducible refine (State.failAtt_kept _ _).after ?_
    | with_reducible refine (State.keyReply_kept _ _ _ _).after ?_
    | split)

theorem State.keyRecord_held (s : State) (k : KeyRecord) (run : State → AttSession → Status × State) (h_run : ∀ a0 a1, Held a0 (run a0 a1).2) : Held s (State.keyRecord s k run) := by
  unfold State.keyRecord
  try dsimp only
  repeat' (first
    | with_reducible exact Held.refl _
    | with_reducible refine (h_run _ _).after ?_
    | with_reducible refine (State.onAtt_kept _ _ _).held.after ?_
    | with_reducible refine (State.failAtt_kept _ _).held.after ?_
    | with_reducible refine (State.keyReply_kept _ _ _ _).held.after ?_
    | split)

theorem State.releaseKey_kept (s : State) (p t id : Nat) (key : List Byte) : Kept s (State.releaseKey s p t id key).2 := by
  unfold State.releaseKey
  try dsimp only
  repeat' (first
    | with_reducible exact Kept.refl _
    | with_reducible refine (onSec_kept ).after ?_
    | with_reducible refine (State.openMeter_kept _ _ _).after ?_
    | split)

theorem execTenantKeyRelease_kept (k : KeyRecord) (s : State) : Next s (execTenantKeyRelease k s) := by
  unfold execTenantKeyRelease
  try dsimp only
  repeat' (first
    | with_reducible apply Next.of
    | with_reducible exact Kept.refl _
    | with_reducible refine (State.settle_kept _).after ?_
    | with_reducible refine (State.keyRecord_kept _ _ _ ?_).after ?_
    | with_reducible refine (State.releaseKey_kept _ _ _ _ _).after ?_
    | intro _
    | with_reducible refine Kept.ite ?_ ?_)

theorem State.eraseSeq_kept (s : State) (h : Nat) : Kept s (State.eraseSeq s h) := by
  unfold State.eraseSeq
  try dsimp only
  repeat' (first
    | with_reducible exact Kept.refl _
    | with_reducible refine (State.onSeq_kept _ _ _).after ?_
    | with_reducible refine (State.finishFreeing_kept _ _).after ?_
    | with_reducible refine (State.endTurnReqs_kept _ _ _).after ?_
    | split)

theorem State.beginErase_kept (s : State) (p t id : Nat) : Kept s (State.beginErase s p t id).2 := by
  unfold State.beginErase
  try dsimp only
  repeat' (first
    | with_reducible exact Kept.refl _
    | with_reducible refine (onSec_kept ).after ?_
    | with_reducible refine (State.finishErases_kept _).after ?_
    | with_reducible refine (State.eraseSeq_kept _ _).after ?_
    | with_reducible refine (each_kept ?_).after ?_
    | intro _
    | split)

theorem execTenantKeyErase_kept (k : KeyRecord) (s : State) : Next s (execTenantKeyErase k s) := by
  unfold execTenantKeyErase
  try dsimp only
  repeat' (first
    | with_reducible apply Next.of
    | with_reducible exact Kept.refl _
    | with_reducible refine (State.settle_kept _).after ?_
    | with_reducible refine (State.keyRecord_kept _ _ _ ?_).after ?_
    | with_reducible refine (State.beginErase_kept _ _ _ _).after ?_
    | intro _
    | with_reducible refine Kept.ite ?_ ?_)

theorem execTenantKeyQuery_kept (k : KeyRecord) (s : State) : Next s (execTenantKeyQuery k s) := by
  unfold execTenantKeyQuery
  try dsimp only
  repeat' (first
    | with_reducible apply Next.of
    | with_reducible exact Kept.refl _
    | with_reducible refine (State.settle_kept _).after ?_
    | with_reducible refine (State.keyRecord_kept _ _ _ ?_).after ?_
    | intro _
    | with_reducible refine Kept.ite ?_ ?_)

theorem execAttestClose_kept (slot : Nat) (s : State) : Next s (execAttestClose slot s) := by
  unfold execAttestClose
  try dsimp only
  repeat' (first
    | with_reducible apply Next.of
    | with_reducible exact Kept.refl _
    | with_reducible refine (State.closeAtt_kept _ _).after ?_
    | with_reducible refine Kept.ite ?_ ?_)

theorem execAttestSessionIdleTimeout_kept (slot : Nat) (s : State) : Next s (execAttestSessionIdleTimeout slot s) := by
  unfold execAttestSessionIdleTimeout
  try dsimp only
  repeat' (first
    | with_reducible apply Next.of
    | with_reducible exact Kept.refl _
    | with_reducible refine (State.closeAtt_kept _ _).after ?_
    | with_reducible refine Kept.ite ?_ ?_)

end Sys2Proof.Machine
end

