-- ==== Sys2Proof/Laws/Kept/Mirrors.lean ====
section
/-!
SUPPORT. What each operation of Machine/Mirrors.lean keeps (Laws/Kept.lean says what that is).
-/
namespace Sys2Proof.Machine

theorem State.fencedPeer_kept (s : State) (m : Rx) (op : Nat) (handle : Nat) (fresh : Bool) (run : State → State) (h_run : ∀ a0, Kept a0 (run a0)) : Kept s (State.fencedPeer s m op handle fresh run) := by
  unfold State.fencedPeer
  try dsimp only
  repeat' (first
    | with_reducible exact Kept.refl _
    | with_reducible exact h_run _
    | with_reducible refine (onBroker_kept ).after ?_
    | with_reducible refine (State.answer_kept _ _ _).after ?_
    | split)

theorem State.fencedPeer_held (s : State) (m : Rx) (op : Nat) (handle : Nat) (fresh : Bool) (run : State → State) (h_run : ∀ a0, Held a0 (run a0)) : Held s (State.fencedPeer s m op handle fresh run) := by
  unfold State.fencedPeer
  try dsimp only
  repeat' (first
    | with_reducible exact Held.refl _
    | with_reducible exact h_run _
    | with_reducible refine (onBroker_kept ).held.after ?_
    | with_reducible refine (State.answer_kept _ _ _).held.after ?_
    | split)

theorem State.answerSync_kept (s : State) (m : Rx) (st : Status) (pos : Nat) : Kept s (State.answerSync s m st pos) := by
  unfold State.answerSync
  try dsimp only
  repeat' (first
    | with_reducible exact Kept.refl _
    | with_reducible refine (State.complete_kept _ _ _ _ _).after ?_)

theorem State.onMirror_kept (s : State) (nd : Node) (handle : Nat) (f : Mirror → Mirror) : Kept s (State.onMirror s nd handle f) := by
  unfold State.onMirror
  try dsimp only
  repeat' (first
    | with_reducible exact Kept.refl _
    | with_reducible refine (onBroker_kept ).after ?_)

theorem State.syncIn_kept (s : State) (m : Rx) (b : LedgerBody) (fresh : Bool) (run : Node → State → State) (h_run : ∀ a0 a1, Kept a1 (run a0 a1)) : Kept s (State.syncIn s m b fresh run) := by
  unfold State.syncIn
  try dsimp only
  repeat' (first
    | with_reducible exact Kept.refl _
    | with_reducible exact h_run _ _
    | with_reducible refine (State.answer_kept _ _ _).after ?_
    | with_reducible refine (State.receive_kept _ _ _ _ _ _ _ ?_).after ?_
    | with_reducible refine (State.settle_kept _).after ?_
    | with_reducible refine (State.fencedPeer_kept _ _ _ _ _ _ ?_).after ?_
    | intro _
    | split)

theorem State.syncIn_held (s : State) (m : Rx) (b : LedgerBody) (fresh : Bool) (run : Node → State → State) (h_run : ∀ a0 a1, Held a1 (run a0 a1)) : Held s (State.syncIn s m b fresh run) := by
  unfold State.syncIn
  try dsimp only
  repeat' (first
    | with_reducible exact Held.refl _
    | with_reducible exact h_run _ _
    | with_reducible refine (State.answer_kept _ _ _).held.after ?_
    | with_reducible refine (State.receive_held _ _ _ _ _ _ _ ?_).after ?_
    | with_reducible refine (State.settle_kept _).held.after ?_
    | with_reducible refine (State.fencedPeer_held _ _ _ _ _ _ ?_).after ?_
    | intro _
    | split)

theorem execLedgerSyncCreate_kept (m : Rx) (b : LedgerBody) (s : State) : Next s (execLedgerSyncCreate m b s) := by
  unfold execLedgerSyncCreate
  try dsimp only
  repeat' (first
    | with_reducible apply Next.of
    | with_reducible exact Kept.refl _
    | with_reducible refine (onBroker_kept ).after ?_
    | with_reducible refine (State.answerSync_kept _ _ _ _).after ?_
    | with_reducible refine (State.syncIn_kept _ _ _ _ _ ?_).after ?_
    | intro _
    | with_reducible refine Kept.ite ?_ ?_)

theorem execLedgerSyncTokens_kept (m : Rx) (b : LedgerBody) (s : State) : Next s (execLedgerSyncTokens m b s) := by
  unfold execLedgerSyncTokens
  try dsimp only
  repeat' (first
    | with_reducible apply Next.of
    | with_reducible exact Kept.refl _
    | with_reducible refine (State.answerSync_kept _ _ _ _).after ?_
    | with_reducible refine (State.onMirror_kept _ _ _ _).after ?_
    | with_reducible refine (State.syncIn_kept _ _ _ _ _ ?_).after ?_
    | intro _
    | split)

theorem execLedgerSyncCut_kept (m : Rx) (b : LedgerBody) (s : State) : Next s (execLedgerSyncCut m b s) := by
  unfold execLedgerSyncCut
  try dsimp only
  repeat' (first
    | with_reducible apply Next.of
    | with_reducible exact Kept.refl _
    | with_reducible refine (State.answerSync_kept _ _ _ _).after ?_
    | with_reducible refine (State.onMirror_kept _ _ _ _).after ?_
    | with_reducible refine (State.syncIn_kept _ _ _ _ _ ?_).after ?_
    | intro _)

theorem execLedgerSyncFree_kept (m : Rx) (b : LedgerBody) (s : State) : Next s (execLedgerSyncFree m b s) := by
  unfold execLedgerSyncFree
  try dsimp only
  repeat' (first
    | with_reducible apply Next.of
    | with_reducible exact Kept.refl _
    | with_reducible refine (onBroker_kept ).after ?_
    | with_reducible refine (State.answerSync_kept _ _ _ _).after ?_
    | with_reducible refine (State.syncIn_kept _ _ _ _ _ ?_).after ?_
    | intro _)

theorem execLedgerSyncReadmit_kept (m : Rx) (b : LedgerBody) (s : State) : Next s (execLedgerSyncReadmit m b s) := by
  unfold execLedgerSyncReadmit
  try dsimp only
  repeat' (first
    | with_reducible apply Next.of
    | with_reducible exact Kept.refl _
    | with_reducible refine (State.readmitHere_kept _ _).after ?_
    | with_reducible refine (State.readmit_kept _ _).after ?_
    | with_reducible refine (State.answerSync_kept _ _ _ _).after ?_
    | with_reducible refine (State.syncIn_kept _ _ _ _ _ ?_).after ?_
    | with_reducible refine (each_kept ?_).after ?_
    | intro _
    | with_reducible refine Kept.ite ?_ ?_)

theorem State.readmitNext_kept (s : State) (handle peer : Nat) : Kept s (State.readmitNext s handle peer) := by
  unfold State.readmitNext
  try dsimp only
  repeat' (first
    | with_reducible exact Kept.refl _
    | with_reducible refine (State.sendReadmit_kept _ _ _).after ?_
    | split)

theorem State.syncAnswered_kept (s : State) (a : Ask) (h upTo : Nat) (st : Nat) (mirrored : Nat) : Kept s (State.syncAnswered s a h upTo st mirrored) := by
  unfold State.syncAnswered
  try dsimp only
  repeat' (first
    | with_reducible exact Kept.refl _
    | with_reducible refine (onBroker_kept ).after ?_
    | with_reducible refine (State.onSeq_kept _ _ _).after ?_
    | with_reducible refine (State.seal_kept _ _).after ?_
    | with_reducible refine (State.freedByPartner_kept _ _).after ?_
    | split)

theorem execLedgerSyncCompletion_kept (r : Reply) (mirrored : BitVec 23) (s : State) : Next s (execLedgerSyncCompletion r mirrored s) := by
  unfold execLedgerSyncCompletion
  try dsimp only
  repeat' (first
    | with_reducible apply Next.of
    | with_reducible exact Kept.refl _
    | with_reducible refine (onBroker_kept ).after ?_
    | with_reducible refine (State.freedByPartner_kept _ _).after ?_
    | with_reducible refine (State.reply_kept _ _ _ _ ?_).after ?_
    | with_reducible refine (State.readmitNext_kept _ _ _).after ?_
    | with_reducible refine (State.syncAnswered_kept _ _ _ _ _ _).after ?_
    | intro _
    | split)

theorem State.readmitLate_kept (s : State) (a : Ask) : Kept s (State.readmitLate s a) := by
  unfold State.readmitLate
  try dsimp only
  repeat' (first
    | with_reducible exact Kept.refl _
    | with_reducible refine (onBroker_kept ).after ?_
    | with_reducible refine (State.readmitNext_kept _ _ _).after ?_
    | split)

theorem execLedgerMirrorTimeout_kept (handle : W64) (s : State) : Next s (execLedgerMirrorTimeout handle s) := by
  unfold execLedgerMirrorTimeout
  try dsimp only
  repeat' (first
    | with_reducible exact Kept.refl _
    | with_reducible refine (State.onSeq_kept _ _ _).after ?_
    | with_reducible refine (State.seal_kept _ _).after ?_
    | with_reducible refine State.event_kept _ _ ?_
    | with_reducible refine (State.readmitLate_kept _ _).after ?_
    | with_reducible refine (each_kept ?_).after ?_
    | intro _
    | with_reducible refine Kept.ite ?_ ?_)

theorem State.answerRelay_kept (s : State) (m : Rx) (kind : Nat) (st : Status) (done refused : Nat) (refs : List Nat) : Kept s (State.answerRelay s m kind st done refused refs) := by
  unfold State.answerRelay
  try dsimp only
  repeat' (first
    | with_reducible exact Kept.refl _
    | with_reducible refine (State.completeAs_kept _ _ _ _ _ _).after ?_)

theorem State.relayIn_kept (s : State) (m : Rx) (b : RelayBody) (kind : Nat) (run : Node → State → State) (h_run : ∀ a0 a1, Kept a1 (run a0 a1)) : Kept s (State.relayIn s m b kind run) := by
  unfold State.relayIn
  try dsimp only
  repeat' (first
    | with_reducible exact Kept.refl _
    | with_reducible refine (h_run _ _).after ?_
    | with_reducible refine (State.meter_kept _ _ _ _ _).after ?_
    | with_reducible refine (State.meterMoved_kept _ _ _ _ _).after ?_
    | with_reducible refine (State.answer_kept _ _ _).after ?_
    | with_reducible refine (State.receive_kept _ _ _ _ _ _ _ ?_).after ?_
    | with_reducible refine (State.settle_kept _).after ?_
    | with_reducible refine (State.fencedPeer_kept _ _ _ _ _ _ ?_).after ?_
    | intro _
    | split)

theorem State.relayIn_held (s : State) (m : Rx) (b : RelayBody) (kind : Nat) (run : Node → State → State) (h_run : ∀ a0 a1, Held a1 (run a0 a1)) : Held s (State.relayIn s m b kind run) := by
  unfold State.relayIn
  try dsimp only
  repeat' (first
    | with_reducible exact Held.refl _
    | with_reducible refine (h_run _ _).after ?_
    | with_reducible refine (State.meter_kept _ _ _ _ _).held.after ?_
    | with_reducible refine (State.meterMoved_kept _ _ _ _ _).held.after ?_
    | with_reducible refine (State.answer_kept _ _ _).held.after ?_
    | with_reducible refine (State.receive_held _ _ _ _ _ _ _ ?_).after ?_
    | with_reducible refine (State.settle_kept _).held.after ?_
    | with_reducible refine (State.fencedPeer_held _ _ _ _ _ _ ?_).after ?_
    | intro _
    | split)

theorem State.tagFailed_kept (s : State) (p : Nat) : Kept s (State.tagFailed s p) := by
  unfold State.tagFailed
  try dsimp only
  repeat' (first
    | with_reducible exact Kept.refl _
    | with_reducible refine (State.report_kept _ _ _ _ _ _ _).after ?_)

theorem State.putArrived_kept (s : State) (part : Nat) (fs : List Nat) (bs : List Byte) : Kept s (State.putArrived s part fs bs) := by
  unfold State.putArrived
  try dsimp only
  repeat' (first
    | with_reducible exact Kept.refl _
    | with_reducible refine (State.owe_kept _ _).after ?_
    | with_reducible refine (State.takeFrames_kept _ _).after ?_
    | with_reducible refine (State.putBytes_kept _ _ _).after ?_)

theorem State.storeForPeer_kept (s : State) (nd : Node) (i : Nat) (image : Option RelayImage) : Kept s (State.storeForPeer s nd i image).2 := by
  unfold State.storeForPeer
  try dsimp only
  repeat' (first
    | with_reducible exact Kept.refl _
    | with_reducible refine (onBroker_kept ).after ?_
    | with_reducible refine (State.tagFailed_kept _ _).after ?_
    | with_reducible refine (State.putArrived_kept _ _ _ _).after ?_
    | split)

theorem State.storeImages_kept (s : State) (nd : Node) (b : RelayBody) : Kept s (State.storeImages s nd b).2 := by
  unfold State.storeImages
  try dsimp only
  repeat' (first
    | with_reducible exact Kept.refl _
    | with_reducible refine (State.storeForPeer_kept _ _ _ _).after ?_
    | with_reducible refine (foldl_kept_snd ?_).after ?_
    | intro _)

theorem execRelayStore_kept (m : Rx) (b : RelayBody) (s : State) : Next s (execRelayStore m b s) := by
  unfold execRelayStore
  try dsimp only
  repeat' (first
    | with_reducible apply Next.of
    | with_reducible exact Kept.refl _
    | with_reducible refine (State.answerRelay_kept _ _ _ _ _ _ _).after ?_
    | with_reducible refine (State.relayIn_kept _ _ _ _ _ ?_).after ?_
    | with_reducible refine (State.storeImages_kept _ _ _).after ?_
    | intro _)

theorem State.freesOnAck_kept (s : State) (ref : Nat) : Kept s (State.freesOnAck s ref) := by
  unfold State.freesOnAck
  try dsimp only
  repeat' (first
    | with_reducible exact Kept.refl _
    | with_reducible refine (onNet_kept ).after ?_)

theorem State.putImages_kept (s : State) (nd : Node) (t offset limit : Nat) (is : List (Option Nat × Nat × RelayImage)) : Kept s (State.putImages s nd t offset limit is).2 := by
  unfold State.putImages
  try dsimp only
  repeat' (first
    | with_reducible exact Kept.refl _
    | with_reducible refine (State.putImage_kept _ _ _ _ _ _ _).after ?_
    | with_reducible refine (State.freesOnAck_kept _ _).after ?_
    | with_reducible refine (foldl_kept_thd ?_).after ?_
    | intro _
    | split)

theorem State.moveBack_kept (s : State) (nd : Node) (m : Rx) (b : RelayBody) : Kept s (State.moveBack s nd m b).2 := by
  unfold State.moveBack
  try dsimp only
  repeat' (first
    | with_reducible exact Kept.refl _
    | with_reducible refine (State.oweAll_kept _ _).after ?_
    | with_reducible refine (State.putImages_kept _ _ _ _ _ _).after ?_)

theorem execRelayFetchAndMove_kept (m : Rx) (b : RelayBody) (s : State) : Next s (execRelayFetchAndMove m b s) := by
  unfold execRelayFetchAndMove
  try dsimp only
  repeat' (first
    | with_reducible apply Next.of
    | with_reducible exact Kept.refl _
    | with_reducible refine (State.answerRelay_kept _ _ _ _ _ _ _).after ?_
    | with_reducible refine (State.relayIn_kept _ _ _ _ _ ?_).after ?_
    | with_reducible refine (State.moveBack_kept _ _ _ _).after ?_
    | intro _)

theorem State.copyInto_kept (s : State) (nd : Node) (m : Rx) (b : RelayBody) (q : Seq) : Kept s (State.copyInto s nd m b q).2 := by
  unfold State.copyInto
  try dsimp only
  repeat' (first
    | with_reducible exact Kept.refl _
    | with_reducible refine (State.oweAll_kept _ _).after ?_
    | with_reducible refine (State.putImages_kept _ _ _ _ _ _).after ?_)

theorem execRelayFetchCopy_kept (m : Rx) (b : RelayBody) (s : State) : Next s (execRelayFetchCopy m b s) := by
  unfold execRelayFetchCopy
  try dsimp only
  repeat' (first
    | with_reducible apply Next.of
    | with_reducible exact Kept.refl _
    | with_reducible refine (State.answerRelay_kept _ _ _ _ _ _ _).after ?_
    | with_reducible refine (State.relayIn_kept _ _ _ _ _ ?_).after ?_
    | with_reducible refine (State.copyInto_kept _ _ _ _ _).after ?_
    | intro _
    | split)

theorem execRelayMirror_kept (m : Rx) (b : RelayBody) (s : State) : Next s (execRelayMirror m b s) := by
  unfold execRelayMirror
  try dsimp only
  repeat' (first
    | with_reducible apply Next.of
    | with_reducible exact Kept.refl _
    | with_reducible refine (State.onMirror_kept _ _ _ _).after ?_
    | with_reducible refine (State.answerRelay_kept _ _ _ _ _ _ _).after ?_
    | with_reducible refine (State.relayIn_kept _ _ _ _ _ ?_).after ?_
    | with_reducible refine (State.tagFailed_kept _ _).after ?_
    | with_reducible refine (each_kept ?_).after ?_
    | intro _)

theorem State.sendMigration_kept (s : State) (q : Seq) (peer : Nat) : Kept s (State.sendMigration s q peer) := by
  unfold State.sendMigration
  try dsimp only
  repeat' (first
    | with_reducible exact Kept.refl _
    | with_reducible refine (State.oweAll_kept _ _).after ?_
    | with_reducible refine (State.relayOut_kept _ _ _ _ _ _ _ _ _ _ _ _).after ?_
    | with_reducible refine Kept.ite ?_ ?_)

theorem State.toPeer_kept (s : State) (k : PageKey) (peer ref : Nat) : Kept s (State.toPeer s k peer ref) := by
  unfold State.toPeer
  try dsimp only
  repeat' (first
    | with_reducible exact Kept.refl _
    | with_reducible refine (State.note_kept _ _ _ _ _).after ?_
    | with_reducible refine (State.onPage_kept _ _ _).after ?_
    | with_reducible refine (State.freeCopy_kept _ _).after ?_
    | split)

theorem State.storedAtPeer_kept (s : State) (x : RelayTx) (refs : List W32) : Kept s (State.storedAtPeer s x refs) := by
  unfold State.storedAtPeer
  try dsimp only
  repeat' (first
    | with_reducible exact Kept.refl _
    | with_reducible refine (State.sendMigration_kept _ _ _).after ?_
    | with_reducible refine (State.toPeer_kept _ _ _ _).after ?_
    | with_reducible refine (each_kept ?_).after ?_
    | intro _
    | split)

theorem State.fetchedFromPeer_kept (s : State) (x : RelayTx) (images : List RelayImage) : Kept s (State.fetchedFromPeer s x images) := by
  unfold State.fetchedFromPeer
  try dsimp only
  repeat' (first
    | with_reducible exact Kept.refl _
    | with_reducible refine (State.onStaging_kept _ _ _).after ?_
    | with_reducible refine (State.failStaging_kept _ _ _ _).after ?_
    | with_reducible refine (State.tagFailed_kept _ _).after ?_
    | with_reducible refine (each_kept ?_).after ?_
    | intro _
    | split)

theorem State.adoptCopy_kept (s : State) (q : Seq) (images : List RelayImage) (n m : Nat) : Kept s (State.adoptCopy s q images n m) := by
  unfold State.adoptCopy
  try dsimp only
  repeat' (first
    | with_reducible exact Kept.refl _
    | with_reducible refine (onSeqs_kept ).after ?_
    | with_reducible refine (State.bump_kept _ _ _ _ _).after ?_
    | with_reducible refine (State.owe_kept _ _).after ?_
    | with_reducible refine (State.onSeq_kept _ _ _).after ?_
    | with_reducible refine (State.dropSeq_kept _ _).after ?_
    | with_reducible refine (State.fitFixed_kept _ _).after ?_
    | with_reducible refine (State.unlink_kept _ _ _).after ?_
    | with_reducible refine (State.issueInsertions_kept _ _ _ _).after ?_
    | with_reducible refine (State.takeGen_kept _ _ _).after ?_
    | with_reducible refine (State.commitLink_kept _ _ _ _).after ?_
    | with_reducible refine (State.storePage_kept _ _ _ _ _ _).after ?_
    | with_reducible refine (foldl_kept_snd ?_).after ?_
    | intro _
    | split)

theorem State.copiedFromHome_kept (s : State) (x : RelayTx) (images : List RelayImage) : Kept s (State.copiedFromHome s x images) := by
  unfold State.copiedFromHome
  try dsimp only
  repeat' (first
    | with_reducible exact Kept.refl _
    | with_reducible refine (State.admitOn_kept _ _).after ?_
    | with_reducible refine (State.tagFailed_kept _ _).after ?_
    | with_reducible refine (State.adoptCopy_kept _ _ _ _ _).after ?_
    | with_reducible refine (each_kept ?_).after ?_
    | intro _
    | split)

theorem State.relayDone_kept (s : State) (x : RelayTx) (ok : Bool) (refs : List W32) (images : List RelayImage) : Kept s (State.relayDone s x ok refs images) := by
  unfold State.relayDone
  try dsimp only
  repeat' (first
    | with_reducible exact Kept.refl _
    | with_reducible refine (State.storedAtPeer_kept _ _ _).after ?_
    | with_reducible refine (State.fetchedFromPeer_kept _ _ _).after ?_
    | with_reducible refine (State.copiedFromHome_kept _ _ _).after ?_
    | split)

theorem execRelayCompletion_kept (r : Reply) (refs : List W32) (images : List RelayImage) (s : State) : Next s (execRelayCompletion r refs images s) := by
  unfold execRelayCompletion
  try dsimp only
  repeat' (first
    | with_reducible apply Next.of
    | with_reducible exact Kept.refl _
    | with_reducible refine (onBroker_kept ).after ?_
    | with_reducible refine (State.freedByPartner_kept _ _).after ?_
    | with_reducible refine (State.reply_kept _ _ _ _ ?_).after ?_
    | with_reducible refine (State.relayDone_kept _ _ _ _ _).after ?_
    | intro _
    | split)

theorem State.releaseWaiting_kept (s : State) (p g : Nat) : Kept s (State.releaseWaiting s p g) := by
  unfold State.releaseWaiting
  try dsimp only
  repeat' (first
    | with_reducible exact Kept.refl _
    | with_reducible refine (State.bump_kept _ _ _ _ _).after ?_
    | with_reducible refine (State.endRow_kept _ _ _ _ _).after ?_
    | with_reducible refine (each_kept ?_).after ?_
    | intro _
    | split)

theorem execRelayTimeout_kept (id : Nat) (s : State) : Next s (execRelayTimeout id s) := by
  unfold execRelayTimeout
  try dsimp only
  repeat' (first
    | with_reducible exact Kept.refl _
    | with_reducible refine (onBroker_kept ).after ?_
    | with_reducible refine (State.admitOn_kept _ _).after ?_
    | with_reducible refine State.event_kept _ _ ?_
    | with_reducible refine (State.releaseWaiting_kept _ _ _).after ?_
    | with_reducible refine (each_kept ?_).after ?_
    | intro _
    | split)

theorem execPeerProbe_kept (m : Rx) (b : ProbeBody) (s : State) : Next s (execPeerProbe m b s) := by
  unfold execPeerProbe
  try dsimp only
  repeat' (first
    | with_reducible apply Next.of
    | with_reducible exact Kept.refl _
    | with_reducible refine (State.answer_kept _ _ _).after ?_
    | with_reducible refine (State.newLookup_kept _ _ _ _ _ _ _ _ _ _).after ?_
    | with_reducible refine (State.startLookup_kept _ _).after ?_
    | with_reducible refine (State.receive_kept _ _ _ _ _ _ _ ?_).after ?_
    | with_reducible refine (State.settle_kept _).after ?_
    | intro _
    | with_reducible refine Kept.ite ?_ ?_)

theorem State.probeAnswered_kept (s : State) (h home : Nat) (matched holder : Nat) : Kept s (State.probeAnswered s h home matched holder) := by
  unfold State.probeAnswered
  try dsimp only
  repeat' (first
    | with_reducible exact Kept.refl _
    | with_reducible refine (State.onSeq_kept _ _ _).after ?_
    | with_reducible refine (State.relayOut_kept _ _ _ _ _ _ _ _ _ _ _ _).after ?_
    | with_reducible refine (State.admitOn_kept _ _).after ?_
    | split)

theorem execPeerProbeCompletion_kept (r : Reply) (matched : BitVec 23) (holder : W64) (s : State) : Next s (execPeerProbeCompletion r matched holder s) := by
  unfold execPeerProbeCompletion
  try dsimp only
  repeat' (first
    | with_reducible apply Next.of
    | with_reducible exact Kept.refl _
    | with_reducible refine (State.admitOn_kept _ _).after ?_
    | with_reducible refine (State.reply_kept _ _ _ _ ?_).after ?_
    | with_reducible refine (State.probeAnswered_kept _ _ _ _ _).after ?_
    | intro _
    | split)

theorem State.startMigration_kept (s : State) : Kept s (State.startMigration s).2 := by
  unfold State.startMigration
  try dsimp only
  repeat' (first
    | with_reducible exact Kept.refl _
    | with_reducible refine (State.sendMigration_kept _ _ _).after ?_
    | split)

end Sys2Proof.Machine
end

