-- ==== Sys2Proof/Laws/Kept/PrefixCmds.lean ====
section
/-!
SUPPORT. What each operation of Machine/PrefixCmds.lean keeps (Laws/Kept.lean says what that is).
-/
namespace Sys2Proof.Machine

theorem execMortiseInsertion_kept (id : Nat) (s : State) : Next s (execMortiseInsertion id s) := by
  unfold execMortiseInsertion
  try dsimp only
  repeat' (first
    | with_reducible exact Kept.refl _
    | with_reducible refine (onMortise_kept ).after ?_
    | with_reducible refine (State.createEntry_kept _ _ _ _ _ _).after ?_
    | with_reducible refine State.event_kept _ _ ?_
    | intro _
    | split)

theorem execMortiseCompaction_kept (bank : Nat) (s : State) : Next s (execMortiseCompaction bank s) := by
  unfold execMortiseCompaction
  try dsimp only
  repeat' (first
    | with_reducible exact Kept.refl _
    | with_reducible refine (State.charged_kept _ _ _ ?_).after ?_
    | with_reducible refine (State.setBank_kept _ _ _).after ?_
    | with_reducible refine State.event_kept _ _ ?_
    | intro _)

theorem execMortisePatrol_kept (bank index : Nat) (parityOk : Bool) (s : State) : Next s (execMortisePatrol bank index parityOk s) := by
  unfold execMortisePatrol
  try dsimp only
  repeat' (first
    | with_reducible exact Kept.refl _
    | with_reducible refine (State.bump_kept _ _ _ _ _).after ?_
    | with_reducible refine (State.charged_kept _ _ _ ?_).after ?_
    | with_reducible refine (State.reportUnit_kept _ _ _ _ _).after ?_
    | with_reducible refine (State.setBank_kept _ _ _).after ?_
    | with_reducible refine (State.deleteEntry_kept _ _ _ _ _).after ?_
    | with_reducible refine State.event_kept _ _ ?_
    | intro _
    | split)

theorem State.requestBankMode_kept (s : State) (v : Nat) : Kept s (State.requestBankMode s v) := by
  unfold State.requestBankMode
  try dsimp only
  repeat' (first
    | with_reducible exact Kept.refl _
    | with_reducible refine (onMortise_kept ).after ?_
    | with_reducible refine (State.setRw_kept _ _ _ _ _).after ?_
    | with_reducible refine Kept.ite ?_ ?_)

theorem execModeMoveComplete_kept (s : State) : Next s (execModeMoveComplete s) := by
  unfold execModeMoveComplete
  try dsimp only
  repeat' (first
    | with_reducible exact Kept.refl _
    | with_reducible refine (onMortise_kept ).after ?_
    | with_reducible refine (State.charged_kept _ _ _ ?_).after ?_
    | with_reducible refine (State.setBank_kept _ _ _).after ?_
    | with_reducible refine (State.placeEntry_kept _ _).after ?_
    | with_reducible refine State.event_kept _ _ ?_
    | with_reducible refine (each_kept ?_).after ?_
    | intro _
    | split)

end Sys2Proof.Machine
end

