-- ==== Sys2Proof/Laws/Kept/Reads.lean ====
section
/-!
SUPPORT. What each operation of Machine/Reads.lean keeps (Laws/Kept.lean says what that is).
-/
namespace Sys2Proof.Machine

theorem State.granule_kept (s : State) (a : Access) : Kept s (State.granule s a).2 := by
  unfold State.granule
  try dsimp only
  repeat' (first
    | with_reducible exact Kept.refl _
    | with_reducible refine (State.randomBytes_kept _ _).after ?_
    | with_reducible refine Kept.ite_snd ?_ ?_)

theorem State.valueOf_kept (s : State) (a : Access) (slot : Option Nat) (r : ObjRow) (ix sub : Nat) : Kept s (State.valueOf s a slot r ix sub).2 := by
  unfold State.valueOf
  try dsimp only
  repeat' (first
    | with_reducible exact Kept.refl _
    | with_reducible refine (State.free_kept _).after ?_
    | with_reducible refine (State.granule_kept _ _).after ?_
    | split)

theorem State.afterRead_kept (s : State) (a : Access) (ix sub : Nat) (last : Bool) : Kept s (State.afterRead s a ix sub last) := by
  unfold State.afterRead
  try dsimp only
  repeat' (first
    | with_reducible exact Kept.refl _
    | with_reducible refine (State.note_kept _ _ _ _ _).after ?_
    | with_reducible refine (State.operatorTake_kept _ _ _).after ?_
    | with_reducible refine Kept.ite ?_ ?_)

end Sys2Proof.Machine
end

