-- ==== Sys2Proof/Laws/Kept/Returns.lean ====
section
/-!
SUPPORT. What each operation of Machine/Returns.lean keeps (Laws/Kept.lean says what that is).
-/
namespace Sys2Proof.Machine

theorem State.failReturn_kept (s : State) (u : Nat) : Kept s (State.failReturn s u) := by
  unfold State.failReturn
  try dsimp only
  repeat' (first
    | with_reducible exact Kept.refl _
    | with_reducible refine (State.free_kept _).after ?_
    | with_reducible refine (State.collectUnit_kept _ _ _ _ _).after ?_)

theorem State.freshChannel_kept (s : State) (ch : Nat) : Kept s (State.freshChannel s ch) := by
  unfold State.freshChannel
  try dsimp only
  repeat' (first
    | with_reducible exact Kept.refl _
    | with_reducible rfl
    | with_reducible refine (onEpochs_kept ?_).after ?_
    | with_reducible refine (onHbm_kept ?_).after ?_
    | with_reducible exact memZero_wf _ _ _
    | with_reducible refine (State.fresh_kept _).after ?_)

theorem State.restartIsland_kept (s : State) (i : Nat) : Kept s (State.restartIsland s i) := by
  unfold State.restartIsland
  try dsimp only
  repeat' (first
    | with_reducible exact Kept.refl _
    | with_reducible refine (State.markIslands_kept _ _ _).after ?_
    | with_reducible refine Kept.ite ?_ ?_)

theorem State.returned_kept (s : State) (u : Nat) : Kept s (State.returned s u) := by
  unfold State.returned
  try dsimp only
  repeat' (first
    | with_reducible exact Kept.refl _
    | with_reducible refine (State.clusterBack_kept _ _).after ?_
    | with_reducible refine (State.staleDies_kept _ _).after ?_
    | with_reducible refine (State.unfence_kept _ _).after ?_
    | with_reducible refine (State.freshChannel_kept _ _).after ?_
    | with_reducible refine (State.restartIsland_kept _ _).after ?_
    | with_reducible refine (each_kept ?_).after ?_
    | intro _
    | with_reducible refine Kept.ite ?_ ?_)

theorem State.returnUnit_kept (s : State) (c : Nat) (passes : Option Bool) : Kept s (State.returnUnit s c passes).2 := by
  unfold State.returnUnit
  try dsimp only
  repeat' (first
    | with_reducible exact Kept.refl _
    | with_reducible refine (State.free_kept _).after ?_
    | with_reducible refine (State.linkReset_kept _ _).after ?_
    | with_reducible refine (State.failReturn_kept _ _).after ?_
    | with_reducible refine (State.returned_kept _ _).after ?_
    | split)

end Sys2Proof.Machine
end

