-- ==== Sys2Proof/Laws/Kept/Writes.lean ====
section
/-!
SUPPORT. What each operation of Machine/Writes.lean keeps (Laws/Kept.lean says what that is).
-/
namespace Sys2Proof.Machine

theorem State.onSession_held (s : State) (n : Nat) (f : Session → Session) : Held s (State.onSession s n f) := by
  unfold State.onSession
  try dsimp only
  repeat' (first
    | with_reducible exact Held.refl _
    | with_reducible assumption
    | with_reducible refine (onMgmt_held ?_).after ?_
    | intro _)

theorem State.onAccess_held (s : State) (v : Via) (f : Access → Access) : Held s (State.onAccess s v f) := by
  unfold State.onAccess
  try dsimp only
  repeat' (first
    | with_reducible exact Held.refl _
    | with_reducible assumption
    | with_reducible refine (onMgmt_held ?_).after ?_
    | with_reducible refine (State.onSession_held _ _ _).after ?_
    | intro _
    | split)

theorem State.closeSessions_held (s : State) (mine : Session → Bool) (told : Bool) : Held s (State.closeSessions s mine told) := by
  unfold State.closeSessions
  try dsimp only
  repeat' (first
    | with_reducible exact Held.refl _
    | with_reducible assumption
    | with_reducible refine (onMgmt_held ?_).after ?_
    | with_reducible refine (onObjs_held).after ?_
    | intro _)

theorem State.writeCred_held (s : State) (v : Via) (n : Nat) (f : Cred → Cred) (closes : Bool) : Held s (State.writeCred s v n f closes).2 := by
  unfold State.writeCred
  dsimp only
  have base : ∀ h : (s.mgmt.creds.any Cred.admin = true → (mapIf (fun x => x.num == n) f s.mgmt.creds).any Cred.admin = true),
      Held s (s.onMgmt fun m => { m with creds := mapIf (·.num == n) f m.creds }) := fun h => onMgmt_held h
  split
  · split
    · exact Held.refl _
    · next h =>
      refine base fun k => absurd ?_ h
      rw [k]; rfl
  · split
    · exact Held.refl _
    · split
      · exact Held.refl _
      · next h =>
        have hb := base fun _ => by simpa [State.onMgmt] using h
        split
        · exact (State.closeSessions_held _ _ _).after hb
        · exact hb

theorem State.commitVia_held (s : State) (v : Via) : Held s (State.commitVia s v).2 := by
  unfold State.commitVia
  try dsimp only
  repeat' (first
    | with_reducible exact Held.refl _
    | with_reducible refine (State.commit_held _).after ?_
    | with_reducible refine (State.onSession_held _ _ _).after ?_
    | split)

theorem State.reserve_kept (s : State) (via : Via) (v : Nat) : Kept s (State.reserve s via v).2 := by
  unfold State.reserve
  try dsimp only
  repeat' (first
    | with_reducible exact Kept.refl _
    | with_reducible rfl
    | with_reducible refine (onObjs_kept ?_).after ?_
    | with_reducible refine Kept.ite_snd ?_ ?_)

theorem State.setTime_held (s : State) (v : Nat) : Held s (State.setTime s v).2 := by
  unfold State.setTime
  try dsimp only
  repeat' (first
    | with_reducible exact Held.refl _
    | with_reducible refine (onClock_held ?_).after ?_
    | with_reducible exact fun _ => Nat.le_refl _
    | with_reducible refine Held.ite_snd ?_ ?_)

theorem State.applyPort_held (s : State) : Held s (State.applyPort s) := by
  unfold State.applyPort
  try dsimp only
  repeat' (first
    | with_reducible exact Held.refl _
    | with_reducible refine (State.loadPort_kept _).held.after ?_
    | with_reducible refine (State.closeSessions_held _ _ _).after ?_)

theorem State.verdicts_kept (s : State) (o : Outside) : Kept s (State.verdicts s o).2 := by
  unfold State.verdicts
  try dsimp only
  repeat' (first
    | with_reducible exact Kept.refl _
    | with_reducible refine (State.free_kept _).after ?_
    | split)

theorem State.pull_held (s : State) (via : Via) (o : Outside) (ix sub item : Nat) : Held s (State.pull s via o ix sub item).2 := by
  unfold State.pull
  try dsimp only
  repeat' (first
    | with_reducible exact Held.refl _
    | with_reducible refine (onFaults_kept ).held.after ?_
    | with_reducible refine (State.fenceUnit_kept _ _).held.after ?_
    | with_reducible refine (State.discard_kept _).held.after ?_
    | with_reducible refine (State.linkReset_kept _ _).held.after ?_
    | with_reducible refine (State.beginShutdown_kept _).held.after ?_
    | with_reducible refine (State.verifyImage_kept _ _ _ _).held.after ?_
    | with_reducible refine (State.startSwitch_kept _ _).held.after ?_
    | with_reducible refine (State.freeSwitch_kept _).held.after ?_
    | with_reducible refine (State.startPair_kept _ _).held.after ?_
    | with_reducible refine (State.startMigration_kept _).held.after ?_
    | with_reducible refine (State.returnUnit_kept _ _ _).held.after ?_
    | with_reducible refine (State.closeSessions_held _ _ _).after ?_
    | with_reducible refine (State.commitVia_held _ _).after ?_
    | with_reducible refine (State.applyPort_held _).after ?_
    | with_reducible refine (State.verdicts_kept _ _).held.after ?_
    | with_reducible refine Held.ite_snd ?_ ?_
    | split)

theorem State.select_held (s : State) (via : Via) (ix sub v : Nat) : Held s (State.select s via ix sub v) := by
  unfold State.select
  try dsimp only
  repeat' (first
    | with_reducible exact Held.refl _
    | with_reducible refine (State.onAccess_held _ _ _).after ?_
    | with_reducible refine Held.ite ?_ ?_)

theorem State.putNumber_held (s : State) (via : Via) (o : Outside) (r : ObjRow) (ix sub item v : Nat) : Held s (State.putNumber s via o r ix sub item v).2 := by
  unfold State.putNumber
  try dsimp only
  repeat' (first
    | with_reducible exact Held.refl _
    | with_reducible refine (onObjs_held).after ?_
    | with_reducible refine (State.setRw_kept _ _ _ _ _).held.after ?_
    | with_reducible refine (State.seeNow_kept _).held.after ?_
    | with_reducible refine (State.holdOff_kept _ _ _).held.after ?_
    | with_reducible refine (State.requestReset_held _ _ _ _).after ?_
    | with_reducible refine (State.requestBankMode_kept _ _).held.after ?_
    | with_reducible refine (State.closeSessions_held _ _ _).after ?_
    | with_reducible refine (State.writeCred_held _ _ _ _ _).after ?_
    | with_reducible refine (State.reserve_kept _ _ _).held.after ?_
    | with_reducible refine (State.setTime_held _ _).after ?_
    | with_reducible refine (State.pull_held _ _ _ _ _ _).after ?_
    | with_reducible refine (State.select_held _ _ _ _ _).after ?_
    | with_reducible refine Held.ite ?_ ?_
    | with_reducible refine Held.ite_snd ?_ ?_)

theorem State.attMessageIn_kept (s : State) (bs : List Byte) : Kept s (State.attMessageIn s bs).2 := by
  unfold State.attMessageIn
  try dsimp only
  repeat' (first
    | with_reducible exact Kept.refl _
    | with_reducible refine (State.free_kept _).after ?_
    | with_reducible refine (State.randomBytes_kept _ _).after ?_
    | with_reducible refine (State.settle_kept _).after ?_
    | with_reducible refine (State.closeAtt_kept _ _).after ?_
    | with_reducible refine (State.failAtt_kept _ _).after ?_
    | with_reducible refine (State.attHello_kept _ _ _ _ _ _).after ?_
    | with_reducible refine (State.attFinish_kept _ _ _ _ _).after ?_
    | with_reducible refine (State.pairingAnswered_kept _ _ _ _).after ?_
    | with_reducible refine (State.keyRecord_kept _ _ _ ?_).after ?_
    | with_reducible refine (State.releaseKey_kept _ _ _ _ _).after ?_
    | with_reducible refine (State.beginErase_kept _ _ _ _).after ?_
    | intro _
    | split)

theorem State.putOctets_held (s : State) (via : Via) (r : ObjRow) (ix sub item : Nat) (bs : List Byte) : Held s (State.putOctets s via r ix sub item bs).2 := by
  unfold State.putOctets
  try dsimp only
  repeat' (first
    | with_reducible exact Held.refl _
    | with_reducible refine (onObjs_held).after ?_
    | with_reducible refine (onSec_kept ).held.after ?_
    | with_reducible refine (State.setRw_kept _ _ _ _ _).held.after ?_
    | with_reducible refine (State.settle_kept _).held.after ?_
    | with_reducible refine (State.operatorSend_kept _ _ _ _ _).held.after ?_
    | with_reducible refine (State.writeCred_held _ _ _ _ _).after ?_
    | with_reducible refine (State.attMessageIn_kept _ _).held.after ?_
    | with_reducible refine Held.ite_snd ?_ ?_)

theorem State.dropSegments_held (s : State) (via : Via) : Held s (State.dropSegments s via) := by
  unfold State.dropSegments
  try dsimp only
  repeat' (first
    | with_reducible exact Held.refl _
    | with_reducible refine (State.dropImage_kept _).held.after ?_
    | with_reducible refine (State.onAccess_held _ _ _).after ?_
    | with_reducible refine Held.ite ?_ ?_)

theorem State.putSegment_held (s : State) (via : Via) (r : ObjRow) (ix sub item : Nat) (off : Nat) (last : Bool) (bs : List Byte) : Held s (State.putSegment s via r ix sub item off last bs).2 := by
  unfold State.putSegment
  try dsimp only
  repeat' (first
    | with_reducible exact Held.refl _
    | with_reducible refine (State.landImage_kept _ _).held.after ?_
    | with_reducible refine (State.onAccess_held _ _ _).after ?_
    | with_reducible refine (State.putOctets_held _ _ _ _ _ _ _).after ?_
    | with_reducible refine (State.dropSegments_held _ _).after ?_
    | split)

theorem State.writeItem_held (s : State) (via : Via) (o : Outside) (ix sub off : Nat) (last : Bool) (bs : List Byte) : Held s (State.writeItem s via o ix sub off last bs).2 := by
  unfold State.writeItem
  try dsimp only
  repeat' (first
    | with_reducible exact Held.refl _
    | with_reducible refine (State.putNumber_held _ _ _ _ _ _ _ _).after ?_
    | with_reducible refine (State.putSegment_held _ _ _ _ _ _ _ _ _).after ?_
    | split)

end Sys2Proof.Machine
end

