-- ==== Sys2Proof/Laws/Kept/Dictionary.lean ====
section
/-!
SUPPORT. What each operation of Machine/Dictionary.lean keeps (Laws/Kept.lean says what that is).
-/
namespace Sys2Proof.Machine

theorem State.readPart_held (s : State) (via : Via) (r : ObjRow) (ix sub len off : Nat) : Held s (State.readPart s via r ix sub len off).2 := by
  unfold State.readPart
  try dsimp only
  repeat' (first
    | with_reducible exact Held.refl _
    | with_reducible refine (State.valueOf_kept _ _ _ _ _ _).held.after ?_
    | with_reducible refine (State.afterRead_kept _ _ _ _ _).held.after ?_
    | with_reducible refine (State.onAccess_held _ _ _).after ?_
    | split)

theorem State.readItem_held (s : State) (via : Via) (ix sub len off : Nat) : Held s (State.readItem s via ix sub len off).2 := by
  unfold State.readItem
  try dsimp only
  repeat' (first
    | with_reducible exact Held.refl _
    | with_reducible refine (State.valueOf_kept _ _ _ _ _ _).held.after ?_
    | with_reducible refine (State.afterRead_kept _ _ _ _ _).held.after ?_
    | with_reducible refine (State.readPart_held _ _ _ _ _ _ _).after ?_
    | split)

theorem State.readItems_held (s : State) (via : Via) (l : List Item) : Held s (State.readItems s via l).2 := by
  induction l generalizing s with
  | nil => exact Held.refl _
  | cons i rest ih => exact Held.trans (State.readItem_held _ _ _ _ _ _) (ih _)

theorem State.writeItems_held (s : State) (via : Via) (o : Outside) (l : List Item) : Held s (State.writeItems s via o l).2 := by
  induction l generalizing s with
  | nil => exact Held.refl _
  | cons i rest ih =>
    unfold State.writeItems
    dsimp only
    split
    · exact Held.trans (State.writeItem_held _ _ _ _ _ _ _ _) (ih _)
    · exact State.writeItem_held _ _ _ _ _ _ _ _

theorem State.readSubs_held (s : State) (via : Via) (ix : Nat) (l : List Nat) : Held s (State.readSubs s via ix l).2 := by
  induction l generalizing s with
  | nil => exact Held.refl _
  | cons i rest ih => exact Held.trans (State.readItem_held _ _ _ _ _ _) (ih _)

theorem asRead_held {s : State} {r : List Record × State} (h : Held s r.2) : Held s (asRead s r).2 := by
  unfold asRead
  split
  · exact Held.refl _
  · exact h

theorem State.opRead_held (s : State) (via : Via) (is : List Item) : Held s (State.opRead s via is).2 := by
  unfold State.opRead
  split
  · exact Held.refl _
  · exact asRead_held (State.readItems_held _ _ _)

theorem State.opWrite_held (s : State) (via : Via) (o : Outside) (is : List Item) : Held s (State.opWrite s via o is).2 := by
  unfold State.opWrite
  try dsimp only
  repeat' (first
    | with_reducible exact Held.refl _
    | with_reducible refine (State.writeItems_held _ _ _ _).after ?_
    | with_reducible refine Held.ite_snd ?_ ?_)

theorem State.opBlock_held (s : State) (via : Via) (i : Item) (lastSub : Nat) : Held s (State.opBlock s via i lastSub).2 := by
  unfold State.opBlock
  dsimp only
  exact Held.ite_snd (Held.refl _) (Held.ite_snd (Held.refl _) (Held.ite_snd (Held.refl _) (asRead_held (State.readSubs_held _ _ _ _))))

theorem State.opCommit_held (s : State) (via : Via) : Held s (State.opCommit s via).2 := by
  unfold State.opCommit
  try dsimp only
  repeat' (first
    | with_reducible exact Held.refl _
    | with_reducible refine (State.commitVia_held _ _).after ?_
    | with_reducible refine Held.ite_snd ?_ ?_)

theorem State.dropFrame_kept (s : State) : Kept s (State.dropFrame s) := by
  unfold State.dropFrame
  try dsimp only
  repeat' (first
    | with_reducible exact Kept.refl _
    | with_reducible refine (State.bump_kept _ _ _ _ _).after ?_)

theorem State.sendReply_held (s : State) (x : Session) (b : ReplyBody) : Held s (State.sendReply s x b) := by
  unfold State.sendReply
  try dsimp only
  repeat' (first
    | with_reducible exact Held.refl _
    | with_reducible assumption
    | with_reducible refine (onMgmt_held ?_).after ?_
    | with_reducible refine (State.onSession_held _ _ _).after ?_
    | with_reducible refine (State.closeSessions_held _ _ _).after ?_
    | intro _)

theorem State.answered_held (s : State) (x : Session) (g : Mgmt) (r : DStatus × List Record) : Held s (State.answered s x g r) := by
  unfold State.answered
  try dsimp only
  repeat' (first
    | with_reducible exact Held.refl _
    | with_reducible refine (State.bump_kept _ _ _ _ _).held.after ?_
    | with_reducible refine (State.settle_kept _).held.after ?_
    | with_reducible refine (State.onSession_held _ _ _).after ?_
    | with_reducible refine (State.sendReply_held _ _ _).after ?_)

theorem State.execute_held (s : State) (x : Session) (g : Mgmt) (run : State → Via → Executed) (h_run : ∀ a0 a1, Held a0 (run a0 a1).2) : Held s (State.execute s x g run) := by
  unfold State.execute
  try dsimp only
  repeat' (first
    | with_reducible exact Held.refl _
    | with_reducible refine (h_run _ _).after ?_
    | with_reducible refine (State.bump_kept _ _ _ _ _).held.after ?_
    | with_reducible refine (State.answered_held _ _ _ _).after ?_)

theorem State.framed_held (s : State) (x : Session) (g : Mgmt) : Held s (State.framed s x g) := by
  unfold State.framed
  try dsimp only
  repeat' (first
    | with_reducible exact Held.refl _
    | with_reducible refine (State.bump_kept _ _ _ _ _).held.after ?_
    | with_reducible refine (State.onSession_held _ _ _).after ?_)

theorem State.sessionFrame_held (s : State) (g : Mgmt) (run : State → Session → State) (h_run : ∀ a0 a1, Held a0 (run a0 a1)) : NextHeld s (State.sessionFrame s g run) := by
  unfold State.sessionFrame
  try dsimp only
  repeat' (first
    | with_reducible apply NextHeld.of
    | with_reducible exact Held.refl _
    | with_reducible refine (h_run _ _).after ?_
    | with_reducible refine (State.bump_kept _ _ _ _ _).held.after ?_
    | with_reducible refine (State.dropFrame_kept _).held.after ?_
    | with_reducible refine (State.framed_held _ _ _).after ?_
    | split)

theorem State.mgmtRequest_held (s : State) (g : Mgmt) (run : State → Via → Executed) (h_run : ∀ a0 a1, Held a0 (run a0 a1).2) : NextHeld s (State.mgmtRequest s g run) := by
  unfold State.mgmtRequest
  try dsimp only
  repeat' (first
    | with_reducible exact Held.refl _
    | with_reducible assumption
    | with_reducible refine (State.sendReply_held _ _ _).after ?_
    | with_reducible refine (State.execute_held _ _ _ _ ?_).after ?_
    | with_reducible refine State.sessionFrame_held _ _ _ ?_
    | intro _
    | split)

theorem State.writeOne_held (s : State) (g : Mgmt) (o : Outside) (ix sub : Nat) (bs : List Byte) : NextHeld s (State.writeOne s g o ix sub bs) := by
  unfold State.writeOne
  try dsimp only
  repeat' (first
    | with_reducible exact Held.refl _
    | with_reducible refine (State.opWrite_held _ _ _ _).after ?_
    | with_reducible refine State.mgmtRequest_held _ _ _ ?_
    | intro _)

theorem State.readOne_held (s : State) (g : Mgmt) (ix sub len : Nat) : NextHeld s (State.readOne s g ix sub len) := by
  unfold State.readOne
  try dsimp only
  repeat' (first
    | with_reducible exact Held.refl _
    | with_reducible refine (State.opRead_held _ _ _).after ?_
    | with_reducible refine State.mgmtRequest_held _ _ _ ?_
    | intro _)

theorem execMgmtRead_held (g : Mgmt) (items : List Item) (s : State) : NextHeld s (execMgmtRead g items s) := by
  unfold execMgmtRead
  try dsimp only
  repeat' (first
    | with_reducible exact Held.refl _
    | with_reducible refine (State.opRead_held _ _ _).after ?_
    | with_reducible refine State.mgmtRequest_held _ _ _ ?_
    | intro _)

theorem execMgmtWrite_held (g : Mgmt) (items : List Item) (s : State) : NextHeld s (execMgmtWrite g items s) := by
  unfold execMgmtWrite
  try dsimp only
  repeat' (first
    | with_reducible exact Held.refl _
    | with_reducible refine (State.opWrite_held _ _ _ _).after ?_
    | with_reducible refine State.mgmtRequest_held _ _ _ ?_
    | intro _)

theorem execMgmtBlockRead_held (g : Mgmt) (item : Item) (lastSub : Byte) (s : State) : NextHeld s (execMgmtBlockRead g item lastSub s) := by
  unfold execMgmtBlockRead
  try dsimp only
  repeat' (first
    | with_reducible exact Held.refl _
    | with_reducible refine (State.opBlock_held _ _ _ _).after ?_
    | with_reducible refine State.mgmtRequest_held _ _ _ ?_
    | intro _)

theorem execCommit_held (g : Mgmt) (byOperation : Bool) (value : Byte) (s : State) : NextHeld s (execCommit g byOperation value s) := by
  unfold execCommit
  try dsimp only
  repeat' (first
    | with_reducible exact Held.refl _
    | with_reducible refine (State.opCommit_held _ _).after ?_
    | with_reducible refine State.mgmtRequest_held _ _ _ ?_
    | with_reducible refine State.writeOne_held _ _ _ _ _ _
    | with_reducible refine NextHeld.ite ?_ ?_
    | intro _)

theorem execDiscardShadow_held (g : Mgmt) (value : Byte) (s : State) : NextHeld s (execDiscardShadow g value s) := by
  unfold execDiscardShadow
  try dsimp only
  repeat' (first
    | with_reducible refine State.writeOne_held _ _ _ _ _ _)

theorem execShadowReservation_held (g : Mgmt) (value : Byte) (s : State) : NextHeld s (execShadowReservation g value s) := by
  unfold execShadowReservation
  try dsimp only
  repeat' (first
    | with_reducible refine State.writeOne_held _ _ _ _ _ _)

theorem execTimeOfDayWrite_held (g : Mgmt) (value : W64) (s : State) : NextHeld s (execTimeOfDayWrite g value s) := by
  unfold execTimeOfDayWrite
  try dsimp only
  repeat' (first
    | with_reducible refine State.writeOne_held _ _ _ _ _ _)

theorem execApplyMgmtConfiguration_held (g : Mgmt) (value : Byte) (s : State) : NextHeld s (execApplyMgmtConfiguration g value s) := by
  unfold execApplyMgmtConfiguration
  try dsimp only
  repeat' (first
    | with_reducible refine State.writeOne_held _ _ _ _ _ _)

theorem execLinkReset_held (g : Mgmt) (value : Byte) (s : State) : NextHeld s (execLinkReset g value s) := by
  unfold execLinkReset
  try dsimp only
  repeat' (first
    | with_reducible refine State.writeOne_held _ _ _ _ _ _)

theorem execCredentialWrite_held (g : Mgmt) (item : Item) (s : State) : NextHeld s (execCredentialWrite g item s) := by
  unfold execCredentialWrite
  try dsimp only
  repeat' (first
    | with_reducible exact Held.refl _
    | with_reducible refine (State.opWrite_held _ _ _ _).after ?_
    | with_reducible refine State.mgmtRequest_held _ _ _ ?_
    | intro _)

theorem execServiceRoleDisable_held (g : Mgmt) (s : State) : NextHeld s (execServiceRoleDisable g s) := by
  unfold execServiceRoleDisable
  try dsimp only
  repeat' (first
    | with_reducible refine State.writeOne_held _ _ _ _ _ _)

theorem execSequenceWindowSelect_held (g : Mgmt) (handle : W64) (s : State) : NextHeld s (execSequenceWindowSelect g handle s) := by
  unfold execSequenceWindowSelect
  try dsimp only
  repeat' (first
    | with_reducible refine State.writeOne_held _ _ _ _ _ _)

theorem execMeterTenantSelect_held (g : Mgmt) (tenant : W16) (s : State) : NextHeld s (execMeterTenantSelect g tenant s) := by
  unfold execMeterTenantSelect
  try dsimp only
  repeat' (first
    | with_reducible refine State.writeOne_held _ _ _ _ _ _)

theorem execOperatorReportRead_held (g : Mgmt) (s : State) : NextHeld s (execOperatorReportRead g s) := by
  unfold execOperatorReportRead
  try dsimp only
  repeat' (first
    | with_reducible refine State.readOne_held _ _ _ _ _)

theorem execMailboxOperatorTake_held (g : Mgmt) (s : State) : NextHeld s (execMailboxOperatorTake g s) := by
  unfold execMailboxOperatorTake
  try dsimp only
  repeat' (first
    | with_reducible refine State.readOne_held _ _ _ _ _)

theorem execOperatorMailboxSend_held (g : Mgmt) (body : List Byte) (s : State) : NextHeld s (execOperatorMailboxSend g body s) := by
  unfold execOperatorMailboxSend
  try dsimp only
  repeat' (first
    | with_reducible refine State.writeOne_held _ _ _ _ _ _)

theorem execMigrationStart_held (g : Mgmt) (s : State) : NextHeld s (execMigrationStart g s) := by
  unfold execMigrationStart
  try dsimp only
  repeat' (first
    | with_reducible refine State.writeOne_held _ _ _ _ _ _)

theorem execBankModeRequest_held (g : Mgmt) (mode : Byte) (s : State) : NextHeld s (execBankModeRequest g mode s) := by
  unfold execBankModeRequest
  try dsimp only
  repeat' (first
    | with_reducible refine State.writeOne_held _ _ _ _ _ _)

theorem execFenceUnit_held (g : Mgmt) (value : Byte) (s : State) : NextHeld s (execFenceUnit g value s) := by
  unfold execFenceUnit
  try dsimp only
  repeat' (first
    | with_reducible refine State.writeOne_held _ _ _ _ _ _)

theorem execReturnUnit_held (g : Mgmt) (value : Byte) (passes : Bool) (s : State) : NextHeld s (execReturnUnit g value passes s) := by
  unfold execReturnUnit
  try dsimp only
  repeat' (first
    | with_reducible refine State.writeOne_held _ _ _ _ _ _)

theorem execClearFirstError_held (g : Mgmt) (value : Byte) (s : State) : NextHeld s (execClearFirstError g value s) := by
  unfold execClearFirstError
  try dsimp only
  repeat' (first
    | with_reducible refine State.writeOne_held _ _ _ _ _ _)

theorem State.resetRequest_held (s : State) (g : Mgmt) (request : W32) (boot : Option BootReport) : NextHeld s (State.resetRequest s g request boot) := by
  unfold State.resetRequest
  try dsimp only
  repeat' (first
    | with_reducible refine State.writeOne_held _ _ _ _ _ _)

theorem execDeviceReset_held (g : Mgmt) (request : W32) (boot : BootReport) (s : State) : NextHeld s (execDeviceReset g request boot s) := by
  unfold execDeviceReset
  try dsimp only
  repeat' (first
    | with_reducible refine State.resetRequest_held _ _ _ _)

theorem execDieReset_held (g : Mgmt) (request : W32) (boot : BootReport) (s : State) : NextHeld s (execDieReset g request boot s) := by
  unfold execDieReset
  try dsimp only
  repeat' (first
    | with_reducible refine State.resetRequest_held _ _ _ _)

theorem execClusterReset_held (g : Mgmt) (request : W32) (s : State) : NextHeld s (execClusterReset g request s) := by
  unfold execClusterReset
  try dsimp only
  repeat' (first
    | with_reducible refine State.resetRequest_held _ _ _ _)

theorem execPartitionReset_held (g : Mgmt) (request : W32) (s : State) : NextHeld s (execPartitionReset g request s) := by
  unfold execPartitionReset
  try dsimp only
  repeat' (first
    | with_reducible refine State.resetRequest_held _ _ _ _)

theorem execPortReset_held (g : Mgmt) (request : W32) (s : State) : NextHeld s (execPortReset g request s) := by
  unfold execPortReset
  try dsimp only
  repeat' (first
    | with_reducible refine State.resetRequest_held _ _ _ _)

theorem execOrderlyShutdown_held (g : Mgmt) (value : Byte) (s : State) : NextHeld s (execOrderlyShutdown g value s) := by
  unfold execOrderlyShutdown
  try dsimp only
  repeat' (first
    | with_reducible refine State.writeOne_held _ _ _ _ _ _)

theorem execImageSegmentWrite_held (g : Mgmt) (item : Item) (s : State) : NextHeld s (execImageSegmentWrite g item s) := by
  unfold execImageSegmentWrite
  try dsimp only
  repeat' (first
    | with_reducible exact Held.refl _
    | with_reducible refine (State.opWrite_held _ _ _ _).after ?_
    | with_reducible refine State.mgmtRequest_held _ _ _ ?_
    | intro _)

theorem execImageVerify_held (g : Mgmt) (value : Byte) (signed configOk : Bool) (version : W64) (s : State) : NextHeld s (execImageVerify g value signed configOk version s) := by
  unfold execImageVerify
  try dsimp only
  repeat' (first
    | with_reducible refine State.writeOne_held _ _ _ _ _ _)

theorem execFirmwareSwitch_held (g : Mgmt) (value : Byte) (report : SwitchReport) (s : State) : NextHeld s (execFirmwareSwitch g value report s) := by
  unfold execFirmwareSwitch
  try dsimp only
  repeat' (first
    | with_reducible refine State.writeOne_held _ _ _ _ _ _)

theorem execClusterHoldOff_held (g : Mgmt) (value : Byte) (s : State) : NextHeld s (execClusterHoldOff g value s) := by
  unfold execClusterHoldOff
  try dsimp only
  repeat' (first
    | with_reducible refine State.writeOne_held _ _ _ _ _ _)

theorem execSessionCloseCommand_held (g : Mgmt) (value : Byte) (s : State) : NextHeld s (execSessionCloseCommand g value s) := by
  unfold execSessionCloseCommand
  try dsimp only
  repeat' (first
    | with_reducible refine State.writeOne_held _ _ _ _ _ _)

theorem execStartPairing_held (g : Mgmt) (value : Byte) (s : State) : NextHeld s (execStartPairing g value s) := by
  unfold execStartPairing
  try dsimp only
  repeat' (first
    | with_reducible refine State.writeOne_held _ _ _ _ _ _)

theorem execMgmtClose_held (g : Mgmt) (s : State) : NextHeld s (execMgmtClose g s) := by
  unfold execMgmtClose
  try dsimp only
  repeat' (first
    | with_reducible exact Held.refl _
    | with_reducible refine (State.closeSessions_held _ _ _).after ?_
    | with_reducible refine State.sessionFrame_held _ _ _ ?_
    | intro _)

end Sys2Proof.Machine
end

