-- ==== Sys2Proof/Laws/Kept/Sessions.lean ====
section
/-!
SUPPORT. What each operation of Machine/Sessions.lean keeps (Laws/Kept.lean says what that is).
-/
namespace Sys2Proof.Machine

theorem State.sendDevice_kept (s : State) (id slot : Nat) (hello ek : List Byte) (address : Nat) : Kept s (State.sendDevice s id slot hello ek address) := by
  unfold State.sendDevice
  try dsimp only
  repeat' (first
    | with_reducible exact Kept.refl _
    | with_reducible rfl
    | with_reducible refine (onMgmt_kept ?_ ?_).after ?_
    | with_reducible refine (State.randomBytes_kept _ _).after ?_)

theorem execMgmtHello_kept (handshake : W64) (slot : Byte) (nonce ek : List Byte) (address : Nat) (s : State) : Next s (execMgmtHello handshake slot nonce ek address s) := by
  unfold execMgmtHello
  try dsimp only
  repeat' (first
    | with_reducible apply Next.of
    | with_reducible exact Kept.refl _
    | with_reducible rfl
    | with_reducible refine (onMgmt_kept ?_ ?_).after ?_
    | with_reducible refine (State.bump_kept _ _ _ _ _).after ?_
    | with_reducible refine (State.sendDevice_kept _ _ _ _ _ _).after ?_
    | split)

theorem State.onCred_held (s : State) (n : Nat) (f : Cred → Cred) (h : ∀ c, Cred.admin (f c) = Cred.admin c) : Held s (State.onCred s n f) := by
  refine onMgmt_held fun k => ?_
  show (List.map _ s.mgmt.creds).any Cred.admin = true
  rw [List.any_map]
  refine Eq.trans ?_ k
  congr 1
  funext c
  show Cred.admin (if _ then f c else c) = _
  split
  · exact h c
  · rfl

theorem State.failAuth_held (s : State) (c : Cred) : Held s (State.failAuth s c) := by
  unfold State.failAuth
  try dsimp only
  repeat' (first
    | with_reducible exact Held.refl _
    | with_reducible refine (State.onCred_held _ _ _ ?_).after ?_
    | exact (rfl : Cred.admin _ = Cred.admin _)
    | intro _
    | with_reducible refine Held.ite ?_ ?_)

theorem State.openSession_held (s : State) (h : Handshake) (c : Cred) (slot : Nat) : Held s (State.openSession s h c slot) := by
  unfold State.openSession
  try dsimp only
  repeat' (first
    | with_reducible exact Held.refl _
    | with_reducible assumption
    | with_reducible refine (onMgmt_held ?_).after ?_
    | with_reducible refine (State.onCred_held _ _ _ ?_).after ?_
    | exact (rfl : Cred.admin _ = Cred.admin _)
    | intro _)

theorem State.refuseSession_kept (s : State) (h : Handshake) (st : DStatus) : Kept s (State.refuseSession s h st) := by
  unfold State.refuseSession
  try dsimp only
  repeat' (first
    | with_reducible exact Kept.refl _
    | with_reducible rfl
    | with_reducible refine (onMgmt_kept ?_ ?_).after ?_)

theorem execMgmtFinish_held (handshake : W64) (sigOk : Bool) (s : State) : NextHeld s (execMgmtFinish handshake sigOk s) := by
  unfold execMgmtFinish
  try dsimp only
  repeat' (first
    | with_reducible apply NextHeld.of
    | with_reducible exact Held.refl _
    | with_reducible assumption
    | with_reducible refine (onMgmt_held ?_).after ?_
    | with_reducible refine (State.bump_kept _ _ _ _ _).held.after ?_
    | with_reducible refine (State.failAuth_held _ _).after ?_
    | with_reducible refine (State.openSession_held _ _ _ _).after ?_
    | with_reducible refine (State.refuseSession_kept _ _ _).held.after ?_
    | intro _
    | split)

theorem execMgmtHandshakeTimeout_kept (handshake : W64) (s : State) : Next s (execMgmtHandshakeTimeout handshake s) := by
  unfold execMgmtHandshakeTimeout
  try dsimp only
  repeat' (first
    | with_reducible apply Next.of
    | with_reducible exact Kept.refl _
    | with_reducible rfl
    | with_reducible refine (onMgmt_kept ?_ ?_).after ?_
    | with_reducible refine Kept.ite ?_ ?_)

theorem execMgmtSessionIdleTimeout_held (slot : Nat) (s : State) : NextHeld s (execMgmtSessionIdleTimeout slot s) := by
  unfold execMgmtSessionIdleTimeout
  try dsimp only
  repeat' (first
    | with_reducible apply NextHeld.of
    | with_reducible exact Held.refl _
    | with_reducible refine (State.closeSessions_held _ _ _).after ?_
    | with_reducible refine Held.ite ?_ ?_)

theorem execSlotLockoutEnd_held (slot : Nat) (s : State) : NextHeld s (execSlotLockoutEnd slot s) := by
  unfold execSlotLockoutEnd
  try dsimp only
  repeat' (first
    | with_reducible apply NextHeld.of
    | with_reducible exact Held.refl _
    | with_reducible refine (State.onCred_held _ _ _ ?_).after ?_
    | exact (rfl : Cred.admin _ = Cred.admin _)
    | intro _
    | split)

theorem execArpOrNeighbourSolicitation_kept (isArp : Bool) (target : Nat) (s : State) : Next s (execArpOrNeighbourSolicitation isArp target s) := by
  unfold execArpOrNeighbourSolicitation
  try dsimp only
  repeat' (first
    | with_reducible apply Next.of
    | with_reducible exact Kept.refl _
    | with_reducible rfl
    | with_reducible refine (onMgmt_kept ?_ ?_).after ?_
    | with_reducible refine (State.bump_kept _ _ _ _ _).after ?_
    | with_reducible refine Kept.ite ?_ ?_)

theorem execI3cWrite_held (index : W16) (sub : Byte) (offset : Option W16) (last : Bool) (value : List Byte) (boot : BootReport) (s : State) : NextHeld s (execI3cWrite index sub offset last value boot s) := by
  unfold execI3cWrite
  try dsimp only
  repeat' (first
    | with_reducible apply NextHeld.of
    | with_reducible exact Held.refl _
    | with_reducible refine (State.bump_kept _ _ _ _ _).held.after ?_
    | with_reducible refine (State.settle_kept _).held.after ?_
    | with_reducible refine (State.writeItem_held _ _ _ _ _ _ _ _).after ?_
    | with_reducible refine Held.ite ?_ ?_)

theorem execI3cRead_held (index : W16) (sub : Byte) (offset : Option W16) (s : State) : NextHeld s (execI3cRead index sub offset s) := by
  unfold execI3cRead
  try dsimp only
  repeat' (first
    | with_reducible apply NextHeld.of
    | with_reducible exact Held.refl _
    | with_reducible assumption
    | with_reducible refine (onMgmt_held ?_).after ?_
    | with_reducible refine (State.bump_kept _ _ _ _ _).held.after ?_
    | with_reducible refine (State.readItem_held _ _ _ _ _ _).after ?_
    | intro _
    | with_reducible refine Held.ite ?_ ?_)

theorem execI3cAddressAssignment_kept (address : BitVec 7) (s : State) : Next s (execI3cAddressAssignment address s) := by
  unfold execI3cAddressAssignment
  try dsimp only
  repeat' (first
    | with_reducible apply Next.of
    | with_reducible exact Kept.refl _
    | with_reducible rfl
    | with_reducible refine (onMgmt_kept ?_ ?_).after ?_
    | with_reducible refine Kept.ite ?_ ?_)

end Sys2Proof.Machine
end

