-- ==== Sys2Proof/Laws/Kept/Pins.lean ====
section
/-!
SUPPORT. What each operation of Machine/Pins.lean keeps (Laws/Kept.lean says what that is).
-/
namespace Sys2Proof.Machine

theorem execFaultAliveToggle_kept (s : State) : Next s (execFaultAliveToggle s) := by
  unfold execFaultAliveToggle
  try dsimp only
  repeat' (first
    | with_reducible apply Next.of
    | with_reducible exact Kept.refl _
    | with_reducible refine (onFaults_kept ).after ?_
    | with_reducible refine Kept.ite ?_ ?_)

theorem State.onInput_kept (s : State) (n : Nat) (f : Input → Input) : Kept s (State.onInput s n f) := by
  unfold State.onInput
  try dsimp only
  repeat' (first
    | with_reducible exact Kept.refl _
    | with_reducible refine (onFaults_kept ).after ?_)

theorem State.inputRecord_kept (s : State) (n kind : Nat) : Kept s (State.inputRecord s n kind) := by
  unfold State.inputRecord
  try dsimp only
  repeat' (first
    | with_reducible exact Kept.refl _
    | with_reducible refine (State.collectUnit_kept _ _ _ _ _).after ?_
    | with_reducible refine Kept.ite ?_ ?_)

theorem State.safeInput_kept (s : State) (n kind : Nat) (level : Bool) : Kept s (State.safeInput s n kind level) := by
  unfold State.safeInput
  try dsimp only
  repeat' (first
    | with_reducible exact Kept.refl _
    | with_reducible refine (State.onInput_kept _ _ _).after ?_
    | with_reducible refine (State.inputRecord_kept _ _ _).after ?_
    | with_reducible refine Kept.ite ?_ ?_)

theorem execThrottleNChange_kept (level : Bool) (s : State) : Next s (execThrottleNChange level s) := by
  unfold execThrottleNChange
  try dsimp only
  repeat' (first
    | with_reducible apply Next.of
    | with_reducible exact Kept.refl _
    | with_reducible refine (onPower_kept ).after ?_
    | with_reducible refine (State.noteThrottle_kept _).after ?_
    | with_reducible refine (State.settle_kept _).after ?_
    | with_reducible refine (State.safeInput_kept _ _ _ _).after ?_
    | with_reducible refine Kept.ite ?_ ?_)

theorem execVrFaultNChange_kept (level : Bool) (s : State) : Next s (execVrFaultNChange level s) := by
  unfold execVrFaultNChange
  try dsimp only
  repeat' (first
    | with_reducible apply Next.of
    | with_reducible exact Kept.refl _
    | with_reducible refine (onPower_kept ).after ?_
    | with_reducible refine (State.noteThrottle_kept _).after ?_
    | with_reducible refine (State.settle_kept _).after ?_
    | with_reducible refine (State.safeInput_kept _ _ _ _).after ?_
    | with_reducible refine Kept.ite ?_ ?_)

theorem execResetNChange_held (level : Bool) (boot : BootReport) (s : State) : NextHeld s (execResetNChange level boot s) := by
  unfold execResetNChange
  try dsimp only
  repeat' (first
    | with_reducible apply NextHeld.of
    | with_reducible exact Held.refl _
    | with_reducible refine (State.settle_kept _).held.after ?_
    | with_reducible refine (State.reboot_held _ _ _).after ?_
    | with_reducible refine (State.holdInReset_kept _).held.after ?_
    | with_reducible refine (State.onInput_kept _ _ _).held.after ?_
    | with_reducible refine Held.ite ?_ ?_)

theorem execInputStuck_kept (input : Nat) (s : State) : Next s (execInputStuck input s) := by
  unfold execInputStuck
  try dsimp only
  repeat' (first
    | with_reducible apply Next.of
    | with_reducible exact Kept.refl _
    | with_reducible refine (State.settle_kept _).after ?_
    | with_reducible refine (State.onInput_kept _ _ _).after ?_
    | with_reducible refine (State.inputRecord_kept _ _ _).after ?_
    | with_reducible refine Kept.ite ?_ ?_)

theorem execInputChatterEnd_held (input : Nat) (s : State) : NextHeld s (execInputChatterEnd input s) := by
  unfold execInputChatterEnd
  try dsimp only
  repeat' (first
    | with_reducible apply NextHeld.of
    | with_reducible exact Held.refl _
    | with_reducible refine (onPower_kept ).held.after ?_
    | with_reducible refine (State.settle_kept _).held.after ?_
    | with_reducible refine (State.freeBoot_kept _).held.after ?_
    | with_reducible refine (State.reboot_held _ _ _).after ?_
    | with_reducible refine (State.onInput_kept _ _ _).held.after ?_
    | with_reducible refine Held.ite ?_ ?_)

theorem execSafeLevelExit_kept (cause : Nat) (s : State) : Next s (execSafeLevelExit cause s) := by
  unfold execSafeLevelExit
  try dsimp only
  repeat' (first
    | with_reducible apply Next.of
    | with_reducible exact Kept.refl _
    | with_reducible refine (onPower_kept ).after ?_
    | with_reducible refine (State.settle_kept _).after ?_)

theorem execAvsRefresh_kept (die millivolts : Nat) (s : State) : Next s (execAvsRefresh die millivolts s) := by
  unfold execAvsRefresh
  try dsimp only
  repeat' (first
    | with_reducible apply Next.of
    | with_reducible exact Kept.refl _
    | with_reducible refine (onIslands_kept ).after ?_
    | with_reducible refine (onPower_kept ).after ?_
    | with_reducible refine Kept.ite ?_ ?_)

theorem execAvsTimeout_kept (die : Nat) (s : State) : Next s (execAvsTimeout die s) := by
  unfold execAvsTimeout
  try dsimp only
  repeat' (first
    | with_reducible apply Next.of
    | with_reducible exact Kept.refl _
    | with_reducible refine (onPower_kept ).after ?_
    | with_reducible refine (State.noteThrottle_kept _).after ?_
    | with_reducible refine (State.settle_kept _).after ?_
    | with_reducible refine Kept.ite ?_ ?_)

theorem State.takeReading_kept (s : State) (n : Nat) (t : Int) : Kept s (State.takeReading s n t) := by
  unfold State.takeReading
  try dsimp only
  repeat' (first
    | with_reducible exact Kept.refl _
    | with_reducible refine (onHbm_kept ?_).after ?_
    | with_reducible refine (onPower_kept ).after ?_
    | with_reducible exact fun h => h
    | with_reducible refine (State.noteThrottle_kept _).after ?_
    | with_reducible refine (State.collectUnit_kept _ _ _ _ _).after ?_
    | with_reducible refine (State.severe_kept _ _ _).after ?_
    | with_reducible refine (State.endThermal_kept _).after ?_
    | with_reducible refine Kept.ite ?_ ?_)

theorem execThermalSample_kept (r : ThermalReading) (s : State) : Next s (execThermalSample r s) := by
  unfold execThermalSample
  try dsimp only
  repeat' (first
    | with_reducible apply Next.of
    | with_reducible exact Kept.refl _
    | with_reducible refine (State.settle_kept _).after ?_
    | with_reducible refine (State.takeReading_kept _ _ _).after ?_
    | with_reducible refine Kept.ite ?_ ?_)

theorem execTelemetryRefresh_kept (t : Telemetry) (s : State) : Next s (execTelemetryRefresh t s) := by
  unfold execTelemetryRefresh
  try dsimp only
  repeat' (first
    | with_reducible apply Next.of
    | with_reducible exact Kept.refl _
    | with_reducible refine (onPower_kept ).after ?_
    | with_reducible refine Kept.ite ?_ ?_)

theorem execCongestionLevelUpdate_kept (s : State) : Next s (execCongestionLevelUpdate s) := by
  unfold execCongestionLevelUpdate
  try dsimp only
  repeat' (first
    | with_reducible apply Next.of
    | with_reducible exact Kept.refl _
    | with_reducible refine (onPower_kept ).after ?_
    | with_reducible refine Kept.ite ?_ ?_)

theorem execMeterSave_kept (s : State) : Next s (execMeterSave s) := by
  unfold execMeterSave
  try dsimp only
  repeat' (first
    | with_reducible apply Next.of
    | with_reducible exact Kept.refl _
    | with_reducible refine (onMeters_kept ).after ?_
    | with_reducible refine Kept.ite ?_ ?_)

end Sys2Proof.Machine
end

