-- ==== Sys2Proof/Laws/Exec.lean ====
section
/-!
SUPPORT. What every command and every step keeps, by one lemma per command.
-/
namespace Sys2Proof.Machine

theorem exec_held (c : Instr) (s : State) : NextHeld s (exec c s) := by
  cases c with
  | register _ _ => exact (execRegister_kept _ _ _).held
  | heartbeat _ _ => exact (execHeartbeat_kept _ _ _).held
  | deregister _ => exact (execDeregister_kept _ _).held
  | deregisterReturnLeases _ => exact (execDeregisterReturnLeases_kept _ _).held
  | admitTurn _ _ => exact (execAdmit_kept _ _ _).held
  | placeCompletion _ => exact (execPlaceCompletion_kept _ _).held
  | acceptTimeout _ => exact (execAcceptTimeout_kept _ _).held
  | placementWaitExpiry _ => exact (execPlacementWaitExpiry_kept _ _).held
  | handoff _ _ => exact (execHandoff_kept _ _ _).held
  | releaseEndTurn _ _ => exact (execReleaseEndTurn_kept _ _ _).held
  | releaseFree _ _ => exact (execReleaseFree_kept _ _ _).held
  | releaseSecure _ _ => exact (execReleaseSecure_kept _ _ _).held
  | drainComplete _ => exact (execDrainComplete_kept _ _).held
  | lookup _ _ => exact (execLookup_kept _ _ _).held
  | publish _ _ => exact (execPublish_kept _ _ _).held
  | unpublish _ _ => exact (execUnpublish_kept _ _ _).held
  | append _ _ => exact (execAppend_kept _ _ _).held
  | refreshAppend _ _ => exact (execRefreshAppend_kept _ _ _).held
  | appendCompletion _ => exact (execAppendCompletion_kept _ _).held
  | frameFreedForAppend _ => exact (execFrameFreedForAppend_kept _ _).held
  | appendHoldExpiry _ => exact (execAppendHoldExpiry_kept _ _).held
  | attend _ _ => exact (execAttend_kept _ _ _).held
  | tileIssue _ => exact (execTileIssue_kept _ _).held
  | fuseWaitExpiry _ => exact (execFuseWaitExpiry_kept _ _).held
  | tileCompute _ _ => exact (execTileCompute_kept _ _ _).held
  | scarfMerge _ => exact (execScarfMerge_kept _ _).held
  | attendCompletion _ => exact (execAttendCompletion_kept _ _).held
  | stage _ _ => exact (execStage_kept _ _ _).held
  | stageAndPin _ _ => exact (execStageAndPin_kept _ _ _).held
  | clearPinned _ _ => exact (execClearPinned_kept _ _ _).held
  | stagingDone _ => exact (execStagingDone_kept _ _).held
  | stageTimeout _ => exact (execStageTimeout_kept _ _).held
  | deliver _ _ => exact (execDeliver_kept _ _ _).held
  | deliverLayerWrite _ => exact (execDeliverLayerWrite_kept _ _).held
  | progress _ _ _ => exact (execProgress_kept _ _ _ _).held
  | deliveryIdleTimeout _ => exact (execDeliveryIdleTimeout_kept _ _).held
  | deliverCompletion _ => exact (execDeliverCompletion_kept _ _).held
  | mailboxWrite _ => exact (execMailboxWrite_kept _ _).held
  | mailboxDoorbell _ => exact (execMailboxDoorbell_kept _ _).held
  | mailboxReceiverCompletion _ => exact (execMailboxReceiverCompletion_kept _ _).held
  | mailboxDeliveryTimeout _ _ => exact (execMailboxDeliveryTimeout_kept _ _ _).held
  | mailboxOperatorTake _ => exact execMailboxOperatorTake_held _ _
  | operatorMailboxSend _ _ => exact execOperatorMailboxSend_held _ _ _
  | roleAdviceCompletion _ => exact (execRoleAdviceCompletion_kept _ _).held
  | adviceEvaluation _ => exact (execAdviceEvaluation_kept _ _).held
  | adviceHoldEnd _ _ => exact (execAdviceHoldEnd_kept _ _ _).held
  | leaseTimeout _ => exact (execLeaseTimeout_kept _ _).held
  | ledgerSyncCreate _ _ => exact (execLedgerSyncCreate_kept _ _ _).held
  | ledgerSyncTokens _ _ => exact (execLedgerSyncTokens_kept _ _ _).held
  | ledgerSyncCut _ _ => exact (execLedgerSyncCut_kept _ _ _).held
  | ledgerSyncFree _ _ => exact (execLedgerSyncFree_kept _ _ _).held
  | ledgerSyncReadmit _ _ => exact (execLedgerSyncReadmit_kept _ _ _).held
  | ledgerSyncCompletion _ _ => exact (execLedgerSyncCompletion_kept _ _ _).held
  | ledgerMirrorTimeout _ => exact (execLedgerMirrorTimeout_kept _ _).held
  | relayStore _ _ => exact (execRelayStore_kept _ _ _).held
  | relayFetchAndMove _ _ => exact (execRelayFetchAndMove_kept _ _ _).held
  | relayFetchCopy _ _ => exact (execRelayFetchCopy_kept _ _ _).held
  | relayMirror _ _ => exact (execRelayMirror_kept _ _ _).held
  | relayCompletion _ _ _ => exact (execRelayCompletion_kept _ _ _ _).held
  | relayTimeout _ => exact (execRelayTimeout_kept _ _).held
  | peerProbe _ _ => exact (execPeerProbe_kept _ _ _).held
  | peerProbeCompletion _ _ _ => exact (execPeerProbeCompletion_kept _ _ _ _).held
  | peerTimeout _ => exact (execPeerTimeout_kept _ _).held
  | migrationStart _ => exact execMigrationStart_held _ _
  | cmReq _ => exact (execCmReq_kept _ _).held
  | cmDisconnect _ => exact (execCmDisconnect_kept _ _).held
  | ringMessageWrite _ => exact (execRingMessageWrite_kept _ _).held
  | ringConsumerUpdate _ _ => exact (execRingConsumerUpdate_kept _ _ _).held
  | completionRingWrite _ => exact (execCompletionRingWrite_kept _ _).held
  | sendReceived _ _ => exact (execSendReceived_kept _ _ _).held
  | rnrNakReceived _ => exact (execRnrNakReceived_kept _ _).held
  | nodeReadOrWriteRefused _ _ => exact (execNodeReadOrWriteRefused_kept _ _ _).held
  | rdmaReadComplete _ _ => exact (execRdmaReadComplete_kept _ _ _).held
  | ackReceived _ _ => exact (execAckReceived_kept _ _ _).held
  | ackTimeout _ => exact (execAckTimeout_kept _ _).held
  | cePacketReceived _ => exact (execCePacketReceived_kept _ _).held
  | cnpReceived _ => exact (execCnpReceived_kept _ _).held
  | rateIncreaseEvent _ => exact (execRateIncreaseEvent_kept _ _).held
  | alphaTimerExpiry _ => exact (execAlphaTimerExpiry_kept _ _).held
  | pfcFrameReceived _ _ _ => exact (execPfcFrameReceived_kept _ _ _ _).held
  | ingressBufferThreshold _ _ => exact (execIngressBufferThreshold_kept _ _ _).held
  | pauseWatchdog _ _ => exact (execPauseWatchdog_kept _ _ _).held
  | frameCheckDrop _ _ => exact (execFrameCheckDrop_kept _ _ _).held
  | unsupportedFrameDrop _ _ => exact (execUnsupportedFrameDrop_kept _ _ _).held
  | egressFrameSend _ => exact (execEgressFrameSend_kept _ _).held
  | shaperWindowBoundary _ => exact (execShaperWindowBoundary_kept _ _).held
  | periodBoundary _ => exact (execPeriodBoundary_kept _ _).held
  | clockRelockDone _ => exact (execClockRelockDone_kept _ _).held
  | trussHandshakeTimeout _ _ => exact (execTrussHandshakeTimeout_kept _ _ _).held
  | pageMove _ => exact (execPageMove_kept _ _).held
  | shootdownComplete _ => exact (execShootdownComplete_kept _ _).held
  | ageScanVisit _ => exact (execAgeScanVisit_kept _ _).held
  | extentEvacuation _ => exact (execExtentEvacuation_kept _ _).held
  | headTableGrowth _ => exact (execHeadTableGrowth_kept _ _).held
  | tableBuild _ => exact (execTableBuild_kept _ _).held
  | tableSetInstalled _ => exact (execTableSetInstalled_kept _ _).held
  | mortiseInsertion _ => exact (execMortiseInsertion_kept _ _).held
  | secondLevelSearchDone _ => exact (execSecondLevelSearchDone_kept _ _).held
  | mortiseCompaction _ => exact (execMortiseCompaction_kept _ _).held
  | mortisePatrol _ _ _ => exact (execMortisePatrol_kept _ _ _ _).held
  | bankModeRequest _ _ => exact execBankModeRequest_held _ _ _
  | modeMoveComplete => exact (execModeMoveComplete_kept _).held
  | flashProgramConfirm _ _ _ => exact (execFlashProgramConfirm_kept _ _ _ _).held
  | rowPadTimeout _ _ _ => exact (execRowPadTimeout_kept _ _ _ _).held
  | flashReadComplete _ _ => exact (execFlashReadComplete_kept _ _ _).held
  | flashEraseFailure _ _ _ => exact (execFlashEraseFailure_kept _ _ _ _).held
  | flashProgramFailure _ _ _ => exact (execFlashProgramFailure_kept _ _ _ _).held
  | gcTargetFailure _ _ _ => exact (execGcTargetFailure_kept _ _ _ _).held
  | garbageCollection _ _ => exact (execGarbageCollection_kept _ _ _).held
  | victimErase _ _ => exact (execVictimErase_kept _ _ _).held
  | journalFlush _ => exact (execJournalFlush_kept _ _).held
  | checkpoint _ => exact (execCheckpoint_kept _ _).held
  | flashPatrolRead _ _ _ _ => exact (execFlashPatrolRead_kept _ _ _ _ _).held
  | secureReleaseComplete _ => exact (execSecureReleaseComplete_kept _ _).held
  | dieTemperatureSample _ _ => exact (execDieTemperatureSample_kept _ _ _).held
  | hbmPatrolRead _ _ _ => exact (execHbmPatrolRead_kept _ _ _ _).held
  | commit _ _ _ => exact execCommit_held _ _ _ _
  | drainLimitExpiry => exact (execDrainLimitExpiry_kept _).held
  | epochDrainEnd => exact (execEpochDrainEnd_kept _).held
  | sliceDrainDone _ => exact (execSliceDrainDone_kept _ _).held
  | zeroingDone _ => exact (execZeroingDone_kept _ _).held
  | discardShadow _ _ => exact execDiscardShadow_held _ _ _
  | shadowReservation _ _ => exact execShadowReservation_held _ _ _
  | reservationLimitExpiry => exact (execReservationLimitExpiry_kept _).held
  | timeOfDayWrite _ _ => exact execTimeOfDayWrite_held _ _ _
  | applyMgmtConfiguration _ _ => exact execApplyMgmtConfiguration_held _ _ _
  | linkReset _ _ => exact execLinkReset_held _ _ _
  | credentialWrite _ _ => exact execCredentialWrite_held _ _ _
  | serviceRoleDisable _ => exact execServiceRoleDisable_held _ _
  | sequenceWindowSelect _ _ => exact execSequenceWindowSelect_held _ _ _
  | meterTenantSelect _ _ => exact execMeterTenantSelect_held _ _ _
  | operatorReportRead _ => exact execOperatorReportRead_held _ _
  | fenceUnit _ _ => exact execFenceUnit_held _ _ _
  | returnUnit _ _ _ => exact execReturnUnit_held _ _ _ _
  | clearFirstError _ _ => exact execClearFirstError_held _ _ _
  | deviceReset _ _ _ => exact execDeviceReset_held _ _ _ _
  | dieReset _ _ _ => exact execDieReset_held _ _ _ _
  | clusterReset _ _ => exact execClusterReset_held _ _ _
  | partitionReset _ _ => exact execPartitionReset_held _ _ _
  | portReset _ _ => exact execPortReset_held _ _ _
  | orderlyShutdown _ _ => exact execOrderlyShutdown_held _ _ _
  | shutdownRequestTimeout => exact execShutdownRequestTimeout_held _
  | imageSegmentWrite _ _ => exact execImageSegmentWrite_held _ _ _
  | imageVerify _ _ _ _ _ => exact execImageVerify_held _ _ _ _ _ _
  | firmwareSwitch _ _ _ => exact execFirmwareSwitch_held _ _ _ _
  | firmwareHoldLimitExpiry => exact execFirmwareHoldLimitExpiry_held _
  | clusterHoldOff _ _ => exact execClusterHoldOff_held _ _ _
  | powerCapStep => exact (execPowerCapStep_kept _).held
  | clusterGate _ => exact (execClusterGate_kept _ _).held
  | clusterWake _ => exact (execClusterWake_kept _ _).held
  | mgmtHello _ _ _ _ _ => exact (execMgmtHello_kept _ _ _ _ _ _).held
  | mgmtFinish _ _ => exact execMgmtFinish_held _ _ _
  | mgmtClose _ => exact execMgmtClose_held _ _
  | mgmtRead _ _ => exact execMgmtRead_held _ _ _
  | mgmtWrite _ _ => exact execMgmtWrite_held _ _ _
  | mgmtBlockRead _ _ _ => exact execMgmtBlockRead_held _ _ _ _
  | mgmtHandshakeTimeout _ => exact (execMgmtHandshakeTimeout_kept _ _).held
  | mgmtSessionIdleTimeout _ => exact execMgmtSessionIdleTimeout_held _ _
  | sessionCloseCommand _ _ => exact execSessionCloseCommand_held _ _ _
  | slotLockoutEnd _ => exact execSlotLockoutEnd_held _ _
  | attestHelloTenantKeys _ _ _ _ => exact (execAttestHelloTenantKeys_kept _ _ _ _ _).held
  | attestHelloPeerPairing _ _ _ _ => exact (execAttestHelloPeerPairing_kept _ _ _ _ _).held
  | attestHelloReportOnly _ _ _ => exact (execAttestHelloReportOnly_kept _ _ _ _).held
  | attestFinish _ _ _ _ => exact (execAttestFinish_kept _ _ _ _ _).held
  | startPairing _ _ => exact execStartPairing_held _ _ _
  | pairingDeviceReceived _ _ _ => exact (execPairingDeviceReceived_kept _ _ _ _).held
  | tenantKeyRelease _ => exact (execTenantKeyRelease_kept _ _).held
  | tenantKeyErase _ => exact (execTenantKeyErase_kept _ _).held
  | tenantKeyQuery _ => exact (execTenantKeyQuery_kept _ _).held
  | attestClose _ => exact (execAttestClose_kept _ _).held
  | attestSessionIdleTimeout _ => exact (execAttestSessionIdleTimeout_kept _ _).held
  | peerLinkRekey _ => exact (execPeerLinkRekey_kept _ _).held
  | i3cWrite _ _ _ _ _ _ => exact execI3cWrite_held _ _ _ _ _ _ _
  | i3cRead _ _ _ => exact execI3cRead_held _ _ _ _
  | i3cAddressAssignment _ => exact (execI3cAddressAssignment_kept _ _).held
  | faultRecord _ => exact (execFaultRecord_kept _ _).held
  | faultQueueDropReport _ => exact (execFaultQueueDropReport_kept _ _).held
  | severeSignal _ _ => exact (execSevereSignal_kept _ _ _).held
  | faultAliveToggle => exact (execFaultAliveToggle_kept _).held
  | throttleNChange _ => exact (execThrottleNChange_kept _ _).held
  | vrFaultNChange _ => exact (execVrFaultNChange_kept _ _).held
  | resetNChange _ _ => exact execResetNChange_held _ _ _
  | inputStuck _ => exact (execInputStuck_kept _ _).held
  | inputChatterEnd _ => exact execInputChatterEnd_held _ _
  | safeLevelExit _ => exact (execSafeLevelExit_kept _ _).held
  | avsRefresh _ _ => exact (execAvsRefresh_kept _ _ _).held
  | avsTimeout _ => exact (execAvsTimeout_kept _ _).held
  | thermalSample _ => exact (execThermalSample_kept _ _).held
  | telemetryRefresh _ => exact (execTelemetryRefresh_kept _ _).held
  | congestionLevelUpdate => exact (execCongestionLevelUpdate_kept _).held
  | meterSave => exact (execMeterSave_kept _).held
  | linkTrained _ => exact (execLinkTrained_kept _ _).held
  | cmRtu _ => exact (execCmRtu_kept _ _).held
  | ackCoalescingTimeout _ => exact (execAckCoalescingTimeout_kept _ _).held
  | arpOrNeighbourSolicitation _ _ => exact (execArpOrNeighbourSolicitation_kept _ _ _).held
  | vddAuxLoss => exact (execVddAuxLoss_kept _).held
  | peerHeartbeatSend => exact (execPeerHeartbeatSend_kept _).held

/-- What a command of the data path keeps (Safety.lean says which commands those are). -/
theorem exec_kept (c : Instr) (s : State) (h : c.configures = false) : Next s (exec c s) := by
  cases c with
  | register _ _ => exact execRegister_kept _ _ _
  | heartbeat _ _ => exact execHeartbeat_kept _ _ _
  | deregister _ => exact execDeregister_kept _ _
  | deregisterReturnLeases _ => exact execDeregisterReturnLeases_kept _ _
  | admitTurn _ _ => exact execAdmit_kept _ _ _
  | placeCompletion _ => exact execPlaceCompletion_kept _ _
  | acceptTimeout _ => exact execAcceptTimeout_kept _ _
  | placementWaitExpiry _ => exact execPlacementWaitExpiry_kept _ _
  | handoff _ _ => exact execHandoff_kept _ _ _
  | releaseEndTurn _ _ => exact execReleaseEndTurn_kept _ _ _
  | releaseFree _ _ => exact execReleaseFree_kept _ _ _
  | releaseSecure _ _ => exact execReleaseSecure_kept _ _ _
  | drainComplete _ => exact execDrainComplete_kept _ _
  | lookup _ _ => exact execLookup_kept _ _ _
  | publish _ _ => exact execPublish_kept _ _ _
  | unpublish _ _ => exact execUnpublish_kept _ _ _
  | append _ _ => exact execAppend_kept _ _ _
  | refreshAppend _ _ => exact execRefreshAppend_kept _ _ _
  | appendCompletion _ => exact execAppendCompletion_kept _ _
  | frameFreedForAppend _ => exact execFrameFreedForAppend_kept _ _
  | appendHoldExpiry _ => exact execAppendHoldExpiry_kept _ _
  | attend _ _ => exact execAttend_kept _ _ _
  | tileIssue _ => exact execTileIssue_kept _ _
  | fuseWaitExpiry _ => exact execFuseWaitExpiry_kept _ _
  | tileCompute _ _ => exact execTileCompute_kept _ _ _
  | scarfMerge _ => exact execScarfMerge_kept _ _
  | attendCompletion _ => exact execAttendCompletion_kept _ _
  | stage _ _ => exact execStage_kept _ _ _
  | stageAndPin _ _ => exact execStageAndPin_kept _ _ _
  | clearPinned _ _ => exact execClearPinned_kept _ _ _
  | stagingDone _ => exact execStagingDone_kept _ _
  | stageTimeout _ => exact execStageTimeout_kept _ _
  | deliver _ _ => exact execDeliver_kept _ _ _
  | deliverLayerWrite _ => exact execDeliverLayerWrite_kept _ _
  | progress _ _ _ => exact execProgress_kept _ _ _ _
  | deliveryIdleTimeout _ => exact execDeliveryIdleTimeout_kept _ _
  | deliverCompletion _ => exact execDeliverCompletion_kept _ _
  | mailboxWrite _ => exact execMailboxWrite_kept _ _
  | mailboxDoorbell _ => exact execMailboxDoorbell_kept _ _
  | mailboxReceiverCompletion _ => exact execMailboxReceiverCompletion_kept _ _
  | mailboxDeliveryTimeout _ _ => exact execMailboxDeliveryTimeout_kept _ _ _
  | mailboxOperatorTake _ => exact absurd h (by simp [Instr.configures])
  | operatorMailboxSend _ _ => exact absurd h (by simp [Instr.configures])
  | roleAdviceCompletion _ => exact execRoleAdviceCompletion_kept _ _
  | adviceEvaluation _ => exact execAdviceEvaluation_kept _ _
  | adviceHoldEnd _ _ => exact execAdviceHoldEnd_kept _ _ _
  | leaseTimeout _ => exact execLeaseTimeout_kept _ _
  | ledgerSyncCreate _ _ => exact execLedgerSyncCreate_kept _ _ _
  | ledgerSyncTokens _ _ => exact execLedgerSyncTokens_kept _ _ _
  | ledgerSyncCut _ _ => exact execLedgerSyncCut_kept _ _ _
  | ledgerSyncFree _ _ => exact execLedgerSyncFree_kept _ _ _
  | ledgerSyncReadmit _ _ => exact execLedgerSyncReadmit_kept _ _ _
  | ledgerSyncCompletion _ _ => exact execLedgerSyncCompletion_kept _ _ _
  | ledgerMirrorTimeout _ => exact execLedgerMirrorTimeout_kept _ _
  | relayStore _ _ => exact execRelayStore_kept _ _ _
  | relayFetchAndMove _ _ => exact execRelayFetchAndMove_kept _ _ _
  | relayFetchCopy _ _ => exact execRelayFetchCopy_kept _ _ _
  | relayMirror _ _ => exact execRelayMirror_kept _ _ _
  | relayCompletion _ _ _ => exact execRelayCompletion_kept _ _ _ _
  | relayTimeout _ => exact execRelayTimeout_kept _ _
  | peerProbe _ _ => exact execPeerProbe_kept _ _ _
  | peerProbeCompletion _ _ _ => exact execPeerProbeCompletion_kept _ _ _ _
  | peerTimeout _ => exact execPeerTimeout_kept _ _
  | migrationStart _ => exact absurd h (by simp [Instr.configures])
  | cmReq _ => exact execCmReq_kept _ _
  | cmDisconnect _ => exact execCmDisconnect_kept _ _
  | ringMessageWrite _ => exact execRingMessageWrite_kept _ _
  | ringConsumerUpdate _ _ => exact execRingConsumerUpdate_kept _ _ _
  | completionRingWrite _ => exact execCompletionRingWrite_kept _ _
  | sendReceived _ _ => exact execSendReceived_kept _ _ _
  | rnrNakReceived _ => exact execRnrNakReceived_kept _ _
  | nodeReadOrWriteRefused _ _ => exact execNodeReadOrWriteRefused_kept _ _ _
  | rdmaReadComplete _ _ => exact execRdmaReadComplete_kept _ _ _
  | ackReceived _ _ => exact execAckReceived_kept _ _ _
  | ackTimeout _ => exact execAckTimeout_kept _ _
  | cePacketReceived _ => exact execCePacketReceived_kept _ _
  | cnpReceived _ => exact execCnpReceived_kept _ _
  | rateIncreaseEvent _ => exact execRateIncreaseEvent_kept _ _
  | alphaTimerExpiry _ => exact execAlphaTimerExpiry_kept _ _
  | pfcFrameReceived _ _ _ => exact execPfcFrameReceived_kept _ _ _ _
  | ingressBufferThreshold _ _ => exact execIngressBufferThreshold_kept _ _ _
  | pauseWatchdog _ _ => exact execPauseWatchdog_kept _ _ _
  | frameCheckDrop _ _ => exact execFrameCheckDrop_kept _ _ _
  | unsupportedFrameDrop _ _ => exact execUnsupportedFrameDrop_kept _ _ _
  | egressFrameSend _ => exact execEgressFrameSend_kept _ _
  | shaperWindowBoundary _ => exact execShaperWindowBoundary_kept _ _
  | periodBoundary _ => exact execPeriodBoundary_kept _ _
  | clockRelockDone _ => exact execClockRelockDone_kept _ _
  | trussHandshakeTimeout _ _ => exact execTrussHandshakeTimeout_kept _ _ _
  | pageMove _ => exact execPageMove_kept _ _
  | shootdownComplete _ => exact execShootdownComplete_kept _ _
  | ageScanVisit _ => exact execAgeScanVisit_kept _ _
  | extentEvacuation _ => exact execExtentEvacuation_kept _ _
  | headTableGrowth _ => exact execHeadTableGrowth_kept _ _
  | tableBuild _ => exact execTableBuild_kept _ _
  | tableSetInstalled _ => exact execTableSetInstalled_kept _ _
  | mortiseInsertion _ => exact execMortiseInsertion_kept _ _
  | secondLevelSearchDone _ => exact execSecondLevelSearchDone_kept _ _
  | mortiseCompaction _ => exact execMortiseCompaction_kept _ _
  | mortisePatrol _ _ _ => exact execMortisePatrol_kept _ _ _ _
  | bankModeRequest _ _ => exact absurd h (by simp [Instr.configures])
  | modeMoveComplete => exact execModeMoveComplete_kept _
  | flashProgramConfirm _ _ _ => exact execFlashProgramConfirm_kept _ _ _ _
  | rowPadTimeout _ _ _ => exact execRowPadTimeout_kept _ _ _ _
  | flashReadComplete _ _ => exact execFlashReadComplete_kept _ _ _
  | flashEraseFailure _ _ _ => exact execFlashEraseFailure_kept _ _ _ _
  | flashProgramFailure _ _ _ => exact execFlashProgramFailure_kept _ _ _ _
  | gcTargetFailure _ _ _ => exact execGcTargetFailure_kept _ _ _ _
  | garbageCollection _ _ => exact execGarbageCollection_kept _ _ _
  | victimErase _ _ => exact execVictimErase_kept _ _ _
  | journalFlush _ => exact execJournalFlush_kept _ _
  | checkpoint _ => exact execCheckpoint_kept _ _
  | flashPatrolRead _ _ _ _ => exact execFlashPatrolRead_kept _ _ _ _ _
  | secureReleaseComplete _ => exact execSecureReleaseComplete_kept _ _
  | dieTemperatureSample _ _ => exact execDieTemperatureSample_kept _ _ _
  | hbmPatrolRead _ _ _ => exact execHbmPatrolRead_kept _ _ _ _
  | commit _ _ _ => exact absurd h (by simp [Instr.configures])
  | drainLimitExpiry => exact execDrainLimitExpiry_kept _
  | epochDrainEnd => exact execEpochDrainEnd_kept _
  | sliceDrainDone _ => exact execSliceDrainDone_kept _ _
  | zeroingDone _ => exact execZeroingDone_kept _ _
  | discardShadow _ _ => exact absurd h (by simp [Instr.configures])
  | shadowReservation _ _ => exact absurd h (by simp [Instr.configures])
  | reservationLimitExpiry => exact execReservationLimitExpiry_kept _
  | timeOfDayWrite _ _ => exact absurd h (by simp [Instr.configures])
  | applyMgmtConfiguration _ _ => exact absurd h (by simp [Instr.configures])
  | linkReset _ _ => exact absurd h (by simp [Instr.configures])
  | credentialWrite _ _ => exact absurd h (by simp [Instr.configures])
  | serviceRoleDisable _ => exact absurd h (by simp [Instr.configures])
  | sequenceWindowSelect _ _ => exact absurd h (by simp [Instr.configures])
  | meterTenantSelect _ _ => exact absurd h (by simp [Instr.configures])
  | operatorReportRead _ => exact absurd h (by simp [Instr.configures])
  | fenceUnit _ _ => exact absurd h (by simp [Instr.configures])
  | returnUnit _ _ _ => exact absurd h (by simp [Instr.configures])
  | clearFirstError _ _ => exact absurd h (by simp [Instr.configures])
  | deviceReset _ _ _ => exact absurd h (by simp [Instr.configures])
  | dieReset _ _ _ => exact absurd h (by simp [Instr.configures])
  | clusterReset _ _ => exact absurd h (by simp [Instr.configures])
  | partitionReset _ _ => exact absurd h (by simp [Instr.configures])
  | portReset _ _ => exact absurd h (by simp [Instr.configures])
  | orderlyShutdown _ _ => exact absurd h (by simp [Instr.configures])
  | shutdownRequestTimeout => exact absurd h (by simp [Instr.configures])
  | imageSegmentWrite _ _ => exact absurd h (by simp [Instr.configures])
  | imageVerify _ _ _ _ _ => exact absurd h (by simp [Instr.configures])
  | firmwareSwitch _ _ _ => exact absurd h (by simp [Instr.configures])
  | firmwareHoldLimitExpiry => exact absurd h (by simp [Instr.configures])
  | clusterHoldOff _ _ => exact absurd h (by simp [Instr.configures])
  | powerCapStep => exact execPowerCapStep_kept _
  | clusterGate _ => exact execClusterGate_kept _ _
  | clusterWake _ => exact execClusterWake_kept _ _
  | mgmtHello _ _ _ _ _ => exact execMgmtHello_kept _ _ _ _ _ _
  | mgmtFinish _ _ => exact absurd h (by simp [Instr.configures])
  | mgmtClose _ => exact absurd h (by simp [Instr.configures])
  | mgmtRead _ _ => exact absurd h (by simp [Instr.configures])
  | mgmtWrite _ _ => exact absurd h (by simp [Instr.configures])
  | mgmtBlockRead _ _ _ => exact absurd h (by simp [Instr.configures])
  | mgmtHandshakeTimeout _ => exact execMgmtHandshakeTimeout_kept _ _
  | mgmtSessionIdleTimeout _ => exact absurd h (by simp [Instr.configures])
  | sessionCloseCommand _ _ => exact absurd h (by simp [Instr.configures])
  | slotLockoutEnd _ => exact absurd h (by simp [Instr.configures])
  | attestHelloTenantKeys _ _ _ _ => exact execAttestHelloTenantKeys_kept _ _ _ _ _
  | attestHelloPeerPairing _ _ _ _ => exact execAttestHelloPeerPairing_kept _ _ _ _ _
  | attestHelloReportOnly _ _ _ => exact execAttestHelloReportOnly_kept _ _ _ _
  | attestFinish _ _ _ _ => exact execAttestFinish_kept _ _ _ _ _
  | startPairing _ _ => exact absurd h (by simp [Instr.configures])
  | pairingDeviceReceived _ _ _ => exact execPairingDeviceReceived_kept _ _ _ _
  | tenantKeyRelease _ => exact execTenantKeyRelease_kept _ _
  | tenantKeyErase _ => exact execTenantKeyErase_kept _ _
  | tenantKeyQuery _ => exact execTenantKeyQuery_kept _ _
  | attestClose _ => exact execAttestClose_kept _ _
  | attestSessionIdleTimeout _ => exact execAttestSessionIdleTimeout_kept _ _
  | peerLinkRekey _ => exact execPeerLinkRekey_kept _ _
  | i3cWrite _ _ _ _ _ _ => exact absurd h (by simp [Instr.configures])
  | i3cRead _ _ _ => exact absurd h (by simp [Instr.configures])
  | i3cAddressAssignment _ => exact execI3cAddressAssignment_kept _ _
  | faultRecord _ => exact execFaultRecord_kept _ _
  | faultQueueDropReport _ => exact execFaultQueueDropReport_kept _ _
  | severeSignal _ _ => exact execSevereSignal_kept _ _ _
  | faultAliveToggle => exact execFaultAliveToggle_kept _
  | throttleNChange _ => exact execThrottleNChange_kept _ _
  | vrFaultNChange _ => exact execVrFaultNChange_kept _ _
  | resetNChange _ _ => exact absurd h (by simp [Instr.configures])
  | inputStuck _ => exact execInputStuck_kept _ _
  | inputChatterEnd _ => exact absurd h (by simp [Instr.configures])
  | safeLevelExit _ => exact execSafeLevelExit_kept _ _
  | avsRefresh _ _ => exact execAvsRefresh_kept _ _ _
  | avsTimeout _ => exact execAvsTimeout_kept _ _
  | thermalSample _ => exact execThermalSample_kept _ _
  | telemetryRefresh _ => exact execTelemetryRefresh_kept _ _
  | congestionLevelUpdate => exact execCongestionLevelUpdate_kept _
  | meterSave => exact execMeterSave_kept _
  | linkTrained _ => exact execLinkTrained_kept _ _
  | cmRtu _ => exact execCmRtu_kept _ _
  | ackCoalescingTimeout _ => exact execAckCoalescingTimeout_kept _ _
  | arpOrNeighbourSolicitation _ _ => exact execArpOrNeighbourSolicitation_kept _ _ _
  | vddAuxLoss => exact execVddAuxLoss_kept _
  | peerHeartbeatSend => exact execPeerHeartbeatSend_kept _

/-- A command answers a next state, always: no command of the block stops it. -/
theorem exec_next (c : Instr) (s : State) : ∃ t, exec c s = .next t := by
  obtain ⟨t, h, _⟩ := exec_held c s
  exact ⟨t, h⟩

/-- A step that runs a command takes it off the queue's front and leaves the rest. -/
theorem exec_pending (c : Instr) (s t : State) (h : exec c s = .next t) : t.pending = s.pending := by
  obtain ⟨u, e, k⟩ := exec_held c s
  rw [e] at h
  cases h
  exact k.pending

end Sys2Proof.Machine
end

