-- ==== Sys2Proof/Laws/State.lean ====
section
/-!
SUPPORT. What each component modifier of State does to each component: one lemma per modifier and component, true by unfolding.
-/
namespace Sys2Proof.Machine

variable (s : State)

@[simp] theorem State.onDev_dev (f : Dev → Dev) : (s.onDev f).dev = f s.dev := rfl
@[simp] theorem State.onDev_clock (f : Dev → Dev) : (s.onDev f).clock = s.clock := rfl
@[simp] theorem State.onDev_objs (f : Dev → Dev) : (s.onDev f).objs = s.objs := rfl
@[simp] theorem State.onDev_islands (f : Dev → Dev) : (s.onDev f).islands = s.islands := rfl
@[simp] theorem State.onDev_epochs (f : Dev → Dev) : (s.onDev f).epochs = s.epochs := rfl
@[simp] theorem State.onDev_seqs (f : Dev → Dev) : (s.onDev f).seqs = s.seqs := rfl
@[simp] theorem State.onDev_slotGens (f : Dev → Dev) : (s.onDev f).slotGens = s.slotGens := rfl
@[simp] theorem State.onDev_hbm (f : Dev → Dev) : (s.onDev f).hbm = s.hbm := rfl
@[simp] theorem State.onDev_caches (f : Dev → Dev) : (s.onDev f).caches = s.caches := rfl
@[simp] theorem State.onDev_work (f : Dev → Dev) : (s.onDev f).work = s.work := rfl
@[simp] theorem State.onDev_mortise (f : Dev → Dev) : (s.onDev f).mortise = s.mortise := rfl
@[simp] theorem State.onDev_packers (f : Dev → Dev) : (s.onDev f).packers = s.packers := rfl
@[simp] theorem State.onDev_flash (f : Dev → Dev) : (s.onDev f).flash = s.flash := rfl
@[simp] theorem State.onDev_broker (f : Dev → Dev) : (s.onDev f).broker = s.broker := rfl
@[simp] theorem State.onDev_net (f : Dev → Dev) : (s.onDev f).net = s.net := rfl
@[simp] theorem State.onDev_sec (f : Dev → Dev) : (s.onDev f).sec = s.sec := rfl
@[simp] theorem State.onDev_mgmt (f : Dev → Dev) : (s.onDev f).mgmt = s.mgmt := rfl
@[simp] theorem State.onDev_faults (f : Dev → Dev) : (s.onDev f).faults = s.faults := rfl
@[simp] theorem State.onDev_mailboxes (f : Dev → Dev) : (s.onDev f).mailboxes = s.mailboxes := rfl
@[simp] theorem State.onDev_power (f : Dev → Dev) : (s.onDev f).power = s.power := rfl
@[simp] theorem State.onDev_fw (f : Dev → Dev) : (s.onDev f).fw = s.fw := rfl
@[simp] theorem State.onDev_meters (f : Dev → Dev) : (s.onDev f).meters = s.meters := rfl
@[simp] theorem State.onDev_pending (f : Dev → Dev) : (s.onDev f).pending = s.pending := rfl

@[simp] theorem State.onClock_dev (f : Clock → Clock) : (s.onClock f).dev = s.dev := rfl
@[simp] theorem State.onClock_clock (f : Clock → Clock) : (s.onClock f).clock = f s.clock := rfl
@[simp] theorem State.onClock_objs (f : Clock → Clock) : (s.onClock f).objs = s.objs := rfl
@[simp] theorem State.onClock_islands (f : Clock → Clock) : (s.onClock f).islands = s.islands := rfl
@[simp] theorem State.onClock_epochs (f : Clock → Clock) : (s.onClock f).epochs = s.epochs := rfl
@[simp] theorem State.onClock_seqs (f : Clock → Clock) : (s.onClock f).seqs = s.seqs := rfl
@[simp] theorem State.onClock_slotGens (f : Clock → Clock) : (s.onClock f).slotGens = s.slotGens := rfl
@[simp] theorem State.onClock_hbm (f : Clock → Clock) : (s.onClock f).hbm = s.hbm := rfl
@[simp] theorem State.onClock_caches (f : Clock → Clock) : (s.onClock f).caches = s.caches := rfl
@[simp] theorem State.onClock_work (f : Clock → Clock) : (s.onClock f).work = s.work := rfl
@[simp] theorem State.onClock_mortise (f : Clock → Clock) : (s.onClock f).mortise = s.mortise := rfl
@[simp] theorem State.onClock_packers (f : Clock → Clock) : (s.onClock f).packers = s.packers := rfl
@[simp] theorem State.onClock_flash (f : Clock → Clock) : (s.onClock f).flash = s.flash := rfl
@[simp] theorem State.onClock_broker (f : Clock → Clock) : (s.onClock f).broker = s.broker := rfl
@[simp] theorem State.onClock_net (f : Clock → Clock) : (s.onClock f).net = s.net := rfl
@[simp] theorem State.onClock_sec (f : Clock → Clock) : (s.onClock f).sec = s.sec := rfl
@[simp] theorem State.onClock_mgmt (f : Clock → Clock) : (s.onClock f).mgmt = s.mgmt := rfl
@[simp] theorem State.onClock_faults (f : Clock → Clock) : (s.onClock f).faults = s.faults := rfl
@[simp] theorem State.onClock_mailboxes (f : Clock → Clock) : (s.onClock f).mailboxes = s.mailboxes := rfl
@[simp] theorem State.onClock_power (f : Clock → Clock) : (s.onClock f).power = s.power := rfl
@[simp] theorem State.onClock_fw (f : Clock → Clock) : (s.onClock f).fw = s.fw := rfl
@[simp] theorem State.onClock_meters (f : Clock → Clock) : (s.onClock f).meters = s.meters := rfl
@[simp] theorem State.onClock_pending (f : Clock → Clock) : (s.onClock f).pending = s.pending := rfl

@[simp] theorem State.onObjs_dev (f : Objs → Objs) : (s.onObjs f).dev = s.dev := rfl
@[simp] theorem State.onObjs_clock (f : Objs → Objs) : (s.onObjs f).clock = s.clock := rfl
@[simp] theorem State.onObjs_objs (f : Objs → Objs) : (s.onObjs f).objs = f s.objs := rfl
@[simp] theorem State.onObjs_islands (f : Objs → Objs) : (s.onObjs f).islands = s.islands := rfl
@[simp] theorem State.onObjs_epochs (f : Objs → Objs) : (s.onObjs f).epochs = s.epochs := rfl
@[simp] theorem State.onObjs_seqs (f : Objs → Objs) : (s.onObjs f).seqs = s.seqs := rfl
@[simp] theorem State.onObjs_slotGens (f : Objs → Objs) : (s.onObjs f).slotGens = s.slotGens := rfl
@[simp] theorem State.onObjs_hbm (f : Objs → Objs) : (s.onObjs f).hbm = s.hbm := rfl
@[simp] theorem State.onObjs_caches (f : Objs → Objs) : (s.onObjs f).caches = s.caches := rfl
@[simp] theorem State.onObjs_work (f : Objs → Objs) : (s.onObjs f).work = s.work := rfl
@[simp] theorem State.onObjs_mortise (f : Objs → Objs) : (s.onObjs f).mortise = s.mortise := rfl
@[simp] theorem State.onObjs_packers (f : Objs → Objs) : (s.onObjs f).packers = s.packers := rfl
@[simp] theorem State.onObjs_flash (f : Objs → Objs) : (s.onObjs f).flash = s.flash := rfl
@[simp] theorem State.onObjs_broker (f : Objs → Objs) : (s.onObjs f).broker = s.broker := rfl
@[simp] theorem State.onObjs_net (f : Objs → Objs) : (s.onObjs f).net = s.net := rfl
@[simp] theorem State.onObjs_sec (f : Objs → Objs) : (s.onObjs f).sec = s.sec := rfl
@[simp] theorem State.onObjs_mgmt (f : Objs → Objs) : (s.onObjs f).mgmt = s.mgmt := rfl
@[simp] theorem State.onObjs_faults (f : Objs → Objs) : (s.onObjs f).faults = s.faults := rfl
@[simp] theorem State.onObjs_mailboxes (f : Objs → Objs) : (s.onObjs f).mailboxes = s.mailboxes := rfl
@[simp] theorem State.onObjs_power (f : Objs → Objs) : (s.onObjs f).power = s.power := rfl
@[simp] theorem State.onObjs_fw (f : Objs → Objs) : (s.onObjs f).fw = s.fw := rfl
@[simp] theorem State.onObjs_meters (f : Objs → Objs) : (s.onObjs f).meters = s.meters := rfl
@[simp] theorem State.onObjs_pending (f : Objs → Objs) : (s.onObjs f).pending = s.pending := rfl

@[simp] theorem State.onIslands_dev (f : List Island → List Island) : (s.onIslands f).dev = s.dev := rfl
@[simp] theorem State.onIslands_clock (f : List Island → List Island) : (s.onIslands f).clock = s.clock := rfl
@[simp] theorem State.onIslands_objs (f : List Island → List Island) : (s.onIslands f).objs = s.objs := rfl
@[simp] theorem State.onIslands_islands (f : List Island → List Island) : (s.onIslands f).islands = f s.islands := rfl
@[simp] theorem State.onIslands_epochs (f : List Island → List Island) : (s.onIslands f).epochs = s.epochs := rfl
@[simp] theorem State.onIslands_seqs (f : List Island → List Island) : (s.onIslands f).seqs = s.seqs := rfl
@[simp] theorem State.onIslands_slotGens (f : List Island → List Island) : (s.onIslands f).slotGens = s.slotGens := rfl
@[simp] theorem State.onIslands_hbm (f : List Island → List Island) : (s.onIslands f).hbm = s.hbm := rfl
@[simp] theorem State.onIslands_caches (f : List Island → List Island) : (s.onIslands f).caches = s.caches := rfl
@[simp] theorem State.onIslands_work (f : List Island → List Island) : (s.onIslands f).work = s.work := rfl
@[simp] theorem State.onIslands_mortise (f : List Island → List Island) : (s.onIslands f).mortise = s.mortise := rfl
@[simp] theorem State.onIslands_packers (f : List Island → List Island) : (s.onIslands f).packers = s.packers := rfl
@[simp] theorem State.onIslands_flash (f : List Island → List Island) : (s.onIslands f).flash = s.flash := rfl
@[simp] theorem State.onIslands_broker (f : List Island → List Island) : (s.onIslands f).broker = s.broker := rfl
@[simp] theorem State.onIslands_net (f : List Island → List Island) : (s.onIslands f).net = s.net := rfl
@[simp] theorem State.onIslands_sec (f : List Island → List Island) : (s.onIslands f).sec = s.sec := rfl
@[simp] theorem State.onIslands_mgmt (f : List Island → List Island) : (s.onIslands f).mgmt = s.mgmt := rfl
@[simp] theorem State.onIslands_faults (f : List Island → List Island) : (s.onIslands f).faults = s.faults := rfl
@[simp] theorem State.onIslands_mailboxes (f : List Island → List Island) : (s.onIslands f).mailboxes = s.mailboxes := rfl
@[simp] theorem State.onIslands_power (f : List Island → List Island) : (s.onIslands f).power = s.power := rfl
@[simp] theorem State.onIslands_fw (f : List Island → List Island) : (s.onIslands f).fw = s.fw := rfl
@[simp] theorem State.onIslands_meters (f : List Island → List Island) : (s.onIslands f).meters = s.meters := rfl
@[simp] theorem State.onIslands_pending (f : List Island → List Island) : (s.onIslands f).pending = s.pending := rfl

@[simp] theorem State.onEpochs_dev (f : Epochs → Epochs) : (s.onEpochs f).dev = s.dev := rfl
@[simp] theorem State.onEpochs_clock (f : Epochs → Epochs) : (s.onEpochs f).clock = s.clock := rfl
@[simp] theorem State.onEpochs_objs (f : Epochs → Epochs) : (s.onEpochs f).objs = s.objs := rfl
@[simp] theorem State.onEpochs_islands (f : Epochs → Epochs) : (s.onEpochs f).islands = s.islands := rfl
@[simp] theorem State.onEpochs_epochs (f : Epochs → Epochs) : (s.onEpochs f).epochs = f s.epochs := rfl
@[simp] theorem State.onEpochs_seqs (f : Epochs → Epochs) : (s.onEpochs f).seqs = s.seqs := rfl
@[simp] theorem State.onEpochs_slotGens (f : Epochs → Epochs) : (s.onEpochs f).slotGens = s.slotGens := rfl
@[simp] theorem State.onEpochs_hbm (f : Epochs → Epochs) : (s.onEpochs f).hbm = s.hbm := rfl
@[simp] theorem State.onEpochs_caches (f : Epochs → Epochs) : (s.onEpochs f).caches = s.caches := rfl
@[simp] theorem State.onEpochs_work (f : Epochs → Epochs) : (s.onEpochs f).work = s.work := rfl
@[simp] theorem State.onEpochs_mortise (f : Epochs → Epochs) : (s.onEpochs f).mortise = s.mortise := rfl
@[simp] theorem State.onEpochs_packers (f : Epochs → Epochs) : (s.onEpochs f).packers = s.packers := rfl
@[simp] theorem State.onEpochs_flash (f : Epochs → Epochs) : (s.onEpochs f).flash = s.flash := rfl
@[simp] theorem State.onEpochs_broker (f : Epochs → Epochs) : (s.onEpochs f).broker = s.broker := rfl
@[simp] theorem State.onEpochs_net (f : Epochs → Epochs) : (s.onEpochs f).net = s.net := rfl
@[simp] theorem State.onEpochs_sec (f : Epochs → Epochs) : (s.onEpochs f).sec = s.sec := rfl
@[simp] theorem State.onEpochs_mgmt (f : Epochs → Epochs) : (s.onEpochs f).mgmt = s.mgmt := rfl
@[simp] theorem State.onEpochs_faults (f : Epochs → Epochs) : (s.onEpochs f).faults = s.faults := rfl
@[simp] theorem State.onEpochs_mailboxes (f : Epochs → Epochs) : (s.onEpochs f).mailboxes = s.mailboxes := rfl
@[simp] theorem State.onEpochs_power (f : Epochs → Epochs) : (s.onEpochs f).power = s.power := rfl
@[simp] theorem State.onEpochs_fw (f : Epochs → Epochs) : (s.onEpochs f).fw = s.fw := rfl
@[simp] theorem State.onEpochs_meters (f : Epochs → Epochs) : (s.onEpochs f).meters = s.meters := rfl
@[simp] theorem State.onEpochs_pending (f : Epochs → Epochs) : (s.onEpochs f).pending = s.pending := rfl

@[simp] theorem State.onSeqs_dev (f : List Seq → List Seq) : (s.onSeqs f).dev = s.dev := rfl
@[simp] theorem State.onSeqs_clock (f : List Seq → List Seq) : (s.onSeqs f).clock = s.clock := rfl
@[simp] theorem State.onSeqs_objs (f : List Seq → List Seq) : (s.onSeqs f).objs = s.objs := rfl
@[simp] theorem State.onSeqs_islands (f : List Seq → List Seq) : (s.onSeqs f).islands = s.islands := rfl
@[simp] theorem State.onSeqs_epochs (f : List Seq → List Seq) : (s.onSeqs f).epochs = s.epochs := rfl
@[simp] theorem State.onSeqs_seqs (f : List Seq → List Seq) : (s.onSeqs f).seqs = f s.seqs := rfl
@[simp] theorem State.onSeqs_slotGens (f : List Seq → List Seq) : (s.onSeqs f).slotGens = s.slotGens := rfl
@[simp] theorem State.onSeqs_hbm (f : List Seq → List Seq) : (s.onSeqs f).hbm = s.hbm := rfl
@[simp] theorem State.onSeqs_caches (f : List Seq → List Seq) : (s.onSeqs f).caches = s.caches := rfl
@[simp] theorem State.onSeqs_work (f : List Seq → List Seq) : (s.onSeqs f).work = s.work := rfl
@[simp] theorem State.onSeqs_mortise (f : List Seq → List Seq) : (s.onSeqs f).mortise = s.mortise := rfl
@[simp] theorem State.onSeqs_packers (f : List Seq → List Seq) : (s.onSeqs f).packers = s.packers := rfl
@[simp] theorem State.onSeqs_flash (f : List Seq → List Seq) : (s.onSeqs f).flash = s.flash := rfl
@[simp] theorem State.onSeqs_broker (f : List Seq → List Seq) : (s.onSeqs f).broker = s.broker := rfl
@[simp] theorem State.onSeqs_net (f : List Seq → List Seq) : (s.onSeqs f).net = s.net := rfl
@[simp] theorem State.onSeqs_sec (f : List Seq → List Seq) : (s.onSeqs f).sec = s.sec := rfl
@[simp] theorem State.onSeqs_mgmt (f : List Seq → List Seq) : (s.onSeqs f).mgmt = s.mgmt := rfl
@[simp] theorem State.onSeqs_faults (f : List Seq → List Seq) : (s.onSeqs f).faults = s.faults := rfl
@[simp] theorem State.onSeqs_mailboxes (f : List Seq → List Seq) : (s.onSeqs f).mailboxes = s.mailboxes := rfl
@[simp] theorem State.onSeqs_power (f : List Seq → List Seq) : (s.onSeqs f).power = s.power := rfl
@[simp] theorem State.onSeqs_fw (f : List Seq → List Seq) : (s.onSeqs f).fw = s.fw := rfl
@[simp] theorem State.onSeqs_meters (f : List Seq → List Seq) : (s.onSeqs f).meters = s.meters := rfl
@[simp] theorem State.onSeqs_pending (f : List Seq → List Seq) : (s.onSeqs f).pending = s.pending := rfl

@[simp] theorem State.onSlotGens_dev (f : SMap → SMap) : (s.onSlotGens f).dev = s.dev := rfl
@[simp] theorem State.onSlotGens_clock (f : SMap → SMap) : (s.onSlotGens f).clock = s.clock := rfl
@[simp] theorem State.onSlotGens_objs (f : SMap → SMap) : (s.onSlotGens f).objs = s.objs := rfl
@[simp] theorem State.onSlotGens_islands (f : SMap → SMap) : (s.onSlotGens f).islands = s.islands := rfl
@[simp] theorem State.onSlotGens_epochs (f : SMap → SMap) : (s.onSlotGens f).epochs = s.epochs := rfl
@[simp] theorem State.onSlotGens_seqs (f : SMap → SMap) : (s.onSlotGens f).seqs = s.seqs := rfl
@[simp] theorem State.onSlotGens_slotGens (f : SMap → SMap) : (s.onSlotGens f).slotGens = f s.slotGens := rfl
@[simp] theorem State.onSlotGens_hbm (f : SMap → SMap) : (s.onSlotGens f).hbm = s.hbm := rfl
@[simp] theorem State.onSlotGens_caches (f : SMap → SMap) : (s.onSlotGens f).caches = s.caches := rfl
@[simp] theorem State.onSlotGens_work (f : SMap → SMap) : (s.onSlotGens f).work = s.work := rfl
@[simp] theorem State.onSlotGens_mortise (f : SMap → SMap) : (s.onSlotGens f).mortise = s.mortise := rfl
@[simp] theorem State.onSlotGens_packers (f : SMap → SMap) : (s.onSlotGens f).packers = s.packers := rfl
@[simp] theorem State.onSlotGens_flash (f : SMap → SMap) : (s.onSlotGens f).flash = s.flash := rfl
@[simp] theorem State.onSlotGens_broker (f : SMap → SMap) : (s.onSlotGens f).broker = s.broker := rfl
@[simp] theorem State.onSlotGens_net (f : SMap → SMap) : (s.onSlotGens f).net = s.net := rfl
@[simp] theorem State.onSlotGens_sec (f : SMap → SMap) : (s.onSlotGens f).sec = s.sec := rfl
@[simp] theorem State.onSlotGens_mgmt (f : SMap → SMap) : (s.onSlotGens f).mgmt = s.mgmt := rfl
@[simp] theorem State.onSlotGens_faults (f : SMap → SMap) : (s.onSlotGens f).faults = s.faults := rfl
@[simp] theorem State.onSlotGens_mailboxes (f : SMap → SMap) : (s.onSlotGens f).mailboxes = s.mailboxes := rfl
@[simp] theorem State.onSlotGens_power (f : SMap → SMap) : (s.onSlotGens f).power = s.power := rfl
@[simp] theorem State.onSlotGens_fw (f : SMap → SMap) : (s.onSlotGens f).fw = s.fw := rfl
@[simp] theorem State.onSlotGens_meters (f : SMap → SMap) : (s.onSlotGens f).meters = s.meters := rfl
@[simp] theorem State.onSlotGens_pending (f : SMap → SMap) : (s.onSlotGens f).pending = s.pending := rfl

@[simp] theorem State.onHbm_dev (f : Hbm → Hbm) : (s.onHbm f).dev = s.dev := rfl
@[simp] theorem State.onHbm_clock (f : Hbm → Hbm) : (s.onHbm f).clock = s.clock := rfl
@[simp] theorem State.onHbm_objs (f : Hbm → Hbm) : (s.onHbm f).objs = s.objs := rfl
@[simp] theorem State.onHbm_islands (f : Hbm → Hbm) : (s.onHbm f).islands = s.islands := rfl
@[simp] theorem State.onHbm_epochs (f : Hbm → Hbm) : (s.onHbm f).epochs = s.epochs := rfl
@[simp] theorem State.onHbm_seqs (f : Hbm → Hbm) : (s.onHbm f).seqs = s.seqs := rfl
@[simp] theorem State.onHbm_slotGens (f : Hbm → Hbm) : (s.onHbm f).slotGens = s.slotGens := rfl
@[simp] theorem State.onHbm_hbm (f : Hbm → Hbm) : (s.onHbm f).hbm = f s.hbm := rfl
@[simp] theorem State.onHbm_caches (f : Hbm → Hbm) : (s.onHbm f).caches = s.caches := rfl
@[simp] theorem State.onHbm_work (f : Hbm → Hbm) : (s.onHbm f).work = s.work := rfl
@[simp] theorem State.onHbm_mortise (f : Hbm → Hbm) : (s.onHbm f).mortise = s.mortise := rfl
@[simp] theorem State.onHbm_packers (f : Hbm → Hbm) : (s.onHbm f).packers = s.packers := rfl
@[simp] theorem State.onHbm_flash (f : Hbm → Hbm) : (s.onHbm f).flash = s.flash := rfl
@[simp] theorem State.onHbm_broker (f : Hbm → Hbm) : (s.onHbm f).broker = s.broker := rfl
@[simp] theorem State.onHbm_net (f : Hbm → Hbm) : (s.onHbm f).net = s.net := rfl
@[simp] theorem State.onHbm_sec (f : Hbm → Hbm) : (s.onHbm f).sec = s.sec := rfl
@[simp] theorem State.onHbm_mgmt (f : Hbm → Hbm) : (s.onHbm f).mgmt = s.mgmt := rfl
@[simp] theorem State.onHbm_faults (f : Hbm → Hbm) : (s.onHbm f).faults = s.faults := rfl
@[simp] theorem State.onHbm_mailboxes (f : Hbm → Hbm) : (s.onHbm f).mailboxes = s.mailboxes := rfl
@[simp] theorem State.onHbm_power (f : Hbm → Hbm) : (s.onHbm f).power = s.power := rfl
@[simp] theorem State.onHbm_fw (f : Hbm → Hbm) : (s.onHbm f).fw = s.fw := rfl
@[simp] theorem State.onHbm_meters (f : Hbm → Hbm) : (s.onHbm f).meters = s.meters := rfl
@[simp] theorem State.onHbm_pending (f : Hbm → Hbm) : (s.onHbm f).pending = s.pending := rfl

@[simp] theorem State.onCaches_dev (f : List ClusterCache → List ClusterCache) : (s.onCaches f).dev = s.dev := rfl
@[simp] theorem State.onCaches_clock (f : List ClusterCache → List ClusterCache) : (s.onCaches f).clock = s.clock := rfl
@[simp] theorem State.onCaches_objs (f : List ClusterCache → List ClusterCache) : (s.onCaches f).objs = s.objs := rfl
@[simp] theorem State.onCaches_islands (f : List ClusterCache → List ClusterCache) : (s.onCaches f).islands = s.islands := rfl
@[simp] theorem State.onCaches_epochs (f : List ClusterCache → List ClusterCache) : (s.onCaches f).epochs = s.epochs := rfl
@[simp] theorem State.onCaches_seqs (f : List ClusterCache → List ClusterCache) : (s.onCaches f).seqs = s.seqs := rfl
@[simp] theorem State.onCaches_slotGens (f : List ClusterCache → List ClusterCache) : (s.onCaches f).slotGens = s.slotGens := rfl
@[simp] theorem State.onCaches_hbm (f : List ClusterCache → List ClusterCache) : (s.onCaches f).hbm = s.hbm := rfl
@[simp] theorem State.onCaches_caches (f : List ClusterCache → List ClusterCache) : (s.onCaches f).caches = f s.caches := rfl
@[simp] theorem State.onCaches_work (f : List ClusterCache → List ClusterCache) : (s.onCaches f).work = s.work := rfl
@[simp] theorem State.onCaches_mortise (f : List ClusterCache → List ClusterCache) : (s.onCaches f).mortise = s.mortise := rfl
@[simp] theorem State.onCaches_packers (f : List ClusterCache → List ClusterCache) : (s.onCaches f).packers = s.packers := rfl
@[simp] theorem State.onCaches_flash (f : List ClusterCache → List ClusterCache) : (s.onCaches f).flash = s.flash := rfl
@[simp] theorem State.onCaches_broker (f : List ClusterCache → List ClusterCache) : (s.onCaches f).broker = s.broker := rfl
@[simp] theorem State.onCaches_net (f : List ClusterCache → List ClusterCache) : (s.onCaches f).net = s.net := rfl
@[simp] theorem State.onCaches_sec (f : List ClusterCache → List ClusterCache) : (s.onCaches f).sec = s.sec := rfl
@[simp] theorem State.onCaches_mgmt (f : List ClusterCache → List ClusterCache) : (s.onCaches f).mgmt = s.mgmt := rfl
@[simp] theorem State.onCaches_faults (f : List ClusterCache → List ClusterCache) : (s.onCaches f).faults = s.faults := rfl
@[simp] theorem State.onCaches_mailboxes (f : List ClusterCache → List ClusterCache) : (s.onCaches f).mailboxes = s.mailboxes := rfl
@[simp] theorem State.onCaches_power (f : List ClusterCache → List ClusterCache) : (s.onCaches f).power = s.power := rfl
@[simp] theorem State.onCaches_fw (f : List ClusterCache → List ClusterCache) : (s.onCaches f).fw = s.fw := rfl
@[simp] theorem State.onCaches_meters (f : List ClusterCache → List ClusterCache) : (s.onCaches f).meters = s.meters := rfl
@[simp] theorem State.onCaches_pending (f : List ClusterCache → List ClusterCache) : (s.onCaches f).pending = s.pending := rfl

@[simp] theorem State.onWork_dev (f : Work → Work) : (s.onWork f).dev = s.dev := rfl
@[simp] theorem State.onWork_clock (f : Work → Work) : (s.onWork f).clock = s.clock := rfl
@[simp] theorem State.onWork_objs (f : Work → Work) : (s.onWork f).objs = s.objs := rfl
@[simp] theorem State.onWork_islands (f : Work → Work) : (s.onWork f).islands = s.islands := rfl
@[simp] theorem State.onWork_epochs (f : Work → Work) : (s.onWork f).epochs = s.epochs := rfl
@[simp] theorem State.onWork_seqs (f : Work → Work) : (s.onWork f).seqs = s.seqs := rfl
@[simp] theorem State.onWork_slotGens (f : Work → Work) : (s.onWork f).slotGens = s.slotGens := rfl
@[simp] theorem State.onWork_hbm (f : Work → Work) : (s.onWork f).hbm = s.hbm := rfl
@[simp] theorem State.onWork_caches (f : Work → Work) : (s.onWork f).caches = s.caches := rfl
@[simp] theorem State.onWork_work (f : Work → Work) : (s.onWork f).work = f s.work := rfl
@[simp] theorem State.onWork_mortise (f : Work → Work) : (s.onWork f).mortise = s.mortise := rfl
@[simp] theorem State.onWork_packers (f : Work → Work) : (s.onWork f).packers = s.packers := rfl
@[simp] theorem State.onWork_flash (f : Work → Work) : (s.onWork f).flash = s.flash := rfl
@[simp] theorem State.onWork_broker (f : Work → Work) : (s.onWork f).broker = s.broker := rfl
@[simp] theorem State.onWork_net (f : Work → Work) : (s.onWork f).net = s.net := rfl
@[simp] theorem State.onWork_sec (f : Work → Work) : (s.onWork f).sec = s.sec := rfl
@[simp] theorem State.onWork_mgmt (f : Work → Work) : (s.onWork f).mgmt = s.mgmt := rfl
@[simp] theorem State.onWork_faults (f : Work → Work) : (s.onWork f).faults = s.faults := rfl
@[simp] theorem State.onWork_mailboxes (f : Work → Work) : (s.onWork f).mailboxes = s.mailboxes := rfl
@[simp] theorem State.onWork_power (f : Work → Work) : (s.onWork f).power = s.power := rfl
@[simp] theorem State.onWork_fw (f : Work → Work) : (s.onWork f).fw = s.fw := rfl
@[simp] theorem State.onWork_meters (f : Work → Work) : (s.onWork f).meters = s.meters := rfl
@[simp] theorem State.onWork_pending (f : Work → Work) : (s.onWork f).pending = s.pending := rfl

@[simp] theorem State.onMortise_dev (f : Mortise → Mortise) : (s.onMortise f).dev = s.dev := rfl
@[simp] theorem State.onMortise_clock (f : Mortise → Mortise) : (s.onMortise f).clock = s.clock := rfl
@[simp] theorem State.onMortise_objs (f : Mortise → Mortise) : (s.onMortise f).objs = s.objs := rfl
@[simp] theorem State.onMortise_islands (f : Mortise → Mortise) : (s.onMortise f).islands = s.islands := rfl
@[simp] theorem State.onMortise_epochs (f : Mortise → Mortise) : (s.onMortise f).epochs = s.epochs := rfl
@[simp] theorem State.onMortise_seqs (f : Mortise → Mortise) : (s.onMortise f).seqs = s.seqs := rfl
@[simp] theorem State.onMortise_slotGens (f : Mortise → Mortise) : (s.onMortise f).slotGens = s.slotGens := rfl
@[simp] theorem State.onMortise_hbm (f : Mortise → Mortise) : (s.onMortise f).hbm = s.hbm := rfl
@[simp] theorem State.onMortise_caches (f : Mortise → Mortise) : (s.onMortise f).caches = s.caches := rfl
@[simp] theorem State.onMortise_work (f : Mortise → Mortise) : (s.onMortise f).work = s.work := rfl
@[simp] theorem State.onMortise_mortise (f : Mortise → Mortise) : (s.onMortise f).mortise = f s.mortise := rfl
@[simp] theorem State.onMortise_packers (f : Mortise → Mortise) : (s.onMortise f).packers = s.packers := rfl
@[simp] theorem State.onMortise_flash (f : Mortise → Mortise) : (s.onMortise f).flash = s.flash := rfl
@[simp] theorem State.onMortise_broker (f : Mortise → Mortise) : (s.onMortise f).broker = s.broker := rfl
@[simp] theorem State.onMortise_net (f : Mortise → Mortise) : (s.onMortise f).net = s.net := rfl
@[simp] theorem State.onMortise_sec (f : Mortise → Mortise) : (s.onMortise f).sec = s.sec := rfl
@[simp] theorem State.onMortise_mgmt (f : Mortise → Mortise) : (s.onMortise f).mgmt = s.mgmt := rfl
@[simp] theorem State.onMortise_faults (f : Mortise → Mortise) : (s.onMortise f).faults = s.faults := rfl
@[simp] theorem State.onMortise_mailboxes (f : Mortise → Mortise) : (s.onMortise f).mailboxes = s.mailboxes := rfl
@[simp] theorem State.onMortise_power (f : Mortise → Mortise) : (s.onMortise f).power = s.power := rfl
@[simp] theorem State.onMortise_fw (f : Mortise → Mortise) : (s.onMortise f).fw = s.fw := rfl
@[simp] theorem State.onMortise_meters (f : Mortise → Mortise) : (s.onMortise f).meters = s.meters := rfl
@[simp] theorem State.onMortise_pending (f : Mortise → Mortise) : (s.onMortise f).pending = s.pending := rfl

@[simp] theorem State.onPackers_dev (f : List Packer → List Packer) : (s.onPackers f).dev = s.dev := rfl
@[simp] theorem State.onPackers_clock (f : List Packer → List Packer) : (s.onPackers f).clock = s.clock := rfl
@[simp] theorem State.onPackers_objs (f : List Packer → List Packer) : (s.onPackers f).objs = s.objs := rfl
@[simp] theorem State.onPackers_islands (f : List Packer → List Packer) : (s.onPackers f).islands = s.islands := rfl
@[simp] theorem State.onPackers_epochs (f : List Packer → List Packer) : (s.onPackers f).epochs = s.epochs := rfl
@[simp] theorem State.onPackers_seqs (f : List Packer → List Packer) : (s.onPackers f).seqs = s.seqs := rfl
@[simp] theorem State.onPackers_slotGens (f : List Packer → List Packer) : (s.onPackers f).slotGens = s.slotGens := rfl
@[simp] theorem State.onPackers_hbm (f : List Packer → List Packer) : (s.onPackers f).hbm = s.hbm := rfl
@[simp] theorem State.onPackers_caches (f : List Packer → List Packer) : (s.onPackers f).caches = s.caches := rfl
@[simp] theorem State.onPackers_work (f : List Packer → List Packer) : (s.onPackers f).work = s.work := rfl
@[simp] theorem State.onPackers_mortise (f : List Packer → List Packer) : (s.onPackers f).mortise = s.mortise := rfl
@[simp] theorem State.onPackers_packers (f : List Packer → List Packer) : (s.onPackers f).packers = f s.packers := rfl
@[simp] theorem State.onPackers_flash (f : List Packer → List Packer) : (s.onPackers f).flash = s.flash := rfl
@[simp] theorem State.onPackers_broker (f : List Packer → List Packer) : (s.onPackers f).broker = s.broker := rfl
@[simp] theorem State.onPackers_net (f : List Packer → List Packer) : (s.onPackers f).net = s.net := rfl
@[simp] theorem State.onPackers_sec (f : List Packer → List Packer) : (s.onPackers f).sec = s.sec := rfl
@[simp] theorem State.onPackers_mgmt (f : List Packer → List Packer) : (s.onPackers f).mgmt = s.mgmt := rfl
@[simp] theorem State.onPackers_faults (f : List Packer → List Packer) : (s.onPackers f).faults = s.faults := rfl
@[simp] theorem State.onPackers_mailboxes (f : List Packer → List Packer) : (s.onPackers f).mailboxes = s.mailboxes := rfl
@[simp] theorem State.onPackers_power (f : List Packer → List Packer) : (s.onPackers f).power = s.power := rfl
@[simp] theorem State.onPackers_fw (f : List Packer → List Packer) : (s.onPackers f).fw = s.fw := rfl
@[simp] theorem State.onPackers_meters (f : List Packer → List Packer) : (s.onPackers f).meters = s.meters := rfl
@[simp] theorem State.onPackers_pending (f : List Packer → List Packer) : (s.onPackers f).pending = s.pending := rfl

@[simp] theorem State.onFlash_dev (f : Flash → Flash) : (s.onFlash f).dev = s.dev := rfl
@[simp] theorem State.onFlash_clock (f : Flash → Flash) : (s.onFlash f).clock = s.clock := rfl
@[simp] theorem State.onFlash_objs (f : Flash → Flash) : (s.onFlash f).objs = s.objs := rfl
@[simp] theorem State.onFlash_islands (f : Flash → Flash) : (s.onFlash f).islands = s.islands := rfl
@[simp] theorem State.onFlash_epochs (f : Flash → Flash) : (s.onFlash f).epochs = s.epochs := rfl
@[simp] theorem State.onFlash_seqs (f : Flash → Flash) : (s.onFlash f).seqs = s.seqs := rfl
@[simp] theorem State.onFlash_slotGens (f : Flash → Flash) : (s.onFlash f).slotGens = s.slotGens := rfl
@[simp] theorem State.onFlash_hbm (f : Flash → Flash) : (s.onFlash f).hbm = s.hbm := rfl
@[simp] theorem State.onFlash_caches (f : Flash → Flash) : (s.onFlash f).caches = s.caches := rfl
@[simp] theorem State.onFlash_work (f : Flash → Flash) : (s.onFlash f).work = s.work := rfl
@[simp] theorem State.onFlash_mortise (f : Flash → Flash) : (s.onFlash f).mortise = s.mortise := rfl
@[simp] theorem State.onFlash_packers (f : Flash → Flash) : (s.onFlash f).packers = s.packers := rfl
@[simp] theorem State.onFlash_flash (f : Flash → Flash) : (s.onFlash f).flash = f s.flash := rfl
@[simp] theorem State.onFlash_broker (f : Flash → Flash) : (s.onFlash f).broker = s.broker := rfl
@[simp] theorem State.onFlash_net (f : Flash → Flash) : (s.onFlash f).net = s.net := rfl
@[simp] theorem State.onFlash_sec (f : Flash → Flash) : (s.onFlash f).sec = s.sec := rfl
@[simp] theorem State.onFlash_mgmt (f : Flash → Flash) : (s.onFlash f).mgmt = s.mgmt := rfl
@[simp] theorem State.onFlash_faults (f : Flash → Flash) : (s.onFlash f).faults = s.faults := rfl
@[simp] theorem State.onFlash_mailboxes (f : Flash → Flash) : (s.onFlash f).mailboxes = s.mailboxes := rfl
@[simp] theorem State.onFlash_power (f : Flash → Flash) : (s.onFlash f).power = s.power := rfl
@[simp] theorem State.onFlash_fw (f : Flash → Flash) : (s.onFlash f).fw = s.fw := rfl
@[simp] theorem State.onFlash_meters (f : Flash → Flash) : (s.onFlash f).meters = s.meters := rfl
@[simp] theorem State.onFlash_pending (f : Flash → Flash) : (s.onFlash f).pending = s.pending := rfl

@[simp] theorem State.onBroker_dev (f : Broker → Broker) : (s.onBroker f).dev = s.dev := rfl
@[simp] theorem State.onBroker_clock (f : Broker → Broker) : (s.onBroker f).clock = s.clock := rfl
@[simp] theorem State.onBroker_objs (f : Broker → Broker) : (s.onBroker f).objs = s.objs := rfl
@[simp] theorem State.onBroker_islands (f : Broker → Broker) : (s.onBroker f).islands = s.islands := rfl
@[simp] theorem State.onBroker_epochs (f : Broker → Broker) : (s.onBroker f).epochs = s.epochs := rfl
@[simp] theorem State.onBroker_seqs (f : Broker → Broker) : (s.onBroker f).seqs = s.seqs := rfl
@[simp] theorem State.onBroker_slotGens (f : Broker → Broker) : (s.onBroker f).slotGens = s.slotGens := rfl
@[simp] theorem State.onBroker_hbm (f : Broker → Broker) : (s.onBroker f).hbm = s.hbm := rfl
@[simp] theorem State.onBroker_caches (f : Broker → Broker) : (s.onBroker f).caches = s.caches := rfl
@[simp] theorem State.onBroker_work (f : Broker → Broker) : (s.onBroker f).work = s.work := rfl
@[simp] theorem State.onBroker_mortise (f : Broker → Broker) : (s.onBroker f).mortise = s.mortise := rfl
@[simp] theorem State.onBroker_packers (f : Broker → Broker) : (s.onBroker f).packers = s.packers := rfl
@[simp] theorem State.onBroker_flash (f : Broker → Broker) : (s.onBroker f).flash = s.flash := rfl
@[simp] theorem State.onBroker_broker (f : Broker → Broker) : (s.onBroker f).broker = f s.broker := rfl
@[simp] theorem State.onBroker_net (f : Broker → Broker) : (s.onBroker f).net = s.net := rfl
@[simp] theorem State.onBroker_sec (f : Broker → Broker) : (s.onBroker f).sec = s.sec := rfl
@[simp] theorem State.onBroker_mgmt (f : Broker → Broker) : (s.onBroker f).mgmt = s.mgmt := rfl
@[simp] theorem State.onBroker_faults (f : Broker → Broker) : (s.onBroker f).faults = s.faults := rfl
@[simp] theorem State.onBroker_mailboxes (f : Broker → Broker) : (s.onBroker f).mailboxes = s.mailboxes := rfl
@[simp] theorem State.onBroker_power (f : Broker → Broker) : (s.onBroker f).power = s.power := rfl
@[simp] theorem State.onBroker_fw (f : Broker → Broker) : (s.onBroker f).fw = s.fw := rfl
@[simp] theorem State.onBroker_meters (f : Broker → Broker) : (s.onBroker f).meters = s.meters := rfl
@[simp] theorem State.onBroker_pending (f : Broker → Broker) : (s.onBroker f).pending = s.pending := rfl

@[simp] theorem State.onNet_dev (f : Net → Net) : (s.onNet f).dev = s.dev := rfl
@[simp] theorem State.onNet_clock (f : Net → Net) : (s.onNet f).clock = s.clock := rfl
@[simp] theorem State.onNet_objs (f : Net → Net) : (s.onNet f).objs = s.objs := rfl
@[simp] theorem State.onNet_islands (f : Net → Net) : (s.onNet f).islands = s.islands := rfl
@[simp] theorem State.onNet_epochs (f : Net → Net) : (s.onNet f).epochs = s.epochs := rfl
@[simp] theorem State.onNet_seqs (f : Net → Net) : (s.onNet f).seqs = s.seqs := rfl
@[simp] theorem State.onNet_slotGens (f : Net → Net) : (s.onNet f).slotGens = s.slotGens := rfl
@[simp] theorem State.onNet_hbm (f : Net → Net) : (s.onNet f).hbm = s.hbm := rfl
@[simp] theorem State.onNet_caches (f : Net → Net) : (s.onNet f).caches = s.caches := rfl
@[simp] theorem State.onNet_work (f : Net → Net) : (s.onNet f).work = s.work := rfl
@[simp] theorem State.onNet_mortise (f : Net → Net) : (s.onNet f).mortise = s.mortise := rfl
@[simp] theorem State.onNet_packers (f : Net → Net) : (s.onNet f).packers = s.packers := rfl
@[simp] theorem State.onNet_flash (f : Net → Net) : (s.onNet f).flash = s.flash := rfl
@[simp] theorem State.onNet_broker (f : Net → Net) : (s.onNet f).broker = s.broker := rfl
@[simp] theorem State.onNet_net (f : Net → Net) : (s.onNet f).net = f s.net := rfl
@[simp] theorem State.onNet_sec (f : Net → Net) : (s.onNet f).sec = s.sec := rfl
@[simp] theorem State.onNet_mgmt (f : Net → Net) : (s.onNet f).mgmt = s.mgmt := rfl
@[simp] theorem State.onNet_faults (f : Net → Net) : (s.onNet f).faults = s.faults := rfl
@[simp] theorem State.onNet_mailboxes (f : Net → Net) : (s.onNet f).mailboxes = s.mailboxes := rfl
@[simp] theorem State.onNet_power (f : Net → Net) : (s.onNet f).power = s.power := rfl
@[simp] theorem State.onNet_fw (f : Net → Net) : (s.onNet f).fw = s.fw := rfl
@[simp] theorem State.onNet_meters (f : Net → Net) : (s.onNet f).meters = s.meters := rfl
@[simp] theorem State.onNet_pending (f : Net → Net) : (s.onNet f).pending = s.pending := rfl

@[simp] theorem State.onSec_dev (f : Sec → Sec) : (s.onSec f).dev = s.dev := rfl
@[simp] theorem State.onSec_clock (f : Sec → Sec) : (s.onSec f).clock = s.clock := rfl
@[simp] theorem State.onSec_objs (f : Sec → Sec) : (s.onSec f).objs = s.objs := rfl
@[simp] theorem State.onSec_islands (f : Sec → Sec) : (s.onSec f).islands = s.islands := rfl
@[simp] theorem State.onSec_epochs (f : Sec → Sec) : (s.onSec f).epochs = s.epochs := rfl
@[simp] theorem State.onSec_seqs (f : Sec → Sec) : (s.onSec f).seqs = s.seqs := rfl
@[simp] theorem State.onSec_slotGens (f : Sec → Sec) : (s.onSec f).slotGens = s.slotGens := rfl
@[simp] theorem State.onSec_hbm (f : Sec → Sec) : (s.onSec f).hbm = s.hbm := rfl
@[simp] theorem State.onSec_caches (f : Sec → Sec) : (s.onSec f).caches = s.caches := rfl
@[simp] theorem State.onSec_work (f : Sec → Sec) : (s.onSec f).work = s.work := rfl
@[simp] theorem State.onSec_mortise (f : Sec → Sec) : (s.onSec f).mortise = s.mortise := rfl
@[simp] theorem State.onSec_packers (f : Sec → Sec) : (s.onSec f).packers = s.packers := rfl
@[simp] theorem State.onSec_flash (f : Sec → Sec) : (s.onSec f).flash = s.flash := rfl
@[simp] theorem State.onSec_broker (f : Sec → Sec) : (s.onSec f).broker = s.broker := rfl
@[simp] theorem State.onSec_net (f : Sec → Sec) : (s.onSec f).net = s.net := rfl
@[simp] theorem State.onSec_sec (f : Sec → Sec) : (s.onSec f).sec = f s.sec := rfl
@[simp] theorem State.onSec_mgmt (f : Sec → Sec) : (s.onSec f).mgmt = s.mgmt := rfl
@[simp] theorem State.onSec_faults (f : Sec → Sec) : (s.onSec f).faults = s.faults := rfl
@[simp] theorem State.onSec_mailboxes (f : Sec → Sec) : (s.onSec f).mailboxes = s.mailboxes := rfl
@[simp] theorem State.onSec_power (f : Sec → Sec) : (s.onSec f).power = s.power := rfl
@[simp] theorem State.onSec_fw (f : Sec → Sec) : (s.onSec f).fw = s.fw := rfl
@[simp] theorem State.onSec_meters (f : Sec → Sec) : (s.onSec f).meters = s.meters := rfl
@[simp] theorem State.onSec_pending (f : Sec → Sec) : (s.onSec f).pending = s.pending := rfl

@[simp] theorem State.onMgmt_dev (f : MgmtPort → MgmtPort) : (s.onMgmt f).dev = s.dev := rfl
@[simp] theorem State.onMgmt_clock (f : MgmtPort → MgmtPort) : (s.onMgmt f).clock = s.clock := rfl
@[simp] theorem State.onMgmt_objs (f : MgmtPort → MgmtPort) : (s.onMgmt f).objs = s.objs := rfl
@[simp] theorem State.onMgmt_islands (f : MgmtPort → MgmtPort) : (s.onMgmt f).islands = s.islands := rfl
@[simp] theorem State.onMgmt_epochs (f : MgmtPort → MgmtPort) : (s.onMgmt f).epochs = s.epochs := rfl
@[simp] theorem State.onMgmt_seqs (f : MgmtPort → MgmtPort) : (s.onMgmt f).seqs = s.seqs := rfl
@[simp] theorem State.onMgmt_slotGens (f : MgmtPort → MgmtPort) : (s.onMgmt f).slotGens = s.slotGens := rfl
@[simp] theorem State.onMgmt_hbm (f : MgmtPort → MgmtPort) : (s.onMgmt f).hbm = s.hbm := rfl
@[simp] theorem State.onMgmt_caches (f : MgmtPort → MgmtPort) : (s.onMgmt f).caches = s.caches := rfl
@[simp] theorem State.onMgmt_work (f : MgmtPort → MgmtPort) : (s.onMgmt f).work = s.work := rfl
@[simp] theorem State.onMgmt_mortise (f : MgmtPort → MgmtPort) : (s.onMgmt f).mortise = s.mortise := rfl
@[simp] theorem State.onMgmt_packers (f : MgmtPort → MgmtPort) : (s.onMgmt f).packers = s.packers := rfl
@[simp] theorem State.onMgmt_flash (f : MgmtPort → MgmtPort) : (s.onMgmt f).flash = s.flash := rfl
@[simp] theorem State.onMgmt_broker (f : MgmtPort → MgmtPort) : (s.onMgmt f).broker = s.broker := rfl
@[simp] theorem State.onMgmt_net (f : MgmtPort → MgmtPort) : (s.onMgmt f).net = s.net := rfl
@[simp] theorem State.onMgmt_sec (f : MgmtPort → MgmtPort) : (s.onMgmt f).sec = s.sec := rfl
@[simp] theorem State.onMgmt_mgmt (f : MgmtPort → MgmtPort) : (s.onMgmt f).mgmt = f s.mgmt := rfl
@[simp] theorem State.onMgmt_faults (f : MgmtPort → MgmtPort) : (s.onMgmt f).faults = s.faults := rfl
@[simp] theorem State.onMgmt_mailboxes (f : MgmtPort → MgmtPort) : (s.onMgmt f).mailboxes = s.mailboxes := rfl
@[simp] theorem State.onMgmt_power (f : MgmtPort → MgmtPort) : (s.onMgmt f).power = s.power := rfl
@[simp] theorem State.onMgmt_fw (f : MgmtPort → MgmtPort) : (s.onMgmt f).fw = s.fw := rfl
@[simp] theorem State.onMgmt_meters (f : MgmtPort → MgmtPort) : (s.onMgmt f).meters = s.meters := rfl
@[simp] theorem State.onMgmt_pending (f : MgmtPort → MgmtPort) : (s.onMgmt f).pending = s.pending := rfl

@[simp] theorem State.onFaults_dev (f : Faults → Faults) : (s.onFaults f).dev = s.dev := rfl
@[simp] theorem State.onFaults_clock (f : Faults → Faults) : (s.onFaults f).clock = s.clock := rfl
@[simp] theorem State.onFaults_objs (f : Faults → Faults) : (s.onFaults f).objs = s.objs := rfl
@[simp] theorem State.onFaults_islands (f : Faults → Faults) : (s.onFaults f).islands = s.islands := rfl
@[simp] theorem State.onFaults_epochs (f : Faults → Faults) : (s.onFaults f).epochs = s.epochs := rfl
@[simp] theorem State.onFaults_seqs (f : Faults → Faults) : (s.onFaults f).seqs = s.seqs := rfl
@[simp] theorem State.onFaults_slotGens (f : Faults → Faults) : (s.onFaults f).slotGens = s.slotGens := rfl
@[simp] theorem State.onFaults_hbm (f : Faults → Faults) : (s.onFaults f).hbm = s.hbm := rfl
@[simp] theorem State.onFaults_caches (f : Faults → Faults) : (s.onFaults f).caches = s.caches := rfl
@[simp] theorem State.onFaults_work (f : Faults → Faults) : (s.onFaults f).work = s.work := rfl
@[simp] theorem State.onFaults_mortise (f : Faults → Faults) : (s.onFaults f).mortise = s.mortise := rfl
@[simp] theorem State.onFaults_packers (f : Faults → Faults) : (s.onFaults f).packers = s.packers := rfl
@[simp] theorem State.onFaults_flash (f : Faults → Faults) : (s.onFaults f).flash = s.flash := rfl
@[simp] theorem State.onFaults_broker (f : Faults → Faults) : (s.onFaults f).broker = s.broker := rfl
@[simp] theorem State.onFaults_net (f : Faults → Faults) : (s.onFaults f).net = s.net := rfl
@[simp] theorem State.onFaults_sec (f : Faults → Faults) : (s.onFaults f).sec = s.sec := rfl
@[simp] theorem State.onFaults_mgmt (f : Faults → Faults) : (s.onFaults f).mgmt = s.mgmt := rfl
@[simp] theorem State.onFaults_faults (f : Faults → Faults) : (s.onFaults f).faults = f s.faults := rfl
@[simp] theorem State.onFaults_mailboxes (f : Faults → Faults) : (s.onFaults f).mailboxes = s.mailboxes := rfl
@[simp] theorem State.onFaults_power (f : Faults → Faults) : (s.onFaults f).power = s.power := rfl
@[simp] theorem State.onFaults_fw (f : Faults → Faults) : (s.onFaults f).fw = s.fw := rfl
@[simp] theorem State.onFaults_meters (f : Faults → Faults) : (s.onFaults f).meters = s.meters := rfl
@[simp] theorem State.onFaults_pending (f : Faults → Faults) : (s.onFaults f).pending = s.pending := rfl

@[simp] theorem State.onMailboxes_dev (f : List Mailbox → List Mailbox) : (s.onMailboxes f).dev = s.dev := rfl
@[simp] theorem State.onMailboxes_clock (f : List Mailbox → List Mailbox) : (s.onMailboxes f).clock = s.clock := rfl
@[simp] theorem State.onMailboxes_objs (f : List Mailbox → List Mailbox) : (s.onMailboxes f).objs = s.objs := rfl
@[simp] theorem State.onMailboxes_islands (f : List Mailbox → List Mailbox) : (s.onMailboxes f).islands = s.islands := rfl
@[simp] theorem State.onMailboxes_epochs (f : List Mailbox → List Mailbox) : (s.onMailboxes f).epochs = s.epochs := rfl
@[simp] theorem State.onMailboxes_seqs (f : List Mailbox → List Mailbox) : (s.onMailboxes f).seqs = s.seqs := rfl
@[simp] theorem State.onMailboxes_slotGens (f : List Mailbox → List Mailbox) : (s.onMailboxes f).slotGens = s.slotGens := rfl
@[simp] theorem State.onMailboxes_hbm (f : List Mailbox → List Mailbox) : (s.onMailboxes f).hbm = s.hbm := rfl
@[simp] theorem State.onMailboxes_caches (f : List Mailbox → List Mailbox) : (s.onMailboxes f).caches = s.caches := rfl
@[simp] theorem State.onMailboxes_work (f : List Mailbox → List Mailbox) : (s.onMailboxes f).work = s.work := rfl
@[simp] theorem State.onMailboxes_mortise (f : List Mailbox → List Mailbox) : (s.onMailboxes f).mortise = s.mortise := rfl
@[simp] theorem State.onMailboxes_packers (f : List Mailbox → List Mailbox) : (s.onMailboxes f).packers = s.packers := rfl
@[simp] theorem State.onMailboxes_flash (f : List Mailbox → List Mailbox) : (s.onMailboxes f).flash = s.flash := rfl
@[simp] theorem State.onMailboxes_broker (f : List Mailbox → List Mailbox) : (s.onMailboxes f).broker = s.broker := rfl
@[simp] theorem State.onMailboxes_net (f : List Mailbox → List Mailbox) : (s.onMailboxes f).net = s.net := rfl
@[simp] theorem State.onMailboxes_sec (f : List Mailbox → List Mailbox) : (s.onMailboxes f).sec = s.sec := rfl
@[simp] theorem State.onMailboxes_mgmt (f : List Mailbox → List Mailbox) : (s.onMailboxes f).mgmt = s.mgmt := rfl
@[simp] theorem State.onMailboxes_faults (f : List Mailbox → List Mailbox) : (s.onMailboxes f).faults = s.faults := rfl
@[simp] theorem State.onMailboxes_mailboxes (f : List Mailbox → List Mailbox) : (s.onMailboxes f).mailboxes = f s.mailboxes := rfl
@[simp] theorem State.onMailboxes_power (f : List Mailbox → List Mailbox) : (s.onMailboxes f).power = s.power := rfl
@[simp] theorem State.onMailboxes_fw (f : List Mailbox → List Mailbox) : (s.onMailboxes f).fw = s.fw := rfl
@[simp] theorem State.onMailboxes_meters (f : List Mailbox → List Mailbox) : (s.onMailboxes f).meters = s.meters := rfl
@[simp] theorem State.onMailboxes_pending (f : List Mailbox → List Mailbox) : (s.onMailboxes f).pending = s.pending := rfl

@[simp] theorem State.onPower_dev (f : Power → Power) : (s.onPower f).dev = s.dev := rfl
@[simp] theorem State.onPower_clock (f : Power → Power) : (s.onPower f).clock = s.clock := rfl
@[simp] theorem State.onPower_objs (f : Power → Power) : (s.onPower f).objs = s.objs := rfl
@[simp] theorem State.onPower_islands (f : Power → Power) : (s.onPower f).islands = s.islands := rfl
@[simp] theorem State.onPower_epochs (f : Power → Power) : (s.onPower f).epochs = s.epochs := rfl
@[simp] theorem State.onPower_seqs (f : Power → Power) : (s.onPower f).seqs = s.seqs := rfl
@[simp] theorem State.onPower_slotGens (f : Power → Power) : (s.onPower f).slotGens = s.slotGens := rfl
@[simp] theorem State.onPower_hbm (f : Power → Power) : (s.onPower f).hbm = s.hbm := rfl
@[simp] theorem State.onPower_caches (f : Power → Power) : (s.onPower f).caches = s.caches := rfl
@[simp] theorem State.onPower_work (f : Power → Power) : (s.onPower f).work = s.work := rfl
@[simp] theorem State.onPower_mortise (f : Power → Power) : (s.onPower f).mortise = s.mortise := rfl
@[simp] theorem State.onPower_packers (f : Power → Power) : (s.onPower f).packers = s.packers := rfl
@[simp] theorem State.onPower_flash (f : Power → Power) : (s.onPower f).flash = s.flash := rfl
@[simp] theorem State.onPower_broker (f : Power → Power) : (s.onPower f).broker = s.broker := rfl
@[simp] theorem State.onPower_net (f : Power → Power) : (s.onPower f).net = s.net := rfl
@[simp] theorem State.onPower_sec (f : Power → Power) : (s.onPower f).sec = s.sec := rfl
@[simp] theorem State.onPower_mgmt (f : Power → Power) : (s.onPower f).mgmt = s.mgmt := rfl
@[simp] theorem State.onPower_faults (f : Power → Power) : (s.onPower f).faults = s.faults := rfl
@[simp] theorem State.onPower_mailboxes (f : Power → Power) : (s.onPower f).mailboxes = s.mailboxes := rfl
@[simp] theorem State.onPower_power (f : Power → Power) : (s.onPower f).power = f s.power := rfl
@[simp] theorem State.onPower_fw (f : Power → Power) : (s.onPower f).fw = s.fw := rfl
@[simp] theorem State.onPower_meters (f : Power → Power) : (s.onPower f).meters = s.meters := rfl
@[simp] theorem State.onPower_pending (f : Power → Power) : (s.onPower f).pending = s.pending := rfl

@[simp] theorem State.onFw_dev (f : Firmware → Firmware) : (s.onFw f).dev = s.dev := rfl
@[simp] theorem State.onFw_clock (f : Firmware → Firmware) : (s.onFw f).clock = s.clock := rfl
@[simp] theorem State.onFw_objs (f : Firmware → Firmware) : (s.onFw f).objs = s.objs := rfl
@[simp] theorem State.onFw_islands (f : Firmware → Firmware) : (s.onFw f).islands = s.islands := rfl
@[simp] theorem State.onFw_epochs (f : Firmware → Firmware) : (s.onFw f).epochs = s.epochs := rfl
@[simp] theorem State.onFw_seqs (f : Firmware → Firmware) : (s.onFw f).seqs = s.seqs := rfl
@[simp] theorem State.onFw_slotGens (f : Firmware → Firmware) : (s.onFw f).slotGens = s.slotGens := rfl
@[simp] theorem State.onFw_hbm (f : Firmware → Firmware) : (s.onFw f).hbm = s.hbm := rfl
@[simp] theorem State.onFw_caches (f : Firmware → Firmware) : (s.onFw f).caches = s.caches := rfl
@[simp] theorem State.onFw_work (f : Firmware → Firmware) : (s.onFw f).work = s.work := rfl
@[simp] theorem State.onFw_mortise (f : Firmware → Firmware) : (s.onFw f).mortise = s.mortise := rfl
@[simp] theorem State.onFw_packers (f : Firmware → Firmware) : (s.onFw f).packers = s.packers := rfl
@[simp] theorem State.onFw_flash (f : Firmware → Firmware) : (s.onFw f).flash = s.flash := rfl
@[simp] theorem State.onFw_broker (f : Firmware → Firmware) : (s.onFw f).broker = s.broker := rfl
@[simp] theorem State.onFw_net (f : Firmware → Firmware) : (s.onFw f).net = s.net := rfl
@[simp] theorem State.onFw_sec (f : Firmware → Firmware) : (s.onFw f).sec = s.sec := rfl
@[simp] theorem State.onFw_mgmt (f : Firmware → Firmware) : (s.onFw f).mgmt = s.mgmt := rfl
@[simp] theorem State.onFw_faults (f : Firmware → Firmware) : (s.onFw f).faults = s.faults := rfl
@[simp] theorem State.onFw_mailboxes (f : Firmware → Firmware) : (s.onFw f).mailboxes = s.mailboxes := rfl
@[simp] theorem State.onFw_power (f : Firmware → Firmware) : (s.onFw f).power = s.power := rfl
@[simp] theorem State.onFw_fw (f : Firmware → Firmware) : (s.onFw f).fw = f s.fw := rfl
@[simp] theorem State.onFw_meters (f : Firmware → Firmware) : (s.onFw f).meters = s.meters := rfl
@[simp] theorem State.onFw_pending (f : Firmware → Firmware) : (s.onFw f).pending = s.pending := rfl

@[simp] theorem State.onMeters_dev (f : Meters → Meters) : (s.onMeters f).dev = s.dev := rfl
@[simp] theorem State.onMeters_clock (f : Meters → Meters) : (s.onMeters f).clock = s.clock := rfl
@[simp] theorem State.onMeters_objs (f : Meters → Meters) : (s.onMeters f).objs = s.objs := rfl
@[simp] theorem State.onMeters_islands (f : Meters → Meters) : (s.onMeters f).islands = s.islands := rfl
@[simp] theorem State.onMeters_epochs (f : Meters → Meters) : (s.onMeters f).epochs = s.epochs := rfl
@[simp] theorem State.onMeters_seqs (f : Meters → Meters) : (s.onMeters f).seqs = s.seqs := rfl
@[simp] theorem State.onMeters_slotGens (f : Meters → Meters) : (s.onMeters f).slotGens = s.slotGens := rfl
@[simp] theorem State.onMeters_hbm (f : Meters → Meters) : (s.onMeters f).hbm = s.hbm := rfl
@[simp] theorem State.onMeters_caches (f : Meters → Meters) : (s.onMeters f).caches = s.caches := rfl
@[simp] theorem State.onMeters_work (f : Meters → Meters) : (s.onMeters f).work = s.work := rfl
@[simp] theorem State.onMeters_mortise (f : Meters → Meters) : (s.onMeters f).mortise = s.mortise := rfl
@[simp] theorem State.onMeters_packers (f : Meters → Meters) : (s.onMeters f).packers = s.packers := rfl
@[simp] theorem State.onMeters_flash (f : Meters → Meters) : (s.onMeters f).flash = s.flash := rfl
@[simp] theorem State.onMeters_broker (f : Meters → Meters) : (s.onMeters f).broker = s.broker := rfl
@[simp] theorem State.onMeters_net (f : Meters → Meters) : (s.onMeters f).net = s.net := rfl
@[simp] theorem State.onMeters_sec (f : Meters → Meters) : (s.onMeters f).sec = s.sec := rfl
@[simp] theorem State.onMeters_mgmt (f : Meters → Meters) : (s.onMeters f).mgmt = s.mgmt := rfl
@[simp] theorem State.onMeters_faults (f : Meters → Meters) : (s.onMeters f).faults = s.faults := rfl
@[simp] theorem State.onMeters_mailboxes (f : Meters → Meters) : (s.onMeters f).mailboxes = s.mailboxes := rfl
@[simp] theorem State.onMeters_power (f : Meters → Meters) : (s.onMeters f).power = s.power := rfl
@[simp] theorem State.onMeters_fw (f : Meters → Meters) : (s.onMeters f).fw = s.fw := rfl
@[simp] theorem State.onMeters_meters (f : Meters → Meters) : (s.onMeters f).meters = f s.meters := rfl
@[simp] theorem State.onMeters_pending (f : Meters → Meters) : (s.onMeters f).pending = s.pending := rfl

end Sys2Proof.Machine
end

