-- ==== Sys2Proof/Laws/Ops.lean ====
section
/-!
SUPPORT. The laws of the shared operations: sparse tables, HBM's bytes, lookups after an update of one record, and what sending leaves unchanged.
-/
namespace Sys2Proof.Machine

/-! ### Sparse tables -/

theorem sget_sset (m : SMap) (k j v d : Nat) : sget (sset m k v) j d = if j = k then v else sget m j d := by
  induction m with
  | nil => simp only [sset, sget]; by_cases h : k = j <;> simp [h, eq_comm]
  | cons x r ih =>
    obtain ⟨a, w⟩ := x
    by_cases h1 : k < a
    · simp only [sset, h1, if_true, sget]; by_cases h : k = j <;> simp [h, eq_comm]
    · by_cases h2 : k = a
      · subst h2; simp only [sset, h1, if_true, if_false, sget]; by_cases h : k = j <;> simp [h, eq_comm]
      · simp only [sset, h1, h2, if_false, sget, ih]
        by_cases h : a = j
        · subst h; simp [h2, eq_comm]
        · simp [h]

@[simp] theorem sget_sset_self (m : SMap) (k v d : Nat) : sget (sset m k v) k d = v := by simp [sget_sset]

theorem sget_sadd (m : SMap) (k n j : Nat) : sget (sadd m k n) j 0 = if j = k then sget m k 0 + n else sget m j 0 := by simp [sadd, sget_sset]

/-! ### Rising lists -/

theorem mem_insNat (l : List Nat) (k x : Nat) : x ∈ insNat l k ↔ x = k ∨ x ∈ l := by
  induction l with
  | nil => simp [insNat]
  | cons a r ih =>
    unfold insNat
    split
    · simp
    · split
      · next h => subst h; simp
      · simp only [List.mem_cons, ih]; exact or_left_comm

theorem insNat_sorted (l : List Nat) (k : Nat) (h : l.Pairwise (· < ·)) : (insNat l k).Pairwise (· < ·) := by
  induction l with
  | nil => simp [insNat]
  | cons a r ih =>
    have hp := List.pairwise_cons.1 h
    unfold insNat
    split
    · next h1 =>
      refine List.pairwise_cons.2 ⟨fun x hx => ?_, h⟩
      rcases List.mem_cons.1 hx with e | e
      · omega
      · have := hp.1 x e; omega
    · split
      · exact h
      · refine List.pairwise_cons.2 ⟨fun x hx => ?_, ih hp.2⟩
        rcases (mem_insNat r k x).1 hx with e | e
        · omega
        · exact hp.1 x e

theorem foldl_insNat (l a : List Nat) (h : a.Pairwise (· < ·)) :
    (l.foldl insNat a).Pairwise (· < ·) ∧ ∀ x, x ∈ l.foldl insNat a ↔ x ∈ l ∨ x ∈ a := by
  induction l generalizing a with
  | nil => exact ⟨h, by simp⟩
  | cons b l ih =>
    obtain ⟨h1, h2⟩ := ih (insNat a b) (insNat_sorted a b h)
    exact ⟨h1, fun x => by rw [List.foldl_cons, h2, mem_insNat, List.mem_cons, or_assoc]; exact or_left_comm⟩

theorem sortNat_sorted (l : List Nat) : (sortNat l).Pairwise (· < ·) := (foldl_insNat l [] List.Pairwise.nil).1

theorem mem_sortNat (l : List Nat) (x : Nat) : x ∈ sortNat l ↔ x ∈ l := by simp [sortNat, (foldl_insNat l [] List.Pairwise.nil).2 x]

/-! ### Lookups after an update -/

theorem find_mapIf {α : Type} (key : α → Nat) (f : α → α) (hf : ∀ x, key (f x) = key x) (n k : Nat) (l : List α) :
    (mapIf (fun x => key x == n) f l).find? (fun x => key x == k) = (l.find? fun x => key x == k).map fun x => if k = n then f x else x := by
  induction l with
  | nil => rfl
  | cons a l ih =>
    have hg : key (if key a == n then f a else a) = key a := by split <;> simp [hf]
    simp only [mapIf, List.map_cons, List.find?_cons] at ih ⊢
    rw [hg]
    by_cases hp : key a = k
    · simp [hp]
    · rw [show (key a == k) = false from by simpa using hp]; exact ih

theorem find_mapIf_self {α : Type} (key : α → Nat) (f : α → α) (hf : ∀ x, key (f x) = key x) (n : Nat) (l : List α) :
    (mapIf (fun x => key x == n) f l).find? (fun x => key x == n) = (l.find? fun x => key x == n).map f := by
  rw [find_mapIf key f hf]; simp

theorem find_mapIf_other {α : Type} (key : α → Nat) (f : α → α) (hf : ∀ x, key (f x) = key x) (n k : Nat) (hk : k ≠ n) (l : List α) :
    (mapIf (fun x => key x == n) f l).find? (fun x => key x == k) = l.find? fun x => key x == k := by
  rw [find_mapIf key f hf]; simp [hk]

/-- A sequence after its own update, which keeps its handle. -/
theorem seq_onSeq (s : State) (h : Nat) (f : Seq → Seq) (hf : ∀ q, (f q).handle = q.handle) : (s.onSeq h f).seq h = (s.seq h).map f :=
  find_mapIf_self Seq.handle f hf h s.seqs

/-- Another sequence is left alone. -/
theorem seq_onSeq_other (s : State) (h k : Nat) (f : Seq → Seq) (hf : ∀ q, (f q).handle = q.handle) (hk : k ≠ h) : (s.onSeq h f).seq k = s.seq k :=
  find_mapIf_other Seq.handle f hf h k hk s.seqs

theorem node_onNode (s : State) (n : Nat) (f : Node → Node) (hf : ∀ x, (f x).num = x.num) : (s.onNode n f).node n = (s.node n).map f :=
  find_mapIf_self Node.num f hf n s.broker.nodes

theorem node_onNode_other (s : State) (n k : Nat) (f : Node → Node) (hf : ∀ x, (f x).num = x.num) (hk : k ≠ n) : (s.onNode n f).node k = s.node k :=
  find_mapIf_other Node.num f hf n k hk s.broker.nodes

theorem qp_onQp (s : State) (n : Nat) (f : Qp → Qp) (hf : ∀ x, (f x).num = x.num) : (s.onQp n f).qp n = (s.qp n).map f :=
  find_mapIf_self Qp.num f hf n s.net.qps

theorem qp_onQp_other (s : State) (n k : Nat) (f : Qp → Qp) (hf : ∀ x, (f x).num = x.num) (hk : k ≠ n) : (s.onQp n f).qp k = s.qp k :=
  find_mapIf_other Qp.num f hf n k hk s.net.qps

/-! ### What sending leaves unchanged: everything but the network and the device's own counters -/

/-- Two states that agree on every component but `dev` and `net`. -/
structure SentFrom (s t : State) : Prop where
  clock : t.clock = s.clock
  objs : t.objs = s.objs
  islands : t.islands = s.islands
  epochs : t.epochs = s.epochs
  seqs : t.seqs = s.seqs
  hbm : t.hbm = s.hbm
  work : t.work = s.work
  mortise : t.mortise = s.mortise
  flash : t.flash = s.flash
  broker : t.broker = s.broker
  sec : t.sec = s.sec
  mgmt : t.mgmt = s.mgmt
  faults : t.faults = s.faults
  power : t.power = s.power
  fw : t.fw = s.fw
  meters : t.meters = s.meters

theorem post_sent (s : State) (q : Qp) (svc cls tenant : Nat) (w : Wire) : SentFrom s (s.post q svc cls tenant w) :=
  ⟨rfl, rfl, rfl, rfl, rfl, rfl, rfl, rfl, rfl, rfl, rfl, rfl, rfl, rfl, rfl, rfl⟩

theorem sendMsg_sent (s : State) (q : Qp) (relay : Nat) (m : Msg) : SentFrom s (s.sendMsg q relay m) := by
  unfold State.sendMsg
  split
  · exact post_sent s q _ _ _ _
  · exact ⟨rfl, rfl, rfl, rfl, rfl, rfl, rfl, rfl, rfl, rfl, rfl, rfl, rfl, rfl, rfl, rfl⟩

theorem complete_sent (s : State) (r : Req) (st : Status) (words : List W64) (data : List Byte) : SentFrom s (s.complete r st words data) := by
  unfold State.complete State.completeAs
  split
  · exact ⟨rfl, rfl, rfl, rfl, rfl, rfl, rfl, rfl, rfl, rfl, rfl, rfl, rfl, rfl, rfl, rfl⟩
  · exact sendMsg_sent s _ _ _

theorem answer_sent (s : State) (r : Req) (st : Status) : SentFrom s (s.answer r st) := complete_sent s r st [] []

theorem meter_seqs (s : State) (p t f n : Nat) : (s.meter p t f n).seqs = s.seqs := by unfold State.meter; split <;> rfl

theorem bump_seqs (s : State) (ix sub item n : Nat) : (s.bump ix sub item n).seqs = s.seqs := rfl

theorem counter_bump (s : State) (ix sub item n j : Nat) :
    sget (s.bump ix sub item n).objs.counters j 0 = if j = okey ix sub item then s.counter ix sub item + n else sget s.objs.counters j 0 := by
  simp [State.bump, State.counter, sget_sadd]

theorem seq_of_seqs {s t : State} (h : t.seqs = s.seqs) (k : Nat) : t.seq k = s.seq k := by rw [State.seq, h]; rfl

end Sys2Proof.Machine
end

