-- ==== Sys2Proof/Laws/Rows.lean ====
section
/-!
SUPPORT. The rows of the dictionary's objects that the obligations on management commands name, each looked up once.
-/
set_option Elab.async false

namespace Sys2Proof.Machine

/-- An index with a row is listed. -/
theorem objIndex_of_row {ix sub : Nat} {r : ObjRow} (h : objRow ix sub = some r) : objIndex ix = true := by
  have h1 := List.mem_of_find?_eq_some h
  have h2 := List.find?_some h
  simp only [Bool.and_eq_true] at h2
  simp only [objIndex, List.any_eq_true]
  exact ⟨r, h1, by simp only [Bool.and_eq_true]; exact h2.1.1⟩


theorem row_1100_1 : objRow 0x1100 1 = some ⟨0x1100, 1, 0x01, 1, 7, 1, .wo, 0, 0, 1, [], "Commit"⟩ := by decide +kernel
theorem row_1100_2 : objRow 0x1100 2 = some ⟨0x1100, 1, 0x02, 1, 7, 1, .wo, 0, 0, 1, [], "Discard shadow"⟩ := by decide +kernel
theorem row_1100_4 : objRow 0x1100 4 = some ⟨0x1100, 1, 0x04, 1, 1, 1, .rw, 255, 0, 7, [255], "Shadow reservation"⟩ := by decide +kernel
theorem row_1010_1 : objRow 0x1010 1 = some ⟨0x1010, 1, 0x01, 1, 4, 8, .rw, 0, 0, 18446744073709551615, [], "Time of day"⟩ := by decide +kernel
theorem row_1200_d : objRow 0x1200 13 = some ⟨0x1200, 1, 0x0D, 1, 7, 1, .wo, 0, 0, 1, [], "Apply configuration"⟩ := by decide +kernel
theorem row_1210_4 : objRow 0x1210 4 = some ⟨0x1210, 1, 0x04, 1, 7, 1, .rw, 0, 0, 1, [], "Enabled"⟩ := by decide +kernel
theorem row_1202_1 : objRow 0x1202 1 = some ⟨0x1202, 1, 0x01, 1, 7, 1, .rw, 0, 0, 1, [], "Service role enable"⟩ := by decide +kernel
theorem row_2102_1 : objRow 0x2102 1 = some ⟨0x2102, 1, 0x01, 1, 4, 8, .rw, 0, 0, 18446744073709551615, [], "Sequence window: handle selector"⟩ := by decide +kernel
theorem row_8010_2 : objRow 0x8010 2 = some ⟨0x8010, 1, 0x02, 1, 2, 2, .rw, 0, 0, 65535, [], "Tenant selector"⟩ := by decide +kernel
theorem row_1211_8 : objRow 0x1211 8 = some ⟨0x1211, 1, 0x08, 1, 7, 1, .wo, 0, 0, 1, [], "Close"⟩ := by decide +kernel
theorem row_7812_3 : objRow 0x7812 3 = some ⟨0x7812, 1, 0x03, 1, 7, 1, .rw, 0, 0, 1, [], "Hold off"⟩ := by decide +kernel
theorem row_5001_4 : objRow 0x5001 4 = some ⟨0x5001, 1, 0x04, 1, 7, 1, .wo, 0, 0, 1, [], "Link reset"⟩ := by decide +kernel
theorem row_7100_2 : objRow 0x7100 2 = some ⟨0x7100, 1, 0x02, 1, 7, 1, .wo, 0, 0, 1, [], "Fence"⟩ := by decide +kernel
theorem row_7100_3 : objRow 0x7100 3 = some ⟨0x7100, 1, 0x03, 1, 7, 1, .wo, 0, 0, 1, [], "Return"⟩ := by decide +kernel
theorem row_7010_5 : objRow 0x7010 5 = some ⟨0x7010, 1, 0x05, 1, 7, 1, .wo, 0, 0, 1, [], "Clear first error"⟩ := by decide +kernel
theorem row_7820_1 : objRow 0x7820 1 = some ⟨0x7820, 1, 0x01, 1, 3, 4, .wo, 0, 0, 4294967295, [], "Reset request"⟩ := by decide +kernel
theorem row_7820_4 : objRow 0x7820 4 = some ⟨0x7820, 1, 0x04, 1, 7, 1, .wo, 0, 0, 1, [], "Orderly shutdown"⟩ := by decide +kernel
theorem row_7840_4 : objRow 0x7840 4 = some ⟨0x7840, 1, 0x04, 1, 9, 67108864, .wo, 0, 0, 0, [], "Image segment"⟩ := by decide +kernel
theorem row_7840_5 : objRow 0x7840 5 = some ⟨0x7840, 1, 0x05, 1, 7, 1, .wo, 0, 0, 1, [], "Verify"⟩ := by decide +kernel
theorem row_7840_6 : objRow 0x7840 6 = some ⟨0x7840, 1, 0x06, 1, 7, 1, .wo, 0, 0, 1, [], "Switch"⟩ := by decide +kernel
theorem row_4007_3 : objRow 0x4007 3 = some ⟨0x4007, 1, 0x03, 1, 7, 1, .wo, 0, 0, 1, [], "Migration: start"⟩ := by decide +kernel
theorem row_2401_1 : objRow 0x2401 1 = some ⟨0x2401, 1, 0x01, 1, 1, 1, .rw, 2, 0, 2, [], "Bank mode requested"⟩ := by decide +kernel
theorem row_6040_6 : objRow 0x6040 6 = some ⟨0x6040, 1, 0x06, 1, 7, 1, .wo, 0, 0, 1, [], "Start pairing"⟩ := by decide +kernel
theorem row_7803_4 : objRow 0x7803 4 = some ⟨0x7803, 1, 0x04, 1, 9, 224, .wo, 0, 0, 0, [], "Body"⟩ := by decide +kernel
theorem row_6041_3 : objRow 0x6041 3 = some ⟨0x6041, 1, 0x03, 1, 9, 4720, .ro, 0, 0, 0, [], "Operator report"⟩ := by decide +kernel
theorem row_7802_4 : objRow 0x7802 4 = some ⟨0x7802, 1, 0x04, 1, 9, 256, .ro, 0, 0, 0, [], "Message"⟩ := by decide +kernel

end Sys2Proof.Machine
end

