-- ==== Sys2Proof/Laws/Requests.lean ====
section
/-!
SUPPORT. One lemma per way in: what a message, a completion, an event, a flash event or a management request comes to when the conditions of Safety.lean hold.
-/
namespace Sys2Proof.Machine

/-- An accepted message runs its opcode, and then ends (R246, R384). -/
theorem receive_ok {s u : State} {q : Qp} {m : Rx} {op : Nat} {ep : EpochUse} {ref : Nat} (h : s.Accepts q m op ep ref u) (quiet : Bool)
    (run : State → State) : (s.receive m op ep ref quiet run).settle = (run u).ended q m := by
  cases h.meets
  have e : s.receive m op ep ref quiet run = (s.arrived q m).vet q m op ep ref quiet run := by
    simp only [State.receive, h.serving, h.pair, h.connected, Bool.not_true, if_false, Bool.false_eq_true]
  rw [e]; unfold State.vet; rw [h.header]; simp only [h.conforms, if_true]
  rfl

/-- A request that R45 and R249 let in runs at once. -/
theorem request_ok {s u : State} {q : Qp} {m : Rx} {op : Nat} {ref : Nat} {x : Seq} {i : Instr} (l : s.LetsIn i q m op ref x u) (run : State → State) :
    s.request m op ref i run = (run u).ended q m := by
  rw [State.request, receive_ok l.accepts]
  obtain ⟨y, h1, h2⟩ := l.first
  simp only [State.enter, l.known, h1]
  simp only [Option.isSome_none, Bool.false_eq_true, if_false]
  split at h2
  · next h => rw [if_pos h, h2]
  · next h =>
    obtain ⟨h3, h4, rfl⟩ := h2
    rw [if_neg h]
    simp only [State.inEpoch, h3]
    simp
    split <;> simp_all

/-- An event of a device that serves runs, and what goes on by itself goes on. -/
theorem event_ok {s : State} (h : s.serving = true) (run : State → State) : s.event run = .next (run s).settle := by simp [State.event, h]

/-- A completion that answers a request of the device takes the request with it (R247). -/
theorem reply_ok {s u : State} {q : Qp} {r : Reply} {mine : AskKind → Bool} {a : Ask} (h : s.Answers q r mine a u) (run : Ask → State → State) :
    s.reply r mine run = (run a u).settle := by
  cases h.begins
  rw [State.reply, h.pair]; simp only [h.serving, h.connected, Bool.not_true, Bool.or_self, Bool.false_eq_true, if_false, h.asked]

/-- An event of an enabled flash island runs on it. -/
theorem flash_ok {s : State} {num i : Nat} (h : s.FlashUp num i) (run : Nat → State → State) : s.flashEvent num run = .next (run i s).settle := by
  obtain ⟨f, hf, hd⟩ := h.enabled
  rw [State.flashEvent, event_ok h.serving]
  rw [if_pos]; rw [h.index]
  rw [hf]; simp only [Option.map, Option.getD, hd]; rcases h.island with e | ⟨e, e2⟩ <;> simp [*]

/-- A session frame that opens and is no replay is counted (R352). -/
theorem frame_ok {s : State} {g : Mgmt} {x : Session} (h0 : s.portServes = true) (h1 : s.mgmt.sessions.find? (·.id == g.session.toNat) = some x) (h2 : g.opens = true)
    (h3 : x.inCounter ≤ g.counter) (run : State → Session → State) : s.sessionFrame g run = .next (run (s.framed x g) x) := by
  rw [State.sessionFrame, if_neg (by simp [h0])]; simp only []
  rw [show (s.bump 0x1200 0x0C 0 1).mgmt.sessions = s.mgmt.sessions from rfl, h1]; simp only []; rw [if_neg (by simp [h2]; omega)]

/-- A new request runs, and its reply is kept (R353, R354). -/
theorem takes_ok {s : State} {g : Mgmt} {x : Session} (h : s.Takes x g) (run : State → Via → Executed) :
    s.mgmtRequest g run = .next ((run (s.begun x g) (.session x.slot)).2.answered x g (run (s.begun x g) (.session x.slot)).1) := by
  rw [State.mgmtRequest, frame_ok h.serves h.session h.opens h.counter]; simp only [h.fresh]
  rw [if_neg (by simpa using h.inWindow)]; rfl

/-- A WRITE of one item answers that item's one record (R353). -/
theorem writeOne_eq {s b : State} {x : Session} {g : Mgmt} (h : s.Takes x g) (hb : s.begun x g = b) (o : Outside) (ix sub : Nat) (hix : ix < 65536) (hsub : sub < 256)
    (bs : List Byte) (hl : bs.length ≤ 1024) (t : DStatus) (u : State) (r : ObjRow) (hr : objRow ix sub = some r)
    (hw : b.writeItem (.session x.slot) o ix sub 0 true bs = (t, u)) :
    s.writeOne g o ix sub bs = .next (u.answered x g (t, [Record.only t sub r.ty])) := by
  rw [State.writeOne, takes_ok h, hb]
  have e1 : (BitVec.ofNat 16 ix).toNat = ix := by simp; omega
  have e2 : (BitVec.ofNat 8 sub).toNat = sub := by simp; omega
  have e3 : (BitVec.ofNat 16 bs.length).toNat = bs.length := by simp; omega
  have e4 : requestBytes [{ index := BitVec.ofNat 16 ix, sub := BitVec.ofNat 8 sub, length := BitVec.ofNat 16 bs.length, last := true, offset := 0, value := bs }] ≤ 1440 := by
    simp [requestBytes, sumOf, cdiv]; omega
  rw [State.opWrite, if_neg]
  · simp only [State.writeItems, e1, e2]
    rw [show (BitVec.toNat (0 : W32)) = 0 from rfl, hw]
    simp only [hr]
    cases t <;> simp [firstStatus, Record.only]
  · simp only [Bool.or_eq_true, not_or]
    refine ⟨⟨by simp, ?_⟩, by simpa using e4⟩
    simp; omega

/-- What an administrator's item of a number comes to (R336, R338). -/
theorem Manages_write {s b : State} {x : Session} {g : Mgmt} {ix sub item : Nat} (h : s.Manages x g b ix sub item) (o : Outside) (bs : List Byte) (r : ObjRow)
    (hr : objRow ix sub = some r) (ha : r.acc ≠ .ro ∧ r.acc ≠ .const) (hm : mayWriteField 0 ix sub r.acc = true) (ht : r.ty ≠ 9 ∧ r.ty ≠ 10)
    (hl : bs.length = r.len) :
    b.writeItem (.session x.slot) o ix sub 0 true bs =
      if b.inRange (b.access (.session x.slot)) r ix sub item (beNat bs) then b.putNumber (.session x.slot) o r ix sub item (beNat bs) else (.outOfRange, b) := by
  have e1 : b.reaches (.session x.slot) ix sub = true := by simp [State.reaches, h.managed]
  unfold State.writeItem
  simp only [objIndex_of_row hr, e1, hr, h.named, h.administrator, hm, h.present]
  simp [ha.1, ha.2, ht.1, ht.2, hl]
  split <;> split <;> simp_all

theorem beNat_beBytes (n v : Nat) : beNat (beBytes n v) = v % 256 ^ n := by
  induction n generalizing v with
  | zero => simp [beBytes, beNat]; omega
  | succ n ih =>
    have : beNat (beBytes n (v / 256) ++ [BitVec.ofNat 8 v]) = beNat (beBytes n (v / 256)) * 256 + (BitVec.ofNat 8 v).toNat := by simp [beNat]
    rw [beBytes, this, ih, Nat.pow_succ, Nat.mul_comm (256 ^ n) 256, Nat.mod_mul]; simp; omega

theorem length_beBytes (n v : Nat) : (beBytes n v).length = n := by
  induction n generalizing v with
  | zero => rfl
  | succ n ih => simp [beBytes, ih]

/-- A number in range, written by an administrator, acts as its object says. -/
theorem manage_ok {s b : State} {x : Session} {g : Mgmt} {ix sub item : Nat} (h : s.Manages x g b ix sub item) (o : Outside) (bs : List Byte) (r : ObjRow)
    (hr : objRow ix sub = some r) (ha : r.acc ≠ .ro ∧ r.acc ≠ .const) (hm : mayWriteField 0 ix sub r.acc = true) (ht : r.ty ≠ 9 ∧ r.ty ≠ 10)
    (hl : bs.length = r.len) (h1 : ix < 65536) (h2 : sub < 256) (h3 : r.len ≤ 8) (v : Nat) (hv : beNat bs = v)
    (hi : b.inRange (b.access (.session x.slot)) r ix sub item v = true) (t : DStatus) (u : State)
    (hp : b.putNumber (.session x.slot) o r ix sub item v = (t, u)) :
    s.writeOne g o ix sub bs = .next (u.answered x g (t, [Record.only t sub r.ty])) := by
  subst hv
  refine writeOne_eq h.takes h.begun o ix sub h1 h2 bs (by omega) t u r hr ?_
  rw [Manages_write h o bs r hr ha hm ht hl, if_pos hi, hp]

/-- Outside the objects with a range of their own, the row's range is the range (R338). -/
theorem inRange_row {s : State} {a : Access} {r : ObjRow} {ix sub item v : Nat} (hv : r.lo ≤ v ∧ v ≤ r.hi)
    (hx : ix ≠ 0x2001 ∧ ix ≠ 0x2011 ∧ ix ≠ 0x2018 ∧ ix ≠ 0x2201 ∧ ix ≠ 0x2402 ∧ ix ≠ 0x3004 ∧ ix ≠ 0x4001 ∧ ix ≠ 0x5002 ∧ ix ≠ 0x5020 ∧ ix ≠ 0x5021 ∧ ix ≠ 0x7020
      ∧ ¬(ix = 0x7100 ∧ sub = 1) ∧ ix ≠ 0x7801 ∧ ix ≠ 0x7802 ∧ ix ≠ 0x7810) : s.inRange a r ix sub item v = true := by
  obtain ⟨h1, h2, h3, h4, h5, h6, h7, h8, h9, h10, h11, h12, h13, h14, h15⟩ := hx
  simp only [State.inRange, h1, h2, h3, h4, h5, h6, h7, h8, h9, h10, h11, h13, h14, h15, hv.1, hv.2]
  simp
  exact Or.inl (by omega)

/-- The same where the object takes it. -/
theorem manage_wrote {s b : State} {x : Session} {g : Mgmt} {ix sub item : Nat} (h : s.Manages x g b ix sub item) (o : Outside) (bs : List Byte) (r : ObjRow)
    (hr : objRow ix sub = some r) (v : Nat) (hv : beNat bs = v) 
    (hc : (r.acc ≠ .ro ∧ r.acc ≠ .const) ∧ mayWriteField 0 ix sub r.acc = true ∧ (r.ty ≠ 9 ∧ r.ty ≠ 10) ∧ ix < 65536 ∧ sub < 256 ∧ r.len ≤ 8) (hl : bs.length = r.len)
    (hi : b.inRange (b.access (.session x.slot)) r ix sub item v = true) (u : State)
    (hp : b.putNumber (.session x.slot) o r ix sub item v = (.ok, u)) :
    s.writeOne g o ix sub bs = .next (u.wroteOk x g ix sub) := by
  rw [manage_ok h o bs r hr hc.1 hc.2.1 hc.2.2.1 hl hc.2.2.2.1 hc.2.2.2.2.1 hc.2.2.2.2.2 v hv hi .ok u hp, State.wroteOk, hr]; rfl

/-- A message R270 does not fence runs. -/
theorem fencedPeer_ok {s u : State} {q : Qp} {nd : Node} {m : Rx} {op h : Nat} {fresh : Bool} (p : s.FromPeer q m op nd h fresh u) (f : Bool)
    (hf : fresh = true → f = true) (run : State → State) : u.fencedPeer m op h f run = run u := by
  unfold State.fencedPeer
  simp only [p.node]
  split
  · rfl
  · next g hg =>
    obtain ⟨h1, h2⟩ := p.alive g hg
    rw [if_neg (by simp [h1]), if_neg]
    rcases h2 with h2 | h2
    · simp [hf h2]
    · rw [h2]; simp

/-- A ledger message of a peer that is not fenced is applied (R268, R270). -/
theorem fromPeer_sync {s u : State} {q : Qp} {nd : Node} {m : Rx} {b : LedgerBody} {fresh : Bool} (h : s.FromPeer q m 0x60 nd b.handle.toNat fresh u) (f : Bool)
    (hf : fresh = true → f = true) (l : ledgerFits m b (f && b.handle != 0) = true) (run : Node → State → State) :
    s.syncIn m b f run = (run nd u).ended q m := by
  rw [State.syncIn, receive_ok h.accepts]
  simp only [l, fencedPeer_ok h f hf, h.node]
  simp

/-- A Relay message of a peer that is not fenced is metered and applied (R273, R385). -/
theorem fromPeer_relay {s u : State} {q : Qp} {nd : Node} {m : Rx} {b : RelayBody} {k : Nat} {fresh : Bool} (h : s.FromPeer q m 0x61 nd b.handle.toNat fresh u)
    (hf : fresh = true → k ≠ 3)
    (l : if k = 2 then m.hdr.bodyLen = 32 else m.hdr.bodyLen.toNat = 32 + 8 * b.pages.length ∧ b.pages.length = b.pageCount.toNat + 1)
    (run : Node → State → State) : s.relayIn m b k run =
      (run nd ((u.meter nd.part m.hdr.tenant.toNat (0x1C + k) b.winLen.toNat).meterMoved nd.part m.hdr.tenant.toNat 3 b.winLen.toNat)).ended q m := by
  rw [State.relayIn, receive_ok h.accepts]
  rw [if_neg, fencedPeer_ok h (k != 3) (by simpa using hf), h.node]
  split at l <;> simp_all

/-- A handle R45 refuses is answered at once. -/
theorem req_bad {s u : State} {q : Qp} {m : Rx} {op ref : Nat} (h : s.Accepts q m op .checked ref u) (i : Instr) (run : State → State) (st : Status)
    (k : u.checkHandle m.hdr m.hdr.handle.toNat = some st) (r : run u = u.answer (reqOf m op) st) :
    s.request m op ref i run = (u.answer (reqOf m op) st).ended q m := by
  rw [State.request, receive_ok h]; unfold State.enter; rw [k]; simp [r]

/-- A loop whose body changes nothing. -/
theorem each_id {α : Type} (l : List α) (s : State) (f : State → α → State) (h : ∀ a ∈ l, ∀ s, f s a = s) : s.each l f = s := by
  induction l with
  | nil => rfl
  | cons a l ih => 
    have := ih (fun a ha => h a (List.mem_cons_of_mem _ ha))
    simp only [State.each, List.foldl] at *; rw [h a (by simp)]; exact this

theorem each_onLp_dev (l : List Nat) (s : State) (f : LogicalPort → LogicalPort) : (s.each l fun s n => s.onLp n f).dev = s.dev := by
  induction l generalizing s with
  | nil => rfl
  | cons a l ih => simp only [State.each, List.foldl] at *; rw [ih]; rfl

/-- A step is a command on the same units, or a tick. -/
theorem step_held (s t : State) (h : step s = .next t) : ∃ u, Held u t ∧ u.hbm = s.hbm ∧ u.epochs = s.epochs ∧ u.clock = s.clock ∧ u.fw = s.fw ∧ u.mgmt = s.mgmt := by
  unfold step at h
  split at h
  · cases h; exact ⟨s, State.tick_held s, rfl, rfl, rfl, rfl, rfl⟩
  · next c r _ =>
    obtain ⟨u, e, k⟩ := exec_held c { s with pending := r }
    rw [e] at h; cases h
    exact ⟨_, k, rfl, rfl, rfl, rfl, rfl⟩

/-- A run of bytes stored leaves every other byte. -/
theorem memRead_memWrites_off (bs : List Byte) (m : List Host.Cell) (a k : Nat) (h : Memory.wf m) (hk : k < a ∨ a + bs.length ≤ k) : memRead (memWrites m a bs) k = memRead m k := by
  induction bs generalizing m a with
  | nil => rfl
  | cons b r ih =>
    simp only [List.length_cons] at hk
    rw [memWrites, ih _ _ (memWrite_wf m a b h) (by omega), memRead_memWrite m h, if_neg (by omega)]

end Sys2Proof.Machine
end

