-- ==== Sys2Proof/Laws/Softmax.lean ====
section
/-!
SUPPORT. FP32 numbers and their codes in attention's arithmetic: a representable number survives each rounding, so an update that rounds nothing is definite.
-/
namespace Sys2Proof.Machine

/-- An FP32 number by its exponent and fraction. -/
theorem magVal_eq (c : Nat) (h : c ≤ 0x7F7FFFFF) :
    magVal c = (if c / 2^23 = 0 then c % 2^23 else 2^23 + c % 2^23) * 2 ^ (10 + (if c / 2^23 = 0 then 1 else c/2^23)) := by
  have e : c % 2 ^ (8 + 23) = c := by omega
  have e0 : ¬ (c / 2 ^ (8 + 23) % 2 = 1) := by omega
  have e2 : ¬ (2139095039 < c) := by omega
  have k : ∀ k, 160 + k - 127 - 23 = 10 + (k - 0) - 0 := by omega
  unfold magVal Enc.decode
  unfold encFp32
  simp only [e, e2, e0, decide_false, Bool.false_and, Bool.false_eq_true, if_false, k, Int.natAbs_natCast, Nat.sub_zero]

theorem log2_scaled (a k n : Nat) (h : 2^n ≤ a) (h' : a < 2^(n+1)) : Nat.log2 (a * 2^k) = n + k := by
  rw [Nat.log2_eq_log_two]
  refine (Nat.log_eq_iff (Or.inr ⟨by norm_num, Nat.mul_ne_zero (by have := Nat.two_pow_pos n; omega) (by positivity)⟩)).2 ⟨?_, ?_⟩
  · rw [pow_add]; exact Nat.mul_le_mul_right _ h
  · rw [show n + k + 1 = (n+1) + k by omega, pow_add]; exact Nat.mul_lt_mul_of_pos_right h' (by positivity)

theorem log2_below (a n : Nat) (h' : a < 2^n) (h : a ≠ 0) : Nat.log2 a < n := by
  exact (Nat.log2_lt h).2 h'

/-- Rounding an FP32 number, down or to nearest, gives its own code. -/
theorem rank_of_magVal (c : Nat) (h : c ≤ 0x7F7FFFFF) : floorMag (magVal c) = c ∧ encFp32.round (magVal c) 0 = c := by
  have hm := magVal_eq c h
  by_cases hc : c = 0
  · subst hc; exact ⟨by decide, by decide⟩
  by_cases he : c / 2^23 = 0
  · simp only [he, if_true] at hm
    have hlt : c < 2^23 := by omega
    have e : c % 2^23 = c := Nat.mod_eq_of_lt hlt
    rw [e] at hm
    have h0 : magVal c ≠ 0 := by rw [hm]; exact Nat.mul_ne_zero hc (by norm_num)
    have hl : Nat.log2 (magVal c) < 34 := log2_below _ _ (by rw [hm]; omega) h0
    have hl' : max ((Nat.log2 (magVal c) : Int) - 160 - 23) (-149) = -149 := by omega
    have hl2 : max ((Nat.log2 (magVal c) : Int) - 160 - 0 - 23) (-149) = -149 := by omega
    constructor
    · unfold floorMag
      simp only [h0, if_false, hl']
      show min 0x7F7FFFFF (0 * 2^23 + magVal c / 2 ^ 11) = c
      rw [hm]; omega
    · unfold Enc.round
      simp only [h0, if_false]
      show min 0x7F7FFFFF (((max ((Nat.log2 (magVal c) : Int) - 160 - 0 - 23) (-149)) - (-149)).toNat * 2^23 + rne (magVal c) (2^(160 + 0 + (max ((Nat.log2 (magVal c) : Int) - 160 - 0 - 23) (-149))).toNat)) = c
      rw [hl2]
      show min 0x7F7FFFFF (0 * 2^23 + rne (magVal c) (2^11)) = c
      rw [hm]
      unfold rne
      have : c * 2 ^ (10+1) % 2^11 = 0 := by omega
      have h2 : c * 2 ^ (10+1) / 2^11 = c := by omega
      simp only [this, h2]
      norm_num
      omega
  · simp only [he, if_false] at hm
    have hl0 := log2_scaled (2^23 + c % 2^23) (10 + c/2^23) 23 (by omega) (by omega)
    rw [← hm] at hl0
    have h0 : magVal c ≠ 0 := by rw [hm]; exact Nat.mul_ne_zero (by omega) (by positivity)
    have hl' : max ((Nat.log2 (magVal c) : Int) - 160 - 23) (-149) = (c/2^23 : Nat) - 150 := by omega
    have hl2 : max ((Nat.log2 (magVal c) : Int) - 160 - 0 - 23) (-149) = (c/2^23 : Nat) - 150 := by omega
    have e1 : (((c/2^23 : Nat) : Int) - 150 + 149).toNat = c/2^23 - 1 := by omega
    have e2 : ((160 : Int) + (((c/2^23 : Nat) : Int) - 150)).toNat = 10 + c/2^23 := by omega
    constructor
    · unfold floorMag
      simp only [h0, if_false, hl', e1, e2]
      rw [hm, Nat.mul_div_cancel _ (by positivity)]
      have : ((c/2^23 - 1) * 2^23 + (2^23 + c % 2^23)) = c := by omega
      rw [this]
      exact Nat.min_eq_right h
    · unfold Enc.round
      simp only [h0, if_false]
      show min 0x7F7FFFFF (((max ((Nat.log2 (magVal c) : Int) - 160 - 0 - 23) (-149)) - (-149)).toNat * 2^23 + rne (magVal c) (2^(160 + 0 + (max ((Nat.log2 (magVal c) : Int) - 160 - 0 - 23) (-149))).toNat)) = c
      rw [hl2]
      have e3 : (((c/2^23 : Nat) : Int) - 150 - -149).toNat = c/2^23 - 1 := by omega
      have e4 : ((160 : Int) + 0 + (((c/2^23 : Nat) : Int) - 150)).toNat = 10 + c/2^23 := by omega
      rw [e3, e4, hm]
      unfold rne
      rw [Nat.mul_mod_left, Nat.mul_div_cancel _ (by positivity)]
      have : 0 < 2 ^ (10 + c / 2 ^ 23) := by positivity
      simp only [Nat.mul_zero, this, if_true]
      have : ((c/2^23 - 1) * 2^23 + (2^23 + c % 2^23)) = c := by omega
      rw [this]
      exact Nat.min_eq_right h

/-- A finite FP32 code by sign and magnitude; the zero of negative sign is a value of its own (R180). -/
theorem fp32_decode_eq (w : Nat) (h : w % 2^31 ≤ 0x7F7FFFFF) :
    encFp32.decode w = if w / 2^31 % 2 = 1 ∧ w % 2^31 = 0 then .nzero
      else .fin (if w / 2^31 % 2 = 1 then -(magVal (w % 2^31) : Int) else magVal (w % 2^31)) := by
  have hm := magVal_eq _ h
  rw [hm]
  have e2 : ¬ (2139095039 < w % 2^(8+23)) := by omega
  have k : ∀ k, 160 + k - 127 - 23 = 10 + (k - 0) - 0 := by omega
  unfold Enc.decode
  unfold encFp32
  simp only [e2, decide_false, Bool.false_and, Bool.false_eq_true, if_false, k, Nat.sub_zero]
  simp only [Bool.and_eq_true, decide_eq_true_eq]

theorem fp32_finite_low (w : W32) (h : (encFp32.decode w.toNat).finite = true) : w.toNat % 2^31 ≤ 0x7F7FFFFF := by
  by_contra hc
  have e : 2139095039 < w.toNat % 2^(8+23) := by omega
  unfold Enc.decode at h
  unfold encFp32 at h
  simp only [e, decide_true, Bool.true_and, if_true] at h
  split at h <;> simp [Val.finite] at h

theorem fp32Val_eq (w : W32) (h : (encFp32.decode w.toNat).finite = true) :
    fp32Val w = if w.toNat / 2^31 % 2 = 1 then -(magVal (w.toNat % 2^31) : Int) else magVal (w.toNat % 2^31) := by
  unfold fp32Val
  rw [fp32_decode_eq _ (fp32_finite_low w h)]
  by_cases z : w.toNat / 2^31 % 2 = 1 ∧ w.toNat % 2^31 = 0
  · rw [if_pos z, if_pos z.1, z.2]; decide
  · rw [if_neg z]

theorem magVal_pos (c : Nat) (h : c ≤ 0x7F7FFFFF) (hc : c ≠ 0) : 0 < magVal c := by
  rw [magVal_eq c h]
  refine Nat.mul_pos ?_ (by positivity)
  split_ifs <;> omega

/-- The number of rank c, and of rank -c. -/
theorem fp32Val_code (c : Nat) (h : c ≤ 0x7F7FFFFF) : fp32Val (rankCode c) = magVal c ∧ fp32Val (rankCode (-(c:Int))) = -(magVal c : Int) := by
  constructor
  · unfold rankCode fp32Val
    have e : (BitVec.ofNat 32 (if ((c:Int)) < 0 then 2^31 + (c:Int).natAbs else (c:Int).natAbs)).toNat = c := by
      rw [if_neg (by omega)]; simp; omega
    rw [e, fp32_decode_eq _ (by omega)]
    have : ¬ (c / 2^31 % 2 = 1) := by omega
    rw [if_neg fun z => this z.1, if_neg this, Nat.mod_eq_of_lt (by omega)]
  · by_cases hc : c = 0
    · subst hc; decide
    unfold rankCode fp32Val
    have e : (BitVec.ofNat 32 (if (-(c:Int)) < 0 then 2^31 + (-(c:Int)).natAbs else (-(c:Int)).natAbs)).toNat = 2^31 + c := by
      rw [if_pos (by omega)]; simp; omega
    rw [e, fp32_decode_eq _ (by omega)]
    have : ((2^31 + c) / 2^31 % 2 = 1) := by omega
    rw [show (2^31 + c) % 2^31 = c by omega, if_neg fun z => hc z.2, if_pos this]

/-- Rounding the value of a code and coding it again gives the value. -/
theorem fp32Val_nearRank (w : W32) (h : (encFp32.decode w.toNat).finite = true) : fp32Val (rankCode (nearRank (fp32Val w))) = fp32Val w := by
  have hl := fp32_finite_low w h
  rw [fp32Val_eq w h]
  generalize w.toNat % 2^31 = c at hl
  unfold nearRank
  by_cases hs : w.toNat / 2^31 % 2 = 1
  · simp only [hs, if_true]
    by_cases hc : c = 0
    · subst hc; decide
    have := magVal_pos c hl hc
    rw [if_neg (by omega), Int.natAbs_neg, Int.natAbs_natCast, (rank_of_magVal c hl).2]
    exact (fp32Val_code c hl).2
  · simp only [hs, if_false]
    rw [if_pos (by omega), Int.natAbs_natCast, (rank_of_magVal c hl).2]
    exact (fp32Val_code c hl).1

/-- A sum of one term is exact. -/
theorem sumExact_single (c : Nat) (h : c ≤ 0x7F7FFFFF) (v : Int) (hv : v.natAbs = magVal c) : sumExact [one160 * v] = true := by
  have ha : (one160 * v).natAbs = 2^160 * magVal c := by rw [Int.natAbs_mul, hv]; rfl
  unfold sumExact absSum commonUnit sumOf
  simp only [List.foldl_cons, List.foldl_nil, decide_eq_true_eq, ha, Nat.zero_add]
  rw [magVal_eq c h]
  have key : ∀ a k : Nat, a < 2^24 → k ≤ 300 → 2^160 * (a * 2^k) ≤ Nat.gcd (2^1024) (2^160 * (a * 2^k)) * 2^24 := by
    intro a k ha hk
    by_cases h0 : a = 0
    · simp [h0]
    have hd : 2^(160+k) ∣ Nat.gcd (2^1024) (2^160 * (a * 2^k)) :=
      Nat.dvd_gcd (pow_dvd_pow 2 (by omega)) ⟨a, by rw [pow_add]; ring⟩
    have hle := Nat.le_of_dvd (Nat.gcd_pos_of_pos_left _ (by positivity)) hd
    calc 2^160 * (a * 2^k) = 2^(160+k) * a := by rw [pow_add]; ring
      _ ≤ 2^(160+k) * 2^24 := Nat.mul_le_mul_left _ ha.le
      _ ≤ _ := Nat.mul_le_mul_right _ hle
  refine key _ _ ?_ ?_ <;> split_ifs <;> omega

/-- No FP32 number is greater than the largest. -/
theorem magVal_le (c : Nat) (h : c ≤ 0x7F7FFFFF) : magVal c ≤ magVal 0x7F7FFFFF := by
  rw [magVal_eq c h, magVal_eq _ le_rfl]
  have key : ∀ a k : Nat, a ≤ 2^24-1 → k ≤ 264 → a * 2^k ≤ (2^24-1) * 2^264 := fun a k ha hk =>
    Nat.mul_le_mul ha (Nat.pow_le_pow_right (by norm_num) hk)
  refine (key _ _ ?_ ?_).trans (by decide) <;> split_ifs <;> omega

/-- An FP32 number is its own greatest number below and least above. -/
theorem ranks_of_magVal (c : Nat) (h : c ≤ 0x7F7FFFFF) : floorRank (magVal c) = c ∧ ceilRank (magVal c) = c ∧ floorRank (-(magVal c : Int)) = -c ∧ ceilRank (-(magVal c:Int)) = -c := by
  have h1 := (rank_of_magVal c h).1
  have h2 : ceilMag (magVal c) = c := by unfold ceilMag; rw [h1]; simp
  by_cases hc : c = 0
  · subst hc; decide
  have hp := magVal_pos c h hc
  unfold floorRank ceilRank
  have a : (0:Int) ≤ magVal c := by omega
  have b : ¬ ((0:Int) ≤ -(magVal c : Int)) := by omega
  simp only [a, b, if_true, if_false, Int.natAbs_natCast, Int.natAbs_neg, h1, h2, and_self]

/-- R101, first tile: an update of nothing old by one term of weight 1 gives the term, and draws nothing. -/
theorem State.updateCode_single (s : State) (w : W32) (old : W32) (h : (encFp32.decode w.toNat).finite = true) :
    fp32Val (s.updateCode 0 old one160 [one160 * fp32Val w]).1 = fp32Val w ∧ (s.updateCode 0 old one160 [one160 * fp32Val w]).2 = s := by
  have hl := fp32_finite_low w h
  have hv := fp32Val_eq w h
  have hn := fp32Val_nearRank w h
  generalize hc : w.toNat % 2^31 = c at hl hv
  have habs : (fp32Val w).natAbs = magVal c := by rw [hv]; split_ifs <;> simp
  generalize fp32Val w = v at *
  have hs := sumExact_single c hl v habs
  have hy : (0 : Int) * fp32Val old * one160 + one160 * [one160 * v].foldl (· + ·) 0 = 2^320 * v := by
    have e : (2:Int)^160 * 2^160 = 2^320 := by rw [← pow_add]
    simp only [List.foldl_cons, List.foldl_nil, zero_mul, zero_add]
    rw [← e]; unfold one160; exact (mul_assoc _ _ _).symm
  have hx : (2:Int)^320 * v / 2^320 = v := Int.mul_ediv_cancel_left _ (by norm_num)
  have hr : (2:Int)^320 * v % 2^320 = 0 := Int.mul_emod_right _ _
  have hpos : floorRank v = ceilRank v ∧ fp32Val (rankCode (ceilRank v)) = v := by
    have r := ranks_of_magVal c hl
    have f := fp32Val_code c hl
    rw [hv]; split_ifs
    · rw [r.2.2.1, r.2.2.2]; exact ⟨rfl, f.2⟩
    · rw [r.1, r.2.1]; exact ⟨rfl, f.1⟩
  have hmax : ¬ (magVal encFp32.maxCode < v.natAbs) := by rw [habs]; exact not_lt.2 (magVal_le c hl)
  have rv : rankVal (nearRank v) = v := by
    have r := (rank_of_magVal c hl).2
    unfold nearRank rankVal
    rw [hv]
    by_cases hc0 : c = 0
    · subst hc0; split_ifs <;> decide
    have hp := magVal_pos c hl hc0
    split_ifs <;> simp_all <;> omega
  unfold State.updateCode State.update
  simp only [hy, hx, hr, hs, rv, decide_true, Bool.true_or, Bool.and_self, if_true]
  unfold State.fp32Near
  simp only [hmax, if_false]
  simp only [Nat.cast_zero, add_zero, sub_zero, hpos.1, lt_irrefl, if_false]
  unfold State.pick
  simp only [le_refl, if_true]
  exact ⟨hpos.2, trivial⟩

end Sys2Proof.Machine
end

