-- ==== Sys2Proof/WellFormed.lean ====
section
/-!
DEFINITION. Which commands the block's own wires can carry: the indices of its units lie in the ranges the spec numbers them in, and lists are no longer
than their carrier. What a sender may get wrong, and the device answers for, is no matter of form: that stays in the meanings.
-/
namespace Sys2Proof

/-- Queue pairs of the HN4812-AL, 0 to 16,383 (R3). -/
def Rx.wellFormed (m : Rx) : Bool := decide (m.qp < 16384)

def Reply.wellFormed (r : Reply) : Bool := decide (r.qp < 16384)

/-- Logical ports 0 to 15: four of each of four ports (R276). -/
def lpFits (lp : Nat) : Bool := decide (lp < 16)

/-- Islands 0 to 33 (Table 1-3). -/
def islandFits (i : Nat) : Bool := decide (i < 34)

/-- Flash islands: 15, and 33 on die 1 (Table 1-3). -/
def flashFits (i : Nat) : Bool := i == 15 || i == 33

/-- Live members of a superblock: at most one for each of the 32 channels (R214). -/
def memberFits (m : Nat) : Bool := decide (m < 32)

/-- Partitions 0 to 63 (R305). -/
def partFits (p : Nat) : Bool := decide (p < 64)

def slotFits (n : Nat) : Bool := decide (n < 8)

/-- Frame counters and request numbers are 64-bit and 32-bit words (Tables 11-5 and 11-7). -/
def Mgmt.wellFormed (g : Mgmt) : Bool := decide (g.counter < 2 ^ 64) && decide (g.request < 2 ^ 32)

/-- One REQUEST item holds at most what its 16-bit length can say (Table 11-7). -/
def Item.wellFormed (i : Item) : Bool := decide (i.value.length < 65536)

/-- Islands are the waiters of a Truss handshake (R27). -/
def SeverePair.wellFormed : SeverePair → Bool
  | .lockstep => true
  | .clockLoss i => islandFits i
  | .rail n => decide (n < 32)
  | .thermalTrip n => decide (n < 14)
  | .handshake w _ => islandFits w

def FaultArrival.wellFormed : FaultArrival → Bool
  | .detected i _ => islandFits i
  | .queued i => islandFits i

def FlashVerdict.wellFormed : FlashVerdict → Bool
  | .pass step _ => decide (step ≤ 8)
  | .unreadable => true

/-- Stacks 0 to 11, ports 0 to 3, and at most two roots, one a flash island (R404, R405). -/
def BootReport.wellFormed (b : BootReport) : Bool :=
  b.failedStacks.all (fun n => decide (n < 12)) && b.failedPorts.all (fun n => decide (n < 4)) && b.rootValid.all flashFits

/-- Eight session slots (R327), relayed through 0x6040.02, which holds 8,192 bytes. -/
def attFits (n : Nat) (bs : List Byte) : Bool := slotFits n && decide (bs.length ≤ 8192)

def KeyRecord.wellFormed (k : KeyRecord) : Bool := attFits k.slot k.key

/-- Every command on units that exist, with lists no longer than their carrier. -/
def Instr.wellFormed : Instr → Bool
  | .register m b => m.wellFormed && decide (b.variants.length < 256)
  | .heartbeat m b => m.wellFormed && decide (b.warm.length < 16)
  | .deregister m | .deregisterReturnLeases m => m.wellFormed
  | .admitTurn m _ => m.wellFormed
  | .placeCompletion r | .mailboxReceiverCompletion r | .roleAdviceCompletion r => r.wellFormed
  | .acceptTimeout _ | .placementWaitExpiry _ | .drainComplete _ | .ledgerMirrorTimeout _ | .ageScanVisit _ | .headTableGrowth _
  | .secureReleaseComplete _ => true
  | .handoff m b => m.wellFormed && decide (b.pending.length < 32)
  | .releaseEndTurn m b | .releaseFree m b | .releaseSecure m b => m.wellFormed && decide (b.pending.length < 32)
  | .lookup m _ => m.wellFormed
  | .publish m _ => m.wellFormed
  | .unpublish m _ => m.wellFormed
  | .append m _ | .refreshAppend m _ => m.wellFormed
  | .appendCompletion _ | .frameFreedForAppend _ | .appendHoldExpiry _ | .tileIssue _ | .fuseWaitExpiry _ | .tileCompute _ _ | .scarfMerge _
  | .attendCompletion _ | .stagingDone _ | .stageTimeout _ | .deliverLayerWrite _ | .deliveryIdleTimeout _ | .deliverCompletion _ | .relayTimeout _
  | .pageMove _ | .shootdownComplete _ | .extentEvacuation _ | .mortiseInsertion _ | .secondLevelSearchDone _ | .rdmaReadComplete _ _ => true
  | .attend m b => m.wellFormed && decide (b.rows.length ≤ 1024)
  | .stage m _ | .stageAndPin m _ | .clearPinned m _ => m.wellFormed
  | .deliver m _ => m.wellFormed
  | .progress m _ _ => m.wellFormed
  | .mailboxWrite w | .mailboxDoorbell w => decide (w.qp < 16384) && decide (1 ≤ w.packets)
  | .mailboxDeliveryTimeout p box => decide (p ≤ 64) && decide (box < 64)
  | .mailboxOperatorTake g => g.wellFormed
  | .operatorMailboxSend g body => g.wellFormed && decide (body.length < 65536)
  | .adviceEvaluation p => partFits p
  | .adviceHoldEnd p n => partFits p && decide (n < 4096)
  | .leaseTimeout n | .peerTimeout n => decide (n < 4096)
  | .ledgerSyncCreate m _ | .ledgerSyncTokens m _ | .ledgerSyncCut m _ | .ledgerSyncFree m _ | .ledgerSyncReadmit m _ => m.wellFormed
  | .ledgerSyncCompletion r _ => r.wellFormed
  | .relayStore m b | .relayFetchAndMove m b | .relayFetchCopy m b | .relayMirror m b => m.wellFormed && decide (b.pages.length < 65536)
  | .relayCompletion r _ _ => r.wellFormed
  | .peerProbe m _ => m.wellFormed
  | .peerProbeCompletion r _ _ => r.wellFormed
  | .migrationStart g => g.wellFormed
  | .cmReq r => lpFits r.lp
  | .cmDisconnect qp | .cmRtu qp | .ackCoalescingTimeout qp | .rnrNakReceived qp | .ackTimeout qp | .cePacketReceived qp | .cnpReceived qp
  | .rateIncreaseEvent qp | .alphaTimerExpiry qp => decide (qp < 16384)
  | .ringMessageWrite w => decide (w.qp < 16384)
  | .ringConsumerUpdate qp _ => decide (qp < 16384)
  | .completionRingWrite ring => decide (ring < 8192)
  | .sendReceived qp _ => decide (qp < 16384)
  | .nodeReadOrWriteRefused qp _ => decide (qp < 16384)
  | .ackReceived qp _ => decide (qp < 16384)
  | .pfcFrameReceived lp _ _ => lpFits lp
  | .ingressBufferThreshold lp _ => lpFits lp
  | .pauseWatchdog lp priority => lpFits lp && decide (priority < 8)
  | .frameCheckDrop lp _ => lpFits lp
  | .unsupportedFrameDrop lp _ => lpFits lp
  | .egressFrameSend lp => lpFits lp
  | .shaperWindowBoundary die => decide (die < 2)
  | .periodBoundary i | .clockRelockDone i | .faultQueueDropReport i => islandFits i
  | .trussHandshakeTimeout w _ => islandFits w
  | .tableBuild p | .tableSetInstalled p => partFits p
  | .mortiseCompaction bank => decide (bank < 64)
  | .mortisePatrol bank index _ => decide (bank < 64) && decide (index < 4096)
  | .bankModeRequest g _ => g.wellFormed
  | .modeMoveComplete => true
  | .flashProgramConfirm i _ _ | .rowPadTimeout i _ _ => flashFits i
  | .flashReadComplete _ v => v.wellFormed
  | .flashEraseFailure i _ m | .gcTargetFailure i _ m => flashFits i && memberFits m
  | .flashProgramFailure i _ _ => flashFits i
  | .garbageCollection i _ => flashFits i
  | .victimErase i _ => flashFits i
  | .journalFlush i | .checkpoint i => flashFits i
  | .flashPatrolRead i _ _ v => flashFits i && v.wellFormed
  | .dieTemperatureSample i temps => flashFits i && decide (temps.length ≤ 512)
  | .hbmPatrolRead channel _ _ => decide (channel < 384)
  | .commit g _ _ => g.wellFormed
  | .drainLimitExpiry | .epochDrainEnd | .reservationLimitExpiry | .shutdownRequestTimeout | .firmwareHoldLimitExpiry | .powerCapStep
  | .faultAliveToggle | .congestionLevelUpdate | .meterSave | .vddAuxLoss | .peerHeartbeatSend => true
  | .sliceDrainDone n | .zeroingDone n => decide (n < 64)
  | .discardShadow g _ | .shadowReservation g _ | .applyMgmtConfiguration g _ | .linkReset g _ | .fenceUnit g _ | .clearFirstError g _
  | .orderlyShutdown g _ | .clusterHoldOff g _ | .sessionCloseCommand g _ | .startPairing g _ => g.wellFormed
  | .returnUnit g _ _ => g.wellFormed
  | .timeOfDayWrite g _ | .sequenceWindowSelect g _ => g.wellFormed
  | .meterTenantSelect g _ => g.wellFormed
  | .credentialWrite g item | .imageSegmentWrite g item => g.wellFormed && item.wellFormed
  | .serviceRoleDisable g | .operatorReportRead g | .mgmtClose g => g.wellFormed
  | .deviceReset g _ boot | .dieReset g _ boot => g.wellFormed && boot.wellFormed
  | .clusterReset g _ | .partitionReset g _ | .portReset g _ => g.wellFormed
  | .imageVerify g _ _ _ _ => g.wellFormed
  | .firmwareSwitch g _ _ => g.wellFormed
  | .clusterGate c | .clusterWake c => decide (c < 16)
  | .mgmtHello _ _ nonce ek _ => decide (nonce.length + ek.length < 65536)
  | .mgmtFinish _ _ | .mgmtHandshakeTimeout _ => true
  | .mgmtRead g items | .mgmtWrite g items => g.wellFormed && items.all Item.wellFormed
  | .mgmtBlockRead g item _ => g.wellFormed && item.wellFormed
  | .mgmtSessionIdleTimeout n | .slotLockoutEnd n | .attestClose n | .attestSessionIdleTimeout n => slotFits n
  | .attestHelloTenantKeys n _ nonce ek | .attestHelloPeerPairing n _ nonce ek => attFits n (nonce ++ ek)
  | .attestHelloReportOnly n _ nonce => attFits n nonce
  | .attestFinish n _ _ _ => slotFits n
  | .pairingDeviceReceived n _ _ => slotFits n
  | .tenantKeyRelease k | .tenantKeyErase k | .tenantKeyQuery k => k.wellFormed
  | .peerLinkRekey peer => decide (peer < 64)
  | .i3cWrite _ _ _ _ value boot => decide (value.length ≤ 64) && boot.wellFormed
  | .i3cRead _ _ _ => true
  | .i3cAddressAssignment _ => true
  | .faultRecord a => a.wellFormed
  | .severeSignal pair _ => pair.wellFormed
  | .throttleNChange _ | .vrFaultNChange _ => true
  | .resetNChange _ boot => boot.wellFormed
  | .inputStuck n | .inputChatterEnd n => decide (n < 3)
  | .safeLevelExit cause => decide (cause < 3)
  | .avsRefresh die _ | .avsTimeout die => decide (die < 2)
  | .thermalSample r => decide (r.sensor < 14)
  | .telemetryRefresh t => t.dieTemps.length == 2
  | .linkTrained port => decide (port < 4)
  | .arpOrNeighbourSolicitation isArp target => !isArp || decide (target < 2 ^ 32)

end Sys2Proof
end

