-- ==== Sys2Proof/Tests/Slice0.lean ====
section
/-!
SUPPORT. Tests. For each clause of each statement one witness: a small state and operands that meet its hypotheses together. Then ill-formed commands that
`Instr.wellFormed` refuses, and single steps whose results the spec works out.
-/
set_option Elab.async false

namespace Sys2Proof.Tests
open Sys2Proof Sys2Proof.Machine

/-! ### The premises of Safety.lean, as checks that evaluate -/

def accepts (s : State) (q : Qp) (m : Rx) (op : Nat) (ep : EpochUse) (ref : Nat) : Bool :=
  s.serving && s.qp m.qp == some q && q.connected && ((s.arrived q m).checkHeader q m.hdr m.length op ep).isNone
    && ((s.arrived q m).policed q m op ref).1

theorem accepts_of {s : State} {q : Qp} {m : Rx} {op ref : Nat} {ep : EpochUse} (h : accepts s q m op ep ref = true) :
    s.Accepts q m op ep ref (s.admitted q m op ref) := by
  simp only [accepts, Bool.and_eq_true, beq_iff_eq, Option.isNone_iff_eq_none] at h
  exact ⟨h.1.1.1.1, h.1.1.1.2, h.1.1.2, h.1.2, h.2, rfl⟩

/-- The request finds its sequence in the active epoch with nothing waiting. -/
def letsIn (s : State) (q : Qp) (m : Rx) (op ref : Nat) (x : Seq) : Bool :=
  accepts s q m op .checked ref && ((s.admitted q m op ref).checkHandle m.hdr m.hdr.handle.toNat).isNone
    && (s.admitted q m op ref).seq m.hdr.handle.toNat == some x && x.epochQueue.isEmpty && x.epoch == (s.admitted q m op ref).epochs.active

theorem letsIn_of {s : State} (i : Instr) {q : Qp} {m : Rx} {op ref : Nat} {x : Seq} (h : letsIn s q m op ref x = true) :
    s.LetsIn i q m op ref x (s.admitted q m op ref) := by
  simp only [letsIn, Bool.and_eq_true, beq_iff_eq, Option.isNone_iff_eq_none] at h
  refine ⟨accepts_of h.1.1.1.1, h.1.1.1.2, ⟨x, h.1.1.2, ?_⟩, h.1.1.1.2, h.1.1.2⟩
  split
  · rfl
  · exact ⟨h.1.2, fun c => c.2.1 h.2, by rw [State.inEpoch, if_neg fun c => c.2 h.2]⟩

def answers (s : State) (q : Qp) (r : Reply) (mine : AskKind → Bool) (a : Ask) : Bool :=
  s.serving && s.qp r.qp == some q && q.connected && (s.heard q).askOf q r mine == some a

theorem answers_of {s : State} {q : Qp} {r : Reply} {mine : AskKind → Bool} {a : Ask} (h : answers s q r mine a = true) :
    s.Answers q r mine a ((s.heard q).dropAsk a) := by
  simp only [answers, Bool.and_eq_true, beq_iff_eq] at h
  exact ⟨h.1.1.1, h.1.1.2, h.1.2, h.2, rfl⟩

def fromPeer (s : State) (q : Qp) (m : Rx) (op : Nat) (nd : Node) : Bool :=
  accepts s q m op .unchecked 0 && (s.admitted q m op 0).nodeOf m.qp == some nd
    && ((s.admitted q m op 0).broker.gone.find? fun g => g.part == nd.part && g.ident == nd.ident).isNone

theorem fromPeer_of {s : State} {q : Qp} {m : Rx} {op : Nat} {nd : Node} (h : Nat) (fresh : Bool) (k : fromPeer s q m op nd = true) :
    s.FromPeer q m op nd h fresh (s.admitted q m op 0) := by
  simp only [fromPeer, Bool.and_eq_true, beq_iff_eq, Option.isNone_iff_eq_none] at k
  exact ⟨accepts_of k.1.1, k.1.2, fun g e => by rw [k.2] at e; cases e⟩

def takes (s : State) (x : Session) (g : Mgmt) : Bool :=
  s.portServes && s.mgmt.sessions.find? (·.id == g.session.toNat) == some x && g.opens && decide (x.inCounter ≤ g.counter)
    && (x.replies.find? (fun r => r.1 == g.request)).isNone && decide (x.replies.length < 16)

theorem takes_of {s : State} {x : Session} {g : Mgmt} (h : takes s x g = true) : s.Takes x g := by
  simp only [takes, Bool.and_eq_true, beq_iff_eq, Option.isNone_iff_eq_none, decide_eq_true_eq] at h
  exact ⟨h.1.1.1.1.1, h.1.1.1.1.2, h.1.1.1.2, h.1.1.2, h.1.2, fun c => by omega⟩

def manages (s : State) (x : Session) (g : Mgmt) (ix sub item : Nat) : Bool :=
  takes s x g && (s.begun x g).managed && (s.begun x g).roleOf (.session x.slot) == 0
    && ((s.begun x g).access (.session x.slot)).item ix sub == item && !(s.begun x g).itemAbsent ((s.begun x g).access (.session x.slot)) ix sub

theorem manages_of {s : State} {x : Session} {g : Mgmt} {ix sub item : Nat} (h : manages s x g ix sub item = true) :
    s.Manages x g (s.begun x g) ix sub item := by
  simp only [manages, Bool.and_eq_true, beq_iff_eq, Bool.not_eq_true'] at h
  exact ⟨takes_of h.1.1.1.1, rfl, h.1.1.1.2, h.1.1.2, h.1.2, h.2⟩

/-! ### A partition with a node, its queue pair and a sequence -/

def node0 : Node :=
  { num := 64, part := 1, role := 1, switchable := true, classic := false, allTenants := false, tenant := 7, variants := [5], payloadFormats := 31
    deliveredFormats := 31, prefillRate := 0, decodeCapacity := 8, regionAddr := 0, regionKey := 0, regionLen := 0, regionUsed := [], joinKey := 3, ident := 9
    regQp := 1, queued := 0, active := 0, warm := [], placedTokens := 0, placedSeqs := 0, lastUs := 0, beatUs := 0, lastMs := 0, accepted := 0, refused := 0 }

def qp0 : Qp :=
  { num := 1, st := .connected, part := 1, lp := 0, mode := 0, node := some 64, mtu := 4096, srcGid := 1, vlan := 0, pcp := 0, dscp := 0, cmdRing := none
    compRing := none, unacked := [], sentCount := 0, ackedCount := 0, retries := 0, rnrRetries := 0, rxUnacked := 0, rxLastUs := 0, rc := 0, rt := 0
    alpha := 65536, incr := 0, tokens := 0, passed := false, bytesSince := 0, cnpUs := none, readsOut := 0, lastUs := 0, ackUs := 0, alphaUs := 0, incrUs := 0
    rnrHold := false, prm := [] }

def turn0 : Turn :=
  { admitter := 64, admitterIdent := 9, context := [], svc := 0, refused := [], waitUntil := 0, acceptUntil := 0, pending := [], target := none, classic := false
    replaced := false, endPos := 0, admitReq := none, handoffReq := none, releaseReq := none, matched := 0, transit := 0, prefixCopied := false, home := 0
    region := none, oldHandle := 0, thenDecode := false }

/-- A live sequence of partition 1, tenant 7, slot 0, held by node 64. -/
def seq0 : Seq :=
  { part := 1, tenant := 7, gen := 1, slot := 0, variant := 5, layers := 1, kvHeads := 1, group := 1, fmt := 1, st := .live, truncated := false
    unmirrored := true, winPolicy := false, window := 0, globalPages := 0, sealedPos := 64, capacity := 1, posBase := 0, posLimit := 4096, headMask := 1
    holder := some 64, leaseGen := 2, epoch := 1, link := 0, linkLen := 0, linkDepth := 0, linkers := 0, lastTouch := 0, scanned := none, ledger := List.replicate 64 1
    acked := 64, timedOut := 0, frontiers := [], frontierBase := 64, pages := [], ledgerFrames := [], tableFrames := [], tabs := [], lease := .held .decode
    turn := turn0, chain := none, epochQueue := [], fixedFrames := 0, home := none }

def h0 : Nat := seq0.handle

def key0 : TenantKey := { part := 1, tenant := 7, keyId := 1, key := List.replicate 32 5, releasedMs := 0, erasing := false }

/-- Partition 1 with sequences, a node and queue pairs. -/
def world (xs : List Seq) (nds : List Node) (qs : List Qp) : State :=
  { State.reset with
    seqs := xs
    sec := { State.reset.sec with keys := [key0] }
    net := { State.reset.net with qps := qs }
    epochs := { State.reset.epochs with slices := mapIf (·.num == 0) (fun x => { x with st := .assigned, owner := some 1 }) State.reset.epochs.slices }
    broker := { State.reset.broker with nodes := nds } }

/-- Partition `p` holds slices `a` to `b` of die 0. -/
def holding_ (p a b : Nat) : State :=
  State.reset.onEpochs fun e => { e with slices := mapIf (fun x => a ≤ x.num && x.num ≤ b) (fun x => { x with st := .assigned, owner := some p }) e.slices }

def base : State := world [seq0] [node0] [qp0]

/-- A header of partition 1, tenant 7 and epoch 1, with its check. -/
def hdr (op h n : Nat) : Hdr :=
  let x : Hdr := { version := 1, completion := false, device := false, reserved := 0, status := 0, partition := 1, tenant := 7, epoch := 1, tag := 9
                   handle := BitVec.ofNat 64 h, bodyLen := BitVec.ofNat 32 n, check := 0 }
  { x with check := hdrCheck x op }

/-- The same as it arrives on queue pair 1. -/
def rx (op h n : Nat) : Rx := { qp := 1, length := 32 + n, hdr := hdr op h n }

def ask0 (k : AskKind) : Ask := { tag := 4, node := 64, kind := k, untilUs := 0 }

/-- The device has asked node 64 something under tag 4. -/
def asking (s : State) (k : AskKind) : State := s.onBroker fun b => { b with asks := [ask0 k] }

def reply0 (st : BitVec 8) : Reply := { qp := 1, tag := 4, status := st }

/-- `n` microseconds later. -/
def later (s : State) (n : Nat) : State := s.onClock fun c => { c with us := c.us + n }

def peer0 : Node := { node0 with role := 3 }

def admit0 : AdmitBody :=
  { variant := 5, layers := 0, kvHeads := 0, group := 0, fmt := 1, winPolicy := false, window := 0, svc := 0, byRef := false, noLookup := false, headMask := 1
    posBase := 0, posLimit := 127, declared := 127, tokenCount := 1, tokenAddr := 0, tokenKey := 0, tokenLen := 4
    context := List.replicate 8 0, tokens := [3] }

/-! ### Nodes -/

def reg0 : RegisterBody :=
  { role := 1, join := false, switchable := false, classic := false, allTenants := false, variantCount := 1, payloadFormats := 1, deliveredFormats := 1
    prefillRate := 0, decodeCapacity := 1, regionAddr := 0, regionKey := 0, regionLen := 0, joinNode := 64, joinKey := 3, ident := 11, variants := [5] }

/-- Partition 1 has a node block, numbers 64 to 127 (R316). -/
def fresh0 : State := (world [] [node0] [{ qp0 with node := none }]).onObjs fun o => { o with active := [(okey 0x6401 3 0, 1), (okey 0x6401 5 0, 64 * 65536 + 64)] }
def free0 : State := fresh0.admitted { qp0 with node := none } (rx 1 0 112) 1 0

theorem witness_register_enrols : fresh0.Accepts { qp0 with node := none } (rx 1 0 112) 1 .unchecked 0 free0 ∧ registerFits (rx 1 0 112) reg0 = true ∧
    reg0.allTenants = false ∧ (free0.qp 1).bind free0.qpNode = none ∧ free0.identTaken qp0 reg0 = false ∧ free0.freeNumber 1 = some 65 :=
  ⟨accepts_of (by decide +kernel), by decide +kernel⟩

theorem witness_register_joins : free0.node reg0.joinNode.toNat = some node0 ∧ node0.part = 1 ∧ node0.joinKey = reg0.joinKey.toNat ∧
    registerFits (rx 1 0 112) { reg0 with join := true } = true := by decide +kernel

theorem witness_register_replaces : base.Accepts qp0 (rx 1 0 112) 1 .unchecked 0 (base.admitted qp0 (rx 1 0 112) 1 0) ∧
    ((base.admitted qp0 (rx 1 0 112) 1 0).nodeOf 1).map (·.num) = some 64 ∧ reg0.role.toNat = node0.role :=
  ⟨accepts_of (by decide +kernel), by decide +kernel⟩

theorem witness_number_freed : ((fresh0.onBroker fun b => { b with freed := [(65, 0)] }).freeNumber 1) = some 66 ∧
    ((later (fresh0.onBroker fun b => { b with freed := [(65, 0)] }) 1000000).freeNumber 1) = some 65 := by decide +kernel

def beat0 : HeartbeatBody := { queued := 10, active := 1, warmCount := 1, warm := [5] }

theorem witness_heartbeat : base.Accepts qp0 (rx 2 0 24) 2 .unchecked 0 (base.admitted qp0 (rx 2 0 24) 2 0) ∧
    ((base.admitted qp0 (rx 2 0 24) 2 0).nodeOf 1).isSome = true ∧ (rx 2 0 24).hdr.bodyLen = 24 ∧ beat0.warmCount.toNat ≤ 8 :=
  ⟨accepts_of (by decide +kernel), by decide +kernel⟩

theorem witness_deregister_waits : base.Accepts qp0 (rx 3 0 8) 3 .unchecked 0 (base.admitted qp0 (rx 3 0 8) 3 0) ∧
    ((base.admitted qp0 (rx 3 0 8) 3 0).nodeOf 1).isSome = true ∧ (base.admitted qp0 (rx 3 0 8) 3 0).leases 64 = 1 :=
  ⟨accepts_of (by decide +kernel), by decide +kernel⟩

theorem witness_deregister_leaves : ((world [] [node0] [qp0]).admitted qp0 (rx 3 0 8) 3 0).leases 64 = 0 := by decide +kernel

theorem witness_lease_timeout : base.serving = true ∧ base.node 64 = some node0 ∧
    node0.lastUs + 1000 * base.rw 0x4001 1 0 ≤ (later base 3000000).clock.us ∧ ¬ node0.lastUs + 1000 * base.rw 0x4001 1 0 ≤ base.clock.us ∧
    base.nodeQps 64 ≠ [] ∧ (world [] [node0] []).nodeQps 64 = [] := by decide +kernel

theorem witness_peer_timeout : (later (world [] [peer0] [qp0]) 60000000).node 64 = some peer0 ∧ State.reset.fw.hold = none ∧
    peer0.beatUs + 1000 * base.rw 0x4005 1 0 ≤ (later base 60000000).clock.us := by decide +kernel

def unadvised : State := base.onObjs fun o => { o with active := [(okey 0x4003 9 1, 0)] }
def advice0 : Advice := { part := 1, up := 0, down := 0, out := some (64, 0, 4, 10), declined := [], at_ := 0 }

theorem witness_advice : base.serving = true ∧ base.act 0x4003 9 1 = 1 ∧ unadvised.act 0x4003 9 1 ≠ 1 ∧
    ((later base 10).setAdvice advice0).advice 1 = advice0 ∧ 10 ≤ (later base 10).clock.us ∧
    (later base 60000000).broker.peerBeat + 1000 * base.rw 0x4001 2 0 ≤ (later base 60000000).clock.us ∧
    (base.advice 1).at_ + 1000 * base.act 0x4003 2 1 ≤ (later base 60000000).clock.us ∧
    base.clock.us < (base.advice 1).at_ + 1000 * base.act 0x4003 2 1 := by decide +kernel

theorem witness_advice_completed : (asking base (.advice 1)).Answers qp0 (reply0 0) AskKind.isAdvice (ask0 (.advice 1))
    (((asking base (.advice 1)).heard qp0).dropAsk (ask0 (.advice 1))) := answers_of (by decide +kernel)

/-! ### Turns and leases -/

def prefill0 : Node := { node0 with role := 0, prefillRate := 1 }

def admitting : State := world [] [prefill0] [qp0]

theorem witness_admit_inline : admitting.Accepts qp0 (rx 0x10 0 120) 0x10 .checked 0 (admitting.admitted qp0 (rx 0x10 0 120) 0x10 0) ∧
    (admitting.admitted qp0 (rx 0x10 0 120) 0x10 0).checkAdmit (rx 0x10 0 120) admit0 = none ∧ admit0.byRef = false :=
  ⟨accepts_of (by decide +kernel), by decide +kernel⟩

theorem witness_admit_by_reference : admitting.Accepts qp0 (rx 0x10 0 112) 0x10 .checked 4 (admitting.admitted qp0 (rx 0x10 0 112) 0x10 4) ∧
    (admitting.admitted qp0 (rx 0x10 0 112) 0x10 4).checkAdmit (rx 0x10 0 112) { admit0 with byRef := true, tokens := [] } = none :=
  ⟨accepts_of (by decide +kernel), by decide +kernel⟩

theorem witness_admit_refused : admitting.checkAdmit (rx 0x10 0 120) { admit0 with fmt := 0 } = some .malformed ∧
    (admitting.onSec fun x => { x with keys := [] }).checkAdmit (rx 0x10 0 120) admit0 = some .accessDenied := by decide +kernel

theorem witness_slots : admitting.freeSlot 1 = some 0 ∧ base.freeSlot 1 = some 1 ∧ sget base.slotGens (2 ^ 20) 0 = 0 ∧
    (({ base with slotGens := [(2 ^ 20, 4194303)] } : State).takeGen 1 0).1 = 1 := by decide +kernel

def offered0 : Seq := { seq0 with lease := .offered .decode 64 4, holder := none }
def offering : State := asking (world [offered0] [node0] [qp0]) (.place h0)

theorem witness_place : offering.Answers qp0 (reply0 0) AskKind.isPlace (ask0 (.place h0)) ((offering.heard qp0).dropAsk (ask0 (.place h0))) ∧
    ((offering.heard qp0).dropAsk (ask0 (.place h0))).seq h0 = some offered0 ∧ (ask0 (.place h0)).tag = 4 ∧
    (BitVec.ofNat 64 h0).toNat = h0 ∧ offering.seq h0 = some offered0 ∧ offered0.turn.acceptUntil ≤ offering.clock.us :=
  ⟨answers_of (by decide +kernel), by decide +kernel⟩

theorem witness_accepted : (offering.acceptPlace h0 64 4 .decode).seq h0 ≠ none ∧
    ((offering.acceptPlace h0 64 4 .decode).seq h0).map (·.holder) = some (some 64) := by decide +kernel

theorem witness_placement_wait : (world [{ seq0 with lease := .choosing .prefill }] [] []).serving = true ∧
    (world [{ seq0 with lease := .choosing .prefill }] [] []).seq h0 = some { seq0 with lease := .choosing .prefill } ∧
    turn0.waitUntil ≤ (world [] [] []).clock.us ∧ turn0.admitReq = none := by decide +kernel

def hand0 : HandoffBody := { target := 0xFFFF, classic := false, pendCount := 1, leaseGen := 2, pending := [8] }
def rel0 : ReleaseBody := { action := 1, pendCount := 0, leaseGen := 2, pending := [] }
/-- The state in which a request of the sequence meets its opcode. -/
def met (op n : Nat) : State := base.admitted qp0 (rx op h0 n) op 0

theorem witness_handoff : base.LetsIn (.handoff (rx 0x12 h0 24) hand0) qp0 (rx 0x12 h0 24) 0x12 0 seq0 (met 0x12 24) ∧ (met 0x12 24).holds 1 seq0 = true ∧
    hand0.leaseGen.toNat = seq0.leaseGen ∧ seq0.ledgerLost = false ∧ pendingFits (rx 0x12 h0 24) hand0.pendCount.toNat hand0.pending = true :=
  ⟨letsIn_of _ (by decide +kernel), by decide +kernel⟩

theorem witness_end_of_turn : base.LetsIn (.releaseEndTurn (rx 0x13 h0 16) rel0) qp0 (rx 0x13 h0 16) 0x13 0 seq0 (met 0x13 16) ∧ (met 0x13 16).holds 1 seq0 = true ∧
    ((met 0x13 16).nodeOf 1).map (·.role) ≠ some 2 ∧ rel0.leaseGen.toNat = seq0.leaseGen ∧ pendingFits (rx 0x13 h0 16) 0 rel0.pending = true :=
  ⟨letsIn_of _ (by decide +kernel), by decide +kernel⟩

theorem witness_drain_takes : ((base.startDrain h0 true id).seq h0).map (·.leaseGen) = some 3 ∧ base.seq h0 = some seq0 := by decide +kernel

theorem witness_release_secure : base.LetsIn (.releaseSecure (rx 0x14 h0 16) rel0) qp0 (rx 0x14 h0 16) 0x14 0 seq0 (met 0x14 16) ∧ rel0.action = 1 ∧ rel0.pendCount = 0 ∧ seq0.st ≠ .retained ∧
    (met 0x14 16).holds 1 seq0 = true :=
  ⟨letsIn_of _ (by decide +kernel), by decide +kernel⟩

def front : State := world [{ seq0 with holder := none, lease := .choosing .prefill }] [{ node0 with role := 2 }] [qp0]

theorem witness_release_front : front.LetsIn (.releaseFree (rx 0x13 h0 16) rel0) qp0 (rx 0x13 h0 16) 0x13 0 { seq0 with holder := none, lease := .choosing .prefill }
    (front.admitted qp0 (rx 0x13 h0 16) 0x13 0) ∧ ((front.admitted qp0 (rx 0x13 h0 16) 0x13 0).nodeOf 1).map (·.role) = some 2 :=
  ⟨letsIn_of _ (by decide +kernel), by decide +kernel⟩

theorem witness_release_retained : (world [{ seq0 with st := .retained }] [node0] [qp0]).LetsIn (.releaseFree (rx 0x13 h0 16) rel0) qp0 (rx 0x13 h0 16) 0x13 0 { seq0 with st := .retained }
    ((world [{ seq0 with st := .retained }] [node0] [qp0]).admitted qp0 (rx 0x13 h0 16) 0x13 0) := letsIn_of _ (by decide +kernel)

def draining0 : Seq := { seq0 with lease := .draining true, holder := none }

theorem witness_drain_ends : (world [draining0] [] []).serving = true ∧ (world [draining0] [] []).seq h0 = some draining0 ∧
    (world [draining0] [] []).work.appends = [] ∧ (world [draining0] [] []).rowsComing draining0.handle = false ∧ draining0.turn.waitUntil ≤ (world [draining0] [] []).clock.us ∧
    (world [draining0] [] []).readsPast draining0 = false := by decide +kernel

/-! ### Prefixes -/

def look0 : LookupBody :=
  { variant := 5, tokenCount := 2, byRef := false, privateChain := true, publicChain := false, headMask := 1, tokenAddr := 0, tokenKey := 0, tokenLen := 8
    tokens := [1, 2] }

theorem witness_lookup : admitting.Accepts qp0 (rx 0x20 0 40) 0x20 .checked 0 (admitting.admitted qp0 (rx 0x20 0 40) 0x20 0) ∧
    (rx 0x20 0 40).hdr.handle = 0 ∧ look0.headMask ≠ 0 ∧
    tokensFit (rx 0x20 0 40) 32 2 false 8 look0.tokens ((admitting.admitted qp0 (rx 0x20 0 40) 0x20 0).act 0x2402 0x0A 1) = true :=
  ⟨accepts_of (by decide +kernel), by decide +kernel⟩

theorem witness_lookup_malformed : (rx 0x20 h0 40).hdr.handle ≠ 0 ∧ { look0 with headMask := 0 }.headMask = 0 ∧
    tokensFit (rx 0x20 0 44) 32 2 false 8 look0.tokens 65536 = false := by decide +kernel

theorem witness_lookup_by_reference : admitting.Accepts qp0 (rx 0x20 0 32) 0x20 .checked 8 (admitting.admitted qp0 (rx 0x20 0 32) 0x20 8) ∧
    tokensFit (rx 0x20 0 32) 32 2 true 8 [] 65536 = true := ⟨accepts_of (by decide +kernel), by decide +kernel⟩

def lookup0 : Lookup :=
  { id := 3, for_ := .admission h0, phase := .secondRuns, part := 1, tenant := 7, variant := 5, headMask := 1, kvHeads := 1, tokens := [], doPriv := true, doPub := false, block := 0
    fpPriv := 0, fpPub := 0, hits := [], waitPriv := true, waitPub := false, hitPriv := none, hitPub := none, usedSecond := false }

def looking (l : Lookup) : State := base.onMortise fun m => { m with lookups := [l] }

/-- One second-level search of the block is out, or two. -/
theorem witness_second_level : (looking lookup0).serving = true ∧ (looking lookup0).mortise.lookups.find? (·.id == 3) = some lookup0 ∧
    lookup0.phase = .secondRuns ∧ ((looking lookup0).secondDone lookup0).1.phase ≠ .secondRuns ∧
    ((looking { lookup0 with waitPub := true }).secondDone { lookup0 with waitPub := true }).1.phase = .secondRuns := by decide +kernel

def entry0 : Entry := { stamp := 0, fp := 77, variant := 5, tenant := 7, part := 1, published := false, fold := 1, priority := 4, payload := 0, moving := false }

theorem witness_best_match : bestMatch [(0, 0, entry0), (0, 1, { entry0 with priority := 6 }), (1, 0, { entry0 with priority := 6 })] =
    some (0, 1, { entry0 with priority := 6 }) := by decide +kernel

/-- The partition has a public salt, and the sequence none of its own ledger blocks published. -/
def salted : State := base.onObjs fun o => { o with salts := [(1, List.replicate 32 9)] }
def fps0 : List Nat := chainFrom (List.replicate 32 9) 5 seq0.ledger 1 0 0

def pub0 : PublishBody := { length := 64, cls := 2 }

theorem witness_publish : salted.LetsIn (.publish (rx 0x21 h0 8) pub0) qp0 (rx 0x21 h0 8) 0x21 0 seq0 (salted.admitted qp0 (rx 0x21 h0 8) 0x21 0) ∧
    (salted.admitted qp0 (rx 0x21 h0 8) 0x21 0).publicSalt 1 = some (List.replicate 32 9) ∧ (64 : BitVec 23).toNat ≤ seq0.sealedPos ∧
    (salted.admitted qp0 (rx 0x21 h0 8) 0x21 0).mortiseUp = true ∧ (rx 0x21 h0 8).hdr.bodyLen = 8 ∧ pub0.length.toNat % 64 = 0 ∧ pub0.length ≠ 0 ∧
    2 ≤ pub0.cls.toNat ∧ seq0.posBase = 0 ∧ seq0.ledgerLost = false :=
  ⟨letsIn_of _ (by decide +kernel), by decide +kernel⟩

/-- The other ends of a PUBLISH: the ledger lost, a length of no whole block, no public salt, no room for a record, and the Mortise island fenced. -/
theorem witness_publish_refused : { seq0 with st := .ledgerLost }.ledgerLost = true ∧ { pub0 with length := 65 }.length.toNat % 64 ≠ 0 ∧
    base.publicSalt 1 = none ∧ (salted.onObjs fun o => { o with active := [(okey 0x2402 9 1, 0)] }).publishFits seq0 2 [7] = false ∧
    (salted.onFaults fun f => { f with fences := [{ source := srcIsland 17, since := 0 }] }).mortiseUp = false := by decide +kernel

theorem witness_publish_fits : salted.publishFits seq0 2 [7] = true := by decide +kernel

theorem witness_unpublish : salted.LetsIn (.unpublish (rx 0x22 h0 8) 0) qp0 (rx 0x22 h0 8) 0x22 0 seq0 (salted.admitted qp0 (rx 0x22 h0 8) 0x22 0) :=
  letsIn_of _ (by decide +kernel)

def array : State := base.onMortise fun m => { m with
  insertions := [{ id := 3, issued := true, entry := entry0, block := 0, cls := 1, holder := h0 }], banks := [{ num := 2, slots := [(5, entry0)] }], target := some 1 }

theorem witness_array : array.serving = true ∧ array.mortise.insertions.find? (·.id == 3) = some { id := 3, issued := true, entry := entry0, block := 0, cls := 1, holder := h0 } ∧
    (array.bank 2).slots.find? (·.1 == 5) = some (5, entry0) ∧ array.mortise.target = some 1 ∧ array.stampAge 0 ≤ 32768 ∧
    32768 < array.stampAge 1 := by decide +kernel

/-- Every island's table gives every slice to partition 1. -/
def tabled (s : State) : State :=
  s.onIslands fun l => l.map fun i => { i with table := { map := [], owners := List.replicate 64 (some 1) } }
def pays (s : State) (l : List Cost) : Bool := (s.chargeAll (mergeCosts l)).2.isNone
/-- Nothing can be charged on an island whose clock changes. -/
def relocking (s : State) : State := s.onIslands fun l => l.map fun i => { i with st := .clockChanging }

theorem witness_array_pays : pays array [searchCost 64 7 (cdiv (array.bank 2).slots.length 8)] = true ∧ pays array [searchCost 64 5 1] = true ∧
    pays array [searchCost 64 7 (5 * (array.outside 1).length)] = true ∧ pays (relocking array) [searchCost 64 7 1] = false ∧
    pays (relocking array) [searchCost 64 5 1] = false ∧ (array.outside 1).length = 1 ∧ (array.bank 2).slots.find? (·.1 == 6) = none := by decide +kernel

/-! ### APPEND, STAGE, DELIVER -/

def app0 : AppendBody :=
  { firstLayer := 0, layerCount := 0, firstPos := 64, posCount := 0, fmt := 2, byRef := true, ledgerPresent := false, headMask := 1, payloadAddr := 0
    payloadKey := 0, payloadLen := BitVec.ofNat 32 (256 * payloadBytes 2), payload := [] }

def inline0 : AppendBody := { app0 with byRef := false, payload := List.replicate (256 * payloadBytes 2) 0 }

theorem witness_append : base.LetsIn (.append (rx 0x30 h0 32) app0) qp0 (rx 0x30 h0 32) 0x30 (appendRefBytes app0) seq0
      (base.admitted qp0 (rx 0x30 h0 32) 0x30 (appendRefBytes app0)) ∧
    (base.admitted qp0 (rx 0x30 h0 32) 0x30 (appendRefBytes app0)).holds 1 seq0 = true :=
  ⟨letsIn_of _ (by decide +kernel), by decide +kernel⟩

def free1 : Seq := { seq0 with holder := none }

theorem witness_append_not_owner : (world [free1] [node0] [qp0]).LetsIn (.refreshAppend (rx 0x30 h0 32) app0) qp0 (rx 0x30 h0 32) 0x30 (appendRefBytes app0) free1
      ((world [free1] [node0] [qp0]).admitted qp0 (rx 0x30 h0 32) 0x30 (appendRefBytes app0)) ∧
    ((world [free1] [node0] [qp0]).admitted qp0 (rx 0x30 h0 32) 0x30 (appendRefBytes app0)).holds 1 free1 = false :=
  ⟨letsIn_of _ (by decide +kernel), by decide +kernel⟩

def page0 : Page :=
  { layer := 0, head := 0, index := 1, tier := .hbm, fmt := 1, gen := 0, packed := false, dirty := true, pinned := false, glob := false, lost := false, valid := 0
    frame := 32, pins := 0, copy := none, frames := [2, 3], imageLen := 0, packTried := 0, kerfTried := 0, copyFreed := none }

def req0 : Req := { qp := 1, opcode := 0x30, tag := 9, partition := 1, tenant := 7, handle := h0, bytes := 0 }

def append0 : Append :=
  { id := 3, req := req0, body := app0, refresh := false, handle := h0, epoch := 1, node := 64, phase := .scattering, payload := [], shape := true, ready := true, bare := false, done := false, got := []
    tabs := [], wants := [], tabNeed := 0, acceptedUs := 0, holdUs := 0, heldIn3 := false, fromReserve := 0, recycled := false, newPages := 0 }

def paged : Seq := { seq0 with pages := [page0] }
def appending : State := (world [paged] [node0] [qp0]).onWork fun w => { w with appends := [append0] }
def holding0 : Append := { append0 with phase := .holding }
def holding : State := (world [paged] [node0] [qp0]).onWork fun w => { w with appends := [holding0] }

def stg0 : Staging :=
  { id := 3, page := { handle := h0, layer := 0, head := 0, index := 0 }, kind := .request, frames := [2, 3], place := some 32, relay := false, verified := true
    image := [], due := false, startUs := 0, pin := false }

theorem witness_append_completes : appending.serving = true ∧ appending.append 3 = some append0 ∧ appending.seq append0.handle = some paged ∧
    paged.targets append0 = [page0] ∧ page0.pins ≠ 255 ∧ page0.lost = false ∧ paged.appendAway append0 = [] ∧
    pays ((tabled appending).onAppend 3 fun y => { y with done := true }) (((tabled appending).onAppend 3 fun y => { y with done := true }).appendCosts paged append0) = true ∧
    append0.body.ledgerPresent = false := by decide +kernel

theorem witness_append_holds : holding.append 3 = some holding0 ∧ holding0.bare = false ∧ holding.clock.us < holding.holdUntil holding0 ∧
    (later holding 1000000).holdUntil holding0 ≤ (later holding 1000000).clock.us ∧
    (holding.onWork fun w => { w with appends := [{ holding0 with phase := .staging 3 }], stagings := [{ stg0 with place := none }] }).staging 3 =
      some { stg0 with place := none } := by decide +kernel

theorem witness_position_written : Memory.wf appending.hbm.mem ∧ (appending.seq paged.handle).bind (fun y => y.page 0 0 ((64 - paged.posBase) / 64)) = some page0 ∧
    ∀ x ∈ positionWrites paged.fmt 0 [] [], 0 < page0.frame * 1024 + x.1 ∨ page0.frame * 1024 + x.1 + x.2.length ≤ 0 := by decide +kernel

def stage0 : StageBody := { firstLayer := 0, layerCount := 0, early := false, globalField := 1, firstPos := 0, endPos := 128, headMask := 1 }

def page1 : Page := { page0 with index := 0, dirty := false, valid := 63 }
def full : Seq := { seq0 with pages := [page1] }
def staging0 : State := world [full] [node0] [qp0]
def ustage : State := staging0.admitted qp0 (rx 0x32 h0 24) 0x32 0

theorem witness_stage : staging0.LetsIn (.stage (rx 0x32 h0 24) stage0) qp0 (rx 0x32 h0 24) 0x32 0 full ustage ∧
    (ustage.touchLinked 6 h0).holds 1 full = true ∧
    full.stageFits (rx 0x32 h0 24) stage0 = true ∧ ((ustage.touchLinked 6 h0).stagePages h0 full stage0).length = 1 ∧
    full.globalAfter (((ustage.touchLinked 6 h0).stagePages h0 full stage0).filter fun y => y.1.handle == h0) true ≤ 64 ∧
    (ustage.touchLinked 6 h0).pinsTooMany 1 ((ustage.touchLinked 6 h0).stagePages h0 full stage0) = false :=
  ⟨letsIn_of _ (by decide +kernel), by decide +kernel⟩

/-- The refusals of a STAGE: the lease, the ledger, the form, the 65th global page, and the pinned limit. -/
theorem witness_stage_refused : (world [free1] [node0] [qp0]).holds 1 free1 = false ∧ stage0.globalField ≠ 0 ∧ { full with st := .ledgerLost }.ledgerLost = true ∧
    full.stageFits (rx 0x32 h0 32) stage0 = false ∧ 64 < ({ full with globalPages := 64 }).globalAfter [({ full with globalPages := 64 }, page1)] true ∧
    (staging0.onObjs fun o => { o with rw := [(okey 0x2101 0x0D 1, 0)] }).pinsTooMany 1 [(full, page1)] = true := by decide +kernel

def sreq0 : StageReq :=
  { id := 4, req := { req0 with opcode := 0x32 }, epoch := 1, handle := h0, waits := [3], pin := false, staged := 0, inHbm := 0, lostPos := none, pages := []
    startUs := 0, early := false, ended := none }

def away : Seq := { full with pages := [{ page1 with tier := .flash, copy := some 5 }] }
def landing : State := (tabled (world [away] [node0] [qp0])).onWork fun w => { w with stagings := [stg0] }

theorem witness_staging : landing.staging 3 = some stg0 ∧ stg0.verified = true ∧ stg0.place = some 32 ∧ landing.seq stg0.page.handle = some away ∧
    (landing.page stg0.page).map (fun p => (p.pins, p.tier)) = some (0, .flash) ∧
    pays (landing.onStaging 3 fun y => { y with due := true }) [burstCost 32 1 2 (cdiv stg0.image.length 64)] = true ∧
    stg0.startUs + 1000 * (later landing 100000).actAt ((later landing 100000).heldEpoch 3) 0x2301 7 (handlePart stg0.page.handle) ≤
      (later landing 100000).clock.us := by decide +kernel

theorem witness_stage_timeout : (later (staging0.onWork fun w => { w with stageReqs := [sreq0] }) 100000).staging 4 = none ∧
    (staging0.onWork fun w => { w with stageReqs := [sreq0] }).stageReq 4 = some sreq0 ∧
    sreq0.startUs + 1000 * staging0.actAt sreq0.epoch 0x2301 7 sreq0.req.partition ≤ (later staging0 100000).clock.us := by decide +kernel

def del0 : DeliverBody :=
  { firstLayer := 0, layerCount := 0, depth := 0, kerfAllowed := false, firstPos := 0, posLimit := 64, headMask := 1, regionAddr := 0, regionKey := 0
    regionLen := 1048576 }
def delivery0 : Delivery :=
  { id := 3, req := { req0 with opcode := 0x33 }, body := del0, handle := h0, epoch := 1, node := 64, limit := 64, layer := 0, consumed := 0
    waitSince := some 0, stageSince := some 0, ended := none }
def delivering (d : Delivery) : State := staging0.onWork fun w => { w with deliveries := [d] }
def udel : State := (staging0.admitted qp0 (rx 0x33 h0 40) 0x33 0).touchLinked 6 h0

theorem witness_deliver : staging0.LetsIn (.deliver (rx 0x33 h0 40) del0) qp0 (rx 0x33 h0 40) 0x33 0 full (staging0.admitted qp0 (rx 0x33 h0 40) 0x33 0) ∧ udel.holds 1 full = true ∧
    full.deliverFits (rx 0x33 h0 40) del0 (udel.deliverLimit full del0) = true ∧ udel.work.deliveries = [] :=
  ⟨letsIn_of _ (by decide +kernel), by decide +kernel⟩

theorem witness_deliver_refused : { full with st := .ledgerLost }.ledgerLost = true ∧
    full.deliverFits (rx 0x33 h0 48) del0 (udel.deliverLimit full del0) = false ∧
    (∃ d ∈ (delivering delivery0).work.deliveries, d.handle = (rx 0x33 h0 40).hdr.handle.toNat) ∧
    (world [free1] [node0] [qp0]).holds 1 free1 = false := ⟨by decide +kernel, by decide +kernel, ⟨delivery0, List.mem_singleton.2 rfl, by decide +kernel⟩, by decide +kernel⟩

theorem witness_progress : (delivering delivery0).Accepts qp0 (rx 0x34 h0 8) 0x34 .checked 0 ((delivering delivery0).admitted qp0 (rx 0x34 h0 8) 0x34 0) ∧
    ((delivering delivery0).admitted qp0 (rx 0x34 h0 8) 0x34 0).work.deliveries.find? (fun d => d.req.tag == (9 : W32).toNat &&
      ((((delivering delivery0).admitted qp0 (rx 0x34 h0 8) 0x34 0).nodeOf 1).map (·.num)) == some d.node) = some delivery0 ∧
    ((staging0.admitted qp0 (rx 0x34 h0 8) 0x34 0).work.deliveries.find? fun d => d.req.tag == (9 : W32).toNat &&
      ((staging0.admitted qp0 (rx 0x34 h0 8) 0x34 0).nodeOf 1).map (·.num) == some d.node) = none :=
  ⟨accepts_of (by decide +kernel), by decide +kernel⟩

theorem witness_delivery_goes_on : (delivering delivery0).delivery 3 = some delivery0 ∧ (delivering delivery0).epochLive delivery0.epoch = true ∧
    delivery0.layer ≤ delivery0.body.layerCount.toNat ∧ delivery0.blocked = false ∧
    (delivering { delivery0 with epoch := 9 }).epochLive 9 = false ∧ { delivery0 with layer := 1 }.body.layerCount.toNat < 1 := by decide +kernel

theorem witness_delivery_idle : { delivery0 with body := { del0 with layerCount := 8 }, layer := 2 }.blocked = true ∧
    0 + 1000 * staging0.actAt 1 0x2301 0x0B 1 ≤ (later staging0 50000).clock.us ∧ delivery0.stageSince = some 0 ∧
    0 + 1000 * staging0.actAt 1 0x2301 7 1 ≤ (later staging0 100000).clock.us := by decide +kernel

/-! ### ATTEND -/

def row0 : RowBody :=
  { handle := BitVec.ofNat 64 h0, queryPos := 63, keyLimit := 64, tolClass := 0, kerfAllowed := false, refreshFallback := false, inlineKv := false
    winPolicy := false, group := 0, headMask := 1, window := 0 }

def att0 : AttendBody :=
  { layer := 0, rowCount := 0, qFmt := 0, oFmt := 0, oMode := 0, qByRef := true, oByRef := true, noFusion := false, scale := 0
    qLen := BitVec.ofNat 32 (rowQueryBytes 0 row0), qAddr := 0, qKey := 0, oKey := 0, oAddr := 0, oAvail := 1048576, rows := [row0], payload := [] }

def uatt : State := staging0.admitted qp0 (rx 0x31 0 80) 0x31 att0.qLen.toNat

theorem witness_attend : staging0.Accepts qp0 (rx 0x31 0 80) 0x31 .checked att0.qLen.toNat uatt ∧ uatt.attendWaits (rx 0x31 0 80) att0 none = none ∧
    (rx 0x31 0 80).hdr.epoch.toNat = uatt.epochs.active ∧ uatt.attendShape (rx 0x31 0 80) att0 = true ∧ (uatt.qp 1).isSome = true :=
  ⟨accepts_of (by decide +kernel), by decide +kernel⟩

def later9 : Seq := { full with epochQueue := [.modeMoveComplete] }

theorem witness_attend_waits : (world [later9] [node0] [qp0]).attendWaits (rx 0x31 0 80) att0 none = some h0 ∧
    uatt.attendShape (rx 0x31 0 88) att0 = false := by decide +kernel

theorem witness_attend_inline : staging0.attendShape (rx 0x31 0 (80 + rowQueryBytes 0 row0))
    { att0 with qByRef := false, payload := List.replicate (rowQueryBytes 0 row0) 0 } = true := by decide +kernel

def arow0 : Row :=
  { body := row0, status := none, limit := 64, window := 0, winPolicy := false, empty := false, clipped := false, clamped := false, nonFinite := false
    refresh := false, kerfUsed := false, fused := false, position := 63, homeCluster := 0 }
def attend0 : Attend := { id := 6, req := { req0 with opcode := 0x31 }, body := att0, epoch := 1, node := 64, rows := [arow0], queries := [], ready := true, next := 1 }
def tile0 : Tile :=
  { id := 7, att := 6, row := 0, layer := 0, head := 0, page := { handle := h0, layer := 0, head := 0, index := 0 }, core := 0, inline_ := false, fusible := true
    st := .ready }
def group0 : Group := { id := 8, core := 0, page := tile0.page, members := [9], served := 1, rows := [], tenants := [] }
def accum0 : Accum := { id := 9, att := 6, row := 0, head := 0, level := 1, unit := 0, expected := 0, vals := [] }

def attending (t : Tile) (gs : List Group) : State :=
  staging0.onWork fun w => { w with attends := [attend0], tiles := [t], groups := gs, accums := [accum0] }

theorem witness_tile_ready : (attending tile0 []).serving = true ∧ (attending tile0 []).tile 7 = some tile0 ∧ (attending tile0 []).rowOf tile0 = some (attend0, arow0) ∧
    (attending tile0 []).seq row0.handle.toNat = some full ∧ (attending tile0 []).page tile0.page = some page1 ∧ page1.lost = false ∧ page1.tier = .hbm ∧
    page1.pins < 254 ∧ (attending tile0 []).onBoard tile0 = true ∧ page1.fmt ≠ 11 ∧ (attending tile0 []).coreRoom tile0 attend0 arow0 page1.stored = true := by
  decide +kernel

theorem witness_tile_joins : (attending tile0 [group0]).work.groups.find? (fun g => g.core == tile0.core && g.page == tile0.page &&
      g.served < (attending tile0 [group0]).actAt full.epoch 0x2201 7 full.part) = some group0 ∧
    (attending tile0 [group0]).coreRoom tile0 attend0 arow0 0 = true := by decide +kernel

/-- Once an island's table is that of the map, the partition's attention class has budget there. -/
theorem witness_tile_pays : pays (tabled (attending tile0 [])) ((attending tile0 []).pinCosts tile0 arow0 1 ++ [issueCost tile0.core 1
      (issueCycles page1.fmt att0.qFmt.toNat row0.groupN), burstCost page1.frame 1 0 ((attending tile0 []).fetchBursts tile0 arow0 full page1)]) = true ∧
    pays (tabled (attending tile0 [group0])) [walkCost (tile0.core / 8) 1 0 ((attending tile0 [group0]).tileWalk tile0 arow0).length,
      issueCost tile0.core 1 (issueCycles page1.fmt att0.qFmt.toNat row0.groupN)] = true := by decide +kernel

def own0 : Tile := { tile0 with inline_ := true, page := { tile0.page with index := 1 } }

theorem witness_tile_own : (attending own0 []).tile 7 = some own0 ∧ (attending own0 []).onBoard own0 = true ∧ (attending own0 []).rowOf own0 = some (attend0, arow0) ∧
    (∀ y ∈ (attending own0 []).work.tiles, ¬(y.att = own0.att ∧ y.row = own0.row ∧ y.head = own0.head ∧ y.core = own0.core ∧ y.id ≠ own0.id)) ∧
    (attending own0 []).coreRoom own0 attend0 arow0 0 = true ∧
    pays (tabled (attending own0 [])) [issueCost own0.core 1 (cdiv (issueCycles full.fmt att0.qFmt.toNat row0.groupN) 64)] = true := by decide +kernel

theorem witness_tile_ends : 254 ≤ { page1 with pins := 254 }.pins ∧ { page1 with lost := true }.lost = true ∧ { page1 with tier := .peer }.tier ≠ .hbm := by
  decide +kernel

theorem witness_tile_waits : (attending { tile0 with st := .fuseWait } []).tile 7 = some { tile0 with st := .fuseWait } := by decide +kernel

theorem witness_tile_computes : (attending { tile0 with st := .issued 8 } [group0]).rowOf { tile0 with st := .issued 8 } = some (attend0, arow0) ∧
    (attending tile0 []).accum 9 = some accum0 ∧ accum0.expected = 0 ∧ accum0.level < 2 ∧
    (staging0.onWork fun w => { w with attends := [{ attend0 with rows := [{ arow0 with status := some .ok }] }] }).attend 6 =
      some { attend0 with rows := [{ arow0 with status := some .ok }] } := by decide +kernel

def part0 : QPartial := QPartial.none_

theorem witness_masked : part0.empty = true ∧ { part0 with empty := false }.empty = false ∧ Val.finite Val.nan = false := by decide +kernel

def one0 : List Val := [.fin (2 ^ 160)]
def big0 : List Val := [.fin (2 ^ 287)]

theorem witness_partials : part0.nan = false ∧ (encFp32.decode (0x3F800000 : W32).toNat).finite = true ∧ operandsFinite 0 one0 = true ∧
    operandsFinite 0x7F000000 big0 = true ∧ scoreOverflows 0x7F000000 big0 big0 = true ∧ (∀ e ∈ one0 ++ one0, Val.finite e = true) ∧
    scoreOverflows 0 one0 one0 = false ∧ one0.getD 0 (.fin 0) = encFp32.decode (0x3F800000 : W32).toNat := by decide +kernel

/-- R101: two keys of equal score have probability 1 each, so l = 2 and o is the sum of their values. -/
theorem test_partial_of_equal_scores : ((State.reset.newPartial 0 1 part0 one0 [one0, one0] [[.fin (2 ^ 160)], [.fin (2 ^ 161)]]).1.l,
    (State.reset.newPartial 0 1 part0 one0 [one0, one0] [[.fin (2 ^ 160)], [.fin (2 ^ 161)]]).1.o.getD 0 0) = (0x40000000, 0x40400000) := by decide +kernel

/-! ### Mirrors, relays and probes -/

def peered : State := world [seq0] [peer0] [qp0]

def geo0 : AdmitBody := { admit0 with tokens := [], context := [] }
def led0 : LedgerBody :=
  { handle := BitVec.ofNat 64 h0, firstPos := 1, geometry := geo0, admitter := 9, holder := 9, context := List.replicate 8 0, tokens := [4, 5] }
def mirror0 : Mirror := { part := 1, peer := 64, peerIdent := 9, handle := h0, body := led0, tokens := [1, 2], pages := [] }
def mirrored : State := peered.onBroker fun b => { b with mirrors := [mirror0] }
def usync : State := mirrored.admitted qp0 (rx 0x60 0 144) 0x60 0

theorem witness_ledger_sync : mirrored.FromPeer qp0 (rx 0x60 0 144) 0x60 peer0 led0.handle.toNat false usync ∧
    ledgerFits (rx 0x60 0 144) led0 (led0.handle != 0) = true ∧ ledgerFits (rx 0x60 0 144) led0 false = true ∧ ledgerFits (rx 0x60 0 152) led0 false = false ∧
    usync.mirror peer0 h0 = some mirror0 ∧ led0.firstPos.toNat ≤ mirror0.tokens.length ∧
    usync.mirrorFrames 1 + 1 - 1 ≤ usync.openFrames 1 ∧ led0.handle ≠ 0 :=
  ⟨fromPeer_of _ _ (by decide +kernel), by decide +kernel⟩

/-- A partition without a slice has no frame for a mirror (kind 0), nor for one that grows by a frame (kind 1). -/
theorem witness_ledger_no_room : State.reset.openFrames 1 < State.reset.mirrorFrames 1 + cdiv led0.tokens.length 4096 ∧
    State.reset.openFrames 1 < State.reset.mirrorFrames 1 + cdiv 4097 4096 - cdiv 4096 4096 := by decide +kernel

theorem witness_ledger_unknown : ledgerFits (rx 0x60 0 144) { led0 with handle := 0 } false = true ∧ peered.mirror peer0 h0 = none := by decide +kernel

def gone0 : GonePeer := { part := 1, ident := 9, fenced := false }
def outcast : State := peered.onBroker fun b => { b with gone := [gone0] }

theorem witness_gone_peer : outcast.Accepts qp0 (rx 0x60 0 144) 0x60 .unchecked 0 (outcast.admitted qp0 (rx 0x60 0 144) 0x60 0) ∧
    outcast.Accepts qp0 (rx 0x61 0 40) 0x61 .unchecked 0 (outcast.admitted qp0 (rx 0x61 0 40) 0x61 0) ∧
    (outcast.admitted qp0 (rx 0x60 0 144) 0x60 0).nodeOf 1 = some peer0 ∧
    (outcast.admitted qp0 (rx 0x60 0 144) 0x60 0).broker.gone.find? (fun x => x.part == peer0.part && x.ident == peer0.ident) = some gone0 :=
  ⟨accepts_of (by decide +kernel), accepts_of (by decide +kernel), by decide +kernel⟩

def back : State := peered.onBroker fun b => { b with gone := [{ gone0 with fenced := true }] }

theorem witness_fenced_peer : back.Accepts qp0 (rx 0x60 0 144) 0x60 .unchecked 0 (back.admitted qp0 (rx 0x60 0 144) 0x60 0) ∧
    (back.admitted qp0 (rx 0x60 0 144) 0x60 0).nodeOf 1 = some peer0 ∧ (back.admitted qp0 (rx 0x60 0 144) 0x60 0).broker.mirrors = [] ∧
    (back.admitted qp0 (rx 0x60 0 144) 0x60 0).broker.gone.find? (fun x => x.part == peer0.part && x.ident == peer0.ident) =
      some { gone0 with fenced := true } := ⟨accepts_of (by decide +kernel), by decide +kernel⟩

def img0 : RelayImage := { tagOk := true, fmt := 1, coded := false, valid := 63, keyTable := 0, valueTable := 0, content := [] }
def relay0 : RelayBody :=
  { pageCount := 0, handle := BitVec.ofNat 64 h0, firstPos := 0, endPos := 64, winOffset := 0, winLen := 0
    pages := [{ layer := 0, head := 0, index := 0, ref := 1 }], images := [img0] }
def urelay (n : Nat) : State := peered.admitted qp0 (rx 0x61 0 n) 0x61 0

theorem witness_relay : peered.FromPeer qp0 (rx 0x61 0 40) 0x61 peer0 relay0.handle.toNat true (urelay 40) ∧ (rx 0x61 0 40).hdr.bodyLen.toNat = 32 + 8 * relay0.pages.length ∧
    (rx 0x61 0 48).hdr.bodyLen.toNat ≠ 32 + 8 * relay0.pages.length ∧
    relay0.pages.length = relay0.pageCount.toNat + 1 := ⟨fromPeer_of _ _ (by decide +kernel), by decide +kernel⟩

theorem witness_relay_copy : peered.FromPeer qp0 (rx 0x61 0 32) 0x61 peer0 relay0.handle.toNat true (urelay 32) ∧ (rx 0x61 0 32).hdr.bodyLen = 32 ∧
    (urelay 32).seq relay0.handle.toNat = some seq0 ∧ seq0.part = peer0.part ∧ (urelay 32).seq 0 = none ∧
    (world [{ seq0 with part := 2 }] [peer0] [qp0]).seq { seq0 with part := 2 }.handle = some { seq0 with part := 2 } :=
  ⟨fromPeer_of _ _ (by decide +kernel), by decide +kernel⟩

theorem witness_sync_answer : (asking peered (.sync .tokens h0 64)).Answers qp0 (reply0 0) AskKind.isSync (ask0 (.sync .tokens h0 64))
      (((asking peered (.sync .tokens h0 64)).heard qp0).dropAsk (ask0 (.sync .tokens h0 64))) ∧
    (((asking peered (.sync .tokens h0 64)).heard qp0).dropAsk (ask0 (.sync .tokens h0 64))).seq h0 = some seq0 ∧ (reply0 8).status = 8 ∧ (reply0 1).status ≠ 8 :=
  ⟨answers_of (by decide +kernel), by decide +kernel⟩

theorem witness_mirror_timeout : (asking peered (.sync .tokens h0 64)).lateSyncs h0 = [ask0 (.sync .tokens h0 64)] ∧
    sentUpTo [ask0 (.sync .tokens h0 64)] ≠ 0 ∧ (ask0 (.sync .tokens h0 64)).kind ≠ .sync .readmit h0 64 ∧ (BitVec.ofNat 64 h0).toNat = h0 := by decide +kernel

def tx0 (k : Nat) : RelayTx :=
  { id := 3, kind := k, peer := 64, part := 1, tenant := 7, pages := [], stagings := [], forSeq := h0, length := 0, offset := 0, bytes := 0, deadlineUs := 0 }
def relaying (k : Nat) : State := (asking peered (.relay 3)).onBroker fun b => { b with relays := [tx0 k] }

theorem witness_relay_answer : (relaying 0).Answers qp0 (reply0 0) AskKind.isRelay (ask0 (.relay 3)) (((relaying 0).heard qp0).dropAsk (ask0 (.relay 3))) ∧
    (((relaying 0).heard qp0).dropAsk (ask0 (.relay 3))).broker.relays.find? (·.id == 3) = some (tx0 0) ∧ (reply0 0).status ≠ 8 ∧ (tx0 0).pages = [] ∧
    (relaying 1).broker.relays.find? (·.id == 3) = some (tx0 1) ∧ (relaying 2).broker.relays.find? (·.id == 3) = some (tx0 2) ∧
    (relaying 1).due (tx0 1).deadlineUs = true := ⟨answers_of (by decide +kernel), by decide +kernel⟩

def probe0 : ProbeBody := { variant := 5, tokenCount := 2, headMask := 1, tenant := 7, tokens := [1, 2] }

theorem witness_probe : peered.Accepts qp0 (rx 0x62 0 32) 0x62 .unchecked 0 (peered.admitted qp0 (rx 0x62 0 32) 0x62 0) ∧
    (rx 0x62 0 32).hdr.bodyLen.toNat = 24 + 8 * cdiv probe0.tokenCount.toNat 2 ∧ (rx 0x62 0 40).hdr.bodyLen.toNat ≠ 24 + 8 * cdiv probe0.tokenCount.toNat 2 ∧ probe0.tokens.length = probe0.tokenCount.toNat ∧ probe0.headMask ≠ 0 :=
  ⟨accepts_of (by decide +kernel), by decide +kernel⟩

theorem witness_probe_answer : (asking peered (.probe h0)).Answers qp0 (reply0 0) AskKind.isProbe (ask0 (.probe h0))
    (((asking peered (.probe h0)).heard qp0).dropAsk (ask0 (.probe h0))) := answers_of (by decide +kernel)

theorem witness_probe_late : (asking peered (.probe h0)).broker.relays.find? (·.id == 4) = none ∧
    (asking peered (.probe h0)).broker.asks.find? (·.tag == 4) = some (ask0 (.probe h0)) ∧ (asking peered (.probe h0)).due (ask0 (.probe h0)).untilUs = true := by
  decide +kernel

/-! ### Mailboxes -/

def write0 : MailboxWrite :=
  { qp := 1, addr := BitVec.ofNat 64 (0x4D42000000000000 + 256 * 2), key := 0x4D42, packets := 1, length := 40, imm := 2, hdr := hdr 0x40 0 8, body := List.replicate 8 0 }
def ubox : State := (((base.heard qp0).rxPackets qp0 1).bump 0x5100 9 (65536 + 7) 40).bump 0x5002 9 0 40

theorem witness_mailbox_write : base.serving = true ∧ base.qp 1 = some qp0 ∧ boxAt 1 write0.addr.toNat write0.key.toNat = some (1, 2, 0) ∧
    ((base.heard qp0).rxPackets qp0 1).domainOff 1 = false ∧ base.mailbox 1 2 = none ∧ base.boxKind 1 2 ≠ 2 ∧ ubox.boxFault qp0 write0 1 2 = none ∧
    (ubox.police 0 1 7 40 false).1 = true := by decide +kernel

/-- What stops a mailbox write: an address outside the window, two packets or bytes past the mailbox, a check of R390, and the policer of its tenant. -/
theorem witness_mailbox_refused : boxAt 1 0 0x4D42 = none ∧ { write0 with packets := 2 }.packets ≠ 1 ∧ 256 < 217 + write0.length ∧
    ubox.boxFault qp0 { write0 with imm := 3 } 1 2 = some .malformed ∧
    ((ubox.onNet fun n => { n with
      params := [[(okey 0x5022 6 0, 1)], []]
      policers := [{ die := 0, part := 1, tenant := 7, overflow := false, bytes := -1, msgs := 0 }] }).police 0 1 7 40 false).1 = false := by
  decide +kernel

def box0 : Mailbox :=
  { part := 1, num := 2, full := true, delivering := true, kind := 0, fromOperator := false, sender := 64, senderReq := none, hdr := none, body := [], ident := 9
    untilUs := 0 }
def boxed : State := (asking base (.mailbox 1 2)).onMailboxes fun _ => [box0]

theorem witness_mailbox_full : boxed.mailbox 1 2 = some box0 ∧ boxed.due box0.untilUs = true ∧ box0.delivering = true ∧
    (base.onObjs fun o => { o with active := [(okey 0x7801 3 (boxItem 1 2), 2)] }).boxKind 1 2 = 2 ∧ State.reset.domainOff 1 = true := by decide +kernel

theorem witness_mailbox_taken : boxed.Answers qp0 (reply0 0) AskKind.isMailbox (ask0 (.mailbox 1 2)) ((boxed.heard qp0).dropAsk (ask0 (.mailbox 1 2))) ∧
    ((boxed.heard qp0).dropAsk (ask0 (.mailbox 1 2))).mailbox 1 2 = some box0 := ⟨answers_of (by decide +kernel), by decide +kernel⟩

/-! ### Connections, rings, congestion and ports -/

def cm0 : CmReq :=
  { lp := 0, gidIndex := 0, srcGid := 1, vlan := 0, mtu := 4096, partition := 1, mode := 1, slotSize := 1, slotCount := 1, shareRing := 0, ringAddr := 0
    ringKey := 0, ringLen := 65536 }
/-- Partition 1 may use the first GID of logical port 0 and has a share of it. -/
def granted : State := base.onObjs fun o => { o with active := [(okey 0x6401 0x10 0, 1), (okey 0x6401 0x20 0, 1)] }

theorem witness_connection : reqLegal cm0 = true ∧ granted.reqGranted cm0 = true ∧ granted.freeQp 1 = some 0 ∧ (granted.freeRing 1 none).isSome = true ∧
    (granted.openQp cm0).isSome = true ∧ granted.openQp { cm0 with mode := 3 } = none := by decide +kernel

def ring0 : Ring :=
  { num := 5, kind := .command, part := 1, srcGid := 1, qps := [1], slotSize := 512, slots := 32, producer := 3, busy := [], waiting := [], consumed := 0, addr := 0
    key := 0, length := 65536, written := 0, consumer := 0, held := [] }
def msg0 : Msg :=
  { opcode := 2, completion := true, device := false, status := .ok, partition := 1, tenant := 7, epoch := 1, tag := 9, handle := 0, words := [], data := [] }
def qpr : Qp := { qp0 with mode := 1, cmdRing := some 5, compRing := some 6 }
def cring0 : Ring := { ring0 with num := 6, kind := .completion, held := [(1, 0, msg0)] }
def ringed : State := (world [] [node0] [qpr]).onNet fun n => { n with rings := [ring0, cring0] }
def rw0 : RingWrite := { qp := 1, slot := 3, length := 600, imm := 3 * 2 ^ 20, bytes := [] }

theorem witness_ring_write : qpr.cmdRing.bind ringed.ring = some ring0 ∧ cdiv rw0.length ring0.slotSize = 2 ∧ rw0.slot + 2 ≤ ring0.slots ∧ ring0.busy = [] ∧
    rw0.imm.toNat / 2 ^ 20 = rw0.slot ∧ rw0.slot = ring0.producer ∧ { rw0 with slot := 30 }.imm.toNat / 2 ^ 20 ≠ 30 ∧ 30 + 2 ≤ ring0.slots ∧
    ring0.slots < 31 + 2 ∧ { ring0 with busy := [4] }.busy = [4] ∧ { rw0 with slot := 0, imm := 0 }.imm.toNat / 2 ^ 20 = 0 ∧
    ring0.slots < { ring0 with producer := 31 }.producer + 2 ∧ codeless (0 :: 0 :: 0x70 :: List.replicate 29 0) = true ∧ codeless (0 :: 0 :: 2 :: List.replicate 29 0) = false := by
  decide +kernel

/-- 64 bytes from the ring's end; and a node that has reported nothing since the ring was full. -/
def tail0 : Ring := { cring0 with length := 65536, written := 65472, consumer := 65472, held := [(1, 0, { msg0 with data := List.replicate 64 0 })] }

theorem witness_completion_ring : ringed.ring 6 = some cring0 ∧ cring0.held = (qpr.num, 0, msg0) :: [] ∧ ringed.qp 1 = some qpr ∧
    cdiv (16 + msg0.bytes) 64 * 64 ≤ cring0.length - cring0.written % cring0.length ∧ cdiv (16 + msg0.bytes) 64 * 64 ≤ cring0.room ∧
    qpr.compRing = some 6 ∧ qpr.connected = true ∧ { cring0 with written := 65536 }.room < 64 ∧
    tail0.length - tail0.written % tail0.length < cdiv (16 + { msg0 with data := List.replicate 64 0 }.bytes) 64 * 64 ∧
    tail0.length - tail0.written % tail0.length ≤ tail0.room ∧
    { tail0 with written := 131008 }.room < { tail0 with written := 131008 }.length - { tail0 with written := 131008 }.written % { tail0 with written := 131008 }.length := by
  decide +kernel

theorem witness_queue_pair : base.serving = true ∧ base.qp 1 = some qp0 ∧ qp0.connected = true ∧ qp0.mode = 0 ∧ qp0.st ≠ .error ∧
    (world [] [] [{ qp0 with st := .error }]).qp 1 = some { qp0 with st := .error } := by decide +kernel

def sent0 : Qp := { qp0 with unacked := [100], rxUnacked := 1 }

theorem witness_acknowledgements : (later (world [] [] [sent0]) 5000).qp 1 = some sent0 ∧ sent0.unacked ≠ [] ∧
    4096 * 2 ^ sent0.param 0x5030 1 ≤ 1000 * ((later (world [] [] [sent0]) 5000).us - sent0.ackUs) ∧ 0 < sent0.rxUnacked ∧
    (later (world [] [] [sent0]) 5000).due (sent0.rxLastUs + 2) = true := by decide +kernel

def read0 : DevRead :=
  { id := 3, qp := 1, island := 14, why := .modeMoveComplete, owner := 0, issued := true, service := 0, cls := 0, tenant := 7, addr := 0, key := 0, len := 4 }

theorem witness_read : (base.onNet fun n => { n with reads := [read0] }).net.reads.find? (fun x => x.id == 3 && x.issued) = some read0 := by decide +kernel

theorem witness_congestion : (∀ t, qp0.cnpUs = some t → t + qp0.param 0x5030 6 ≤ base.us) ∧
    base.us < 0 + { qp0 with prm := [(0x503006, 4)] }.param 0x5030 6 ∧ base.due (qp0.alphaUs + qp0.param 0x5031 2) = true ∧
    base.due (qp0.incrUs + qp0.param 0x5031 3) = true := ⟨by simp [qp0], by decide +kernel⟩

def lp0 : LogicalPort := Reset.logicalPort 0 true

theorem witness_port : base.lpInUse 0 = true ∧ base.lp 0 = some lp0 ∧ lp0.link = 2 ∧ base.rw 0x5002 6 0 < 8388608 ∧ lp0.xoff = false ∧ 0 < base.rw 0x5002 7 0 ∧
    (base.onLp 0 fun x => { x with xoff := true, paused := [(3, 0)] }).lp 0 = some { lp0 with xoff := true, paused := [(3, 0)] } ∧
    1000 * base.rw 0x5010 5 0 < 10000000 := by decide +kernel

theorem witness_trained : base.managed = true ∧ base.dev.phase ≠ .fatal ∧ base.fenced (srcPort 0) = false ∧ base.fenced (srcIsland (netIsland 0)) = false ∧
    base.dev.resetInProgress ≠ 5 * 2 ^ 28 := by decide +kernel

/-! ### Egress, periods and clusters -/

def sending : State := base.onLp 0 fun x => { x with control := [.ack 1, .cmRej 0], paused := [(0, 0)] }

theorem witness_egress_control : (sending.lp 0).bind (fun p => (sending.controlHead p).map (·.1)) = some 1 ∧ base.controlHead lp0 = none ∧
    base.pickLevel lp0 = none ∧ { lp0 with link := 1 }.link ≠ 2 := by decide +kernel

def egr0 : Egress :=
  { id := 3, lp := 0, qp := 1, service := 0, cls := 0, part := 1, tenant := 7, frames := [200], begun := false, wire := .message 1 msg0, frees := none }
/-- The partition has a whole share of port 0 (0x6400 + p .10), known to the network island's table. -/
def queued : State :=
  ((base.onObjs fun o => { o with active := [(okey 0x6401 0x10 0, 65536)] }).onIslands fun l => l.map fun i =>
    { i with table := { map := [(okey 0x6401 0x10 0, 65536)], owners := some 1 :: List.replicate 63 none } }).onNet fun n =>
      { n with egress := [egr0], params := [[(okey 0x6401 0x10 0, 65536)], []] }

theorem witness_egress_frame : (((queued.each (queued.net.egress.filter (·.lp == 0)) fun s e => s.ensureSub e).pickLevel lp0).isSome) = true := by
  decide +kernel

def isl (n : Nat) (f : Island → Island) : State := base.onIsland n f

theorem witness_periods : base.diePresent 0 = true ∧ (base.island 0).map (·.st) = some .running ∧
    ((isl 3 fun x => { x with st := .clockChanging, relock := some 800000 }).island 3).map (fun x => (x.st, x.relock)) = some (.clockChanging, some 800000) ∧
    ((isl 3 fun x => { x with st := .gated }).island 3).map (·.st) = some .gated ∧ ((isl 3 fun x => { x with st := .absent }).island 3).map (·.st) = some .absent ∧
    base.islandSt (clusterIsland 0) = .running ∧ base.clusterFenced 0 = false ∧
    (base.onPower fun p => { p with heldOff := [0] }).mayGate 0 = true ∧
    (base.onPower fun p => { p with waking := [(0, 0)] }).power.waking.find? (·.1 == 0) = some (0, 0) ∧
    (later base 10000).due (base.power.lastCapUs + 10000) = true := by decide +kernel

/-! ### The fault collector, pins and samples -/

def rec0 : SourceRecord :=
  { source := 0x100, kind := 0x03, partition := 1, partitionValid := true, tenant := 7, tenantValid := true, detail := 0, address := 0, localCount := 0 }
def faulty : State := base.onFaults fun f => { f with queues := [{ island := 8, recs := [rec0], dropped := 2, quiet := [] }] }

theorem witness_fault_records : base.managed = true ∧ (faulty.faultQueue 8).recs = [rec0] ∧ (faulty.faultQueue 8).dropped ≠ 0 ∧
    isSource rec0.source.toNat = true ∧ isKind rec0.kind.toNat = true ∧ base.unitPresent rec0.source.toNat = true ∧
    ((base.sendRecord 8 rec0).faultQueue 8).recs = [rec0] ∧ base.pairExists .lockstep = true ∧ base.pairExists (.handshake 33 none) = true := by decide +kernel

def input0 : Input := { Reset.input with active := true }
def pinned : State := base.onFaults fun f => { f with inputs := [input0, input0, input0] }
def chatty : State := base.onFaults fun f => { f with inputs := [{ Reset.input with chatter := true }, { Reset.input with chatter := true }, { Reset.input with chatter := true }] }

theorem witness_pins : base.faults.alive = 1 ∧ (base.input 0).active = false ∧ (base.input 1).active = false ∧ (base.input 2).active = false ∧
    (pinned.input 2).active = true ∧ (pinned.input 2).stuck = false ∧ (later pinned 60000000).due ((pinned.input 0).since + 1000 * base.rw 0x7050 3 0) = true ∧
    (later pinned 60000000).due ((pinned.input 2).since + 1000 * base.rw 0x7050 3 2) = true ∧ (chatty.input 1).chatter = true ∧
    (later chatty 10000).due ((chatty.input 1).since + 10000) = true ∧ (chatty.input 2).chatter = true ∧ (later chatty 10000).due ((chatty.input 2).since + 10000) = true ∧ (later base 100000).due (base.power.throttleOff + 100000) = true ∧
    base.due (base.power.throttleOff + 100000) = false ∧ base.power.throttleOff + 100000 ≤ (later base 100000).clock.us ∧ (base.input 0).chatter = false ∧ (later base 100000).due (base.power.railUntil + 100000) = true := by decide +kernel

def sreport0 : SwitchReport := { verified := true, loaded := true, measured := true, durationMs := 3 }
def switching : State := (world [] [] []).onFw fun f => { f with hold := some (0, sreport0) }
def closing : State := (world [] [] []).onDev fun d => { d with shutdownAt := some 0 }

theorem witness_samples : base.managed = true ∧ base.diePresent 1 = true ∧ base.power.avsFault = [] ∧ base.sensorPresent 13 = true ∧
    (later base 10000).due (base.power.congestionUs + 10000) = true ∧ switching.fw.hold = some (0, sreport0) ∧ switching.requestsLeft = false ∧
    ({ base with power := { base.power with avsFault := [0] } } : State).power.avsFault ≠ [] ∧ base.meters.lastSave + 60000 ≤ (base.onClock fun c => { c with tod := c.tod + 60000 }).ms ∧
    base.ms < base.meters.lastSave + 60000 ∧ (later switching 20000000).due (0 + 5010 + 1000 * switching.rw 0x7840 7 0) = true ∧ closing.dev.shutdownAt = some 0 ∧ closing.serving = true ∧ closing.requestsLeft = false ∧ (later closing 1000000).due (0 + 1000000) = true := by
  decide +kernel

/-! ### Moves and tables -/

def move0 : Move :=
  { id := 3, page := { handle := h0, layer := 0, head := 0, index := 0 }, kind := .drain, lpn := none, place := none, ready := true, image := [], begun := false }
def moving (p : Page) : State := (world [{ seq0 with pages := [p] }] [] []).onWork fun w => { w with moves := [move0] }
def extent0 : Extent := { id := 3, part := 1, base := 0, runs := [(0, 16)] }

def shot0 : Shootdown := { id := 4, part := 1, pages := [], frames := [2], runs := [], tabs := [], lpns := [], gens := [] }

theorem witness_moves : (moving page1).serving = true ∧ (moving page1).move 3 = some move0 ∧ (moving page1).seq move0.page.handle = some full ∧
    (moving page1).page move0.page = some page1 ∧ (moving page1).moveStands move0 full page1 = true ∧ page1.pins = 0 ∧ page1.lost = false ∧
    (moving { page1 with pins := 1 }).page move0.page = some { page1 with pins := 1 } ∧ { page1 with lost := true }.lost = true ∧
    (base.onHbm fun h => { h with shootdowns := [shot0] }).hbm.shootdowns.find? (·.id == 4) =
      some shot0 ∧
    (base.onHbm fun h => { h with extents := [extent0] }).extent 3 = some extent0 ∧ 100 * extent0.live < base.rw 0x2101 0x0C 1 * 2048 := by decide +kernel

def long : Seq := { seq0 with sealedPos := 4096 }

theorem witness_growth : (world [long] [] []).seq h0 = some long ∧ long.capacity < 1024 ∧ 3 * long.capacity * 4096 ≤ 4 * (long.sealedPos - long.posBase) := by
  decide +kernel

theorem witness_moves_barred : barred move0.kind { page1 with pins := 1 } = true ∧ barred move0.kind page1 = false ∧
    (moving page1).moveStands { move0 with kind := .writeBack } full page1 = false ∧ (moving page1).page { move0.page with index := 9 } = none := by decide +kernel

theorem witness_age_scan : base.scanDue seq0 = true ∧ base.scanDue { seq0 with scanned := some base.ms } = false ∧ pays base [managementCost 64 7 1] = true := by
  decide +kernel

/-- Only an append that waits for the growth goes on with it, once the table has grown. -/
theorem witness_growth_ends : ((world [long] [] []).growHeads long).work.appends = [] ∧ 4 * (seq0.sealedPos - seq0.posBase) < 3 * seq0.capacity * 4096 ∧
    ((holding_ 1 0 7).onSeqs fun _ => [long]).growHeads long ≠ ((holding_ 1 0 7).onSeqs fun _ => [long]) ∧
    ((((holding_ 1 0 7).onSeqs fun _ => [long]).growHeads long).seq long.handle).map (·.capacity) = some 2 ∧ { append0 with phase := .growth }.handle = long.handle := by
  decide +kernel

def packer0 : Packer :=
  { part := 1, newest := 0, slots := List.replicate 4 { tables := [], installed := 0 }, acc := [], accPages := 100000, accTried := 0, pending := none, installs := 0 }
def counted : State := { base with packers := [packer0] }

theorem witness_tables : counted.act 0x2501 3 1 ≠ 0 ∧ (counted.packer 1).accTried + counted.act 0x2501 3 1 ≤ (counted.packer 1).accPages ∧
    counted.tableSlot (counted.packer 1) = some 1 ∧ pays (tabled counted) [managementCost 1 6 1] = true ∧ counted.tableSlot { packer0 with slots := [] } = none ∧
    ({ base with packers := [{ packer0 with pending := some (1, []) }] } : State).packer 1 = { packer0 with pending := some (1, []) } := by decide +kernel

/-! ### Flash -/

def sb0 : Superblock :=
  { island := 0, num := 2, st := .open_, tlc := false, members := (List.range 16).map fun c => (c, 9), out := [], stream := .gc, point := 1, closedAt := 0, filter := 0
    marked := false, parityRows := [], failed := none }
/-- The first logical page of the fine region. -/
def l0 : Nat := 2 ^ 39
def fpage0 : FlashPage :=
  { island := 0, sb := 2, slot := 0, kind := .data, lpn := l0, part := 1, tenant := 7, wseq := 1, wtime := 0, wtemp := 25, progUs := 0, key := key0.key, confirmed := true, valid := true, why := .none_
    fmt := 1, packed := false, gen := 0, count := 0, bytes := [] }
def fread0 : FlashRead := { id := 3, lpn := l0, n := 1, part := 1, cls := 2, why := .staging 3, issued := true, offsets := 0 }
def flashed (b : Superblock) (ps : List FlashPage) : State := base.onFlash fun f => { f with
  sbs := [b], pages := ps, reads := [fread0], fine := [{ lpn := l0, sb := 2, slot := 0, wseq := 1 }] }

theorem witness_flash_up : base.FlashUp 15 0 ∧ base.FlashUp 33 1 :=
  ⟨⟨by decide +kernel, Or.inl rfl, ⟨Reset.flashIsland 15, by decide +kernel, rfl⟩, by decide⟩,
    ⟨by decide +kernel, Or.inr ⟨rfl, by decide +kernel⟩, ⟨Reset.flashIsland 33, by decide +kernel, rfl⟩, by decide⟩⟩

theorem witness_flash_programs : (flashed sb0 [fpage0]).sb 0 2 = some sb0 ∧ sb0.row fpage0.slot = 0 ∧ (flashed sb0 [fpage0]).rowFull sb0 0 = false ∧
    sb0.members[15]? = some (15, 9) ∧ sb0.stream = .gc ∧ sb0.failed = none ∧ 15 < sb0.width ∧
    (flashed sb0 [{ fpage0 with confirmed := false }]).flash.pages.find? (fun x => x.island == 0 && x.sb == 2 && x.slot == 0 && !x.confirmed) =
      some { fpage0 with confirmed := false } := by decide +kernel

theorem witness_row_pads : (later (flashed sb0 [fpage0]) 100000).padDue 0 2 0 = true ∧ (flashed sb0 [fpage0]).padDue 0 2 0 = false ∧
    { fpage0 with kind := .pad }.kind = .pad ∧ (((flashed sb0 [{ fpage0 with confirmed := false }]).programFails 0 2 0 sb0).sb 0 2).isSome = true := by decide +kernel

theorem witness_flash_erases : (base.onFlash fun f => { f with sbs := [{ sb0 with st := .draining }] }).sb 0 2 = some { sb0 with st := .draining } ∧
    (base.onFlash fun f => { f with sbs := [{ sb0 with st := .draining }] }).erasable 0 2 = true ∧ (flashed sb0 [fpage0]).erasable 0 2 = false ∧
    pays base [flashCost 0 64 4 (sb0.width * base.eraseCycles 0 sb0.tlc)] = true := by decide +kernel

theorem witness_flash_reads : (flashed sb0 [fpage0]).flash.reads.find? (fun x => x.id == 3 && x.issued) = some fread0 ∧ (flashed sb0 [fpage0]).slotOf l0 = some fpage0 ∧
    (flashed sb0 []).slotOf l0 = none ∧ (flashed sb0 [fpage0]).readVerdict sb0 0 (.pass 0 3) = .pass 0 3 ∧
    (flashed sb0 [fpage0]).readVerdict sb0 0 (.pass 8 0) = .pass 8 0 ∧ (flashed sb0 [fpage0]).readVerdict sb0 0 .unreadable = .unreadable := by decide +kernel

def busy0 (i : Nat) (s : State) (b : Superblock) : Bool := b.island == i && b.tlc == false && !(s.validIn i b.num).isEmpty

theorem witness_collection : (flashed { sb0 with marked := true } [fpage0]).flash.sbs.find? (fun b => busy0 0 (flashed { sb0 with marked := true } [fpage0]) b &&
      b.marked) = some { sb0 with marked := true } ∧
    (flashed sb0 [fpage0]).flash.sbs.find? (fun b => busy0 0 (flashed sb0 [fpage0]) b && b.marked) = none ∧
    (flashed { sb0 with st := .draining } [fpage0]).flash.sbs.find? (fun b => busy0 0 (flashed { sb0 with st := .draining } [fpage0]) b && b.st == .draining) =
      some { sb0 with st := .draining } ∧
    (flashed sb0 [fpage0]).watermark false 0 ≤ (flashed sb0 [fpage0]).sbsFree 0 false ∧
    (flashed { sb0 with st := .closed } [fpage0]).gcVictim 0 false = some { sb0 with st := .closed } := by decide +kernel

def low : State := (flashed { sb0 with st := .closed } [fpage0]).onObjs fun o => { o with active := [(okey 0x3004 1 0, 1000000)] }

theorem witness_collection_low : low.sbsFree 0 false < low.watermark false 0 ∧ low.gcVictim 0 false = some { sb0 with st := .closed } ∧
    (flashed sb0 [fpage0]).gcVictim 0 false = none := by decide +kernel

def fisl0 : FlashIsland :=
  { Reset.flashIsland 15 with pendingJournal := [{ kind := 0, lpn := 5, sb := 2, slot := 0, wseq := 1 }], checkpointRunning := true, checkpointSeq := 9 }
def saving : State := base.onFlash fun f => { f with islands := [fisl0], pages := [{ fpage0 with kind := .checkpoint, wseq := 9 }] }

theorem witness_saving : saving.fisland 0 = some fisl0 ∧ fisl0.pendingJournal ≠ [] ∧ (later saving 100000).due (fisl0.lastFlushUs + 100000) = true ∧
    saving.flash.pages.find? (fun x => x.island == 0 && x.kind == .checkpoint && x.wseq == fisl0.checkpointSeq && x.confirmed) =
      some { fpage0 with kind := .checkpoint, wseq := 9 } := by decide +kernel

def idle0 : FlashIsland := { Reset.flashIsland 15 with updates := 2 ^ 32 }

theorem witness_checkpoint_begins : idle0.checkpointRunning = false ∧ (base.onFlash fun f => { f with islands := [idle0] }).rw 0x3003 2 0 ≤ idle0.updates ∧
    pays (base.onFlash fun f => { f with islands := [idle0] }) [(base.onFlash fun f => { f with islands := [idle0] }).systemCost 0 1] = true ∧
    ((base.onFlash fun f => { f with islands := [idle0], blocksPerDie := 5440, diesPerChannel := 32 }).programSystem 0 (systemPage .checkpoint [])).isSome = true := by
  decide +kernel

theorem witness_patrol_pays : pays (flashed sb0 [fpage0]) [flashCost 0 64 5 ((flashed sb0 [fpage0]).readCycles 0 sb0.tlc)] = true ∧
    pays base [channelCost 383 64 5 4] = true := by decide +kernel

/-- Frames of a page and of a ledger that patrol finds. -/
theorem witness_patrol_finds : (staging0.seqs.findSome? fun q => (q.pages.find? (·.holdsAddr (page1.frame * 1024))).map fun p => (keyOf q p, p)) = some (keyOf full page1, page1) ∧
    ((world [{ seq0 with ledgerFrames := [7] }] [] []).seqs.findSome? fun q => (q.ledgerFrames.findIdx? (· == 7)).map fun j => (q.handle, j)) = some (h0, 0) := by
  decide +kernel

theorem witness_patrol : (flashed sb0 [fpage0]).act 0x2013 7 3 ≠ 0 ∧ base.diePresent (383 / 192) = true ∧ base.channelFenced 383 = false ∧
    8388607 * 256 < channelBytes ∧ page1.holdsAddr (page1.frame * 1024) = true ∧
    (flashed sb0 [fpage0]).flash.pages.find? (fun x => x.island == 0 && x.sb == 2 && x.slot == 0 && x.kind == .data && x.valid && x.confirmed) = some fpage0 := by
  decide +kernel

def secure0 : SecureRelease := { handle := h0, req := req0, marked := [], startUs := 0, sealedPos := 64 }

theorem witness_secure_release : (base.onFlash fun f => { f with secure := [secure0] }).flash.secure.find? (fun r => r.handle == h0 && r.marked.isEmpty) =
    some secure0 := by decide +kernel

/-! ### Epochs, slices and management sessions -/

def aging : State := base.onEpochs fun e => { e with prev := some 65535 }

theorem witness_epochs : aging.serving = true ∧ aging.epochs.prev.isSome = true ∧ (later aging 3600000000).due (aging.epochs.commitUs + 1000 * aging.rw 0x6000 5 0) = true ∧
    aging.requestsUnder (fun e => e != aging.epochs.active) = 0 ∧ (∀ i ∈ aging.islands, i.shadowTable = none) ∧ (∀ x ∈ aging.epochs.slices, x.st ≠ .draining) ∧
    (∀ q ∈ aging.seqs, q.epoch = aging.epochs.active) := by decide +kernel

def slice0 (st : SliceState) : Slice := { num := 63, st := st, owner := none, joins := some 1, forReset := false }
def zeroing (st : SliceState) : State := base.onEpochs fun e => { e with slices := mapIf (·.num == 63) (fun _ => slice0 st) e.slices }

theorem witness_slices : (zeroing .zeroing).sliceOf 63 = some (slice0 .zeroing) ∧ (zeroing .draining).sliceOf 63 = some (slice0 .draining) ∧
    (zeroing .draining).sliceBusy 63 = false ∧ (base.onObjs fun o => { o with reservation := some (7, 0) }).objs.reservation = some (7, 0) ∧
    base.due 0 = true ∧ base.managed = true := by decide +kernel

def cred0 : Cred := { Reset.cred 0 with key := [1], role := 0, enabled := true }
def acc0 (sel : SMap) : Access := { Reset.access with sel := sel }
def ses0 (sel : SMap) : Session :=
  { slot := 0, id := 1, cred := 0, role := 0, address := 0, openedMs := 0, openedUs := 0, lastUs := 0, inCounter := 0, outCounter := 1, requests := 0, replies := []
    acc := acc0 sel, lastCommit := .ok, keys := [] }
def shake0 : Handshake := { id := 5, slot := 0, hello := [], device := [], h2 := [], keys := [], address := 0, startUs := 0 }

/-- An administrator's session 1 is open, its selectors at `sel`. -/
def adminOn (s : State) (sel : SMap) : State := s.onMgmt fun m => { m with
  creds := cred0 :: m.creds.drop 1, sessions := [ses0 sel], applied := [(okey 0x1200 5 0, 3232235777)] }
def g0 : Mgmt := { session := 1, counter := 0, request := 3, opens := true }
def managed (sel : SMap) : State := adminOn base sel

theorem witness_hello : (managed []).portOpen = true ∧ (managed []).mgmt.handshakes.find? (·.id == 5) = none ∧
    ((managed []).onMgmt fun m => { m with handshakes := [shake0] }).mgmt.handshakes.find? (·.id == 5) = some shake0 ∧ (7 : Byte).toNat ≤ 7 := by decide +kernel

def finishing : State := ((managed []).bump 0x1200 0x0C 0 3).onMgmt fun m => { m with handshakes := [shake0] }

theorem witness_finish : finishing.mgmt.handshakes.find? (·.id == (5 : W64).toNat) = some shake0 ∧ finishing.credOf 0 = some cred0 ∧
    finishing.slotUsable cred0 = true ∧ cred0.lockUs = none ∧ finishing.fw.hold = none ∧ finishing.freeSession = some 1 ∧
    finishing.slotUsable { cred0 with enabled := false } = false ∧ (finishing.onFw fun f => { f with hold := some (0, sreport0) }).fw.hold.isSome = true := by
  decide +kernel

theorem witness_lockout : ((managed []).onMgmt fun m => { m with creds := [{ cred0 with lockUs := some 0 }] }).credOf 0 = some { cred0 with lockUs := some 0 } ∧
    (managed []).due 0 = true ∧ (managed []).mgmt.sessions.find? (·.id == g0.session.toNat) = some (ses0 []) ∧ g0.opens = true ∧ (ses0 []).inCounter ≤ g0.counter := by
  decide +kernel

def body0 : ReplyBody := { status := .ok, records := [], epoch := 1, request := 3, time := 0 }
def kept0 : Session := { ses0 [] with replies := [(3, body0)] }
def all16 : Session := { ses0 [] with replies := List.replicate 16 (9, body0) }

theorem witness_kept_replies : kept0.replies.find? (fun r => r.1 == g0.request) = some (g0.request, body0) ∧
    all16.replies.find? (fun r => r.1 == g0.request) = none ∧ 16 ≤ all16.replies.length ∧ all16.replies.all (fun r => g0.request < r.1) = true ∧
    (managed []).portServes = true := by decide +kernel

theorem witness_takes : (managed []).Takes (ses0 []) g0 := takes_of (by decide +kernel)

/-! ### Administrators' commands -/

def one (ix v : Nat) : SMap := [(okey ix 1 0, v)]
def two (ix v w : Nat) : SMap := [(okey ix 1 0, v), (okey ix 2 0, w)]
/-- The request is taken, by an administrator, about the object. -/
def asks (sel : SMap) (ix sub item : Nat) : Bool := manages (managed sel) (ses0 sel) g0 ix sub item

theorem witness_management : asks [] 0x1100 1 0 && asks [] 0x1100 2 0 && asks [] 0x1100 4 0 && asks [] 0x1010 1 0 && asks [] 0x1200 0x0D 0
    && asks (one 0x1210 1) 0x1210 4 1 && asks [] 0x1202 1 0 && asks [] 0x2102 1 0 && asks [] 0x8010 2 0 && asks (one 0x1211 7) 0x1211 8 7
    && asks (one 0x7812 15) 0x7812 3 15 = true := by decide +kernel

theorem witness_units : asks (one 0x5001 3) 0x5001 4 3 && asks (one 0x7100 0x280) 0x7100 2 0x280 && asks (one 0x7100 0x280) 0x7100 3 0x280
    && asks (one 0x7010 0) 0x7010 5 0 && asks [] 0x7820 1 0 && asks [] 0x7820 4 0 && asks [] 0x7840 4 0 && asks [] 0x7840 5 0 && asks [] 0x7840 6 0
    && asks [] 0x4007 3 0 && asks [] 0x2401 1 0 && asks (one 0x6040 7) 0x6040 6 7 && asks (two 0x7803 1 2) 0x7803 4 (65536 + 2)
    && asks [(okey 0x6041 2 0, 1)] 0x6041 3 1 && asks (two 0x7802 1 2) 0x7802 4 (65536 + 2) = true := by decide +kernel

def begun0 : State := (managed []).begun (ses0 []) g0

theorem witness_commit_refused : (begun0.onFw fun f => { f with hold := some (0, sreport0) }).fw.hold ≠ none ∧ begun0.reserved (.session 0) = false ∧
    begun0.fw.hold = none ∧ (aging.onObjs fun o => o).checkCommit.isSome = true := by decide +kernel

theorem witness_commit_accepted : (adminOn State.reset []).checkCommit = none := by decide +kernel

theorem witness_reserved : (begun0.onObjs fun o => { o with reservation := some (3, 0) }).reserved (.session 0) = true ∧
    begun0.clock.tod ≤ (0 : W64).toNat ∧ (0 : W64).toNat < (begun0.onClock fun c => { c with tod := 5 }).clock.tod := by decide +kernel

theorem witness_credential : begun0.mgmt.creds.any Cred.admin = true ∧ (mapIf (·.num == 1) (fun c => { c with enabled := true }) begun0.mgmt.creds).any Cred.admin = true := by
  decide +kernel

theorem witness_resets : begun0.dev.resetInProgress = 0 ∧ (0x10000000 : W32).toNat / 2 ^ 28 % 16 = 1 ∧ (0x20000001 : W32).toNat % 65536 = 1 ∧
    begun0.dieFree = true ∧ begun0.diePresent ((0x3000000F : W32).toNat % 65536 / 8) = true ∧ (0x4000003F : W32).toNat % 65536 < 64 ∧
    begun0.slicesOf 1 ≠ [] ∧ begun0.diePresent ((0x50000003 : W32).toNat % 65536 / 2) = true := by decide +kernel

def boot0 : BootReport :=
  { romOk := true, areaOk := true, pufOk := true, activeImageOk := true, otherImageOk := true, failedStacks := [], nandOk := true, failedPorts := []
    rootValid := [], mfgEn := false }

theorem witness_unit_answers : (begun0.returnUnit 0x280 (some true)).1 = .ok ∧ (begun0.verifyImage true true 7).1 = .ok ∧ (begun0.startSwitch sreport0).1 = .ok ∧
    begun0.fw.pending ≠ 3 ∧ (begun0.att 7).map (·.st) = some .closed ∧
    ((begun0.onObjs fun o => { o with active := [(okey 0x7801 3 (boxItem 1 2), 1)] }).operatorSend 1 2 7 []).1 = .ok := by decide +kernel

def link0 : PeerLink := { peer := 3, st := 2, key := [], generation := 0, counter := 2 ^ 32, sinceUs := 0 }
def migrating : State :=
  ((adminOn (world [{ seq0 with holder := none, lease := .idle }] [peer0] [qp0]) []).onSec fun x => { x with links := [link0] }).onObjs fun o =>
    { o with rw := sset (sset o.rw (okey 0x4007 1 0) h0) (okey 0x4007 2 0) 64 }

theorem witness_migration : migrating.startMigration.1 = true ∧ manages migrating (ses0 []) g0 0x4007 3 0 = true := by decide +kernel

/-! ### Attestation, tenant keys, the I3C link and address requests -/

def att1 (k : Nat) (st : AttState) : AttSession := { Reset.attSession 2 with kind := k, st := st, part := 1 }
def attested (k : Nat) (st : AttState) : State := base.onSec fun x => { x with sessions := mapIf (·.num == 2) (fun _ => att1 k st) x.sessions }

theorem witness_attestation : (attested 0 .closed).managed = true ∧ (attested 0 .closed).att 2 = some (att1 0 .closed) ∧
    (attested 1 .awaitFinish).att 2 = some (att1 1 .awaitFinish) ∧ (attested 0 .awaitFinish).keyAuthority 1 = 0 ∧
    (base.onObjs fun o => { o with active := [(okey 0x6401 6 0, 1)] }).keyAuthority 1 ≠ 0 ∧
    (base.onObjs fun o => { o with rw := [(okey 0x6070 2 0, 1)] }).allowedPeer (List.replicate 63 0 ++ [1]) = some 0 ∧
    base.allowedPeer (List.replicate 64 0) = none ∧ (attested 0 .open_).att 2 = some (att1 0 .open_) := by decide +kernel

theorem witness_rekey : (base.onSec fun x => { x with links := [link0] }).sec.links.find? (fun l => l.peer == 3 && l.st == 2) = some link0 ∧
    base.sec.sessions.find? (fun y => y.st == .closed || y.st == .failed) = some (Reset.attSession 0) ∧ 2 ^ 32 ≤ link0.counter := by decide +kernel

theorem witness_i3c : base.dev.phase ≠ .heldInReset ∧ i3cBad 0x1000 0 none 65 = true ∧ i3cBad 0x1000 0 none 0 = false := by decide +kernel

theorem witness_arp : sget (managed []).mgmt.applied (okey 0x1200 5 0) 0 = 3232235777 ∧ (managed []).portServes = true := by decide +kernel

/-! ### Rules of the whole block -/

theorem witness_legal : base.Legal ∧ ({ base with epochs := { base.epochs with active := 65535 } } : State).Legal :=
  ⟨⟨by decide +kernel, by decide +kernel, by decide +kernel, by decide +kernel⟩, ⟨by decide +kernel, by decide +kernel, by decide +kernel, by decide +kernel⟩⟩

theorem witness_guarded : (managed []).guarded = true ∧ base.guarded = false ∧ base.credOf 0 = some (Reset.cred 0) ∧
    (mapIf (·.num == 0) (fun c => { c with enabled := false }) (managed []).mgmt.creds).any Cred.admin = false ∧
    (Reset.cred 0).key.any (· != 0) = false ∧ { Reset.cred 0 with key := [1] }.key.any (· != 0) = true := by decide +kernel

theorem witness_data_path : (Instr.modeMoveComplete).configures = false := rfl

theorem witness_foreign : base.Accepts qp0 (rx 0x12 (h0 + 2 ^ 58) 24) 0x12 .checked 0 (base.admitted qp0 (rx 0x12 (h0 + 2 ^ 58) 24) 0x12 0) ∧
    handlePart (h0 + 2 ^ 58) ≠ (rx 0x12 (h0 + 2 ^ 58) 24).hdr.partition.toNat ∧ base.seq (h0 + 1) = none ∧ handlePart (h0 + 1) = 1 ∧ handleTenant (h0 + 1) = 7 ∧
    base.act 0x2101 2 1 ≤ handleSlot (h0 + 16384) := ⟨accepts_of (by decide +kernel), by decide +kernel⟩

def sealing : Seq := { seq0 with sealedPos := 0 }

theorem witness_seals : (world [sealing] [] []).seq h0 = some sealing ∧ sealing.sealedPos < (world [sealing] [] []).sealTarget sealing := by decide +kernel

theorem witness_zeroed : channelSlice ((6 * 2 ^ 31 + 5) / channelBytes) = 6 ∧ channelSlice (383 * 2 ^ 31 / channelBytes) = 63 ∧ 383 * 2 ^ 31 < 384 * channelBytes := by
  decide +kernel

/-! ### Ill-formed commands -/

def g1 : Mgmt := { session := 5, counter := 0, request := 0, opens := true }
def item1 : Item := { index := 0x1200, sub := 5, length := 4, last := true, offset := 0, value := [0, 0, 0, 0] }
def boot1 : BootReport := boot0

theorem test_wellFormed : [Instr.deregister (rx 0x11 0 0), .placeCompletion (reply0 0), .mailboxDeliveryTimeout 64 63, .leaseTimeout 4095, .cmDisconnect 16383,
    .pfcFrameReceived 15 0 0, .pauseWatchdog 15 7, .completionRingWrite 8191, .shaperWindowBoundary 1, .periodBoundary 33, .tableBuild 63, .mortisePatrol 63 4095 true,
    .journalFlush 33, .gcTargetFailure 15 0 31, .dieTemperatureSample 15 [], .hbmPatrolRead 383 0 .clean, .zeroingDone 63, .clusterWake 15, .mgmtClose g1,
    .mgmtRead g1 [item1], .attestClose 7, .peerLinkRekey 63, .inputStuck 2, .safeLevelExit 2, .avsTimeout 1, .linkTrained 3, .flashReadComplete 1 (.pass 8 0),
    .faultQueueDropReport 33, .resetNChange true boot1].all Instr.wellFormed = true := by decide +kernel

theorem test_illFormed_network : [Instr.deregister { rx 0x11 0 0 with qp := 16384 }, .placeCompletion { reply0 0 with qp := 16384 }, .cmDisconnect 16384,
    .pfcFrameReceived 16 0 0, .pauseWatchdog 16 0, .pauseWatchdog 0 8, .completionRingWrite 8192, .shaperWindowBoundary 2, .linkTrained 4, .peerLinkRekey 64,
    .leaseTimeout 4096, .ackReceived 16384 .nakSequence, .arpOrNeighbourSolicitation true (2 ^ 32)].any Instr.wellFormed = false := by decide +kernel

theorem test_illFormed_units : [Instr.periodBoundary 34, .tableBuild 64, .adviceHoldEnd 0 4096, .mailboxDeliveryTimeout 65 0, .mailboxDeliveryTimeout 0 64,
    .mortiseCompaction 64, .mortisePatrol 0 4096 true, .journalFlush 14, .gcTargetFailure 15 0 32, .flashReadComplete 1 (.pass 9 0),
    .dieTemperatureSample 15 (List.replicate 513 0), .hbmPatrolRead 384 0 .clean, .zeroingDone 64, .clusterWake 16,
    .trussHandshakeTimeout 34 none].any Instr.wellFormed = false := by decide +kernel

theorem test_illFormed_board : [Instr.mgmtClose { g1 with counter := 2 ^ 64 }, .mgmtClose { g1 with request := 2 ^ 32 }, .attestClose 8,
    .mgmtRead g1 [{ item1 with value := List.replicate 65536 0 }], .attestHelloReportOnly 0 0 (List.replicate 8193 0), .attestHelloReportOnly 8 0 [],
    .tenantKeyErase { slot := 8, opens := true, tenant := 7, keyId := 1, key := [] }, .inputStuck 3, .safeLevelExit 3, .avsTimeout 2,
    .thermalSample { sensor := 14, deciC := 0 }, .severeSignal (.rail 32) false, .severeSignal (.thermalTrip 14) false, .severeSignal (.clockLoss 34) false,
    .faultRecord (.queued 34), .resetNChange true { boot1 with failedStacks := [12] }, .resetNChange true { boot1 with failedPorts := [4] },
    .resetNChange true { boot1 with rootValid := [14] }, .i3cWrite 0 0 none true (List.replicate 65 0) boot1,
    .telemetryRefresh { power := 0, powerMilliW := 0, energyJ := 0, dieTemps := [0], stackTemp := 0 }].any Instr.wellFormed = false := by decide +kernel

theorem test_illFormed_lists : [Instr.register (rx 0x10 0 0) {
      role := 0, join := false, switchable := false, classic := false, allTenants := false, variantCount := 0
      payloadFormats := 0, deliveredFormats := 0, prefillRate := 0, decodeCapacity := 0, regionAddr := 0, regionKey := 0, regionLen := 0, joinNode := 0
      joinKey := 0, ident := 0, variants := List.replicate 256 0 },
    .heartbeat (rx 0x12 0 0) { queued := 0, active := 0, warmCount := 0, warm := List.replicate 16 0 },
    .releaseFree (rx 0x16 0 0) { action := 1, pendCount := 0, leaseGen := 0, pending := List.replicate 32 0 },
    .handoff (rx 0x15 0 0) { target := 0, classic := false, pendCount := 0, leaseGen := 0, pending := List.replicate 32 0 },
    .attend (rx 0x31 0 0) { att0 with rows := List.replicate 1025 row0 }, .operatorMailboxSend g1 (List.replicate 65536 0), .mgmtHello 0 0 (List.replicate 65536 0) [] 0,
    .mailboxWrite { qp := 0, addr := 0, key := 0, packets := 0, length := 0, imm := 0, hdr := hdr 0 0 0, body := [] },
    .ringMessageWrite { qp := 16384, slot := 0, length := 0, imm := 0, bytes := [] },
    .relayFetchCopy (rx 0x60 0 0) { pageCount := 0, handle := 0, firstPos := 0, endPos := 0, winOffset := 0, winLen := 0, images := []
                                    pages := List.replicate 65536 { layer := 0, head := 0, index := 0, ref := 0 } }].any Instr.wellFormed = false := by decide +kernel

/-! ### Results the spec works out -/

/-- The check of CRC-32C's nine digits, and of a header (R245). -/
theorem test_crc32c : crc32c (ascii "123456789") = 0xE3069283 := by decide +kernel

/-- No row of the opcode table has bits. -/
theorem test_no_word : decodeTableWord 32 0 = none ∧ State.reset.withFetchWord 32 0 = State.reset := ⟨rfl, rfl⟩

/-- An idle step is a microsecond (log 12). -/
theorem test_idle : (match step State.reset with
  | .next s => some (s.clock.us, s.pending)
  | _ => none) = some (State.reset.clock.us + 1, []) := by decide +kernel

/-- Handle fields (Table 2-4). -/
theorem test_handle : handleOf 1 2 3 4 = 1 * 2 ^ 58 + 2 * 2 ^ 42 + 3 * 2 ^ 20 + 4 ∧ handlePart (handleOf 63 2 3 4) = 63 ∧ handleTenant (handleOf 63 0x107 3 4) = 0x107 ∧
    handleGen (handleOf 63 2 0x3FFFFF 4) = 0x3FFFFF ∧ handleSlot (handleOf 63 2 3 0xFFFFF) = 0xFFFFF := by decide +kernel

/-- Chapter 4: a partition of eight slices. -/
theorem test_reserve_line : (holding_ 1 0 7).frameTotal 1 = 6094848 ∧ (holding_ 1 0 7).reserveLine 1 = 47616 := by decide +kernel

/-- Table 1-9: budgets of HBM channel 0 of stack 0, and a stage burst borrowed in the second period. -/
def table19 : TableSrc :=
  { map := [(2, 45875), (3, 6554), (4, 6554), (5, 3277), (12, 19661)].foldl (fun m x => sset m (okey 0x2010 x.1 1) x.2) State.reset.objs.active
    owners := (holding_ 1 0 7).epochs.slices.map (·.owner) }

theorem test_budgets : (List.range 4).map (State.reset.budgetOf table19 8 0 1) = [1411, 201, 201, 100] ∧
    State.reset.ceilingOf table19 8 0 1 2 = 604 ∧ State.reset.budgetOf table19 8 0 64 5 = 30 ∧ State.reset.budgetOf table19 8 0 64 7 = 2 := by decide +kernel

theorem test_borrow : grantUse { Use.zero 0 1 2 with used := 454, borrowed := 253 } 201 604 2048 2047 0 1 true false =
      .granted { Use.zero 0 1 2 with used := 455, borrowed := 254 } ∧
    grantUse { Use.zero 0 1 2 with used := 455, borrowed := 254 } 201 604 2048 2048 0 1 true false = .waits ∧
    grantUse { Use.zero 0 1 0 with used := 1411 } 1411 1411 2048 1800 0 1 true false = .waits := by decide +kernel

/-- Chapter 3: 68 pages of a windowed row of 313. -/
theorem test_pattern : ((List.range 313).filter fun i => inPattern true 4096 19999 (64 * i) i (i == 10 || i == 100)).length = 68 := by decide +kernel

/-- Table 5-5: bank 44, index 1,210, with TIE set. -/
def best0 : Entry := { entry0 with priority := 0x7FFC }
theorem test_search : searchOf [(44, 1210, best0), (44, 1211, best0), (45, 12, best0), (46, 3000, { entry0 with priority := 0x3FFC })] =
    { count := 4, best := some (44, 1210, best0), tie := true } := by decide +kernel

/-- Chapter 6: E4M3 0x45 is 3.25, 104 is 416 × 2^-2 and 0.875 and -1.25 round to even. -/
theorem test_formats : encE4m3.decode 0x45 = .fin (13 * 2 ^ 158) ∧ scaleExp (104 * 2 ^ 160) 448 = -2 ∧
    kerfElem encE4m3 (104 * 2 ^ 160) (-2) = (0x7D, 104 * 2 ^ 160) ∧ scaleExp (13 * 2 ^ 158) 6 = 0 ∧ kerfElem encE2m1 (13 * 2 ^ 158) 0 = (5, 3 * 2 ^ 160) ∧
    kerfElem encE2m1 (-5 * 2 ^ 158) 0 = (10, -(2 ^ 160)) ∧ kerfElem encE2m1 (3 * 2 ^ 156) 0 = (0, 0) ∧ scaleExp (7 * 2 ^ 157) 6 = -2 ∧
    kerfElem encE2m1 (7 * 2 ^ 157) (-2) = (6, 2 ^ 160) ∧ kerfElem encE2m1 (-5 * 2 ^ 156) (-2) = (10, -(2 ^ 158)) := by decide +kernel

/-- Chapter 7: 85 spares a die and 171,360 superblocks an island. -/
theorem test_superblocks : cdiv 5440 64 = 85 ∧ superblocksPerIsland { State.reset.flash with diesPerChannel := 32, blocksPerDie := 5440 } = 171360 := by
  decide +kernel

/-- Chapter 8: a 4,194,304-position sequence. -/
theorem test_capacity : fixedNeed 80 8 0 4194304 3 = 42945 ∧ flashNeed 80 8 0 4194304 3 0 = 41943040 ∧ flashNeed 80 8 0 4194304 3 512 = 369920 := by decide +kernel

/-- Table 8-11: nodes 3, 7 and 9. -/
def cost (n q r : Nat) (warm : Bool) : Nat × Nat :=
  base.placeCost { seq0 with sealedPos := 0, turn := { turn0 with endPos := 512 } } .prefill
    { node0 with num := n, role := 0, queued := q, prefillRate := r, warm := if warm then [5] else [], regQp := 99 }

theorem test_placement : cost 3 20000 100000 true = (205120 * 100000, 100000) ∧ cost 7 4000 50000 false = (140240 * 50000, 50000) ∧
    cost 9 12000 100000 true = (125120 * 100000, 100000) := by decide +kernel

/-- Table 9-7: the bucket at windows 0, 1, 16, 37 and 48. -/
def sh0 : Shaper := { rate := 10000, depth := 1024 }
def bucketAt (t : Int) (p : Bool) : Bucket := { tokens := t * tokenUnit, atStart := t * tokenUnit, passed := p }

theorem test_bucket : sh0.passes (bucketAt 1024 false) 4182 = true ∧ (sh0.take (bucketAt 1024 false) 4182).tokens = -3158 * tokenUnit ∧
    sh0.passes (sh0.window 256 (bucketAt (-3158) true)) 4182 = false ∧ (sh0.window 256 (bucketAt (-3158) true)).tokens = -2958 * tokenUnit ∧
    sh0.passes (sh0.window 256 (bucketAt (-158) false)) 4182 = true ∧
    (Shaper.window { rate := 40000, depth := 2048 } 256 (Shaper.clamp { rate := 40000, depth := 2048 } (bucketAt (-2122) false))).tokens = -1248 * tokenUnit := by
  decide +kernel

/-- Chapter 10: 302 bursts, 3,047,424 frames and a reserve line of 23,808. -/
theorem test_moving_slices : State.reset.budgetOf { map := State.reset.objs.active, owners := (holding_ 1 0 3).epochs.slices.map (·.owner) } 8 0 1 2 = 302 ∧
    (holding_ 1 0 3).frameTotal 1 = 3047424 ∧ (holding_ 1 0 3).reserveLine 1 = 23808 := by decide +kernel

/-- Table 15-1: 112 + 22,528 bytes carry 5,632 tokens; Table 8-6's limits hold inline. -/
theorem test_admit_layout : tokensFit (rx 0x12 0 22640) 112 5632 false 22528 (List.replicate 5632 0) 65536 = true ∧
    tokensFit (rx 0x12 0 22644) 112 5632 false 22528 (List.replicate 5632 0) 65536 = false := by decide +kernel

/-- Table 15-5: while epoch 41 is live, a commit is refused with reason 1; a message that carries 40 is stale. -/
def epochOpen : State := base.onEpochs fun e => { e with active := 42, prev := some 41 }

theorem test_commit_busy : epochOpen.checkCommit = some (1, 0) ∧ epochOpen.epochLive 41 = true ∧ epochOpen.epochLive 40 = false := by decide +kernel

/-- Table 15-3: a node is gone after 50 ms without a message, and not before; its sequence keeps its sealed positions and nothing past them. -/
def silent (n : Nat) : State := later (world [{ seq0 with ledger := List.replicate 66 1, acked := 66 }] [node0] [qp0]) n
def after (o : Host.Outcome State Fault Refusal) : Option State := match o with
  | .next s => some s
  | _ => none

theorem test_lease_timeout : (after (exec (.leaseTimeout 64) (silent 49999))).map (fun s => s.broker.nodes.length) = some 1 ∧
    (after (exec (.leaseTimeout 64) (silent 50000))).map (fun s => (s.broker.nodes.length, s.seqs.map fun q => (q.ledger.length, q.sealedPos, q.holder))) =
      some (0, [(64, 64, none)]) := by decide +kernel

/-- R300: the first notification halves the rate. -/
theorem test_cnp : (after (exec (.cnpReceived 1) (world [] [] [{ qp0 with rc := 800000, rt := 5 }]))).bind (fun s => (s.qp 1).map fun q => (q.rc, q.rt)) =
    some (400000, 800000) := by decide +kernel

/-- R374 and Table 15-4: with stack 3 fenced, 160 channels are left and the summary shows a fence. -/
def fenced3 : State := (holding_ 0 0 31).fenceUnit 0x0AB

theorem test_fence_stack : (holding_ 0 0 31).frameTotal 0 = 24379392 ∧ fenced3.reserveLine 0 = 158720 ∧ fenced3.summary / 2 ^ 28 % 2 = 1 := by decide +kernel

end Sys2Proof.Tests
end

section
/-!
PROOFS. Zeroing a slice (R19, R313): what it does to one byte, and which channels a slice has.
-/
namespace Sys2Proof.Machine

/-- A byte of a zeroed range reads 0, every other byte as before. -/
theorem memRead_memZero (m : List Host.Cell) (a n k : Nat) : memRead (memZero m a n) k = if a ≤ k ∧ k < a + n then 0 else memRead m k := by
  induction m with
  | nil => simp [memZero, memRead]
  | cons x r ih =>
    unfold memZero at ih ⊢
    rw [List.filter_cons]
    by_cases hkept : (x.1 < a || a + n ≤ x.1) = true
    · have hout : x.1 < a ∨ a + n ≤ x.1 := by simpa using hkept
      rw [if_pos hkept, memRead, memRead, ih]
      by_cases hx : x.1 = k
      · rw [if_pos hx, if_pos hx, if_neg (by omega)]
      · rw [if_neg hx, if_neg hx]
    · have hin : a ≤ x.1 ∧ x.1 < a + n := by simpa using hkept
      rw [if_neg hkept, ih, memRead]
      by_cases hx : x.1 = k
      · rw [if_pos (by omega), if_pos (by omega)]
      · rw [if_neg hx]

/-- A byte lies in the channel of the same number as its address's multiple of a channel's size (log 8). -/
theorem channel_of_address (ch a : Nat) : ch * channelBytes ≤ a ∧ a < ch * channelBytes + channelBytes ↔ a / channelBytes = ch := by
  unfold channelBytes; omega

/-- Zeroing channels one after the other: a byte of any of them reads 0, every other byte as before. -/
theorem memRead_zeroChannels (l : List Nat) (s : State) (a : Nat) :
    memRead (s.each l fun s ch => s.onHbm fun h => { h with mem := memZero h.mem (ch * channelBytes) channelBytes }).hbm.mem a =
      if a / channelBytes ∈ l then 0 else memRead s.hbm.mem a := by
  induction l generalizing s with
  | nil => simp [State.each]
  | cons ch r ih =>
    rw [State.each, List.foldl_cons, ← State.each, ih, State.onHbm_hbm, memRead_memZero]
    simp only [channel_of_address, List.mem_cons]
    by_cases hr : a / channelBytes ∈ r <;> simp [hr]

/-- The channels of a slice are those that the slice holds (R19). -/
theorem mem_sliceChannels {n ch : Nat} (hch : ch < 384) : ch ∈ sliceChannels n ↔ channelSlice ch = n := by
  simp only [sliceChannels, channelSlice, List.mem_map, List.mem_range]
  constructor
  · rintro ⟨st, hst, rfl⟩
    omega
  · intro h
    exact ⟨ch % 192 / 32, by omega, by omega⟩

/-- One byte after a slice is zeroed. -/
theorem memRead_zeroSlice (s : State) {n a : Nat} (ha : a < 384 * channelBytes) :
    memRead (s.zeroSlice n).hbm.mem a = if channelSlice (a / channelBytes) = n then 0 else memRead s.hbm.mem a := by
  have hch : a / channelBytes < 384 := Nat.div_lt_of_lt_mul (Nat.mul_comm 384 channelBytes ▸ ha)
  simp only [State.zeroSlice, memRead_zeroChannels, mem_sliceChannels hch]

/-- Settles O52: zeroing six channels in turn, which are those the slice holds. -/
theorem zeroedSlicesReadZero : Obligations.ZeroedSlicesReadZero := by
  intro s n a _ ha
  rw [memRead_zeroSlice s ha]
  exact ⟨fun h => if_pos h, fun h => if_neg h⟩

end Sys2Proof.Machine
end

section
/-!
PROOFS. Windows, periods, clock changes, cluster gating and the power cap (R21, R29, R40, R292, R295, R396, R398, R399): one lemma for each way a command can go.
-/
namespace Sys2Proof.Machine

/-- An island after its own update, which keeps its number. -/
theorem island_onIsland (s : State) (n : Nat) (f : Island → Island) (hf : ∀ x, (f x).num = x.num) : (s.onIsland n f).island n = (s.island n).map f :=
  find_mapIf_self Island.num f hf n s.islands

theorem exec_shaperWindowBoundary {s : State} {die : Nat} (hs : s.serving = true) (hd : s.diePresent die = true) :
    exec (.shaperWindowBoundary die) s = .next (s.openWindow s die).settle := by
  change execShaperWindowBoundary die s = _
  rw [execShaperWindowBoundary, event_ok hs, if_pos hd]

/-- What a period boundary does follows from its island's state alone (R40, log 163). -/
def State.atBoundary (s : State) (i : Nat) (x : Island) : State :=
  match x.st with
  | .running => (((s.turnPeriod x).turnKind i).turnClock i).settle
  | .absent | .clockChanging => s
  | .gated | .fenced | .resetting => s.onIsland i Island.takeTable

theorem exec_periodBoundary {s : State} {i : Nat} {x : Island} (hm : s.managed = true) (hx : s.island i = some x) :
    exec (.periodBoundary i) s = .next (s.atBoundary i x) := by
  change execPeriodBoundary i s = _
  simp only [execPeriodBoundary, hm, hx, Bool.not_true, Bool.false_eq_true, if_false]
  rfl

/-- An island whose PLL has relocked runs at the clock it was set to, its budgets paused until the next boundary (R21). -/
theorem exec_clockRelockDone {s : State} {i k : Nat} {x : Island} (hm : s.managed = true) (hx : s.island i = some x) (hst : x.st = .clockChanging)
    (hk : x.relock = some k) : ∃ t, exec (.clockRelockDone i) s = .next t ∧
      t.island i = some { x with st := .running, clk := k, relock := none, paused := true } := by
  refine ⟨_, rfl, ?_⟩
  have hmark : (if i = 17 then s.markCycles else s).island i = s.island i := by split <;> rfl
  simp only [hm, Bool.not_true, Bool.false_eq_true, if_false]
  rw [island_onIsland _ _ _ (fun y => by split <;> rfl), hmark, hx]
  simp only [Option.map_some, hst, hk]

theorem exec_clusterGate {s : State} {c : Nat} (hs : s.serving = true) (hc : c < 16) (hrun : s.islandSt (clusterIsland c) = .running)
    (hf : s.clusterFenced c = false) (hg : s.mayGate c = true) : exec (.clusterGate c) s =
      .next (((s.clearCache c).markIslands [clusterIsland c] .gated).onPower fun p => { p with gatings := sadd p.gatings c 1 }).settle := by
  change execClusterGate c s = _
  rw [execClusterGate, event_ok hs, if_pos (by simp [hc, hrun, hf, hg])]

theorem exec_clusterWake {s : State} {c t : Nat} (hs : s.serving = true) (hw : s.power.waking.find? (·.1 == c) = some (c, t)) :
    exec (.clusterWake c) s = .next (((s.onIsland (clusterIsland c) fun i =>
      if i.st = .gated then { i.takeTable with st := .running } else i).note 0x7812 6 c (s.us - t)).onPower fun p =>
        { p with waking := p.waking.filter (·.1 != c), wakes := sadd p.wakes c 1 }).settle := by
  change execClusterWake c s = _
  simp only [execClusterWake, event_ok hs, hw]

/-- Clusters' clock under the power cap after one step (R399, log 110). -/
def State.cappedKHz (s : State) (cap : Nat) : Nat :=
  if cap = 0 then 2500000 else if cap * 1000 < s.power.telemetry.powerMilliW then max 800000 (s.power.capKHz - 25000)
  else if s.power.telemetry.powerMilliW < cap * 950 then min 2500000 (s.power.capKHz + 25000) else s.power.capKHz

theorem exec_powerCapStep {s : State} (hm : s.managed = true) (hd : s.due (s.power.lastCapUs + 10000) = true) :
    exec .powerCapStep s = .next (s.onPower fun p => { p with lastCapUs := s.us, capKHz := s.cappedKHz (s.rw 0x7810 2 0) }) := by
  change execPowerCapStep s = _
  simp only [execPowerCapStep, hm, hd, Bool.not_true, Bool.or_self, Bool.false_eq_true, if_false, State.onPower, State.cappedKHz]

/-- Settles O37: each command, on a state that meets its conditions, by the lemma for that case. -/
theorem periodsClocksAndGating : Obligations.PeriodsClocksAndGating := by
  refine ⟨fun s die hs hd => exec_shaperWindowBoundary hs hd, fun s i x hm hx => ⟨?_, ?_, ?_, fun k hst hk => exec_clockRelockDone hm hx hst hk⟩,
    fun s c hs => ⟨exec_clusterGate hs, fun t hw => exec_clusterWake hs hw⟩, ?_⟩
  · intro hst
    rw [exec_periodBoundary hm hx, State.atBoundary, hst]
  · rintro (hst | hst | hst) <;> rw [exec_periodBoundary hm hx, State.atBoundary, hst]
  · rintro (hst | hst) <;> rw [exec_periodBoundary hm hx, State.atBoundary, hst]
  · rintro s cap khz hm hd rfl rfl
    exact exec_powerCapStep hm hd

end Sys2Proof.Machine
end

section
/-!
PROOFS. The end of a turn and the freeing of a sequence (R62, R77, R241, R259, R260): what the run of each request comes to, and what a drain keeps.
-/
namespace Sys2Proof.Machine

/-- HANDOFF of the lease holder with the generation in force begins the drain towards decode (R77, R259). -/
theorem runHandoff_drains {u : State} {m : Rx} {b : HandoffBody} {x : Seq} (hn : u.checkHandle m.hdr m.hdr.handle.toNat = none)
    (hx : u.seq m.hdr.handle.toNat = some x) (hh : u.holds m.qp x = true) (hg : b.leaseGen.toNat = x.leaseGen) (hl : x.ledgerLost = false)
    (hf : pendingFits m b.pendCount.toNat b.pending = true) : u.runHandoff m b = ((u.startDrain m.hdr.handle.toNat true fun t => { t with
      handoffReq := some (reqOf m 0x12), pending := b.pending, classic := b.classic, target := if b.target = 0xFFFF then none else some b.target.toNat }).bump
        0x4006 5 x.part 1).meter x.part x.tenant 0x18 1 := by
  simp only [State.runHandoff, hn, hx, hh, hg, hl, hf, Bool.not_true, Bool.false_or, Bool.false_eq_true, ne_eq, not_true_eq_false, decide_false, if_false]

/-- RELEASE with action 0 of the lease holder, no front end, begins a drain back to the device (R260). -/
theorem runEndTurn_drains {u : State} {m : Rx} {b : ReleaseBody} {x : Seq} (hn : u.checkHandle m.hdr m.hdr.handle.toNat = none)
    (hx : u.seq m.hdr.handle.toNat = some x) (hr : (u.nodeOf m.qp).map (·.role) ≠ some 2) (hh : u.holds m.qp x = true) (hg : b.leaseGen.toNat = x.leaseGen)
    (hf : pendingFits m b.pendCount.toNat b.pending = true) : u.runEndTurn m b = u.startDrain m.hdr.handle.toNat false fun t => { t with
      releaseReq := some (reqOf m 0x13), pending := b.pending, target := none } := by
  simp only [State.runEndTurn, hn, hx, beq_iff_eq, hr, hh, hg, hf, Bool.not_true, Bool.false_or, Bool.false_eq_true, ne_eq, not_true_eq_false, decide_false, if_false]

/-- No queue pair holds a sequence without a holder (R76). -/
theorem holds_of_no_holder {s : State} {y : Seq} (hy : y.holder = none) (qp : Nat) : s.holds qp y = false := by
  simp [State.holds, hy]

/-- Settles O9: a request let in runs, its run begins the drain, and a drain rewrites one sequence's lease and turn alone. -/
theorem handoffAndEndOfTurnDrainTheLease : Obligations.HandoffAndEndOfTurnDrainTheLease := by
  refine ⟨fun s u q m x hh => ⟨fun b l hg hl hf => ?_, fun b l hr hg hf => ?_⟩, fun s h d f x hx => ?_⟩
  · change Host.Outcome.next (s.request m 0x12 0 (.handoff m b) fun s => s.runHandoff m b) = _
    rw [request_ok l, runHandoff_drains l.named l.seq hh hg hl hf]
  · change Host.Outcome.next (s.request m 0x13 0 (.releaseEndTurn m b) fun s => s.runEndTurn m b) = _
    rw [request_ok l, runEndTurn_drains l.named l.seq hr hh hg hf]
  · have hy : (s.startDrain h d f).seq h = _ := seq_onSeq s h _ fun _ => rfl
    rw [hx] at hy
    exact ⟨_, hy, rfl, rfl, rfl, rfl, rfl, rfl, holds_of_no_holder rfl, fun k hk => seq_onSeq_other s h k _ (fun _ => rfl) hk⟩

/-- The freeing of a sequence once its request is found in order: its lease becomes FREEING, its array entries go with `RELEASE_SECURE`, and it is freed as soon
as no work is in flight (R62, R241, R260). -/
def State.beginFreeing (u : State) (m : Rx) (op : Nat) : State :=
  ((if op = 0x14 then u.dropPrefix m.hdr.handle.toNat 0 else u).onSeq m.hdr.handle.toNat
    fun y => { y with lease := .freeing, holder := none, turn := { y.turn with releaseReq := some (reqOf m op) } }).finishFreeing m.hdr.handle.toNat

/-- What a request to free a sequence in order comes to, by the state of the lease (R260, log 42). -/
def State.freeByLease (u : State) (m : Rx) (op : Nat) : Lease → State
  | .idle => u.beginFreeing m op
  | .held _ => u.beginFreeing m op
  | .freeing => u.answer (reqOf m op) .notOwner
  | .choosing _ => u.answer (reqOf m op) .retryLater
  | .offered .. => u.answer (reqOf m op) .retryLater
  | .draining _ => u.answer (reqOf m op) .retryLater

/-- Who may free a sequence: a front end while the device holds the lease, another node as its holder under the generation in force (R260). -/
def State.mayFree (u : State) (m : Rx) (b : ReleaseBody) (x : Seq) : Prop :=
  if (u.nodeOf m.qp).map (·.role) = some 2 then x.holder = none else u.holds m.qp x = true ∧ b.leaseGen.toNat = x.leaseGen

/-- The layout of a request to free a sequence. -/
structure FreeFits (m : Rx) (b : ReleaseBody) (op : Nat) : Prop where
  action : op = 0x14 → b.action = 1
  count : b.pendCount = 0
  pending : pendingFits m 0 b.pending = true

theorem FreeFits.not_malformed {m : Rx} {b : ReleaseBody} {op : Nat} (h : FreeFits m b op) :
    ((op = 0x14 && b.action != 1) || b.pendCount != 0 || !pendingFits m 0 b.pending) = false := by
  simpa [h.count, h.pending] using h.action

/-- A retained sequence needs no freeing, and its request is answered at once (R260). -/
theorem runFree_retained {u : State} {m : Rx} {b : ReleaseBody} {op : Nat} {x : Seq} (hn : u.checkHandle m.hdr m.hdr.handle.toNat = none)
    (hx : u.seq m.hdr.handle.toNat = some x) (hf : FreeFits m b op) (hr : x.st = .retained) :
    u.runFree m b op = u.complete (reqOf m op) .ok [packWord [(23, x.sealedPos), (41, 0)]] [] := by
  simp only [State.runFree, hn, hx, hf.not_malformed, hr, beq_self_eq_true, Bool.false_eq_true, if_false, if_true]

/-- A request of who may free a sequence that is not retained does what the state of the lease says. -/
theorem runFree_byLease {u : State} {m : Rx} {b : ReleaseBody} {op : Nat} {x : Seq} (hn : u.checkHandle m.hdr m.hdr.handle.toNat = none)
    (hx : u.seq m.hdr.handle.toNat = some x) (hf : FreeFits m b op) (hr : x.st ≠ .retained) (hmay : u.mayFree m b x) :
    u.runFree m b op = u.freeByLease m op x.lease := by
  have hfront : ((u.nodeOf m.qp).map (·.role) == some 2 && x.holder.isSome) = false ∧
      (!((u.nodeOf m.qp).map (·.role) == some 2) && (!u.holds m.qp x || b.leaseGen.toNat ≠ x.leaseGen)) = false := by
    unfold State.mayFree at hmay
    split at hmay <;> simp_all
  simp only [State.runFree, hn, hx, hf.not_malformed, beq_iff_eq, hr, hfront.1, hfront.2, Bool.false_eq_true, if_false]
  cases x.lease <;> rfl

/-- Settles O10: what the run of such a request comes to, read off for a retained sequence and for each state of the lease. -/
theorem releaseFrees : Obligations.ReleaseFrees := by
  intro s u q m x b c op hc l hcount hpend
  have hf : FreeFits m b op := ⟨fun h => by obtain ⟨-, rfl⟩ | ⟨-, -, ha⟩ := hc <;> simp_all, hcount, hpend⟩
  have hrun : exec c s = .next ((u.runFree m b op).ended q m) := by
    obtain ⟨rfl, rfl⟩ | ⟨rfl, rfl, -⟩ := hc
    · exact congrArg Host.Outcome.next (request_ok l fun s => s.runFree m b 0x13)
    · exact congrArg Host.Outcome.next (request_ok l fun s => s.runFree m b 0x14)
  rw [hrun]
  refine ⟨fun hr => by rw [runFree_retained l.named l.seq hf hr], fun hr hmay => ?_⟩
  rw [runFree_byLease l.named l.seq hf hr hmay]
  constructor
  · rintro ph (h | h) <;> rw [h] <;> rfl
  · rintro ph n tag d (h | h | h) <;> rw [h] <;> rfl

end Sys2Proof.Machine
end

section
/-!
PROOFS. APPEND, STAGE, and the refusal of foreign handles (R45, R74, R76, R118, R120, R123, R138, R141, R142): what the run of each request comes to.
-/
namespace Sys2Proof.Machine

/-- An append of the lease holder touches its sequence and joins its queue (R73, R118, R120). -/
theorem runAppend_of_holder {u : State} {m : Rx} {b : AppendBody} {refresh : Bool} {i : Instr} {x : Seq}
    (hn : u.checkHandle m.hdr m.hdr.handle.toNat = none) (hx : u.seq m.hdr.handle.toNat = some x) (hh : u.holds m.qp x = true) :
    u.runAppend m b refresh i = (u.touch m.hdr.handle.toNat).queueAppend m b refresh x i := by
  simp only [State.runAppend, hn, hx, hh, Bool.not_true, Bool.false_eq_true, if_false]

/-- An append of another sender is refused (R76). -/
theorem runAppend_of_other {u : State} {m : Rx} {b : AppendBody} {refresh : Bool} {i : Instr} {x : Seq}
    (hn : u.checkHandle m.hdr m.hdr.handle.toNat = none) (hx : u.seq m.hdr.handle.toNat = some x) (hh : u.holds m.qp x = false) :
    u.runAppend m b refresh i = u.rejectAppend m .notOwner := by
  simp only [State.runAppend, hn, hx, hh, Bool.not_false, if_true]

/-- Settles O15: an append or refresh let in runs, and its run turns on the lease alone. -/
theorem appendJoinsItsQueue : Obligations.AppendJoinsItsQueue := by
  intro s u q m b x c refresh hc l
  have hrun : exec c s = .next ((u.runAppend m b refresh c).ended q m) := by
    obtain ⟨rfl, rfl⟩ | ⟨rfl, rfl⟩ := hc <;> exact congrArg Host.Outcome.next (request_ok l fun s => s.runAppend m b _ _)
  exact ⟨fun hh => by rw [hrun, runAppend_of_holder l.named l.seq hh], fun hh => by rw [hrun, runAppend_of_other l.named l.seq hh]⟩

/-! ### STAGE (R74, R141, R142) -/

/-- The state in which a STAGE's pages are staged, pinned or unpinned: its sequence's links touched, the pages walked, its home kept, global bits set. -/
def State.stageReady (v : State) (m : Rx) (b : StageBody) (x : Seq) : State :=
  ((v.walkPages ((v.homeCluster x).getD 0) x.part 2 ((v.stagePages m.hdr.handle.toNat x b).map fun y => keyOf y.1 y.2)).pinHome m.hdr.handle.toNat).markGlobal
    m.hdr.handle.toNat x b ((v.stagePages m.hdr.handle.toNat x b).filter fun y => y.1.handle == m.hdr.handle.toNat)

/-- Whether a STAGE would leave its sequence more global pages than the 64 of R141. -/
def State.globalTooMany (v : State) (h : Nat) (b : StageBody) (x : Seq) : Bool :=
  b.globalField == 1 && 64 < x.globalAfter ((v.stagePages h x b).filter fun y => y.1.handle == h) true

/-- Whether a STAGE sets or clears global bits and its sender does not hold the lease (R76, R141). -/
def State.stageUnleased (v : State) (m : Rx) (b : StageBody) (x : Seq) : Bool := b.globalField != 0 && !v.holds m.qp x

/-- A STAGE of action `k` once its sequence's links have been touched, check by check. -/
def State.stageFrom (v : State) (m : Rx) (b : StageBody) (k : Nat) (x : Seq) : State :=
  let ps := v.stagePages m.hdr.handle.toNat x b
  if v.stageUnleased m b x then v.answer (reqOf m 0x32) .notOwner
  else if x.ledgerLost then v.answer (reqOf m 0x32) .lost
  else if !x.stageFits m b then v.answer (reqOf m 0x32) .malformed
  else if v.globalTooMany m.hdr.handle.toNat b x then v.answer (reqOf m 0x32) .malformed
  else if k = 1 && v.pinsTooMany x.part ps then
    v.complete (reqOf m 0x32) .capacity (stageWords 0 (ps.countP fun y => y.2.tier == .hbm) (lowestLost ps)) []
  else if k = 2 then (v.stageReady m b x).clearPins (reqOf m 0x32) ps
  else (v.stageReady m b x).beginStage (reqOf m 0x32) b (k == 1) x m.hdr.handle.toNat ps

theorem runStage_eq {u : State} {m : Rx} {b : StageBody} {x : Seq} {k : Nat} (hn : u.checkHandle m.hdr m.hdr.handle.toNat = none)
    (hx : u.seq m.hdr.handle.toNat = some x) : u.runStage m b k = (u.touchLinked 6 m.hdr.handle.toNat).stageFrom m b k x := by
  simp only [State.runStage, hn, hx]
  rfl

section
variable {v : State} {m : Rx} {b : StageBody} {k : Nat} {x : Seq}

theorem stageFrom_unleased (hh : v.stageUnleased m b x = true) : v.stageFrom m b k x = v.answer (reqOf m 0x32) .notOwner := by
  simp only [State.stageFrom, hh, if_true]

variable (hh : v.stageUnleased m b x = false)
include hh

theorem stageFrom_lost (hl : x.ledgerLost = true) : v.stageFrom m b k x = v.answer (reqOf m 0x32) .lost := by
  simp only [State.stageFrom, hh, hl, Bool.false_eq_true, if_false, if_true]

theorem stageFrom_malformed (hl : x.ledgerLost = false) (hbad : x.stageFits m b = false ∨ v.globalTooMany m.hdr.handle.toNat b x = true) :
    v.stageFrom m b k x = v.answer (reqOf m 0x32) .malformed := by
  obtain h | h := hbad <;> simp [State.stageFrom, hh, hl, h]

theorem stageFrom_capacity (hl : x.ledgerLost = false) (hf : x.stageFits m b = true) (hr : v.globalTooMany m.hdr.handle.toNat b x = false) (hk : k = 1)
    (hp : v.pinsTooMany x.part (v.stagePages m.hdr.handle.toNat x b) = true) :
    v.stageFrom m b k x = v.complete (reqOf m 0x32) .capacity
      (stageWords 0 ((v.stagePages m.hdr.handle.toNat x b).countP fun y => y.2.tier == .hbm) (lowestLost (v.stagePages m.hdr.handle.toNat x b))) [] := by
  simp [State.stageFrom, hh, hl, hf, hr, hk, hp]

/-- A STAGE that passes its checks takes effect. -/
theorem stageFrom_fits (hl : x.ledgerLost = false) (hf : x.stageFits m b = true) (hr : v.globalTooMany m.hdr.handle.toNat b x = false)
    (hp : k = 1 → v.pinsTooMany x.part (v.stagePages m.hdr.handle.toNat x b) = false) :
    v.stageFrom m b k x =
      if k = 2 then (v.stageReady m b x).clearPins (reqOf m 0x32) (v.stagePages m.hdr.handle.toNat x b)
      else (v.stageReady m b x).beginStage (reqOf m 0x32) b (k == 1) x m.hdr.handle.toNat (v.stagePages m.hdr.handle.toNat x b) := by
  have hpins : (k = 1 && v.pinsTooMany x.part (v.stagePages m.hdr.handle.toNat x b)) = false := by simpa using hp
  simp only [State.stageFrom, hh, hl, hf, hr, hpins, Bool.not_true, Bool.false_eq_true, if_false]

end

/-- Settles O18: a STAGE let in runs, and each clause is one way through its checks. -/
theorem stageNamesPages : Obligations.StageNamesPages := by
  intro s u q m b x h c k hc l hh v ps own w
  subst hh
  have hrun : exec c s = .next ((v.stageFrom m b k x).ended q m) := by
    rw [← runStage_eq l.named l.seq]
    obtain ⟨rfl, rfl⟩ | ⟨rfl, rfl⟩ | ⟨rfl, rfl⟩ := hc <;> exact congrArg Host.Outcome.next (request_ok l fun s => s.runStage m b _)
  rw [hrun]
  have hmany : v.globalTooMany m.hdr.handle.toNat b x = true ↔ b.globalField = 1 ∧ 64 < x.globalAfter own true := by
    simp [State.globalTooMany, own, ps]
  refine ⟨fun hg ho => ?_, fun ho => ?_⟩
  · rw [stageFrom_unleased (by simpa [State.stageUnleased, ho] using hg)]
  have hheld : v.stageUnleased m b x = false := by simpa [State.stageUnleased] using ho
  refine ⟨fun hl => ?_, fun hl hbad => ?_, fun hl hf hg => ?_⟩
  · rw [stageFrom_lost hheld hl]
  · rw [stageFrom_malformed hheld hl (hbad.imp_right hmany.2)]
  · have hroom : v.globalTooMany m.hdr.handle.toNat b x = false := by
      rw [← Bool.not_eq_true, hmany]
      exact fun ⟨h1, h64⟩ => absurd (hg h1) (by omega)
    exact ⟨fun hk hp => by rw [stageFrom_capacity hheld hl hf hroom hk hp], fun hp => by rw [stageFrom_fits hheld hl hf hroom hp]; rfl⟩

/-! ### Foreign handles (R45, R123) -/

/-- A handle of another partition or tenant. -/
theorem checkHandle_foreign {s : State} {h : Hdr} {handle : Nat} (hf : handlePart handle ≠ h.partition.toNat ∨ handleTenant handle ≠ h.tenant.toNat) :
    s.checkHandle h handle = some .accessDenied := by
  rw [State.checkHandle, if_pos (by simpa using hf)]

/-- A handle of the header's partition and tenant that names no sequence, or a slot past the partition's limit. -/
theorem checkHandle_unknown {s : State} {h : Hdr} {handle : Nat} (hp : handlePart handle = h.partition.toNat) (ht : handleTenant handle = h.tenant.toNat)
    (hn : s.seq handle = none ∨ s.act 0x2101 2 (handlePart handle) ≤ handleSlot handle) : s.checkHandle h handle = some .notOwner := by
  rw [State.checkHandle, if_neg (by simp [hp, ht]), if_pos]
  obtain h | h := hn <;> simp [h]

/-- How a request of a sequence is refused: an APPEND with the words of Table 4-2, another request with a bare completion (R123). -/
def State.refuse (u : State) (m : Rx) (op : Nat) (st : Status) : State := if op = 0x30 then u.rejectAppend m st else u.answer (reqOf m op) st

/-- A request whose handle R45 refuses runs at once, whatever waits at its sequence, and when its run is the refusal it comes to nothing else. -/
theorem exec_refused {s u : State} {q : Qp} {m : Rx} {op ref : Nat} {st : Status} {i : Instr} {run : State → State} (ha : s.Accepts q m op .checked ref u)
    (hc : u.checkHandle m.hdr m.hdr.handle.toNat = some st) (he : exec i s = .next (s.request m op ref i run)) (hr : run u = u.refuse m op st) :
    exec i s = .next ((u.refuse m op st).ended q m) := by
  rw [he, State.request, receive_ok ha, State.enter, hc, ← hr]
  rfl

section
variable {u : State} {m : Rx} {st : Status} (hc : u.checkHandle m.hdr m.hdr.handle.toNat = some st)
include hc

theorem runHandoff_refused (b : HandoffBody) : u.runHandoff m b = u.refuse m 0x12 st := by rw [State.runHandoff, hc]; rfl
theorem runEndTurn_refused (b : ReleaseBody) : u.runEndTurn m b = u.refuse m 0x13 st := by rw [State.runEndTurn, hc]; rfl
theorem runFree_refused (b : ReleaseBody) {op : Nat} (ho : op ≠ 0x30) : u.runFree m b op = u.refuse m op st := by
  rw [State.runFree, hc, State.refuse, if_neg ho]
theorem runPublish_refused (b : PublishBody) : u.runPublish m b = u.refuse m 0x21 st := by rw [State.runPublish, hc]; rfl
theorem runUnpublish_refused (first : Nat) : u.runUnpublish m first = u.refuse m 0x22 st := by rw [State.runUnpublish, hc]; rfl
theorem runAppend_refused (b : AppendBody) (refresh : Bool) (i : Instr) : u.runAppend m b refresh i = u.refuse m 0x30 st := by rw [State.runAppend, hc]; rfl
theorem runStage_refused (b : StageBody) (k : Nat) : u.runStage m b k = u.refuse m 0x32 st := by rw [State.runStage, hc]; rfl
theorem runDeliver_refused (b : DeliverBody) : u.runDeliver m b = u.refuse m 0x33 st := by rw [State.runDeliver, hc]; rfl

/-- Every request of a sequence whose handle fails its check is refused with that check's status. -/
theorem foreignHandle_refused {s : State} {q : Qp} (hb : HandoffBody) (rb : ReleaseBody) (pb : PublishBody) (first : BitVec 23) (ab : AppendBody)
    (sb : StageBody) (db : DeliverBody) :
    ∀ c ∈ [(Instr.handoff m hb, 0x12, 0), (.releaseEndTurn m rb, 0x13, 0), (.releaseFree m rb, 0x13, 0), (.releaseSecure m rb, 0x14, 0), (.publish m pb, 0x21, 0),
        (.unpublish m first, 0x22, 0), (.append m ab, 0x30, appendRefBytes ab), (.refreshAppend m ab, 0x30, appendRefBytes ab), (.stage m sb, 0x32, 0),
        (.stageAndPin m sb, 0x32, 0), (.clearPinned m sb, 0x32, 0), (.deliver m db, 0x33, 0)],
      s.Accepts q m c.2.1 .checked c.2.2 u → exec c.1 s = .next ((u.refuse m c.2.1 st).ended q m) := by
  simp only [List.forall_mem_cons, List.not_mem_nil, false_implies, implies_true, and_true]
  exact ⟨fun ha => exec_refused ha hc rfl (runHandoff_refused hc hb), fun ha => exec_refused ha hc rfl (runEndTurn_refused hc rb),
    fun ha => exec_refused ha hc rfl (runFree_refused hc rb (by decide)), fun ha => exec_refused ha hc rfl (runFree_refused hc rb (by decide)),
    fun ha => exec_refused ha hc rfl (runPublish_refused hc pb), fun ha => exec_refused ha hc rfl (runUnpublish_refused hc first.toNat),
    fun ha => exec_refused ha hc rfl (runAppend_refused hc ab _ _), fun ha => exec_refused ha hc rfl (runAppend_refused hc ab _ _),
    fun ha => exec_refused ha hc rfl (runStage_refused hc sb 0), fun ha => exec_refused ha hc rfl (runStage_refused hc sb 1),
    fun ha => exec_refused ha hc rfl (runStage_refused hc sb 2), fun ha => exec_refused ha hc rfl (runDeliver_refused hc db)⟩

end

/-- Settles O60: the handle's check fails with the status claimed, and a request is refused with the status of that check. -/
theorem foreignHandlesAreRefused : Obligations.ForeignHandlesAreRefused := by
  rintro s u q m h hb rb pb first ab sb db rfl c hc ha no rfl
  have key : ∀ st, u.checkHandle m.hdr m.hdr.handle.toNat = some st → exec c.1 s = .next ((u.refuse m c.2.1 st).ended q m) :=
    fun st hst => foreignHandle_refused hst hb rb pb first ab sb db c hc ha
  exact ⟨fun hf => key _ (checkHandle_foreign hf), fun hp ht hn => key _ (checkHandle_unknown hp ht hn)⟩

end Sys2Proof.Machine
end

section
/-!
PROOFS. Tiles issued (R36, R66, R72, R91, R96, R106, R107, R112): what the issue of a tile comes to, by where its page stands.
-/
namespace Sys2Proof.Machine

/-- Work whose charges are all granted is done in the state with them charged (R36). -/
theorem charged_granted {s c : State} {costs : List Cost} (h : s.chargeAll (mergeCosts costs) = (c, none)) (k : State → State) : s.charged costs k = k c := by
  simp only [State.charged, h]

section
variable {s : State} {t : Tile} {a : Attend} {r : Row} {x : Seq} {p : Page}

theorem exec_tileIssue (hs : s.serving = true) (ht : s.tile t.id = some t) (hr : t.st = .ready) : exec (.tileIssue t.id) s = .next (s.issueTile t).settle := by
  change execTileIssue t.id s = _
  simp only [execTileIssue, event_ok hs, ht, hr, if_true]

theorem exec_fuseWaitExpiry (hs : s.serving = true) (ht : s.tile t.id = some t) (hf : t.st = .fuseWait) : exec (.fuseWaitExpiry t.id) s =
    .next ((s.onTile t.id fun y => { y with st := .ready }).bump 0x2202 8 (t.core / 8) 1).settle := by
  change execFuseWaitExpiry t.id s = _
  simp only [execFuseWaitExpiry, event_ok hs, ht, hf, if_true]

section
variable (hrow : s.rowOf t = some (a, r)) (hx : s.seq r.body.handle.toNat = some x) (hrun : r.status = none) (hb : s.onBoard t = true)
include hrow hx hrun hb

/-- A tile of a row's own position is issued as one. -/
theorem issueTile_inline (hi : t.inline_ = true) : s.issueTile t = s.startInline t a r x := by
  simp only [State.issueTile, hrow, hrun, hb, hx, hi, Option.isSome_none, Bool.not_true, Bool.false_eq_true, if_false, if_true]

variable (hi : t.inline_ = false) (hp : s.page t.page = some p)
include hi hp

/-- A lost page ends its tile's row (R96). -/
theorem issueTile_lost (hl : p.lost = true) : s.issueTile t = s.loseRow t (x.pagePos p.index) := by
  simp only [State.issueTile, hrow, hrun, hb, hx, hi, hp, hl, Option.isSome_none, Bool.not_true, Bool.false_eq_true, if_false, if_true]

/-- A page away from HBM holds its tile (R72). -/
theorem issueTile_away (hl : p.lost = false) (ht : p.tier ≠ .hbm) : s.issueTile t = s.holdTile t p x := by
  simp only [State.issueTile, hrow, hrun, hb, hx, hi, hp, hl, bne_iff_ne, ht, ne_eq, not_false_eq_true, Option.isSome_none, Bool.not_true, Bool.false_eq_true,
    if_false, if_true]

/-- The tile of a page in HBM that its row may use starts (R97). -/
theorem issueTile_starts (hl : p.lost = false) (ht : p.tier = .hbm)
    (hk : p.fmt = 11 → s.kerfVerdict x r.body (s.rowPattern x r a.body.layer.toNat) = .fine) : s.issueTile t = s.startTile t a r x p := by
  have hv : (if p.fmt = 11 then s.kerfVerdict x r.body (s.rowPattern x r a.body.layer.toNat) else .fine) = .fine := by
    split
    · next h => exact hk h
    · rfl
  simp only [State.issueTile, hrow, hrun, hb, hx, hi, hp, hl, ht, hv, bne_self_eq_false, Option.isSome_none, Bool.not_true, Bool.false_eq_true, if_false]

end

/-- Groups that a tile may join: those that read its page on its core and have room for another member (R106). -/
def State.groupFor (s : State) (t : Tile) (x : Seq) : Option Group :=
  s.work.groups.find? fun g => g.core == t.core && g.page == t.page && g.served < s.actAt x.epoch 0x2201 7 x.part

theorem startTile_joins {g : Group} {c : State} (hg : s.groupFor t x = some g) (hroom : s.coreRoom t a r 0 = true)
    (hpay : s.chargeAll (mergeCosts [walkCost (t.core / 8) x.part 0 (s.tileWalk t r).length,
      issueCost t.core x.part (issueCycles p.fmt a.body.qFmt.toNat r.body.groupN)]) = (c, none)) :
    s.startTile t a r x p = c.joinGroup t r g x p (issueCycles p.fmt a.body.qFmt.toNat r.body.groupN) := by
  rw [State.groupFor] at hg
  simp only [State.startTile, hg, hroom, Bool.not_true, Bool.false_eq_true, if_false]
  exact charged_granted hpay _

theorem startTile_opens {c : State} (hg : s.groupFor t x = none) (hpins : p.pins < 254) (hroom : s.coreRoom t a r p.stored = true)
    (hpay : s.chargeAll (mergeCosts (s.pinCosts t r x.part ++ [issueCost t.core x.part (issueCycles p.fmt a.body.qFmt.toNat r.body.groupN),
      burstCost p.frame x.part 0 (s.fetchBursts t r x p)])) = (c, none)) :
    s.startTile t a r x p = c.openGroup t r x p (issueCycles p.fmt a.body.qFmt.toNat r.body.groupN) := by
  rw [State.groupFor] at hg
  simp only [State.startTile, hg, if_neg (Nat.not_le.2 hpins), hroom, Bool.not_true, Bool.false_eq_true, if_false]
  exact charged_granted hpay _

theorem startTile_pinFails (hg : s.groupFor t x = none) (hpins : 254 ≤ p.pins) : s.startTile t a r x p = s.pinFails t r x p := by
  rw [State.groupFor] at hg
  simp only [State.startTile, hg, if_pos hpins]

theorem startInline_issues {c : State} (halone : ∀ y ∈ s.work.tiles, ¬(y.att = t.att ∧ y.row = t.row ∧ y.head = t.head ∧ y.core = t.core ∧ y.id ≠ t.id))
    (hroom : s.coreRoom t a r 0 = true)
    (hpay : s.chargeAll (mergeCosts [issueCost t.core x.part (cdiv (issueCycles x.fmt a.body.qFmt.toNat r.body.groupN) 64)]) = (c, none)) :
    s.startInline t a r x = (c.onTile t.id fun y => { y with st := .issued 0 }).bump 0x2202 2 (t.core / 8) 1 := by
  have hnone : (s.work.tiles.any fun u => u.att == t.att && u.row == t.row && u.head == t.head && u.core == t.core && u.id != t.id) = false := by
    rw [List.any_eq_false]
    intro y hy
    simpa [and_assoc] using halone y hy
  simp only [State.startInline, hnone, hroom, Bool.not_true, Bool.false_eq_true, if_false]
  exact charged_granted hpay _

end

/-- Settles O22: a ready tile is issued, and what its issue comes to follows from where its page stands. -/
theorem tilesAreIssuedByPage : Obligations.TilesAreIssuedByPage := by
  intro s t a r x hs ht hrow hx hrun
  refine ⟨fun p c hst hb hi hp hl htier hk => ?_, fun p hst hb hi hp => ?_, fun c hst hb hi halone hroom hpay => ?_, exec_fuseWaitExpiry hs ht⟩
  · rw [exec_tileIssue hs ht hst, issueTile_starts hrow hx hrun hb hi hp hl htier hk]
    exact ⟨fun g hg hroom hpay => by rw [startTile_joins hg hroom hpay], fun hg hpins hroom hpay => by rw [startTile_opens hg hpins hroom hpay],
      fun hg hpins => by rw [startTile_pinFails hg hpins]⟩
  · rw [exec_tileIssue hs ht hst]
    exact ⟨fun hl => by rw [issueTile_lost hrow hx hrun hb hi hp hl], fun hl htier => by rw [issueTile_away hrow hx hrun hb hi hp hl htier]⟩
  · rw [exec_tileIssue hs ht hst, issueTile_inline hrow hx hrun hb hi, startInline_issues halone hroom hpay]

end Sys2Proof.Machine
end

section
/-!
PROOFS. Pages that move, and tables that grow or are built (R52, R58, R68, R69, R73, R195 to R197): one lemma for each way an event can go.
-/
namespace Sys2Proof.Machine

variable {s : State}

/-! ### One move (R68) -/

section
variable {m : Move} {q : Seq} {p : Page} (hs : s.serving = true) (hm : s.move m.id = some m)
include hs hm

theorem exec_pageMove_gone (hgone : s.seq m.page.handle = none ∨ s.page m.page = none) : exec (.pageMove m.id) s = .next (s.dropMove m none).settle := by
  change execPageMove m.id s = _
  obtain h | h := hgone
  · simp only [execPageMove, event_ok hs, hm, h]
  · cases hq : s.seq m.page.handle <;> simp only [execPageMove, event_ok hs, hm, hq, h]

variable (hq : s.seq m.page.handle = some q) (hp : s.page m.page = some p) (hb : m.begun = false) (hr : m.ready = true)
include hq hp hb hr

theorem exec_pageMove_dropped (hd : p.lost = true ∨ s.moveStands m q p = false) : exec (.pageMove m.id) s = .next (s.dropMove m (some p)).settle := by
  change execPageMove m.id s = _
  have h : (p.lost || !s.moveStands m q p) = true := by simpa using hd
  simp only [execPageMove, event_ok hs, hm, hq, hp, hb, hr, h, Bool.not_true, Bool.or_self, Bool.false_eq_true, if_false, if_true]

theorem exec_pageMove_stands (hl : p.lost = false) (hst : s.moveStands m q p = true) :
    exec (.pageMove m.id) s = .next (if barred m.kind p then s.skipMove m else s.makeMove m q p).settle := by
  change execPageMove m.id s = _
  simp only [execPageMove, event_ok hs, hm, hq, hp, hb, hr, hl, hst, Bool.not_true, Bool.or_self, Bool.false_eq_true, if_false]

end

/-! ### Shootdowns, the age scan and evacuation (R52, R69, R73) -/

theorem exec_shootdownComplete {d : Shootdown} (hs : s.serving = true) (hd : s.hbm.shootdowns.find? (·.id == d.id) = some d) :
    exec (.shootdownComplete d.id) s = .next (s.shootdownDone d).settle := by
  change execShootdownComplete d.id s = _
  simp only [execShootdownComplete, event_ok hs, hd]

theorem exec_ageScanVisit {h : W64} {q : Seq} (hs : s.serving = true) (hq : s.seq h.toNat = some q) : exec (.ageScanVisit h) s =
    .next (if s.scanDue q then s.charged [managementCost 64 7 1] fun s => s.scanSeq q else s).settle := by
  change execAgeScanVisit h s = _
  simp only [execAgeScanVisit, event_ok hs, hq]

theorem exec_extentEvacuation {n : Nat} {e : Extent} (hs : s.serving = true) (he : s.extent n = some e) : exec (.extentEvacuation n) s =
    .next (if 100 * s.liveIn e < s.rw 0x2101 0x0C e.part * 2048 then
      s.each (s.extentPages e) fun s x => if x.2.pins ≠ 0 then s.bump 0x2104 0x0D 0 1 else (s.rePlace x.1 x.2 e.id id).getD s else s).settle := by
  change execExtentEvacuation n s = _
  simp only [execExtentEvacuation, event_ok hs, he]

/-! ### Head tables (R58) -/

section
variable {h : W64} {q : Seq} (hs : s.serving = true) (hq : s.seq h.toNat = some q)
include hs hq

theorem exec_headTableGrowth_early (he : 1024 ≤ q.capacity ∨ 4 * (q.sealedPos - q.posBase) < 3 * q.capacity * 4096) :
    exec (.headTableGrowth h) s = .next s.settle := by
  change execHeadTableGrowth h s = _
  have hearly : ¬(q.capacity < 1024 ∧ 3 * q.capacity * 4096 ≤ 4 * (q.sealedPos - q.posBase)) := by omega
  simp only [execHeadTableGrowth, event_ok hs, hq, Bool.and_eq_true, decide_eq_true_eq, if_neg hearly]

variable (hcap : q.capacity < 1024) (hfull : 3 * q.capacity * 4096 ≤ 4 * (q.sealedPos - q.posBase))
include hcap hfull

/-- A growth that no append waits for, or that finds no frames, ends with itself. -/
theorem exec_headTableGrowth_alone
    (hwait : (s.growHeads q).work.appends.find? (fun a => a.handle == q.handle && a.phase == .growth) = none ∨
      ((s.growHeads q).seq q.handle).map (·.capacity) = some q.capacity) : exec (.headTableGrowth h) s = .next (s.growHeads q).settle := by
  change execHeadTableGrowth h s = _
  obtain hnone | hsame := hwait
  · simp only [execHeadTableGrowth, event_ok hs, hq, hcap, hfull, decide_true, Bool.and_self, hnone, if_true]
  · cases hf : (s.growHeads q).work.appends.find? (fun a => a.handle == q.handle && a.phase == .growth) <;>
      simp only [execHeadTableGrowth, event_ok hs, hq, hcap, hfull, decide_true, Bool.and_self, hf, hsame, beq_self_eq_true, if_true]

/-- The append that waited for a growth goes on. -/
theorem exec_headTableGrowth_goesOn {a : Append} (ha : (s.growHeads q).work.appends.find? (fun a => a.handle == q.handle && a.phase == .growth) = some a)
    (hgrew : ((s.growHeads q).seq q.handle).map (·.capacity) ≠ some q.capacity) :
    exec (.headTableGrowth h) s = .next ((s.growHeads q).beginAlloc a.id).settle := by
  change execHeadTableGrowth h s = _
  simp only [execHeadTableGrowth, event_ok hs, hq, hcap, hfull, decide_true, Bool.and_self, ha, beq_iff_eq, if_neg hgrew, if_true]

end

/-! ### Code tables (R195 to R197) -/

section
variable {p : Nat} (hn : s.act 0x2501 3 p ≠ 0) (hc : (s.packer p).accTried + s.act 0x2501 3 p ≤ (s.packer p).accPages) (hnone : (s.packer p).pending = none)
include hn hc hnone

/-- No build is held back whose pages are counted and that no other build of its partition is before. -/
theorem tableBuild_due : (s.act 0x2501 3 p = 0 || (s.packer p).accPages < (s.packer p).accTried + s.act 0x2501 3 p || (s.packer p).pending.isSome) = false := by
  simp [hn, hc, hnone]

variable (hs : s.serving = true)
include hs

theorem exec_tableBuild_deferred (hslot : s.tableSlot (s.packer p) = none) :
    exec (.tableBuild p) s = .next ((s.onPacker p fun x => { x with accTried := x.accPages }).bump 0x2501 0x0A p 1).settle := by
  change execTableBuild p s = _
  simp only [execTableBuild, event_ok hs, tableBuild_due hn hc hnone, hslot, Bool.false_eq_true, if_false]

theorem exec_tableBuild_pays {i : Nat} {c : State} (hslot : s.tableSlot (s.packer p) = some i)
    (hpay : s.chargeAll (mergeCosts [managementCost p 6 1]) = (c, none)) : exec (.tableBuild p) s = .next ((c.onPacker p fun x => { x with
      pending := some (i, buildTables x.acc), acc := [], accPages := 0, accTried := 0 }).bump 0x2501 9 p 1).settle := by
  change execTableBuild p s = _
  simp only [execTableBuild, event_ok hs, tableBuild_due hn hc hnone, hslot, charged_granted hpay, Bool.false_eq_true, if_false]

end

theorem exec_tableSetInstalled {p i : Nat} {t : List Nat} (hs : s.serving = true) (hp : (s.packer p).pending = some (i, t)) : exec (.tableSetInstalled p) s =
    .next (s.onPacker p fun x => { x with
      pending := none, newest := i, installs := x.installs + 1, slots := setAt x.slots i { tables := t, installed := x.installs + 1 } }).settle := by
  change execTableSetInstalled p s = _
  simp only [execTableSetInstalled, event_ok hs, hp]

/-- Settles O41: each event by the lemma for the way it goes. -/
theorem pagesMoveAndTablesGrow : Obligations.PagesMoveAndTablesGrow := by
  intro s hs
  refine ⟨fun m q p hm hq hp hb hr => ⟨exec_pageMove_dropped hs hm hq hp hb hr, fun hl hst hbar => ?_, fun hl hst hbar => ?_⟩,
    fun m hm hgone => exec_pageMove_gone hs hm hgone, fun d hd => exec_shootdownComplete hs hd, fun h q hq => ⟨fun hd => ?_, fun c hd hpay => ?_⟩,
    fun n e he => exec_extentEvacuation hs he, ?_, fun h q hq he => exec_headTableGrowth_early hs hq he,
    fun p hn hc hnone => ⟨exec_tableBuild_deferred hn hc hnone hs, fun i c hslot hpay => exec_tableBuild_pays hn hc hnone hs hslot hpay⟩,
    fun p i t hp => exec_tableSetInstalled hs hp⟩
  · rw [exec_pageMove_stands hs hm hq hp hb hr hl hst, if_pos hbar]
  · rw [exec_pageMove_stands hs hm hq hp hb hr hl hst, if_neg (by simp [hbar])]
  · rw [exec_ageScanVisit hs hq, if_neg (by simp [hd])]
  · rw [exec_ageScanVisit hs hq, if_pos hd, charged_granted hpay]
  · rintro h q _ hq hcap hfull rfl
    exact ⟨exec_headTableGrowth_alone hs hq hcap hfull, fun a => exec_headTableGrowth_goesOn hs hq hcap hfull⟩

end Sys2Proof.Machine
end

section
/-!
PROOFS. Peers' answers and their absence (R48, R268 to R274): what each completion, timeout and probe comes to.
-/
namespace Sys2Proof.Machine

variable {s u : State} {q : Qp} {r : Reply} {a : Ask}

/-! ### The partner's answer to a ledger sync (R48, R268 to R270) -/

/-- A create or tokens sync is answered as its status says. -/
theorem exec_ledgerSyncCompletion_tokens {n : BitVec 23} {c : SyncKind} {h k : Nat} (ha : s.Answers q r AskKind.isSync a u) (hk : a.kind = .sync c h k)
    (hc : c = .create ∨ c = .tokens) : exec (.ledgerSyncCompletion r n) s = .next (u.syncAnswered a h k r.status.toNat n.toNat).settle := by
  refine congrArg Host.Outcome.next ((reply_ok ha _).trans ?_)
  obtain rfl | rfl := hc <;> simp only [hk]

theorem exec_ledgerSyncCompletion_shrinks {n : BitVec 23} {c : SyncKind} {h k : Nat} {x : Seq} (ha : s.Answers q r AskKind.isSync a u) (hk : a.kind = .sync c h k)
    (hc : c = .cut ∨ c = .free) (hx : u.seq h = some x) :
    exec (.ledgerSyncCompletion r n) s = .next (if r.status = 8 then u.freedByPartner x.part else u).settle := by
  refine congrArg Host.Outcome.next ((reply_ok ha _).trans ?_)
  obtain rfl | rfl := hc <;> simp only [hk, hx]

theorem exec_ledgerSyncCompletion_readmit {n : BitVec 23} {h k : Nat} (ha : s.Answers q r AskKind.isSync a u) (hk : a.kind = .sync .readmit h k) :
    exec (.ledgerSyncCompletion r n) s =
      .next (if r.status = 0 then u.onBroker fun b => { b with mirrors := b.mirrors.filter (·.handle != h) } else u.readmitNext h k).settle := by
  refine congrArg Host.Outcome.next ((reply_ok ha _).trans ?_)
  simp only [hk]

section
variable {h k n : Nat} {x : Seq} (hx : u.seq h = some x)
include hx

theorem syncAnswered_ok : u.syncAnswered a h k 0 n = (u.onSeq h fun y => { y with
    acked := max x.acked (min n x.ledger.length), unmirrored := y.unmirrored && max x.acked (min n x.ledger.length) < y.ledger.length }).seal h := by
  simp only [State.syncAnswered, hx, if_true]

theorem syncAnswered_fenced : u.syncAnswered a h k 8 n = u.freedByPartner x.part := by
  simp [State.syncAnswered, hx]

theorem syncAnswered_refused {st : Nat} (h0 : st ≠ 0) (h8 : st ≠ 8) : u.syncAnswered a h k st n =
    (u.onSeq h fun y => { y with unmirrored := true }).onBroker fun b => { b with asks := b.asks ++ [{ a with kind := .sync .tokens h k }] } := by
  simp only [State.syncAnswered, hx, if_neg h0, if_neg h8]

end

theorem readmitLate_of_not_readmit (h : ∀ x k, a.kind ≠ .sync .readmit x k) : s.readmitLate a = s := by
  unfold State.readmitLate
  split
  · next x k hk => exact absurd hk (h x k)
  · rfl

/-- The mirror timeout, where none of the late syncs is a re-admission (R48). -/
theorem exec_ledgerMirrorTimeout {h : W64} (hs : s.serving = true) (hk : ∀ a ∈ s.lateSyncs h.toNat, ∀ x k, a.kind ≠ .sync .readmit x k)
    (hsent : sentUpTo (s.lateSyncs h.toNat) ≠ 0) : exec (.ledgerMirrorTimeout h) s = .next ((s.onSeq h.toNat fun x => { x with
      timedOut := max x.timedOut (min (sentUpTo (s.lateSyncs h.toNat)) x.ledger.length)
      unmirrored := x.unmirrored || x.acked < min (sentUpTo (s.lateSyncs h.toNat)) x.ledger.length }).seal h.toNat).settle := by
  change execLedgerMirrorTimeout h s = _
  have hlate : (s.each (s.lateSyncs h.toNat) fun s a => s.readmitLate a) = s := each_id _ _ _ fun a ha _ => readmitLate_of_not_readmit (hk a ha)
  simp only [execLedgerMirrorTimeout, event_ok hs, hlate, if_neg hsent]

/-! ### A Relay's completion and its timeout, and those of a probe (R272 to R274) -/

theorem exec_relayCompletion {refs : List W32} {is : List RelayImage} {id : Nat} {x : RelayTx} {v : State} (ha : s.Answers q r AskKind.isRelay a u)
    (hk : a.kind = .relay id) (hx : u.broker.relays.find? (·.id == id) = some x)
    (hv : v = (u.onBroker fun b => { b with relays := b.relays.filter (·.id != id) }).relayDone x (r.status == 0) refs is) :
    exec (.relayCompletion r refs is) s =
      .next (if r.status = 8 ∧ (∀ k ∈ x.pages, (v.seq k.handle).isSome = true) then v.freedByPartner x.part else v).settle := by
  refine congrArg Host.Outcome.next ((reply_ok ha _).trans (congrArg State.settle ?_))
  simp only [hk, hx, ← hv, Bool.and_eq_true, decide_eq_true_eq, List.all_eq_true]

theorem exec_relayTimeout_tiles {id : Nat} {x : RelayTx} (hs : s.serving = true) (hx : s.broker.relays.find? (·.id == id) = some x)
    (hd : s.due x.deadlineUs = true) (hk : x.kind = 1) :
    exec (.relayTimeout id) s = .next (s.each x.stagings fun s g => s.releaseWaiting x.part g).settle := by
  change execRelayTimeout id s = _
  simp only [execRelayTimeout, event_ok hs, hx, hd, hk, Bool.not_true, Bool.false_eq_true, if_false, if_true]

theorem exec_relayTimeout_copy {id : Nat} {x : RelayTx} (hs : s.serving = true) (hx : s.broker.relays.find? (·.id == id) = some x)
    (hd : s.due x.deadlineUs = true) (hk : x.kind = 2) :
    exec (.relayTimeout id) s = .next ((s.onBroker fun b => { b with relays := b.relays.filter (·.id != id) }).admitOn x.forSeq).settle := by
  change execRelayTimeout id s = _
  simp [execRelayTimeout, event_ok hs, hx, hd, hk]

theorem exec_relayTimeout_probe {id h : Nat} (hs : s.serving = true) (hx : s.broker.relays.find? (·.id == id) = none)
    (ha : s.broker.asks.find? (·.tag == id) = some a) (hk : a.kind = .probe h) (hd : s.due a.untilUs = true) :
    exec (.relayTimeout id) s = .next ((s.onBroker fun b => { b with asks := b.asks.filter (·.tag != id) }).admitOn h).settle := by
  change execRelayTimeout id s = _
  simp only [execRelayTimeout, event_ok hs, hx, ha, hk, hd, if_true]

/-! ### Probes (R272) -/

/-- The layout of a PEER_PROBE. -/
def probeFits (m : Rx) (b : ProbeBody) : Prop :=
  m.hdr.bodyLen.toNat = 24 + 8 * cdiv b.tokenCount.toNat 2 ∧ b.tokens.length = b.tokenCount.toNat ∧ b.tokenCount.toNat ≤ 65536 ∧ b.headMask ≠ 0

/-- The check of a PEER_PROBE fails where its layout is wrong. -/
theorem probeFits_iff {m : Rx} {b : ProbeBody} : (m.hdr.bodyLen.toNat != 24 + 8 * cdiv b.tokenCount.toNat 2 || b.tokens.length != b.tokenCount.toNat ||
    65536 < b.tokenCount.toNat || b.headMask == 0) = false ↔ probeFits m b := by
  simp [probeFits, and_assoc]

section
variable {m : Rx} {b : ProbeBody} (ha : s.Accepts q m 0x62 .unchecked 0 u)
include ha

theorem exec_peerProbe_malformed (hf : ¬probeFits m b) : exec (.peerProbe m b) s = .next ((u.answer (reqOf m 0x62) .malformed).ended q m) := by
  refine congrArg Host.Outcome.next ((receive_ok ha _ _).trans ?_)
  rw [if_pos (by rw [← Bool.not_eq_false, probeFits_iff]; exact hf)]

theorem exec_peerProbe_looksUp (hf : probeFits m b) {l : Lookup × State}
    (hl : u.newLookup (.probe (reqOf m 0x62)) m.hdr.partition.toNat b.tenant.toNat b.variant.toNat b.headMask.toNat 0 b.tokens true true = l) :
    exec (.peerProbe m b) s = .next ((l.2.startLookup l.1).ended q m) := by
  refine congrArg Host.Outcome.next ((receive_ok ha _ _).trans ?_)
  rw [if_neg (by rw [Bool.not_eq_true, probeFits_iff]; exact hf), hl]

end

theorem exec_peerProbeCompletion {n : BitVec 23} {o : W64} {h : Nat} (ha : s.Answers q r AskKind.isProbe a u) (hk : a.kind = .probe h) :
    exec (.peerProbeCompletion r n o) s = .next (if r.status = 0 then u.probeAnswered h a.node n.toNat o.toNat else u.admitOn h).settle := by
  refine congrArg Host.Outcome.next ((reply_ok ha _).trans ?_)
  simp only [hk]

/-- Settles O28: each completion, timeout and probe by its lemma, a sync's by the status it brings. -/
theorem peersAnswerOrTimeOut : Obligations.PeersAnswerOrTimeOut := by
  refine fun s u q => ⟨fun r a n h k c x ha hk hx => ⟨fun hc => ?_, fun hc => exec_ledgerSyncCompletion_shrinks ha hk hc hx, ?_⟩,
    fun h hs hk hsent => exec_ledgerMirrorTimeout hs hk hsent, fun r a refs is id x ha hk hx v hv => exec_relayCompletion ha hk hx hv,
    fun id x hs hx hd => ⟨exec_relayTimeout_tiles hs hx hd, exec_relayTimeout_copy hs hx hd⟩,
    fun id h a hs hx ha hk hd => exec_relayTimeout_probe hs hx ha hk hd, fun m b ha => ⟨exec_peerProbe_malformed ha, fun hf l hl => exec_peerProbe_looksUp ha hf hl⟩,
    fun r a n o h ha hk => exec_peerProbeCompletion ha hk⟩
  · rw [exec_ledgerSyncCompletion_tokens ha hk hc]
    refine ⟨?_, fun h8 => ?_, fun h0 h8 => ?_⟩
    · rintro h0 _ rfl
      rw [h0]
      exact congrArg (fun t => Host.Outcome.next t.settle) (syncAnswered_ok hx)
    · rw [h8]
      exact congrArg (fun t => Host.Outcome.next t.settle) (syncAnswered_fenced hx)
    · rw [syncAnswered_refused hx (fun h => h0 (BitVec.eq_of_toNat_eq h)) (fun h => h8 (BitVec.eq_of_toNat_eq h))]
  · rintro rfl
    exact exec_ledgerSyncCompletion_readmit ha hk

end Sys2Proof.Machine
end

section
/-!
PROOFS. Sealing (R48, R124): how far it goes, and that what it starts, insertions and mirrored pages, leaves the sequences as they are but for one's chain.
-/
namespace Sys2Proof.Machine

/-! ### What leaves every sequence alone -/

/-- A loop whose every step leaves the sequences alone does. -/
theorem each_seqs {α : Type} {f : State → α → State} (hf : ∀ s a, (f s a).seqs = s.seqs) (l : List α) (s : State) : (s.each l f).seqs = s.seqs := by
  induction l generalizing s with
  | nil => rfl
  | cons a l ih => exact (ih (f s a)).trans (hf s a)

theorem charge_seqs {s t : State} {x : Cost} (h : s.charge x = some t) : t.seqs = s.seqs := by
  simp only [State.charge, State.chargeTo] at h
  split at h
  · cases h
  · split at h
    · cases h
    · split at h
      · cases h; rfl
      · cases h

theorem owe_seqs (s : State) (x : Cost) : (s.owe x).seqs = s.seqs := by
  unfold State.owe
  split
  · rfl
  · split
    · next h => exact charge_seqs h
    · rfl

theorem oweAll_seqs (s : State) (l : List Cost) : (s.oweAll l).seqs = s.seqs := each_seqs owe_seqs l s

theorem meterMoved_seqs (s : State) (p t c n : Nat) : (s.meterMoved p t c n).seqs = s.seqs := meter_seqs s p t _ n

theorem meterBytes_seqs (s : State) (p t n : Nat) : (s.meterBytes p t n).seqs = s.seqs := meter_seqs s p t _ _

theorem useKey_seqs (s : State) (p t : Nat) : (s.useKey p t).seqs = s.seqs := by
  unfold State.useKey
  simp only [State.onSec_seqs]
  split <;> rfl

theorem ask_seqs (s : State) (node op relay p t handle : Nat) (words : List W64) (data : List Byte) (kind : Option (AskKind × Nat)) :
    (s.ask node op relay p t handle words data kind).seqs = s.seqs := by
  unfold State.ask
  cases kind <;> dsimp only <;> split
  · rfl
  · exact (sendMsg_sent _ _ _ _).seqs
  · rfl
  · exact (sendMsg_sent _ _ _ _).seqs

theorem putImage_seqs (s : State) (peer p t offset sub : Nat) (i : RelayImage) : (s.putImage peer p t offset sub i).seqs = s.seqs := by
  unfold State.putImage
  split
  · rw [meterBytes_seqs, State.onSec_seqs, State.rdmaWrite, (post_sent _ _ _ _ _ _).seqs]
    split <;> rfl
  · rfl

theorem relayOut_seqs (s : State) (kind peer : Nat) (q : Seq) (handle first stop : Nat) (pages : List (PageKey × Nat)) (images : List (Nat × RelayImage))
    (room forSeq : Nat) (stagings : List Nat) : (s.relayOut kind peer q handle first stop pages images room forSeq stagings).seqs = s.seqs := by
  have hputs : ∀ (is : List (Nat × RelayImage)) (off : Nat) (acc : Nat × State), (is.foldl (fun (acc : Nat × State) i =>
      (acc.1 + imageRoom i.2, acc.2.putImage peer q.part q.tenant (off + acc.1) i.1 i.2)) acc).2.seqs = acc.2.seqs := by
    intro is off
    induction is with
    | nil => exact fun _ => rfl
    | cons i is ih => exact fun acc => (ih _).trans (putImage_seqs _ _ _ _ _ _ _)
  unfold State.relayOut
  split
  · rfl
  · dsimp only
    rw [meterMoved_seqs, meter_seqs, ask_seqs, hputs]
    rfl

theorem mirrorPages_seqs (s : State) (h old new : Nat) : (s.mirrorPages h old new).seqs = s.seqs := by
  unfold State.mirrorPages
  split
  · rfl
  · split
    · rfl
    · dsimp only
      split
      · rfl
      · rw [relayOut_seqs, oweAll_seqs]

/-! ### Insertions of sealed blocks change their sequence's chain only (R164) -/

theorem issueInsertions_seq (s : State) (h old new : Nat) :
    ∃ c : Seq → Option (Nat × Nat), (s.issueInsertions h old new).seq h = (s.seq h).map fun x => { x with chain := c x } := by
  have hsame : ∃ c : Seq → Option (Nat × Nat), s.seq h = (s.seq h).map fun x => { x with chain := c x } := ⟨fun x => x.chain, by simp⟩
  unfold State.issueInsertions
  split
  · exact hsame
  · split
    · exact hsame
    · split
      · exact hsame
      · rw [seq_of_seqs (each_seqs (fun t i => by dsimp only; split <;> rfl) _ _), seq_onSeq _ _ _ (fun _ => by rfl), seq_of_seqs (useKey_seqs _ _ _)]
        exact ⟨fun _ => _, rfl⟩

/-! ### How far sealing goes -/

theorem sealTarget_le (s : State) (x : Seq) : s.sealTarget x ≤ s.allVisible x ∧ s.sealTarget x ≤ x.ledger.length ∧
    (s.namesPartner x.part = true → s.sealTarget x ≤ max x.acked x.timedOut) := by
  unfold State.sealTarget
  split
  · exact ⟨Nat.min_le_left _ _, (Nat.min_le_right _ _).trans (Nat.min_le_left _ _), fun _ => (Nat.min_le_right _ _).trans (Nat.min_le_right _ _)⟩
  · next hp => exact ⟨Nat.min_le_left _ _, Nat.min_le_right _ _, fun h => absurd h hp⟩

/-- Sealing leaves a sequence as it is, or a live one with its sealed position at the target and another chain. -/
theorem seal_seq {s : State} {h : Nat} {x : Seq} (hx : s.seq h = some x) : (s.seal h).seq h = some x ∨
    x.st = .live ∧ x.sealedPos < s.sealTarget x ∧ ∃ c, (s.seal h).seq h = some { x with sealedPos := s.sealTarget x, chain := c } := by
  unfold State.seal
  simp only [hx]
  split
  · exact .inl hx
  · next hgo =>
    simp only [Bool.or_eq_true, bne_iff_ne, decide_eq_true_eq, not_or, ne_eq, not_not, not_le] at hgo
    refine .inr ⟨hgo.1, hgo.2, ?_⟩
    rw [seq_of_seqs (mirrorPages_seqs _ _ _ _)]
    obtain ⟨c, hc⟩ := issueInsertions_seq (s.onSeq h fun y => { y with sealedPos := s.sealTarget x }) h x.sealedPos (s.sealTarget x)
    exact ⟨_, by rw [hc, seq_onSeq _ _ _ (fun _ => by rfl), hx]; rfl⟩

/-- Settles O51: sealing either changes nothing of the sequence, or moves a live one's sealed position up to the target, which the conditions of R124 bound. -/
theorem sealingWaitsForTheMirror : Obligations.SealingWaitsForTheMirror := by
  intro s h x hx
  obtain hsame | ⟨hlive, hlt, c, hy⟩ := seal_seq hx
  · exact ⟨x, hsame, le_rfl, fun hlt => absurd hlt (lt_irrefl _), rfl, rfl, rfl, rfl⟩
  · obtain ⟨hvisible, hledger, hpartner⟩ := sealTarget_le s x
    exact ⟨_, hy, hlt.le, fun _ => ⟨hlive, hvisible, hledger, hpartner⟩, rfl, rfl, rfl, rfl⟩

end Sys2Proof.Machine
end

section
/-!
PROOFS. A query head's partial (R94, R98, R101, R102, R104): merging, NaN, a first tile of one key, and the output, whatever the free values are (log 41).
-/
namespace Sys2Proof.Machine

/-! ### Merging (R102, R104) -/

section
variable {s : State} {a b : QPartial}

theorem mergePartial_of_empty (ha : a.empty = true) : s.mergePartial a b = (b, s) := by
  rw [State.mergePartial, if_pos ha]

variable (ha : a.empty = false)
include ha

theorem mergePartial_with_empty (hb : b.empty = true) : s.mergePartial a b = (a, s) := by
  simp only [State.mergePartial, ha, hb, Bool.false_eq_true, if_false, if_true]

variable (hb : b.empty = false)
include hb

theorem mergePartial_of_nan (hn : (a.nan || b.nan) = true) : s.mergePartial a b = (QPartial.nan_, s) := by
  simp only [State.mergePartial, ha, hb, hn, Bool.false_eq_true, if_false, if_true]

theorem mergePartial_of_numbers (hn : (a.nan || b.nan) = false) : s.mergePartial a b = s.joinPartials a b := by
  simp only [State.mergePartial, ha, hb, hn, Bool.false_eq_true, if_false]

/-- A merge of two partials with keys has keys, and is a NaN where either is. -/
theorem mergePartial_flags : (s.mergePartial a b).1.nan = (a.nan || b.nan) ∧ (s.mergePartial a b).1.empty = false := by
  cases hn : a.nan || b.nan
  · rw [mergePartial_of_numbers ha hb hn]
    exact ⟨rfl, rfl⟩
  · rw [mergePartial_of_nan ha hb hn]
    exact ⟨rfl, rfl⟩

end

/-- The greater of two FP32 numbers is one, so its code has its value. -/
theorem fp32Val_code_max (x y : W32) (hx : (encFp32.decode x.toNat).finite = true) (hy : (encFp32.decode y.toNat).finite = true) :
    fp32Val (rankCode (nearRank (max (fp32Val x) (fp32Val y)))) = max (fp32Val x) (fp32Val y) := by
  obtain h | h := max_choice (fp32Val x) (fp32Val y)
  · rw [h, fp32Val_nearRank x hx]
  · rw [h, fp32Val_nearRank y hy]

/-! ### What is not finite (R104) -/

section
variable {s : State} {scale qf : Nat} {old : QPartial} {q : List Val} {keys vals : List (List Val)}

theorem newPartial_of_nonfinite (h : ∃ v ∈ keys ++ vals, ∃ e ∈ v, Val.finite e = false) : s.newPartial scale qf old q keys vals = (QPartial.nan_, s) := by
  obtain ⟨v, hv, e, he, hbad⟩ := h
  have hall : ((keys ++ vals).all fun v => v.all Val.finite) = false := by
    rw [List.all_eq_false]
    exact ⟨v, hv, by simpa using ⟨e, he, hbad⟩⟩
  simp only [State.newPartial, hall, Bool.not_false, Bool.or_true, Bool.true_or, if_true]

theorem newPartial_of_overflow (hq : operandsFinite scale q = true) (h : ∃ k ∈ keys, scoreOverflows scale q k = true) :
    s.newPartial scale qf old q keys vals = (QPartial.nan_, s) := by
  have hany : keys.any (scoreOverflows scale q) = true := by simpa using h
  simp only [State.newPartial, hq, hany, Bool.and_self, Bool.or_true, if_true]

/-- Finite operands and scores within the FP32 range make a tile of R101. -/
theorem newPartial_of_finite (hn : old.nan = false) (hq : operandsFinite scale q = true) (hfin : ∀ v ∈ keys ++ vals, ∀ e ∈ v, Val.finite e = true)
    (hs : ∀ k ∈ keys, scoreOverflows scale q k = false) : s.newPartial scale qf old q keys vals = s.tileUpdate scale qf old q keys vals := by
  have hall : ((keys ++ vals).all fun v => v.all Val.finite) = true := by simpa only [List.all_eq_true] using hfin
  have hany : keys.any (scoreOverflows scale q) = false := by simpa using hs
  simp only [State.newPartial, hn, hq, hall, hany, Bool.not_true, Bool.and_false, Bool.or_self, Bool.false_eq_true, if_false, if_true]

end

/-- What a tile makes of every query head's partial, every partial after it is. -/
theorem addToPartials_forall {P : QPartial → Prop} {scale qf : Nat} {keys vals : List (List Val)} (hk : keys ≠ [])
    (hP : ∀ (s : State) (x : QPartial) (q : List Val), P (s.newPartial scale qf x q keys vals).1) (s : State) (old : List QPartial) (qs : List (List Val)) :
    ∀ p ∈ (s.addToPartials scale qf old qs keys vals).1, P p := by
  rw [State.addToPartials, if_neg (by simpa using hk)]
  refine List.foldlRecOn (motive := fun acc : List QPartial × State => ∀ p ∈ acc.1, P p) _ _ (by simp) fun acc hacc x _ => ?_
  simp only [List.mem_append, List.mem_singleton]
  rintro p (hp | rfl)
  · exact hacc p hp
  · exact hP _ _ _

/-! ### A first tile of one key (R101) -/

theorem pick_self (s : State) (x : Int) : s.pick x x = (x, s) := by simp [State.pick]

/-- e^0 is exactly 1, as a factor and as a probability (R100, R101). -/
theorem expFp32_zero (s : State) : s.expFp32 0 = (one160, s) := by
  have hlo : ceilMag (expRange 0).1 = 0x3F800000 := by decide +kernel
  have hhi : floorMag (expRange 0).2 = 0x3F800000 := by decide +kernel
  have hval : rankVal 0x3F800000 = one160 := by decide +kernel
  simp only [State.expFp32, hlo, hhi, max_self]
  rw [pick_self]
  exact congrArg (·, s) hval

theorem prob_zero (s : State) : s.prob 0 = (one160, s) := by
  have hlo : prob16 (expRange 0).1 = 0x3C00 := by decide +kernel
  have hhi : prob16 (expRange 0).2 = 0x3C00 := by decide +kernel
  have hval : encFp16.decode 0x3C00 = .fin one160 := by decide +kernel
  simp only [State.prob, hlo, hhi, pick_self, Int.toNat_natCast, hval]

theorem fp32Val_eq_num (w : W32) : fp32Val w = (encFp32.decode w.toNat).num := by
  unfold fp32Val Val.num
  rfl

/-- One has one code. -/
theorem code_of_fp32Val_one {w : W32} (h : fp32Val w = one160) : w = 0x3F800000 := by
  have hone : one160 = (2 ^ 160 : Nat) := by norm_num
  have hfinite : (encFp32.decode w.toNat).finite = true := by
    by_contra hbad
    have hzero : fp32Val w = 0 := by
      rw [fp32Val_eq_num]
      cases hv : encFp32.decode w.toNat <;> simp_all [Val.num, Val.finite]
    rw [hzero] at h
    exact absurd h (by decide)
  rw [fp32Val_eq w hfinite, hone] at h
  split at h
  · omega
  · have hcode : floorMag (2 ^ 160) = 0x3F800000 := by decide +kernel
    have hmag := (rank_of_magVal _ (fp32_finite_low w hfinite)).1
    rw [Int.natCast_inj.1 h, hcode] at hmag
    exact BitVec.eq_of_toNat_eq (by simp; omega)

/-- The sum of one exponential that is 1 is 1. -/
theorem updateCode_one (s : State) : s.updateCode 0 0 one160 [one160 * one160] = (0x3F800000, s) := by
  have hone : fp32Val 0x3F800000 = one160 := by decide +kernel
  obtain ⟨hval, hstate⟩ := s.updateCode_single 0x3F800000 0 (by decide +kernel)
  rw [hone] at hval hstate
  exact Prod.ext (code_of_fp32Val_one hval) hstate

/-- Element by element, an update of o is an update of one code. -/
theorem updateAll_getD (s : State) (α β : Int) (terms : Nat → List Int) (l : List W32) (n c : Nat) (hc : c < l.length) :
    ∃ (t : State) (x : W32), (s.updateAll α β terms l n).1.getD c 0 = (t.updateCode α x β (terms (n + c))).1 := by
  induction l generalizing s n c with
  | nil => simp at hc
  | cons x xs ih =>
    cases c with
    | zero => exact ⟨s, x, rfl⟩
    | succ c =>
      obtain ⟨t, y, h⟩ := ih (s.updateCode α x β (terms n)).2 (n + 1) c (by simpa using hc)
      exact ⟨t, y, by rw [Nat.add_right_comm] at h; exact h⟩

/-- A first tile of one key takes it with probability and weight 1. -/
theorem tileUpdate_first (s : State) (scale qf : Nat) (q k v : List Val) : (s.tileUpdate scale qf QPartial.none_ q [k] [v]).1.l = 0x3F800000 ∧
    (s.tileUpdate scale qf QPartial.none_ q [k] [v]).1.o = ((s.score scale qf q k).2.updateAll 0 one160
      (fun c => [one160 * valNum (v.getD c (.fin 0))]) (List.replicate 128 0) 0).1 := by
  have hscores : s.scores scale qf q [k] = ([(s.score scale qf q k).1], (s.score scale qf q k).2) := by simp only [State.scores]
  have htop : maxOf [(s.score scale qf q k).1] = (s.score scale qf q k).1 := by simp [maxOf]
  have hprobs : ∀ t : State, t.probs (s.score scale qf q k).1 [(s.score scale qf q k).1] = ([one160], t) := by
    intro t
    simp only [State.probs, sub_self, Int.natAbs_zero, prob_zero]
  simp only [State.tileUpdate, hscores, htop, QPartial.none_, if_true, sub_self, Int.natAbs_zero, expFp32_zero, hprobs, List.map_cons, List.map_nil,
    List.zip_cons_cons, List.zip_nil_left, updateCode_one, and_self]

/-! ### Output of a query head (R98, R102, R104) -/

theorem beBytes_zero (n : Nat) : beBytes n 0 = List.replicate n 0 := by
  induction n with
  | zero => rfl
  | succ n ih => rw [beBytes, Nat.zero_div, ih, List.replicate_succ']; rfl

theorem zeroElems_eq (f : Nat) : ((List.range 128).flatMap fun _ => outElem f 0) = List.replicate (128 * payloadBytes f) 0 := by
  simp only [outElem, beBytes_zero, List.flatMap_def, List.map_const', List.length_range, List.flatten_replicate_replicate]

section
variable {b : AttendBody}

theorem headOut_nan : headOut b QPartial.nan_ = ((List.range 128).flatMap fun _ => outElem b.oFmt.toNat (outNan b.oFmt.toNat)) ++
    (if b.oMode = 1 then [0x7F, 0xC0, 0, 0, 0x7F, 0xC0, 0, 0] else []) := by
  have hwords : beBytes 4 QPartial.nan_.m.toNat ++ beBytes 4 QPartial.nan_.l.toNat = [0x7F, 0xC0, 0, 0, 0x7F, 0xC0, 0, 0] := by decide +kernel
  have hnan : QPartial.nan_.nan = true := rfl
  rw [headOut]
  split
  · simp only [hnan, Bool.true_or, if_true, List.append_assoc, hwords]
  · exact (List.append_nil _).symm

theorem headOut_none : headOut b QPartial.none_ = List.replicate (128 * payloadBytes b.oFmt.toNat) 0 ++
    (if b.oMode = 1 then [0xFF, 0x80, 0, 0, 0, 0, 0, 0] else []) := by
  have hwords : beBytes 4 QPartial.none_.m.toNat ++ beBytes 4 QPartial.none_.l.toNat = [0xFF, 0x80, 0, 0, 0, 0, 0, 0] := by decide +kernel
  have hempty : QPartial.none_.empty = true ∧ QPartial.none_.nan = false := ⟨rfl, rfl⟩
  rw [headOut]
  split
  · simp only [hempty, Bool.false_or, Bool.false_eq_true, if_true, if_false, zeroElems_eq, List.append_assoc, hwords]
  · simp only [hempty, Bool.true_or, Bool.false_eq_true, if_true, if_false, zeroElems_eq, List.append_nil]

end

/-- An element beyond a list of finite values is 0, so every element is finite. -/
theorem finite_getD {v : List Val} (h : ∀ e ∈ v, Val.finite e = true) (c : Nat) : Val.finite (v.getD c (.fin 0)) = true := by
  by_cases hc : c < v.length
  · rw [List.getD_eq_getElem v _ hc]
    exact h _ (List.getElem_mem hc)
  · rw [List.getD_eq_default v _ (Nat.not_lt.1 hc)]
    rfl

/-- Settles O24: merging by which partial is empty or a NaN; NaN by the operand or score that is none; a tile of one key by its weight and probability of 1. -/
theorem partialsOfOneQueryHead : Obligations.PartialsOfOneQueryHead := by
  refine ⟨fun s scale qf old qs vals => rfl, fun s a b => ⟨mergePartial_of_empty, mergePartial_with_empty, fun ha hb => ?_⟩,
    fun s scale qf old qs keys vals hk hbad => ?_, fun s scale qf old q keys vals hq hover => ?_, fun s scale qf q k v p hq hfin hs hp => ?_,
    fun b => ⟨headOut_nan, headOut_none⟩⟩
  · obtain ⟨hnan, hempty⟩ := mergePartial_flags (s := s) ha hb
    refine ⟨hnan, hempty, fun han hbn hma hmb => ?_⟩
    rw [mergePartial_of_numbers ha hb (by rw [han, hbn]; rfl)]
    exact fp32Val_code_max a.m b.m hma hmb
  · exact addToPartials_forall hk (fun t x q => by rw [newPartial_of_nonfinite hbad]; rfl) s old qs
  · rw [newPartial_of_overflow hq hover]
    rfl
  · rw [newPartial_of_finite rfl hq (by simpa [or_imp, forall_and] using hfin) (by simpa using hs)] at hp
    obtain ⟨hl, ho⟩ := tileUpdate_first s scale qf q k v
    rw [hp]
    refine ⟨rfl, rfl, hl, fun c w hc hw => ?_⟩
    have hfinite : (encFp32.decode w.toNat).finite = true := hw ▸ finite_getD (fun e he => hfin e (List.mem_append_right k he)) c
    have hnum : valNum (v.getD (0 + c) (.fin 0)) = fp32Val w := by rw [Nat.zero_add, hw, fp32Val_eq_num, valNum]
    obtain ⟨t, x, hx⟩ := updateAll_getD (s.score scale qf q k).2 0 one160 (fun c => [one160 * valNum (v.getD c (.fin 0))]) (List.replicate 128 0) 0 c
      (by simpa using hc)
    rw [ho, hx, hnum]
    exact (t.updateCode_single w x hfinite).1

end Sys2Proof.Machine
end

section
/-!
PROOFS. ATTEND let in, its tiles computed, its partials merged, and its completion (R82 to R86, R90, R96, R101, R102, R249): one lemma for each way to go.
-/
namespace Sys2Proof.Machine

/-! ### ATTEND let in (R82 to R85, R249) -/

/-- The sequences that an ATTEND names and may read take the active epoch with it (R249). -/
def State.attendEpoch (u : State) (m : Rx) (b : AttendBody) : State :=
  if m.hdr.epoch.toNat = u.epochs.active then
    u.onSeqs fun l => mapIf (fun x => (b.rows.any fun r => r.handle.toNat == x.handle) && (u.checkHandle m.hdr x.handle).isNone && u.holds m.qp x)
      (fun x => { x with epoch := u.epochs.active }) l else u

section
variable {u : State} {m : Rx} {b : AttendBody} {but : Option Nat} {i : Instr} {run : State → State}

theorem enterAttend_waits {h : Nat} (hw : u.attendWaits m b but = some h) :
    u.enterAttend m b but i run = u.onSeq h fun x => { x with epochQueue := x.epochQueue ++ [i] } := by
  rw [State.enterAttend, hw]

theorem enterAttend_runs (hw : u.attendWaits m b but = none) : u.enterAttend m b but i run = run (u.attendEpoch m b) := by
  rw [State.enterAttend, hw, State.attendEpoch]

theorem runAttend_malformed (hf : u.attendShape m b = false) : u.runAttend m b i = u.answer (reqOf m 0x31) .malformed := by
  rw [State.runAttend, if_pos (by rw [hf]; rfl)]

variable (hf : u.attendShape m b = true)
include hf

theorem runAttend_reads {p : Qp} (hr : b.qByRef = true) (hp : u.qp m.qp = some p) : u.runAttend m b i =
    ((u.newAttend m b false).2.rdmaRead p (serviceOf (u.qpRole p) 0x31 9 false) (classOf (serviceOf (u.qpRole p) 0x31 9 false) 0x31) m.hdr.tenant.toNat
      b.qAddr.toNat b.qKey.toNat b.qLen.toNat (u.newAttend m b false).1 i).meterBytes p.part m.hdr.tenant.toNat b.qLen.toNat := by
  simp only [State.runAttend, hf, hr, hp, Bool.not_true, Bool.false_eq_true, if_false, if_true]

theorem runAttend_dispatches (hr : b.qByRef = false) :
    u.runAttend m b i = (u.newAttend m b true).2.turnAttend (u.newAttend m b true).1 (b.rows.length + 1) := by
  simp only [State.runAttend, hf, hr, Bool.not_true, Bool.false_eq_true, if_false]

end

/-- An accepted ATTEND is let in under R249. -/
theorem exec_attend {s u : State} {q : Qp} {m : Rx} {b : AttendBody} (ha : s.Accepts q m 0x31 .checked (if b.qByRef then b.qLen.toNat else 0) u) :
    exec (.attend m b) s = .next ((u.enterAttend m b none (.attend m b) fun s => s.runAttend m b (.attend m b)).ended q m) :=
  congrArg Host.Outcome.next (receive_ok ha false _)

/-- Settles O21: an accepted ATTEND waits with a sequence or runs, and its run is read off for its layout and for where its queries are. -/
theorem attendDispatchesItsRows : Obligations.AttendDispatchesItsRows := by
  intro s u v q p m b ha
  rw [exec_attend ha]
  refine ⟨fun h hw => by rw [enterAttend_waits hw], fun hw hv => ?_⟩
  have hv : v = u.attendEpoch m b := hv
  rw [enterAttend_runs hw, ← hv]
  refine ⟨fun hf => by rw [runAttend_malformed hf], fun hf => ⟨?_, ?_⟩⟩
  · rintro hr hp _ rfl
    rw [runAttend_reads hf hr hp]
  · rintro hr _ rfl
    rw [runAttend_dispatches hf hr]

/-! ### Tiles, partials and the completion (R86, R90, R96, R101, R102) -/

section
variable {s : State} (hs : s.serving = true)
include hs

theorem exec_tileCompute {t : Tile} {a : Attend} {r : Row} {g : Nat} {v : HbmVerdict} (ht : s.tile t.id = some t) (hrow : s.rowOf t = some (a, r))
    (hst : t.st = .issued g) (hrun : r.status = none) : exec (.tileCompute t.id v) s = .next (s.computeTile t a r v).settle := by
  change execTileCompute t.id v s = _
  simp only [execTileCompute, event_ok hs, ht, hrow, hst, hrun, Option.isSome_none, Bool.false_eq_true, if_false]

theorem exec_scarfMerge {c : Accum} (hc : s.accum c.id = some c) (hfull : c.expected = 0) (hbelow : c.level < 2) :
    exec (.scarfMerge c.id) s = .next (s.mergeUp c).settle := by
  change execScarfMerge c.id s = _
  simp only [execScarfMerge, event_ok hs, hc, hfull, hbelow, decide_true, Bool.and_self, if_true]

theorem exec_attendCompletion {a : Attend} (ha : s.attend a.id = some a) (hd : a.dispatched = true) (hended : ∀ r ∈ a.rows, r.status ≠ none) :
    exec (.attendCompletion a.id) s = .next (s.completeAttend a).settle := by
  change execAttendCompletion a.id s = _
  have hall : (a.rows.all fun r => r.status.isSome) = true := by simpa [Option.isSome_iff_ne_none] using hended
  simp only [execAttendCompletion, event_ok hs, ha, hd, hall, Bool.and_self, if_true]

end

/-- Settles O23: each event by its lemma. -/
theorem tilesComputeMergeAndComplete : Obligations.TilesComputeMergeAndComplete := fun _ hs =>
  ⟨fun _ _ _ _ _ => exec_tileCompute hs, fun _ => exec_scarfMerge hs, fun _ => exec_attendCompletion hs⟩

end Sys2Proof.Machine
end

section
/-!
PROOFS. APPEND under way, and the drain that waits for it (R119, R122, R126, R129 to R133, R180, R262): the completion, the holding, the hold limit, and the
bytes one position takes.
-/
namespace Sys2Proof.Machine

variable {s : State} {x : Seq} {a : Append}

/-- A deadline has come once the clock has reached it (log 79). -/
theorem due_iff {t : Nat} : s.due t = true ↔ t ≤ s.clock.us := decide_eq_true_iff

/-- A deadline ahead of the clock has not come. -/
theorem due_eq_false_iff {t : Nat} : s.due t = false ↔ s.clock.us < t := decide_eq_false_iff_not.trans Nat.not_le

/-! ### The completion (R109, R121, R122) -/

/-- An append may write every page it names that stands here: none is locked, and a refresh's are not being read, another append's not lost. -/
def Seq.writable (x : Seq) (a : Append) : Prop :=
  ∀ p ∈ x.targets a, p.pins ≠ 255 ∧ (if a.refresh then p.pins = 0 else p.lost = false)

section
variable (hw : x.writable a)
include hw

theorem Seq.writable.none_locked : (x.targets a).any (·.pins == 255) = false := by
  rw [List.any_eq_false]
  exact fun p hp => by simpa using (hw p hp).1

theorem Seq.writable.none_read : (a.refresh && (x.targets a).any fun p => decide (0 < p.pins)) = false := by
  cases hr : a.refresh with
  | false => rfl
  | true =>
    rw [Bool.true_and, List.any_eq_false]
    exact fun p hp => by simpa [hr] using (hw p hp).2

theorem Seq.writable.none_lost (hr : a.refresh = false) : (x.targets a).filter (·.lost) = [] := by
  rw [List.filter_eq_nil_iff]
  exact fun p hp => by simpa [hr] using (hw p hp).2

/-- No page that was lost meanwhile fails it. -/
theorem Seq.writable.no_failure :
    (if a.refresh then none else lowestLost (((x.targets a).filter (·.lost)).map fun p => (x, p))) = none := by
  cases hr : a.refresh with
  | true => rfl
  | false => rw [if_neg Bool.false_ne_true, hw.none_lost hr]; rfl

/-- An append that may write its pages, has none away and meets the ledger completes once its class can pay. -/
theorem tryComplete_pays {c : State} (haway : x.appendAway a = []) (hledger : a.body.ledgerPresent = true → a.body.first ≤ x.ledger.length)
    (hpay : s.chargeAll (mergeCosts (s.appendCosts x a)) = (c, none)) : s.tryComplete a x = c.completeAppend x a := by
  have hmeets : (a.body.ledgerPresent && decide (x.ledger.length < a.body.first)) = false := by simpa using hledger
  simp only [State.tryComplete, hw.no_failure, hw.none_locked, hw.none_read, haway, hmeets, List.isEmpty_nil, Bool.not_true, Bool.false_eq_true, if_false]
  exact charged_granted hpay _

end

theorem exec_appendCompletion {id : Nat} (hs : s.serving = true) (ha : s.append id = some a) (hx : s.seq a.handle = some x) (hp : a.phase = .scattering) :
    exec (.appendCompletion id) s = .next ((s.onAppend id fun y => { y with done := true }).tryComplete a x).settle := by
  change execAppendCompletion id s = _
  simp only [execAppendCompletion, event_ok hs, ha, hx, hp, if_true]

/-! ### Holding, and its limit (R122, R126) -/

section
variable {id : Nat} (ha : s.append id = some a)
include ha

/-- Within its hold limit an append takes steps 1 to 3. -/
theorem tryAlloc_early (hb : a.bare = false) (hd : s.clock.us < s.holdUntil a) : s.tryAlloc id = s.allocAppend id := by
  simp only [State.tryAlloc, ha, hb, due_eq_false_iff.2 hd, Bool.or_self, Bool.false_eq_true, if_false]

/-- From its hold limit on, or where its sequence is truncated (R132), it takes steps 4 to 6. -/
theorem tryAlloc_late (h : a.bare = true ∨ s.holdUntil a ≤ s.clock.us) : s.tryAlloc id = s.forceAlloc id := by
  have hlate : (a.bare || s.due (s.holdUntil a)) = true := by rwa [Bool.or_eq_true, due_iff]
  simp only [State.tryAlloc, ha, hlate, if_true]

variable (hs : s.serving = true)
include hs

theorem exec_frameFreedForAppend (hp : a.phase = .holding) : exec (.frameFreedForAppend id) s = .next (s.tryAlloc id).settle := by
  change execFrameFreedForAppend id s = _
  simp only [execFrameFreedForAppend, event_ok hs, ha, hp, if_true]

theorem exec_appendHoldExpiry_late (hd : s.holdUntil a ≤ s.clock.us) : exec (.appendHoldExpiry id) s = .next (s.expireHold a).settle := by
  change execAppendHoldExpiry id s = _
  simp only [execAppendHoldExpiry, event_ok hs, ha, due_iff.2 hd, if_true]

theorem exec_appendHoldExpiry_early (hd : s.clock.us < s.holdUntil a) : exec (.appendHoldExpiry id) s = .next s.settle := by
  change execAppendHoldExpiry id s = _
  simp only [execAppendHoldExpiry, event_ok hs, ha, due_eq_false_iff.2 hd, Bool.false_eq_true, if_false]

end

theorem expireHold_holding (hp : a.phase = .holding) : s.expireHold a = s.forceAlloc a.id := by rw [State.expireHold, hp]

theorem expireHold_growth (hp : a.phase = .growth) : s.expireHold a = s.noFrame a := by rw [State.expireHold, hp]

/-- An append fails whose staging has found no frames by then (log 152). -/
theorem expireHold_staging {g : Nat} (hp : a.phase = .staging g) (hg : (s.staging g).any (fun y => y.place.isNone) = true) :
    s.expireHold a = s.noFrame a := by
  simp only [State.expireHold, hp, hg, if_true]

/-- Settles O16: each event by its lemma, and what it comes to by what the append waits for and where the clock stands. -/
theorem appendsCompleteOrHold : Obligations.AppendsCompleteOrHold := by
  intro s id a x hs ha hx
  refine ⟨?_, fun hp hb hd => ?_, fun hp hd => ?_, fun hd => ⟨fun hp hid => ?_, fun hp => ?_, fun g hp hg => ?_⟩, exec_appendHoldExpiry_early ha hs⟩
  · rintro _ c hp rfl hw haway hledger hpay
    rw [exec_appendCompletion hs ha hx hp, tryComplete_pays hw haway hledger hpay]
  · rw [exec_frameFreedForAppend ha hs hp, tryAlloc_early ha hb hd]
  · rw [exec_frameFreedForAppend ha hs hp, tryAlloc_late ha hd]
  · rw [exec_appendHoldExpiry_late ha hs hd, expireHold_holding hp, hid]
  · rw [exec_appendHoldExpiry_late ha hs hd, expireHold_growth hp]
  · rw [exec_appendHoldExpiry_late ha hs hd, expireHold_staging hp hg]

/-! ### The bytes of one position (R119, R180) -/

/-- Stores runs of bytes into HBM one after the other, each at its offset from a base. -/
def State.storeRuns (s : State) (base : Nat) (l : List (Nat × List Byte)) : State :=
  l.foldl (fun s w => s.onHbm fun h => { h with mem := memWrites h.mem (base + w.1) w.2 }) s

/-- A byte outside every run stored keeps its value. -/
theorem memRead_storeRuns_off {base k : Nat} (l : List (Nat × List Byte)) (s : State) (hwf : Memory.wf s.hbm.mem)
    (hk : ∀ w ∈ l, k < base + w.1 ∨ base + w.1 + w.2.length ≤ k) : memRead (s.storeRuns base l).hbm.mem k = memRead s.hbm.mem k := by
  induction l generalizing s with
  | nil => rfl
  | cons w l ih =>
    obtain ⟨hw, hl⟩ := List.forall_mem_cons.1 hk
    exact (ih _ (memWrites_wf _ _ _ hwf) hl).trans (memRead_memWrites_off _ _ _ _ hwf hw)

/-- A position is stored in its page's frame, and nothing is where there is no such page. -/
theorem writePosition_eq (s : State) (q : Seq) (l k pos fmt : Nat) (vals : List Byte) : s.writePosition q l k pos vals fmt =
    (((s.seq q.handle).bind fun y => y.page l k ((pos - q.posBase) / 64)).map fun p => s.storeRuns (p.frame * 1024)
      (positionWrites q.fmt ((pos - q.posBase) % 64) ((payloadVals fmt vals).take 128) ((payloadVals fmt vals).drop 128))).getD s := by
  unfold State.writePosition
  cases (s.seq q.handle).bind fun y => y.page l k ((pos - q.posBase) / 64) <;> rfl

/-- Settles O17: the position's elements are runs of bytes in its page's frame, and storing runs leaves every byte outside them. -/
theorem positionsStoreOnlyTheirElements : Obligations.PositionsStoreOnlyTheirElements := by
  intro s q l k pos fmt a vals hwf hoff
  rw [writePosition_eq]
  cases hp : (s.seq q.handle).bind fun y => y.page l k ((pos - q.posBase) / 64) with
  | none => rfl
  | some p => exact memRead_storeRuns_off _ s hwf fun w => hoff p w hp

/-! ### The end of a drain (R133, R262) -/

/-- The old holder's appends and rows have ended, what is written has sealed or the mirror timeout has passed, and no row reads what would be cut (log 89). -/
theorem drainDone_iff : s.drainDone x = true ↔ (∀ a ∈ s.work.appends, a.handle ≠ x.handle) ∧ s.rowsComing x.handle = false ∧
    (s.allVisible x ≤ x.sealedPos ∨ x.turn.waitUntil ≤ s.clock.us) ∧ s.readsPast x = false := by
  simp [State.drainDone, due_iff, and_assoc]

theorem exec_drainComplete {w : W64} {d : Bool} (hs : s.serving = true) (hx : s.seq w.toNat = some x) (hd : x.lease = .draining d) :
    exec (.drainComplete w) s = .next (if s.drainDone x = true then s.endDrain w.toNat d else s).settle := by
  change execDrainComplete w s = _
  simp only [execDrainComplete, event_ok hs, hx, hd]

/-- Settles O11: the end of a drain, with its condition read off. -/
theorem drainEndsWhenAppendsHave : Obligations.DrainEndsWhenAppendsHave := by
  intro s w x d hs hx hd
  rw [exec_drainComplete hs hx hd, apply_ite State.settle]
  simp only [drainDone_iff]

end Sys2Proof.Machine
end

section
/-!
PROOFS. Stagings, their timeout, and DELIVER (R136, R138, R142 to R148): the landing of a page, and one lemma for each way a delivery goes.
-/
namespace Sys2Proof.Machine

variable {s : State}

/-! ### Stagings (R136, R138, R142, R147) -/

/-- A page that still lies where it was staged from, and is not locked, is written to its place once its class can pay (R36, R136). -/
theorem finishStaging_lands {v c : State} {g : Staging} {x : Seq} {p : Page} {a : Nat} (hplace : g.place = some a) (hx : v.seq g.page.handle = some x)
    (hp : v.page g.page = some p) (hpins : p.pins ≠ 255) (htier : p.tier = (if g.relay then .peer else .flash))
    (hpay : v.chargeAll (mergeCosts [burstCost a x.part (if g.relay then 3 else 2) (cdiv g.image.length 64)]) = (c, none)) :
    v.finishStaging g = c.landStaging g x p a := by
  have haway : (if g.relay then p.tier == .peer else p.tier == .flash) = true := by
    rw [htier]
    cases g.relay <;> rfl
  simp only [State.finishStaging, hx, hp, hplace, hpins, haway, if_false, if_true]
  exact charged_granted hpay _

section
variable (hs : s.serving = true)
include hs

theorem exec_stagingDone {id a : Nat} {g : Staging} (hg : s.staging id = some g) (hv : g.verified = true) (hplace : g.place = some a) :
    exec (.stagingDone id) s = .next ((s.onStaging id fun y => { y with due := true }).finishStaging g).settle := by
  change execStagingDone id s = _
  simp only [execStagingDone, event_ok hs, hg, hv, hplace, Option.isSome_some, Bool.and_self, if_true]

theorem exec_stageTimeout_staging {id : Nat} {g : Staging} (hg : s.staging id = some g)
    (hd : g.startUs + 1000 * s.actAt (s.heldEpoch id) 0x2301 7 (handlePart g.page.handle) ≤ s.clock.us) :
    exec (.stageTimeout id) s = .next (s.releaseHeld id).settle := by
  change execStageTimeout id s = _
  simp only [execStageTimeout, event_ok hs, hg, due_iff.2 hd, if_true]

theorem exec_stageTimeout_stage {id : Nat} {r : StageReq} (hg : s.staging id = none) (hr : s.stageReq id = some r)
    (hd : r.startUs + 1000 * s.actAt r.epoch 0x2301 7 r.req.partition ≤ s.clock.us) :
    exec (.stageTimeout id) s = .next ((s.endStage r false true).bump 0x2302 0x0F r.req.partition 1).settle := by
  change execStageTimeout id s = _
  simp only [execStageTimeout, event_ok hs, hg, hr, due_iff.2 hd, if_true]

theorem exec_stageTimeout_delivery {id t : Nat} {d : Delivery} (hg : s.staging id = none) (hr : s.stageReq id = none) (hd : s.delivery id = some d)
    (hsince : d.stageSince = some t) (hdue : t + 1000 * s.actAt d.epoch 0x2301 7 d.req.partition ≤ s.clock.us) :
    exec (.stageTimeout id) s = .next ((s.endDelivery d .retryLater 0).bump 0x2302 0x0F d.req.partition 1).settle := by
  change execStageTimeout id s = _
  simp only [execStageTimeout, event_ok hs, hg, hr, hd, hsince, due_iff.2 hdue, if_true]

end

/-- Settles O19: a verified staging lands, and the stage timeout goes by what waits under its identifier. -/
theorem stagingsEndOrTimeOut : Obligations.StagingsEndOrTimeOut := by
  refine fun s id hs => ⟨?_, fun g => exec_stageTimeout_staging hs, fun r => exec_stageTimeout_stage hs, fun d t => exec_stageTimeout_delivery hs⟩
  rintro g x p a _ c hg hv hplace rfl hx hp hpins htier hpay
  rw [exec_stagingDone hs hg hv hplace, finishStaging_lands hplace hx hp hpins htier hpay]

/-! ### DELIVER let in (R143, R144) -/

section
variable {u : State} {m : Rx} {b : DeliverBody} {x : Seq} (hn : u.checkHandle m.hdr m.hdr.handle.toNat = none) (hx : u.seq m.hdr.handle.toNat = some x)
include hn hx

/-- A DELIVER of another sender is refused (R76). -/
theorem runDeliver_of_other (hh : u.holds m.qp x = false) : u.runDeliver m b = u.answer (reqOf m 0x33) .notOwner := by
  simp only [State.runDeliver, hn, hx, hh, Bool.not_false, if_true]

variable (hh : u.holds m.qp x = true)
include hh

variable {v : State} (hv : v = u.touchLinked 6 m.hdr.handle.toNat)
include hv

theorem runDeliver_lost (hl : x.ledgerLost = true) : u.runDeliver m b = v.answer (reqOf m 0x33) .lost := by
  simp only [State.runDeliver, hn, hx, hh, hl, ← hv, Bool.not_true, Bool.false_eq_true, if_false, if_true]

variable (hl : x.ledgerLost = false)
include hl

theorem runDeliver_malformed (hf : x.deliverFits m b (v.deliverLimit x b) = false) : u.runDeliver m b = v.answer (reqOf m 0x33) .malformed := by
  simp only [State.runDeliver, hn, hx, hh, hl, ← hv, hf, Bool.not_true, Bool.not_false, Bool.false_eq_true, if_false, if_true]

variable (hf : x.deliverFits m b (v.deliverLimit x b) = true)
include hf

/-- One delivery of a sequence is under way at a time (R143). -/
theorem runDeliver_busy (hd : ∃ d ∈ v.work.deliveries, d.handle = m.hdr.handle.toNat) : u.runDeliver m b = v.answer (reqOf m 0x33) .retryLater := by
  have hany : v.work.deliveries.any (·.handle == m.hdr.handle.toNat) = true := by simpa using hd
  simp only [State.runDeliver, hn, hx, hh, hl, ← hv, hf, hany, Bool.not_true, Bool.false_eq_true, if_false, if_true]

theorem runDeliver_begins (hd : ∀ d ∈ v.work.deliveries, d.handle ≠ m.hdr.handle.toNat) :
    u.runDeliver m b = v.beginDeliver m b x (v.deliverLimit x b) := by
  have hany : v.work.deliveries.any (·.handle == m.hdr.handle.toNat) = false := by simpa using hd
  simp only [State.runDeliver, hn, hx, hh, hl, ← hv, hf, hany, Bool.not_true, Bool.false_eq_true, if_false]

end

theorem exec_deliver {u : State} {q : Qp} {m : Rx} {b : DeliverBody} {x : Seq} (l : s.LetsIn (.deliver m b) q m 0x33 0 x u) :
    exec (.deliver m b) s = .next ((u.runDeliver m b).ended q m) :=
  congrArg Host.Outcome.next (request_ok l fun s => s.runDeliver m b)

/-! ### PROGRESS (R146) -/

/-- The delivery that a PROGRESS names: one of its own sender, by its tag. -/
def State.progressed (u : State) (m : Rx) (tag : Nat) : Option Delivery :=
  u.work.deliveries.find? fun d => d.req.tag == tag && ((u.nodeOf m.qp).map (·.num)) == some d.node

section
variable {u : State} {m : Rx} {tag count : Nat}

theorem runProgress_malformed (h : u.progressed m tag = none ∨ m.hdr.bodyLen ≠ 8) : u.runProgress m tag count = u.answer (reqOf m 0x34) .malformed := by
  cases hd : u.progressed m tag with
  | none =>
    rw [State.progressed] at hd
    simp only [State.runProgress, hd]
  | some d =>
    have hlen : (m.hdr.bodyLen != 8) = true := bne_iff_ne.2 (h.resolve_left (by simp [hd]))
    rw [State.progressed] at hd
    simp only [State.runProgress, hd, hlen, if_true]

theorem runProgress_goesOn {d : Delivery} (hd : u.progressed m tag = some d) (hlen : m.hdr.bodyLen = 8) :
    u.runProgress m tag count = (u.onDelivery d.id fun y => { y with consumed := max y.consumed count }).deliverWait d.id := by
  rw [State.progressed] at hd
  simp only [State.runProgress, hd, hlen, bne_self_eq_false, Bool.false_eq_true, if_false]

end

theorem exec_progress {u : State} {q : Qp} {m : Rx} {tag : W32} {count : W16} (ha : s.Accepts q m 0x34 .checked 0 u) :
    exec (.progress m tag count) s = .next ((u.runProgress m tag.toNat count.toNat).ended q m) :=
  congrArg Host.Outcome.next (receive_ok ha true _)

/-! ### A delivery under way (R134, R145, R147) -/

section
variable {id : Nat} {d : Delivery} (hs : s.serving = true) (hd : s.delivery id = some d)
include hs hd

theorem exec_deliverLayerWrite : exec (.deliverLayerWrite id) s = .next (if s.epochLive d.epoch = false then (s.endDelivery d .staleEpoch 0).settle
    else if d.layer ≤ d.body.layerCount.toNat ∧ d.blocked = false then (s.writeLayer d).settle else s.settle) := by
  change execDeliverLayerWrite id s = _
  have hgoes : d.layer ≤ d.body.layerCount.toNat ∧ d.blocked = false ↔ ¬(decide (d.body.layerCount.toNat < d.layer) || d.blocked) = true := by simp
  simp only [execDeliverLayerWrite, event_ok hs, hd, hgoes, ite_not, Bool.not_eq_true', apply_ite State.settle]

theorem exec_deliverCompletion : exec (.deliverCompletion id) s =
    .next (if d.body.layerCount.toNat < d.layer then (s.endDelivery d .ok 0).settle else s.settle) := by
  change execDeliverCompletion id s = _
  simp only [execDeliverCompletion, event_ok hs, hd, apply_ite State.settle]

theorem exec_deliveryIdleTimeout {t : Nat} (hw : d.waitSince = some t) : exec (.deliveryIdleTimeout id) s =
    .next (if d.blocked = true ∧ t + 1000 * s.actAt d.epoch 0x2301 0x0B d.req.partition ≤ s.clock.us then (s.endDelivery d .retryLater 0).settle
      else s.settle) := by
  change execDeliveryIdleTimeout id s = _
  simp only [execDeliveryIdleTimeout, event_ok hs, hd, hw, apply_ite State.settle, Bool.and_eq_true, due_iff]

end

/-- Settles O20: the run of a DELIVER and of a PROGRESS by what it finds, and each event of a delivery by its lemma. -/
theorem deliverWritesLayersInTurn : Obligations.DeliverWritesLayersInTurn := by
  refine ⟨fun s u q m b x v l hv => ?_, fun s u q m tag count ha => ?_,
    fun s id d hs hd => ⟨exec_deliverLayerWrite hs hd, exec_deliverCompletion hs hd, fun t => exec_deliveryIdleTimeout hs hd⟩⟩
  · rw [exec_deliver l]
    refine ⟨fun hh => ?_, fun hh => ⟨fun hl => ?_, fun hl hf => ?_, fun hl hf hd => ?_, fun hl hf hd => ?_⟩⟩
    · rw [runDeliver_of_other l.named l.seq hh]
    · rw [runDeliver_lost l.named l.seq hh hv hl]
    · rw [runDeliver_malformed l.named l.seq hh hv hl hf]
    · rw [runDeliver_busy l.named l.seq hh hv hl hf hd]
    · rw [runDeliver_begins l.named l.seq hh hv hl hf hd]
  · rw [exec_progress ha]
    exact ⟨fun h => by rw [runProgress_malformed h], fun d hd hlen => by rw [runProgress_goesOn hd hlen]⟩

end Sys2Proof.Machine
end

section
/-!
PROOFS. The Mortise array and its messages (R157 to R177): its own events, PUBLISH and UNPUBLISH, and what a search answers.
-/
namespace Sys2Proof.Machine

/-! ### The array's own events (R157, R165, R167 to R170, R177) -/

/-- Work with a charge that is not granted is left, and marks the class it waits for (R36). -/
theorem charged_waits {s c : State} {costs : List Cost} {x : Cost} (h : s.chargeAll (mergeCosts costs) = (c, some x)) (k : State → State) :
    s.charged costs k = s.markWait x := by
  simp only [State.charged, h]

/-- A bank's slots packed upwards, its entries in their order (R159, R168). -/
def Bank.packed (b : Bank) : List (Nat × Entry) := (List.range b.slots.length).zip (b.slots.map (·.2))

/-- An entry whose stamp is older than half the window is stamped anew at the window's edge (R170). -/
def State.restamp (c : State) (b i : Nat) (e : Entry) : State :=
  if c.stampAge e.stamp ≤ 32768 then c
  else c.setBank b (mapIf (·.1 == i) (fun y => (y.1, { y.2 with stamp := (c.recency + 32768) % 65536 })) (c.bank b).slots)

/-- An entry whose parity fails is deleted, counted and recorded (R177). -/
def State.dropUnsound (c : State) (b : Nat) (e : Entry) : State :=
  ((c.deleteEntry e.part e.payload 64 5).bump 0x2405 3 b 1).reportUnit (srcBank b) 0x40 0 0

/-- What a paid patrol read of slot `i` of a bank does, by what stands there (R170, R177). -/
def State.arrayPatrolled (c : State) (b i : Nat) (ok : Bool) : Option (Nat × Entry) → State
  | none => c
  | some x => if ok then c.restamp b i x.2 else c.dropUnsound b x.2

/-- Puts an entry that lies outside its new group, given with its bank, into that group (R157). -/
def State.regroup (s : State) (x : Nat × Entry) : State :=
  (s.setBank x.1 ((s.bank x.1).slots.filter fun y => !(y.2.part == x.2.part && y.2.payload == x.2.payload))).placeEntry x.2

section
variable {s : State} (hs : s.serving = true)
include hs

theorem exec_mortiseInsertion {id : Nat} {x : Insertion} (hx : s.mortise.insertions.find? (·.id == id) = some x) : exec (.mortiseInsertion id) s =
    .next ((s.onMortise fun m => { m with
      insertions := m.insertions.filter (·.id != id) }).createEntry x.entry x.block x.cls x.holder 0).settle := by
  change execMortiseInsertion id s = _
  simp only [execMortiseInsertion, event_ok hs, hx]

theorem exec_mortiseCompaction (b : Nat) : exec (.mortiseCompaction b) s =
    .next (s.charged [searchCost 64 7 (cdiv (s.bank b).slots.length 8)] fun c => c.setBank b (s.bank b).packed).settle := by
  change execMortiseCompaction b s = _
  rw [execMortiseCompaction, event_ok hs]
  rfl

theorem exec_mortisePatrol (b i : Nat) (ok : Bool) : exec (.mortisePatrol b i ok) s =
    .next (s.charged [searchCost 64 5 1] fun c => c.arrayPatrolled b i ok ((s.bank b).slots.find? (·.1 == i))).settle := by
  change execMortisePatrol b i ok s = _
  rw [execMortisePatrol, event_ok hs]
  cases (s.bank b).slots.find? (·.1 == i) <;> rfl

theorem exec_modeMoveComplete {t : Nat} (ht : s.mortise.target = some t) : exec .modeMoveComplete s =
    .next (s.charged [searchCost 64 7 (5 * (s.outside t).length)] fun c => (c.each (c.outside t) State.regroup).onMortise fun m =>
      { m with mode := t, target := none }).settle := by
  change execModeMoveComplete s = _
  simp only [execModeMoveComplete, event_ok hs, ht]
  rfl

end

/-- Settles O14: each event by its lemma, its work done where the charge is granted and left where it is not. -/
theorem arrayInsertsCompactsPatrolsAndMoves : Obligations.ArrayInsertsCompactsPatrolsAndMoves := by
  refine fun s hs => ⟨fun id x => exec_mortiseInsertion hs, fun b c hpay => ?_, fun c hpay b i => ⟨fun hnone ok => ?_, fun x hx => ⟨?_, ?_⟩⟩,
    fun t c ht hpay => ?_, fun b c x hwait => ?_, fun b i ok c x hwait => ?_, fun t c x ht hwait => ?_⟩
  · rw [exec_mortiseCompaction hs, charged_granted hpay]
    rfl
  · rw [exec_mortisePatrol hs, charged_granted hpay, hnone]
    rfl
  · rw [exec_mortisePatrol hs, charged_granted hpay, hx, ← apply_ite State.settle]
    rfl
  · rw [exec_mortisePatrol hs, charged_granted hpay, hx]
    rfl
  · rw [exec_modeMoveComplete hs ht, charged_granted hpay]
    rfl
  · rw [exec_mortiseCompaction hs, charged_waits hwait]
  · rw [exec_mortisePatrol hs, charged_waits hwait]
  · rw [exec_modeMoveComplete hs ht, charged_waits hwait]

/-! ### PUBLISH and UNPUBLISH (R173, R174, R176) -/

/-- Layout of a PUBLISH of the sequence `x` (R176, Table 5-10). -/
def PublishFits (m : Rx) (x : Seq) (b : PublishBody) : Prop :=
  m.hdr.bodyLen = 8 ∧ b.length.toNat % 64 = 0 ∧ b.length ≠ 0 ∧ b.length.toNat ≤ x.sealedPos ∧ 2 ≤ b.cls.toNat ∧ x.posBase = 0

/-- The model's check of a PUBLISH finds a fault exactly where its layout has one. -/
theorem publishFits_iff {m : Rx} {x : Seq} {b : PublishBody} : (m.hdr.bodyLen != 8 || b.length.toNat % 64 != 0 || b.length.toNat == 0 ||
    x.sealedPos < b.length.toNat || b.cls.toNat < 2 || x.posBase != 0) = true ↔ ¬PublishFits m x b := by
  have hzero : b.length ≠ 0 ↔ b.length.toNat ≠ 0 := BitVec.toNat_inj.symm.not
  simp only [PublishFits, hzero, Bool.or_eq_true, bne_iff_ne, beq_iff_eq, decide_eq_true_eq, not_and_or, not_not, not_le, or_assoc]

section
variable {u : State} {m : Rx} {x : Seq} {b : PublishBody} (hn : u.checkHandle m.hdr m.hdr.handle.toNat = none) (hx : u.seq m.hdr.handle.toNat = some x)
include hn hx

theorem runPublish_lost (hl : x.ledgerLost = true) : u.runPublish m b = u.answer (reqOf m 0x21) .lost := by
  simp only [State.runPublish, hn, hx, hl, if_true]

variable (hl : x.ledgerLost = false)
include hl

theorem runPublish_malformed (hf : ¬PublishFits m x b) : u.runPublish m b = u.answer (reqOf m 0x21) .malformed := by
  simp only [State.runPublish, hn, hx, hl, publishFits_iff.2 hf, Bool.false_eq_true, if_false, if_true]

variable (hf : PublishFits m x b)
include hf

theorem runPublish_accessDenied (hsalt : u.publicSalt x.part = none) : u.runPublish m b = u.answer (reqOf m 0x21) .accessDenied := by
  simp only [State.runPublish, hn, hx, hl, mt publishFits_iff.1 (not_not.2 hf), hsalt, Bool.false_eq_true, if_false]

variable {salt : List Byte} {fps : List Nat} (hsalt : u.publicSalt x.part = some salt)
  (hfps : fps = chainFrom salt x.variant x.ledger (b.length.toNat / 64) 0 0)
include hsalt hfps

theorem runPublish_capacity (hroom : u.publishFits x b.cls.toNat fps = false) : u.runPublish m b = u.answer (reqOf m 0x21) .capacity := by
  simp only [State.runPublish, hn, hx, hl, mt publishFits_iff.1 (not_not.2 hf), hsalt, ← hfps, hroom, Bool.not_false, Bool.false_eq_true, if_false, if_true]

variable (hroom : u.publishFits x b.cls.toNat fps = true)
include hroom

/-- A PUBLISH finds the Mortise island stopped (log 43). -/
theorem runPublish_stopped (hup : u.mortiseUp = false) : u.runPublish m b = u.answer (reqOf m 0x21) .retryLater := by
  simp only [State.runPublish, hn, hx, hl, mt publishFits_iff.1 (not_not.2 hf), hsalt, ← hfps, hroom, hup, Bool.not_true, Bool.not_false, Bool.false_eq_true,
    if_false, if_true]

/-- A PUBLISH that passes its checks begins to publish its blocks. -/
theorem runPublish_begins (hup : u.mortiseUp = true) : u.runPublish m b = (u.fresh.2.onMortise fun y => { y with jobs := y.jobs ++
    [{ id := u.fresh.1, req := reqOf m 0x21, handle := m.hdr.handle.toNat, cls := b.cls.toNat, fps := fps, next := 0 }] }).turnJob u.fresh.1
      (fps.length + 1) := by
  simp only [State.runPublish, hn, hx, hl, mt publishFits_iff.1 (not_not.2 hf), hsalt, ← hfps, hroom, hup, Bool.not_true, Bool.false_eq_true, if_false]

end

/-- Layout of an UNPUBLISH of the sequence `x` (R176, Table 5-10). -/
def UnpublishFits (m : Rx) (x : Seq) (first : Nat) : Prop := m.hdr.bodyLen = 8 ∧ first % 64 = 0 ∧ x.posBase = 0

/-- The model's check of an UNPUBLISH finds a fault exactly where its layout has one. -/
theorem unpublishFits_iff {m : Rx} {x : Seq} {first : Nat} :
    (m.hdr.bodyLen != 8 || first % 64 != 0 || x.posBase != 0) = true ↔ ¬UnpublishFits m x first := by
  simp only [UnpublishFits, Bool.or_eq_true, bne_iff_ne, not_and_or, or_assoc]

section
variable {u : State} {m : Rx} {x : Seq} {first : Nat} (hn : u.checkHandle m.hdr m.hdr.handle.toNat = none) (hx : u.seq m.hdr.handle.toNat = some x)
include hn hx

theorem runUnpublish_lost (hl : x.ledgerLost = true) : u.runUnpublish m first = u.answer (reqOf m 0x22) .lost := by
  simp only [State.runUnpublish, hn, hx, hl, if_true]

variable (hl : x.ledgerLost = false)
include hl

theorem runUnpublish_malformed (hf : ¬UnpublishFits m x first) : u.runUnpublish m first = u.answer (reqOf m 0x22) .malformed := by
  simp only [State.runUnpublish, hn, hx, hl, unpublishFits_iff.2 hf, Bool.false_eq_true, if_false, if_true]

variable (hf : UnpublishFits m x first)
include hf

/-- A partition without a public salt has no public chain to withdraw from. -/
theorem runUnpublish_unsalted (hsalt : u.publicSalt x.part = none) :
    u.runUnpublish m first = u.complete (reqOf m 0x22) .ok (positionWord first) [] := by
  simp only [State.runUnpublish, hn, hx, hl, mt unpublishFits_iff.1 (not_not.2 hf), hsalt, Bool.false_eq_true, if_false]

theorem runUnpublish_withdraws {salt : List Byte} (hsalt : u.publicSalt x.part = some salt) : u.runUnpublish m first =
    (u.each ((chainFrom salt x.variant x.ledger (x.sealedPos / 64) 0 0).drop (first / 64)) fun s f => s.unpublishBlock x f).complete
      (reqOf m 0x22) .ok (positionWord first) [] := by
  simp only [State.runUnpublish, hn, hx, hl, mt unpublishFits_iff.1 (not_not.2 hf), hsalt, Bool.false_eq_true, if_false]

end

theorem exec_publish {s u : State} {q : Qp} {m : Rx} {x : Seq} {b : PublishBody} (l : s.LetsIn (.publish m b) q m 0x21 0 x u) :
    exec (.publish m b) s = .next ((u.runPublish m b).ended q m) := by
  change execPublish m b s = _
  rw [execPublish, request_ok l]

theorem exec_unpublish {s u : State} {q : Qp} {m : Rx} {x : Seq} {first : BitVec 23} (l : s.LetsIn (.unpublish m first) q m 0x22 0 x u) :
    exec (.unpublish m first) s = .next ((u.runUnpublish m first.toNat).ended q m) := by
  change execUnpublish m first s = _
  rw [execUnpublish, request_ok l]

/-- Settles O13: a request let in runs, and its run is read off check by check in R176's order. -/
theorem publishAndUnpublish : Obligations.PublishAndUnpublish := by
  refine ⟨fun s u q m x b l => ?_, fun s u q m x first l => ?_⟩
  · rw [exec_publish l]
    refine ⟨fun hl => ?_, fun hl hf => ?_, fun hl hf hsalt => ?_, fun salt fps hl hf hsalt hfps =>
      ⟨fun hroom => ?_, fun hroom hup => ?_, fun hroom hup => ?_⟩⟩
    · rw [runPublish_lost l.named l.seq hl]
    · rw [runPublish_malformed l.named l.seq hl hf]
    · rw [runPublish_accessDenied l.named l.seq hl hf hsalt]
    · rw [runPublish_capacity l.named l.seq hl hf hsalt hfps hroom]
    · rw [runPublish_stopped l.named l.seq hl hf hsalt hfps hroom hup]
    · rw [runPublish_begins l.named l.seq hl hf hsalt hfps hroom hup]
  · rw [exec_unpublish l]
    refine ⟨fun hl => ?_, fun hl hf => ?_, fun hl hf => ⟨fun hsalt => ?_, fun salt hsalt => ?_⟩⟩
    · rw [runUnpublish_lost l.named l.seq hl]
    · rw [runUnpublish_malformed l.named l.seq hl hf]
    · rw [runUnpublish_unsalted l.named l.seq hl hf hsalt]
    · rw [runUnpublish_withdraws l.named l.seq hl hf hsalt]

/-! ### What a search answers (R158) -/

/-- `y` is no better a match than `x`: of a lower priority, or of the same in no earlier bank and index (R158). -/
def NoBetter (y x : Nat × Nat × Entry) : Prop :=
  y.2.2.priority < x.2.2.priority ∨ (y.2.2.priority = x.2.2.priority ∧ (x.1 < y.1 ∨ (x.1 = y.1 ∧ x.2.1 ≤ y.2.1)))

theorem betterMatch_iff {x y : Nat × Nat × Entry} : betterMatch y x = true ↔ ¬NoBetter y x := by
  simp only [betterMatch, NoBetter, Bool.or_eq_true, Bool.and_eq_true, decide_eq_true_eq, beq_iff_eq]
  omega

theorem NoBetter.refl (x : Nat × Nat × Entry) : NoBetter x x := Or.inr ⟨rfl, Or.inr ⟨rfl, le_refl _⟩⟩

theorem NoBetter.trans {x y z : Nat × Nat × Entry} (h : NoBetter x y) (k : NoBetter y z) : NoBetter x z := by
  simp only [NoBetter] at *
  omega

/-- Of two matches one is no better than the other. -/
theorem NoBetter.of_not {x y : Nat × Nat × Entry} (h : ¬NoBetter x y) : NoBetter y x := by
  simp only [NoBetter] at *
  omega

/-- One more match takes the place of the best so far where it is better. -/
theorem bestMatch_concat (l : List (Nat × Nat × Entry)) (x : Nat × Nat × Entry) : bestMatch (l ++ [x]) =
    match bestMatch l with
    | none => some x
    | some y => if betterMatch x y then some x else some y := by
  rw [bestMatch, List.foldl_concat]
  rfl

/-- The best of no matches is none; the best of some is one of them, and none is better. -/
theorem bestMatch_spec (l : List (Nat × Nat × Entry)) : match bestMatch l with
    | none => l = []
    | some x => x ∈ l ∧ ∀ y ∈ l, NoBetter y x := by
  induction l using List.reverseRecOn with
  | nil => rfl
  | append_singleton l x ih =>
    rw [bestMatch_concat]
    cases hbest : bestMatch l with
    | none =>
      rw [hbest] at ih
      simp [ih, NoBetter.refl]
    | some y =>
      rw [hbest] at ih
      obtain ⟨hy, hall⟩ := ih
      by_cases hxy : betterMatch x y = true
      · have hyx : NoBetter y x := .of_not (betterMatch_iff.1 hxy)
        simp only [hxy, if_true, List.mem_append, List.mem_singleton, or_true, true_and]
        rintro z (hz | rfl)
        · exact (hall z hz).trans hyx
        · exact NoBetter.refl z
      · simp only [hxy, List.mem_append, List.mem_singleton]
        refine ⟨Or.inl hy, ?_⟩
        rintro z (hz | rfl)
        · exact hall z hz
        · exact not_not.1 (mt betterMatch_iff.2 hxy)

/-- There is no best match only where nothing matches. -/
theorem bestMatch_eq_none_iff {l : List (Nat × Nat × Entry)} : bestMatch l = none ↔ l = [] := by
  refine ⟨fun h => ?_, fun h => h ▸ rfl⟩
  have hspec := bestMatch_spec l
  rwa [h] at hspec

/-- A search of banks lists what matches the key in any of them. -/
theorem mem_matching {s : State} {bs : List Nat} {k : SearchKey} {x : Nat × Nat × Entry} :
    x ∈ s.matching bs k ↔ x.1 ∈ bs ∧ (x.2.1, x.2.2) ∈ (s.bank x.1).slots ∧ x.2.2.hits k = true := by
  obtain ⟨b, i, e⟩ := x
  simp [State.matching, mem_sortNat]

/-- What a search answers of its matches: their count, and the best with its ties. -/
theorem searchOf_best {l : List (Nat × Nat × Entry)} {x : Nat × Nat × Entry} (hx : (searchOf l).best = some x) :
    x ∈ l ∧ (∀ y ∈ l, NoBetter y x) ∧ ((searchOf l).tie = true ↔ 2 ≤ l.countP fun y => y.2.2.priority == x.2.2.priority) := by
  have hbest : bestMatch l = some x := hx
  have hspec := bestMatch_spec l
  rw [hbest] at hspec
  refine ⟨hspec.1, hspec.2, ?_⟩
  simp only [searchOf, hbest, decide_eq_true_eq]

/-! ### LOOKUP (R160, R175, R288) -/

/-- Whether the tokens of a LOOKUP are laid out as R175 says, within the partition's limit. -/
def State.lookupFits (u : State) (m : Rx) (b : LookupBody) : Bool :=
  tokensFit m 32 b.tokenCount.toNat b.byRef b.tokenLen.toNat b.tokens (u.act 0x2402 0x0A m.hdr.partition.toNat)

/-- A LOOKUP of another form than R175's: with a handle, without heads, or with its tokens laid out otherwise. -/
def State.lookupMalformed (u : State) (m : Rx) (b : LookupBody) : Prop := m.hdr.handle ≠ 0 ∨ b.headMask = 0 ∨ u.lookupFits m b = false

/-- The model's check of a LOOKUP finds a fault exactly where its form has one. -/
theorem lookupMalformed_iff {u : State} {m : Rx} {b : LookupBody} :
    (m.hdr.handle != 0 || b.headMask == 0 || !u.lookupFits m b) = true ↔ u.lookupMalformed m b := by
  simp only [State.lookupMalformed, Bool.or_eq_true, bne_iff_ne, beq_iff_eq, Bool.not_eq_true', or_assoc]

section
variable {s u : State} {q : Qp} {m : Rx} {b : LookupBody} (ha : s.Accepts q m 0x20 .checked (if b.byRef then b.tokenLen.toNat else 0) u)
include ha

theorem exec_lookup_malformed (hbad : u.lookupMalformed m b) : exec (.lookup m b) s = .next ((u.answer (reqOf m 0x20) .malformed).ended q m) := by
  change execLookup m b s = _
  rw [execLookup, receive_ok ha]
  exact congrArg (fun v : State => Host.Outcome.next (v.ended q m)) (if_pos (lookupMalformed_iff.2 hbad))

/-- A LOOKUP of the right form reads its tokens first where it names them by reference. -/
theorem exec_lookup_wellFormed (hgood : ¬u.lookupMalformed m b) : exec (.lookup m b) s = .next ((if b.byRef = true
    then u.readTokens m 0x20 b.tokenAddr.toNat b.tokenKey.toNat b.tokenLen.toNat (.lookup m b) else u.runLookupFor m b b.tokens).ended q m) := by
  change execLookup m b s = _
  rw [execLookup, receive_ok ha]
  exact congrArg (fun v : State => Host.Outcome.next (v.ended q m)) (if_neg (mt lookupMalformed_iff.1 hgood))

end

/-- The answer of a second-level search carries its lookup on: it waits for the other chain's, or goes on (R160, R172). -/
theorem exec_secondLevelSearchDone {s : State} {id : Nat} {lk : Lookup} (hs : s.serving = true) (hlk : s.mortise.lookups.find? (·.id == id) = some lk)
    (hph : lk.phase = .secondRuns) : exec (.secondLevelSearchDone id) s = .next (if (s.secondDone lk).1.phase = .secondRuns
      then (s.secondDone lk).2.keepLookup (s.secondDone lk).1
      else ((s.secondDone lk).2.keepLookup (s.secondDone lk).1).turnLookup (s.secondDone lk).1).settle := by
  change execSecondLevelSearchDone id s = _
  simp only [execSecondLevelSearchDone, event_ok hs, hlk, hph, bne_self_eq_false, Bool.false_eq_true, if_false, beq_iff_eq]

/-- Settles O12: a LOOKUP by its form and where its tokens are, a second-level answer by what its lookup still waits for, and a search by its matches. -/
theorem lookupTakesTheBestMatch : Obligations.LookupTakesTheBestMatch := by
  refine ⟨fun s u q m b ha => ⟨exec_lookup_malformed ha, fun hh hmask hf => ?_⟩, fun s id lk r hs hlk hph hr => ?_,
    fun s bs k x => mem_matching, fun l => ⟨rfl, bestMatch_eq_none_iff, fun x => searchOf_best⟩⟩
  · have hgood : ¬u.lookupMalformed m b := not_or.2 ⟨not_not.2 hh, not_or.2 ⟨hmask, ne_of_eq_of_ne hf Bool.noConfusion⟩⟩
    rw [exec_lookup_wellFormed ha hgood]
    exact ⟨fun hr => by rw [if_pos hr], fun hr l hl => by rw [if_neg (by simp [hr]), State.runLookupFor, hl]⟩
  · rw [exec_secondLevelSearchDone hs hlk hph, hr]
    exact ⟨fun hwait => by rw [if_pos hwait], fun hgo => by rw [if_neg hgo]⟩

end Sys2Proof.Machine
end

section
/-!
PROOFS. Administrators' commands on units, the firmware, pairing, mailboxes and migration (R157, R274, R278, R326, R330, R339, R370 to R409): what a request of
one item comes to, by the kind of its field, and the commands that are such requests.
-/
namespace Sys2Proof.Machine

variable {s b : State} {x : Session} {g : Mgmt}

/-! ### A command: TRUE written to a field that acts (R336) -/

/-- A field whose numbers have a range (`State.inRange`) or an effect (`State.putNumber`) of their own. -/
def ownRangeOrEffect (ix sub : Nat) : Bool :=
  [0x1010, 0x1202, 0x1220, 0x2001, 0x2011, 0x2018, 0x2201, 0x2401, 0x2402, 0x3004, 0x4001, 0x5002, 0x5020, 0x5021, 0x6052, 0x7020, 0x7801, 0x7802, 0x7810,
    0x7812].contains ix
    || [(0x1100, 4), (0x1210, 3), (0x1210, 4), (0x7100, 1), (0x7820, 1)].contains (ix, sub)

/-- A field on which TRUE is a command: one byte, write-only, the administrator's, and with no effect but `State.pull`'s. -/
def ObjRow.isCommand (r : ObjRow) (ix sub : Nat) : Bool :=
  r.acc == .wo && r.ty == 7 && r.len == 1 && r.lo == 0 && r.hi == 1 && decide (ix < 65536) && decide (sub < 256) && mayWriteField 0 ix sub .wo
    && !(selectorsOf ix).contains sub && !ownRangeOrEffect ix sub

/-- TRUE written to a command's field does what the command does, and is answered `OK`. -/
theorem writeTrue_pulls {ix sub item : Nat} {r : ObjRow} {o : Outside} {u : State} (h : s.Manages x g b ix sub item) (hr : objRow ix sub = some r)
    (hc : r.isCommand ix sub = true) (hp : b.pull (.session x.slot) o ix sub item = (.ok, u)) :
    s.writeOne g o ix sub [1] = .next (u.wroteOk x g ix sub) := by
  simp only [ObjRow.isCommand, ownRangeOrEffect, Bool.and_eq_true, Bool.not_eq_true', Bool.or_eq_false_iff, beq_iff_eq, decide_eq_true_eq,
    List.contains_eq_mem, decide_eq_false_iff_not, List.mem_cons, List.not_mem_nil, or_false, not_or, Prod.mk.injEq] at hc
  obtain ⟨⟨⟨⟨⟨⟨⟨⟨⟨hacc, hty⟩, hlen⟩, hlo⟩, hhi⟩, hix⟩, hsub⟩, hmay⟩, hsel⟩, hown, hother⟩ := hc
  have hput : b.putNumber (.session x.slot) o r ix sub item 1 = b.pull (.session x.slot) o ix sub item := by
    simp [State.putNumber, hsel, h.present, hacc, hown, hother]
  exact manage_wrote h o [1] r hr 1 rfl ⟨by simp [hacc], by rwa [hacc], by simp [hty], hix, hsub, by omega⟩ hlen.symm
    (inRange_row ⟨by omega, by omega⟩ (by simp only [hown, hother, ne_eq, not_false_eq_true, and_self])) u (hput.trans hp)

section
variable {n : Nat}

theorem exec_linkReset (h : s.Manages x g b 0x5001 4 n) : exec (.linkReset g 1) s = .next ((b.linkReset n).wroteOk x g 0x5001 4) :=
  writeTrue_pulls h row_5001_4 rfl rfl

theorem exec_fenceUnit (h : s.Manages x g b 0x7100 2 n) : exec (.fenceUnit g 1) s = .next ((b.fenceUnit n).wroteOk x g 0x7100 2) :=
  writeTrue_pulls h row_7100_2 rfl rfl

theorem exec_returnUnit {p : Bool} {u : State} (h : s.Manages x g b 0x7100 3 n) (hu : b.returnUnit n (some p) = (.ok, u)) :
    exec (.returnUnit g 1 p) s = .next (u.wroteOk x g 0x7100 3) :=
  writeTrue_pulls h row_7100_3 rfl hu

theorem exec_clearFirstError (h : s.Manages x g b 0x7010 5 n) :
    exec (.clearFirstError g 1) s = .next ((b.onFaults fun f => { f with firstError := none }).wroteOk x g 0x7010 5) :=
  writeTrue_pulls h row_7010_5 rfl rfl

theorem exec_orderlyShutdown (h : s.Manages x g b 0x7820 4 0) : exec (.orderlyShutdown g 1) s = .next (b.beginShutdown.wroteOk x g 0x7820 4) :=
  writeTrue_pulls h row_7820_4 rfl rfl

theorem exec_imageVerify {p q : Bool} {v : W64} {u : State} (h : s.Manages x g b 0x7840 5 0) (hu : b.verifyImage p q v.toNat = (.ok, u)) :
    exec (.imageVerify g 1 p q v) s = .next (u.wroteOk x g 0x7840 5) :=
  writeTrue_pulls h row_7840_5 rfl hu

theorem exec_firmwareSwitch {r : SwitchReport} {u : State} (h : s.Manages x g b 0x7840 6 0) (hu : b.startSwitch r = (.ok, u)) :
    exec (.firmwareSwitch g 1 r) s = .next (u.wroteOk x g 0x7840 6) :=
  writeTrue_pulls h row_7840_6 rfl hu

theorem exec_migrationStart {u : State} (h : s.Manages x g b 0x4007 3 0) (hs : b.serving = true) (hu : b.startMigration = (true, u)) :
    exec (.migrationStart g) s = .next (u.wroteOk x g 0x4007 3) :=
  writeTrue_pulls h row_4007_3 rfl (by simp [State.pull, hs, hu])

/-- A slot without a session under way places its HELLO (R330). -/
theorem startPair_idle {a : AttSession} (ha : b.att n = some a) (hhold : b.fw.hold = none) (hwait : a.st ≠ .awaitFinish) (hopen : a.st ≠ .open_) :
    b.startPair n = (.ok, b.placeHello n) := by
  simp [State.startPair, ha, hhold, hwait, hopen]

theorem exec_startPairing {a : AttSession} (h : s.Manages x g b 0x6040 6 n) (ha : b.att n = some a) (hhold : b.fw.hold = none) (hwait : a.st ≠ .awaitFinish)
    (hopen : a.st ≠ .open_) : exec (.startPairing g 1) s = .next ((b.placeHello n).wroteOk x g 0x6040 6) :=
  writeTrue_pulls h row_6040_6 rfl (startPair_idle ha hhold hwait hopen)

end

/-! ### The bank mode (R157) and resets (R400, R403) -/

theorem exec_bankModeRequest {v : Byte} (h : s.Manages x g b 0x2401 1 0) (hv : v.toNat ≤ 2) :
    exec (.bankModeRequest g v) s = .next ((b.requestBankMode v.toNat).wroteOk x g 0x2401 1) :=
  manage_wrote h _ [v] _ row_2401_1 v.toNat (by simp [beNat]) (by decide) rfl (inRange_row ⟨Nat.zero_le _, hv⟩ (by decide)) _
    (by simp [State.putNumber, selectorsOf, h.present])

/-- A reset request that is taken is answered `OK`. -/
theorem resetRequest_ok {w : W32} {r : Option BootReport} {u : State} (h : s.Manages x g b 0x7820 1 0) (hu : b.requestReset w.toNat r false = (.ok, u)) :
    s.resetRequest g w r = .next (u.wroteOk x g 0x7820 1) :=
  manage_wrote h _ (beBytes 4 w.toNat) _ row_7820_1 w.toNat ((beNat_beBytes 4 _).trans (Nat.mod_eq_of_lt w.isLt)) (by decide) (length_beBytes 4 _)
    (inRange_row ⟨Nat.zero_le _, Nat.le_of_lt_succ w.isLt⟩ (by decide)) u
    (by simpa [State.putNumber, selectorsOf, h.present, show (Via.session x.slot == .i3c) = false from rfl] using hu)

section
variable {w : W32} {r : BootReport} (h : s.Manages x g b 0x7820 1 0) (hidle : b.dev.resetInProgress = 0) (hhold : b.fw.hold = none)
include h hidle hhold

theorem exec_deviceReset (hlevel : w.toNat / 2 ^ 28 % 16 = 1) (hunit : w.toNat % 65536 = 0) :
    exec (.deviceReset g w r) s = .next ((b.reboot r false).wroteOk x g 0x7820 1) :=
  resetRequest_ok h (by simp [-Nat.reducePow, State.requestReset, hidle, hhold, hlevel, hunit])

theorem exec_dieReset (hlevel : w.toNat / 2 ^ 28 % 16 = 2) (hunit : w.toNat % 65536 = 1) (hfree : b.dieFree = true) :
    exec (.dieReset g w r) s = .next (((b.resetDie r).resetNoted w).wroteOk x g 0x7820 1) :=
  resetRequest_ok h (by simp [-Nat.reducePow, State.requestReset, State.resetNoted, hidle, hhold, h.managed, hlevel, hunit, hfree])

theorem exec_clusterReset (hlevel : w.toNat / 2 ^ 28 % 16 = 3) (hunit : w.toNat % 65536 < 16) (hthere : b.diePresent (w.toNat % 65536 / 8) = true) :
    exec (.clusterReset g w) s = .next (((b.resetCluster (w.toNat % 65536)).resetNoted w).wroteOk x g 0x7820 1) :=
  resetRequest_ok h (by simp [-Nat.reducePow, State.requestReset, State.resetNoted, hidle, hhold, h.managed, hlevel, hunit, hthere])

theorem exec_partitionReset (hlevel : w.toNat / 2 ^ 28 % 16 = 4) (hunit : w.toNat % 65536 < 64) (hslices : b.slicesOf (w.toNat % 65536) ≠ []) :
    exec (.partitionReset g w) s = .next (((b.resetPartition (w.toNat % 65536)).resetNoted w).wroteOk x g 0x7820 1) :=
  resetRequest_ok h (by simp [-Nat.reducePow, State.requestReset, State.resetNoted, hidle, hhold, h.managed, hlevel, hunit, hslices])

theorem exec_portReset (hlevel : w.toNat / 2 ^ 28 % 16 = 5) (hunit : w.toNat % 65536 < 4) (hthere : b.diePresent (w.toNat % 65536 / 2) = true) :
    exec (.portReset g w) s = .next (((b.resetPort (w.toNat % 65536)).resetNoted w).wroteOk x g 0x7820 1) :=
  resetRequest_ok h (by simp [-Nat.reducePow, State.requestReset, State.resetNoted, hidle, hhold, h.managed, hlevel, hunit, hthere])

end

/-! ### Bytes written: image segments (R408) and the operator's messages (R393) -/

/-- Bytes that an administrator writes to a write-only field of `OCTETS` go in as a segment (R339). -/
theorem Manages_writeOctets {ix sub item off : Nat} {last : Bool} {r : ObjRow} {o : Outside} {bs : List Byte} (h : s.Manages x g b ix sub item)
    (hr : objRow ix sub = some r) (hc : r.acc = .wo ∧ r.ty = 9 ∧ mayWriteField 0 ix sub .wo = true) :
    b.writeItem (.session x.slot) o ix sub off last bs = b.putSegment (.session x.slot) r ix sub item off last bs := by
  obtain ⟨hacc, hty, hmay⟩ := hc
  have hreach : b.reaches (.session x.slot) ix sub = true := by simp [State.reaches, h.managed]
  simp [State.writeItem, objIndex_of_row hr, hreach, hr, h.named, h.administrator, hacc, hty, hmay]

/-- A value written whole, in one segment, acts at once; the segment buffer holds nothing afterwards. -/
theorem putSegment_whole {via : Via} {r : ObjRow} {ix sub item : Nat} {bs : List Byte} (hkey : okey ix sub item ≠ imageKey) (hlen : bs.length ≤ r.len)
    (hshort : shortAllowed ix sub = true) : s.putSegment via r ix sub item 0 true bs =
      (s.onAccess via fun a => { a with seg := none }).putOctets via r ix sub item bs := by
  simp [State.putSegment, hkey, hlen, hshort]

/-- The first segment of an image is staged where no switch runs. -/
theorem putSegment_image {via : Via} {r : ObjRow} {bs : List Byte} (hidle : s.fw.pending ≠ 3) (hlen : bs.length ≤ r.len) :
    s.putSegment via r 0x7840 4 0 0 false bs = (.ok, (s.onAccess via fun a => { a with seg := some (imageKey, bs) }).landImage bs) := by
  have hkey : okey 0x7840 4 0 = imageKey := rfl
  simp [State.putSegment, hkey, hidle, Nat.not_lt.2 hlen]

/-- A WRITE of one item that its object takes answers that item's record (R353). -/
theorem opWrite_one {via : Via} {o : Outside} {i : Item} {u : State} (hl : i.length.toNat = i.value.length) (hsize : i.value.length ≤ 1024)
    (hw : b.writeItem via o i.index.toNat i.sub.toNat i.offset.toNat i.last i.value = (.ok, u)) : b.opWrite via o [i] =
      ((.ok, [Record.only .ok i.sub.toNat (((objRow i.index.toNat i.sub.toNat).map (·.ty)).getD 0)]), u) := by
  have hbytes : requestBytes [i] ≤ 1440 := by
    simp only [requestBytes, sumOf, cdiv, List.foldl_cons, List.foldl_nil]
    omega
  simp [State.opWrite, hl, Nat.not_lt.2 hbytes, State.writeItems, hw, firstStatus, Record.only]

theorem exec_imageSegmentWrite {i : Item} (h : s.Manages x g b 0x7840 4 0) (hix : i.index = 0x7840) (hsub : i.sub = 4)
    (hl : i.length.toNat = i.value.length) (hoff : i.offset = 0) (hlast : i.last = false) (hsize : i.value.length ≤ 1024) (hidle : b.fw.pending ≠ 3) :
    exec (.imageSegmentWrite g i) s = .next (((b.onAccess (.session x.slot) fun a => { a with seg := some (imageKey, i.value) }).landImage i.value).wroteOk
      x g 0x7840 4) := by
  have hw : b.writeItem (.session x.slot) Outside.unsaid i.index.toNat i.sub.toNat i.offset.toNat i.last i.value =
      (.ok, (b.onAccess (.session x.slot) fun a => { a with seg := some (imageKey, i.value) }).landImage i.value) := by
    rw [hix, hsub, hoff, hlast]
    exact (Manages_writeOctets h row_7840_4 (by decide)).trans (putSegment_image hidle (hsize.trans (by decide)))
  change execImageSegmentWrite g i s = _
  rw [execImageSegmentWrite, takes_ok h.takes, h.begun, opWrite_one hl hsize hw, hix, hsub]
  rfl

/-- A message of the operator's goes to its mailbox (R393). -/
theorem putOctets_message {via : Via} {r : ObjRow} {n : Nat} {bs : List Byte} {u : State} (hacc : r.acc = .wo)
    (hu : s.operatorSend (n / 65536) (n % 65536) (s.rw 0x7803 3 n) bs = (.ok, u)) : s.putOctets via r 0x7803 4 n bs = (.ok, u.settle) := by
  have hthere : s.itemAbsent (s.access via) 0x7803 4 = false := by simp [State.itemAbsent]
  simp [State.putOctets, hthere, hacc, hu]

theorem exec_operatorMailboxSend {n : Nat} {bs : List Byte} {u : State} (h : s.Manages x g b 0x7803 4 n) (hsize : bs.length ≤ 224)
    (hu : (b.onAccess (.session x.slot) fun a => { a with seg := none }).operatorSend (n / 65536) (n % 65536) (b.rw 0x7803 3 n) bs = (.ok, u)) :
    exec (.operatorMailboxSend g bs) s = .next (u.settle.wroteOk x g 0x7803 4) := by
  have hkey : okey 0x7803 4 n ≠ imageKey := by
    simp only [okey, imageKey]
    omega
  have hw : b.writeItem (.session x.slot) Outside.unsaid 0x7803 4 0 true bs = (.ok, u.settle) := by
    rw [Manages_writeOctets h row_7803_4 (by decide), putSegment_whole hkey hsize rfl]
    exact putOctets_message rfl hu
  change s.writeOne g Outside.unsaid 0x7803 4 bs = _
  rw [writeOne_eq h.takes h.begun _ 0x7803 4 (by decide) (by decide) bs (by omega) .ok u.settle _ row_7803_4 hw, State.wroteOk, row_7803_4]
  rfl

/-! ### Bytes read: the operator's report (R326) and messages taken (R339, R391) -/

/-- A READ of one item that fits a frame answers that item's record (R353). -/
theorem readOne_eq {ix sub item len : Nat} {k : Record} {u : State} (h : s.Manages x g b ix sub item) (hbound : ix < 65536 ∧ sub < 256 ∧ len < 65536)
    (hr : b.readItem (.session x.slot) ix sub len 0 = (k, u)) (hok : k.status = .ok) (hsize : k.data.length ≤ 1384) :
    s.readOne g ix sub len = .next (u.answered x g (.ok, [k])) := by
  obtain ⟨hix, hsub, hlen⟩ := hbound
  have hbytes : replyBytes [k] ≤ 1440 := by
    simp only [replyBytes, sumOf, cdiv, List.foldl_cons, List.foldl_nil]
    omega
  have hitem : b.readItem (.session x.slot) (BitVec.ofNat 16 ix).toNat (BitVec.ofNat 8 sub).toNat (BitVec.ofNat 16 len).toNat (0 : W32).toNat = (k, u) := by
    rw [BitVec.toNat_ofNat, BitVec.toNat_ofNat, BitVec.toNat_ofNat, Nat.mod_eq_of_lt hix, Nat.mod_eq_of_lt hsub, Nat.mod_eq_of_lt hlen]
    exact hr
  rw [State.readOne, takes_ok h.takes, h.begun]
  simp only [State.opRead, State.readItems, hitem, asRead, Nat.not_lt.2 hbytes, if_false]
  simp [requestBytes, sumOf, cdiv, firstStatus, hok]

/-- Bytes that an administrator may read are read part by part (R339). -/
theorem Manages_readOctets {ix sub item len off : Nat} {r : ObjRow} (h : s.Manages x g b ix sub item) (hr : objRow ix sub = some r) (hty : r.ty = 9)
    (hmay : b.readRefusal (.session x.slot) (b.access (.session x.slot)) r ix sub = none) :
    b.readItem (.session x.slot) ix sub len off = b.readPart (.session x.slot) r ix sub len off := by
  have hreach : b.reaches (.session x.slot) ix sub = true := by simp [State.reaches, h.managed]
  simp [State.readItem, objIndex_of_row hr, hreach, hr, hmay, hty]

/-- The first bytes of a value that is taken at its read: the value is held for the parts that follow, if any do (R339). -/
theorem readPart_first {via : Via} {r : ObjRow} {ix sub len n : Nat} {bs : List Byte} (ht : takenAtRead ix sub = true) (hn : (if len = 0 then r.len else len) = n)
    (hpos : 0 < r.len) (hle : n ≤ r.len) (hv : s.valueOf (s.access via) via.slot r ix sub = (bs, s)) : s.readPart via r ix sub len 0 =
      ({ status := .ok, sub := sub, type := r.ty, data := bs.take n },
        (s.onAccess via fun a => { a with held := if n = r.len then none else some (okey ix sub ((s.access via).item ix sub), bs) }).afterRead
          (s.access via) ix sub (n == r.len)) := by
  by_cases hlast : n = r.len <;> simp [State.readPart, ht, hn, Nat.not_le.2 hpos, Nat.not_lt.2 hle, hv, hlast]

theorem valueOf_operatorReport {a : Access} {slot : Option Nat} {r : ObjRow} :
    s.valueOf a slot r 0x6041 3 = (s.attReport 0 (a.selector 0x6041 2) s.sec.nonce [], s) := by
  simp [State.valueOf, selectorsOf, State.itemAbsent]

theorem exec_operatorReportRead {n : Nat} (h : s.Manages x g b 0x6041 3 n) (hhold : b.fw.hold = none) {bs : List Byte}
    (hbs : bs = b.attReport 0 ((b.access (.session x.slot)).selector 0x6041 2) b.sec.nonce []) : exec (.operatorReportRead g) s =
      .next ((b.onAccess (.session x.slot) fun a => { a with held := some (okey 0x6041 3 n, bs) }).answered x g
        (.ok, [{ status := .ok, sub := 3, type := 9, data := bs.take 1384 }])) := by
  refine readOne_eq h (by decide) ?_ rfl (List.length_take_le 1384 bs)
  rw [Manages_readOctets h row_6041_3 rfl (by simp [State.readRefusal, hhold]),
    readPart_first rfl rfl (by decide) (by decide) (valueOf_operatorReport.trans (by rw [← hbs])), h.named]
  rfl

theorem length_fixed (n : Nat) (bs : List Byte) : (fixed n bs).length = n := by simp [fixed]

theorem valueOf_message {a : Access} {slot : Option Nat} {r : ObjRow} : s.valueOf a slot r 0x7802 4 =
    (fixed r.len (s.boxBytes (a.item 0x7802 4 / 65536) (a.item 0x7802 4 % 65536)), s) := by
  simp [State.valueOf, selectorsOf, State.itemAbsent, State.octets]

theorem exec_mailboxOperatorTake {n : Nat} (h : s.Manages x g b 0x7802 4 n) : exec (.mailboxOperatorTake g) s =
    .next (((b.onAccess (.session x.slot) fun a => { a with held := none }).operatorTake (n / 65536) (n % 65536)).answered x g
      (.ok, [{ status := .ok, sub := 4, type := 9, data := fixed 256 (b.boxBytes (n / 65536) (n % 65536)) }])) := by
  refine readOne_eq h (by decide) ?_ rfl (by rw [length_fixed]; decide)
  have hwhole : (fixed 256 (b.boxBytes (n / 65536) (n % 65536))).take 256 = fixed 256 (b.boxBytes (n / 65536) (n % 65536)) :=
    List.take_of_length_le (length_fixed _ _).le
  have htake (t : State) : t.afterRead (b.access (.session x.slot)) 0x7802 4 true = t.operatorTake (n / 65536) (n % 65536) := by
    simp [State.afterRead, h.named]
  rw [Manages_readOctets h row_7802_4 rfl (by simp [State.readRefusal]), readPart_first (n := 256) rfl rfl (by decide) (by decide) valueOf_message, h.named]
  simp only [hwhole, beq_self_eq_true, htake, if_true]

/-- Settles O48: each command by its lemma. -/
theorem unitsFirmwareAndResetsObey : Obligations.UnitsFirmwareAndResetsObey := fun _ _ _ _ _ =>
  ⟨exec_linkReset, exec_fenceUnit, fun h _ _ => exec_returnUnit h, exec_clearFirstError,
    fun h hidle hhold _ _ => ⟨exec_deviceReset h hidle hhold, exec_dieReset h hidle hhold, exec_clusterReset h hidle hhold, exec_partitionReset h hidle hhold,
      exec_portReset h hidle hhold⟩,
    exec_orderlyShutdown, fun _ => exec_imageSegmentWrite, fun h _ _ _ _ => exec_imageVerify h, fun h _ _ => exec_firmwareSwitch h,
    fun h hs _ => exec_migrationStart h hs, fun h _ => exec_bankModeRequest h, fun h _ => exec_startPairing h, fun h _ _ => exec_operatorMailboxSend h,
    fun h hhold _ => exec_operatorReportRead h hhold, exec_mailboxOperatorTake⟩

end Sys2Proof.Machine
end

section
/-!
PROOFS. Flash rows, reads and block failures (R215, R216, R224, R226, R235 to R237): one lemma for each way an event of a running flash island can go.
-/
namespace Sys2Proof.Machine

variable {s : State} {num i n : Nat} {b : Superblock}

/-- A superblock is on its way to erasure when it drains, or when a secure release has marked it (R234, R241). -/
theorem leaving_iff : (b.st == .draining || b.marked) = true ↔ b.st = .draining ∨ b.marked = true := by simp

/-! ### Rows (R216) -/

section
variable (h : s.FlashUp num i)
include h

theorem exec_flashProgramConfirm (row : Nat) : exec (.flashProgramConfirm num n row) s = .next (s.confirmRows i n row).settle := by
  change execFlashProgramConfirm num n row s = _
  exact flash_ok h _

theorem exec_rowPadTimeout (row : Nat) : exec (.rowPadTimeout num n row) s = .next (if s.padDue i n row then s.padRow i n row else s).settle := by
  change execRowPadTimeout num n row s = _
  exact flash_ok h _

/-! ### Block failures (R235 to R237) -/

variable (hb : s.sb i n = some b)
include hb

theorem exec_flashEraseFailure {k ch blk : Nat} (hk : b.members[k]? = some (ch, blk)) (hd : b.st = .draining ∨ b.marked = true) (he : s.erasable i n = true) :
    exec (.flashEraseFailure num n k) s = .next (((s.retireMember i n k).bump 0x3100 0x0B 0 1).reportUnit (srcDie ((16 * i + ch) * 32 + n / 32768)) 0x13 0
      (packBits [(10, (16 * i + ch) * 32 + n / 32768), (15, blk), (13, 0), (10, 0)])).settle := by
  change execFlashEraseFailure num n k s = _
  simp only [execFlashEraseFailure, flash_ok h, hb, hk, leaving_iff.2 hd, he, Bool.and_self, if_true]

section
variable {slot : Nat} {x : FlashPage} (hx : s.flash.pages.find? (fun x => x.island == i && x.sb == n && x.slot == slot && !x.confirmed) = some x)
include hx

/-- A pad carries nothing, so that nothing is issued again. -/
theorem exec_flashProgramFailure_pad (hp : x.kind = .pad) : exec (.flashProgramFailure num n slot) s = .next (s.programFails i n slot b).settle := by
  change execFlashProgramFailure num n slot s = _
  simp only [execFlashProgramFailure, flash_ok h, hb, hx, hp, beq_self_eq_true, if_true]

theorem exec_flashProgramFailure_again {v : Superblock} (hp : x.kind ≠ .pad) (hv : (s.programFails i n slot b).sb i n = some v) :
    exec (.flashProgramFailure num n slot) s = .next ((s.programFails i n slot b).replaceProgram v x).settle := by
  change execFlashProgramFailure num n slot s = _
  simp only [execFlashProgramFailure, flash_ok h, hb, hx, hv, beq_iff_eq, if_neg hp]

end

theorem exec_gcTargetFailure {k : Nat} (hgc : b.stream = .gc) (hsound : b.failed = none) (hst : b.st = .open_ ∨ b.st = .closed) (hk : k < b.width) :
    exec (.gcTargetFailure num n k) s = .next (s.targetFails i n k b).settle := by
  change execGcTargetFailure num n k s = _
  have htarget : (b.stream != .gc || b.failed.isSome || (b.st != .open_ && b.st != .closed) || decide (b.width ≤ k)) = false := by
    obtain hst | hst := hst <;> simp [hgc, hsound, hst, hk]
  simp only [execGcTargetFailure, flash_ok h, hb, htarget, Bool.false_eq_true, if_false]

end

/-! ### Reads (R224, R226) -/

section
variable {r : FlashRead} {v : FlashVerdict}

section
variable {u t : State} (hs : s.serving = true) (hr : s.flash.reads.find? (fun x => x.id == r.id && x.issued) = some r)
  (hu : u = s.onFlash fun f => { f with reads := f.reads.filter (·.id != r.id) })
include hs hr hu

theorem exec_flashReadComplete_arrives (he : u.endFlashReads r v (u.lpnSpan r.lpn r.n) = (none, t)) :
    exec (.flashReadComplete r.id v) s = .next (t.readArrives r).settle := by
  change execFlashReadComplete r.id v s = _
  subst hu
  simp only [execFlashReadComplete, event_ok hs, hr, he]

theorem exec_flashReadComplete_fails {d : Nat} (he : u.endFlashReads r v (u.lpnSpan r.lpn r.n) = (some d, t)) :
    exec (.flashReadComplete r.id v) s = .next (t.readFails r d).settle := by
  change execFlashReadComplete r.id v s = _
  subst hu
  simp only [execFlashReadComplete, event_ok hs, hr, he]

end

/-- The logical page is lost on a die exactly when what its read meets is unreadable. -/
theorem endFlashRead_fst_eq_none_iff {l : Nat} {x : FlashPage} (hx : s.slotOf l = some x) (hb : s.sb x.island x.sb = some b) :
    (s.endFlashRead r l v).1 = none ↔ s.readVerdict b x.slot v ≠ .unreadable := by
  simp only [State.endFlashRead, hx, hb]
  cases s.readVerdict b x.slot v <;> simp

end

/-- Settles O42: each event by the lemma for the way it goes. -/
theorem flashProgramsReadsAndFails : Obligations.FlashProgramsReadsAndFails := by
  refine ⟨fun s num i n h => ⟨exec_flashProgramConfirm h, fun row hpad => ?_, fun row hpad => ?_, fun b hb => ⟨fun k ch blk => exec_flashEraseFailure h hb, ?_,
    fun k => exec_gcTargetFailure h hb⟩⟩, ?_⟩
  · rw [exec_rowPadTimeout h, if_pos hpad]
  · rw [exec_rowPadTimeout h, if_neg (by simp [hpad])]
  · rintro slot x _ hx rfl
    exact ⟨exec_flashProgramFailure_pad h hb hx, fun v => exec_flashProgramFailure_again h hb hx⟩
  · rintro s u r v ⟨o, t⟩ hs hr hu he
    refine ⟨?_, fun d => ?_, fun l x b => endFlashRead_fst_eq_none_iff⟩
    · rintro rfl
      exact exec_flashReadComplete_arrives hs hr hu he
    · rintro rfl
      exact exec_flashReadComplete_fails hs hr hu he

end Sys2Proof.Machine
end

section
/-!
PROOFS. Collection, journal, checkpoints, temperatures and patrol of flash, and HBM patrol (R222, R227, R228, R232, R234, R241, R242, R378): one lemma for each
way an event can go.
-/
namespace Sys2Proof.Machine

variable {s : State} {num i : Nat}

/-! ### Free space (R232, R234, R241) -/

/-- Whether a superblock of the pool still holds pages to move (R232, R236, R241). -/
def State.holdsPages (s : State) (i : Nat) (tlc : Bool) (b : Superblock) : Bool := b.island == i && b.tlc == tlc && !(s.validIn i b.num).isEmpty

section
variable (h : s.FlashUp num i)
include h

section
variable {tlc : Bool} {u : State} (hu : u = s.consolidateCold i tlc)
include hu

theorem exec_garbageCollection_marked {b : Superblock} (hb : u.flash.sbs.find? (fun b => s.holdsPages i tlc b && b.marked) = some b) :
    exec (.garbageCollection num tlc) s = .next (u.gcSb i b.num false).settle := by
  change execGarbageCollection num tlc s = _
  subst hu
  simp only [State.holdsPages] at hb
  simp only [execGarbageCollection, flash_ok h, hb]

variable (hm : u.flash.sbs.find? (fun b => s.holdsPages i tlc b && b.marked) = none)
include hm

theorem exec_garbageCollection_draining {b : Superblock} (hb : u.flash.sbs.find? (fun b => s.holdsPages i tlc b && b.st == .draining) = some b) :
    exec (.garbageCollection num tlc) s = .next (u.gcSb i b.num (decide (s.sbsFree i tlc < s.watermark tlc 1))).settle := by
  change execGarbageCollection num tlc s = _
  subst hu
  simp only [State.holdsPages] at hm hb
  simp only [execGarbageCollection, flash_ok h, hm, hb]

variable (hd : u.flash.sbs.find? (fun b => s.holdsPages i tlc b && b.st == .draining) = none)
include hd

theorem exec_garbageCollection_rests (hv : s.watermark tlc 0 ≤ s.sbsFree i tlc ∨ u.gcVictim i tlc = none) :
    exec (.garbageCollection num tlc) s = .next u.settle := by
  change execGarbageCollection num tlc s = _
  subst hu
  simp only [State.holdsPages] at hm hd
  obtain henough | hnone := hv
  · simp only [execGarbageCollection, flash_ok h, hm, hd, if_pos henough]
  · simp only [execGarbageCollection, flash_ok h, hm, hd, hnone, ite_self]

theorem exec_garbageCollection_victim {b : Superblock} (hlow : s.sbsFree i tlc < s.watermark tlc 0) (hb : u.gcVictim i tlc = some b) :
    exec (.garbageCollection num tlc) s = .next (((u.onSb i b.num fun x => { x with st := .draining }).bump 0x3004 7 0 1).gcSb i b.num
      (decide (s.sbsFree i tlc < s.watermark tlc 1))).settle := by
  change execGarbageCollection num tlc s = _
  subst hu
  simp only [State.holdsPages] at hm hd
  simp only [execGarbageCollection, flash_ok h, hm, hd, hb, if_neg hlow.not_ge]

end

theorem exec_victimErase {n : Nat} {b : Superblock} {c : State} (hb : s.sb i n = some b) (hd : b.st = .draining ∨ b.marked = true)
    (he : s.erasable i n = true) (hpay : s.chargeAll (mergeCosts [flashCost i 64 4 (b.width * s.eraseCycles i b.tlc)]) = (c, none)) :
    exec (.victimErase num n) s = .next (c.eraseVictim i n b).settle := by
  change execVictimErase num n s = _
  simp only [execVictimErase, flash_ok h, hb, leaving_iff.2 hd, he, Bool.and_self, if_true, charged_granted hpay]

end

theorem exec_secureReleaseComplete {w : W64} {r : SecureRelease} (hs : s.serving = true)
    (hr : s.flash.secure.find? (fun r => r.handle == w.toNat && r.marked.isEmpty) = some r) : exec (.secureReleaseComplete w) s =
    .next (((s.onFlash fun f => { f with secure := f.secure.filter fun x => !(x.handle == r.handle && x.marked.isEmpty) }).complete r.req .ok
      [packWord [(23, r.sealedPos), (41, 0)]] []).peak 0x3008 3 0 ((s.us - r.startUs) / 1000)).settle := by
  change execSecureReleaseComplete w s = _
  simp only [execSecureReleaseComplete, event_ok hs, hr]

/-! ### Journal and checkpoints (R228) -/

section
variable {f : FlashIsland} (h : s.FlashUp num i) (hf : s.fisland i = some f)
include h hf

/-- What a flush is begun for: enough records, their age, or an emptied superblock that waits for them (R228). -/
theorem exec_journalFlush (hrecs : f.pendingJournal ≠ []) (hdue : 8192 ≤ f.pendingJournal.length ∨ s.due (f.lastFlushUs + 100000) = true ∨
    ∃ b ∈ s.flash.sbs, b.island = i ∧ (b.st = .draining ∨ b.marked = true) ∧ s.validIn i b.num = []) :
    exec (.journalFlush num) s = .next (s.flushJournal i).settle := by
  change execJournalFlush num s = _
  have hflush : (!f.pendingJournal.isEmpty && (decide (8192 ≤ f.pendingJournal.length) || s.due (f.lastFlushUs + 100000) ||
      s.flash.sbs.any fun b => b.island == i && (b.st == .draining || b.marked) && (s.validIn i b.num).isEmpty)) = true := by
    simpa [hrecs, or_assoc, and_assoc] using hdue
  simp only [execJournalFlush, flash_ok h, hf, hflush, if_true]

theorem exec_checkpoint_roots {x : FlashPage} (hrun : f.checkpointRunning = true)
    (hx : s.flash.pages.find? (fun x => x.island == i && x.kind == .checkpoint && x.wseq == f.checkpointSeq && x.confirmed) = some x) :
    exec (.checkpoint num) s = .next (((s.onFisland i fun x => { x with checkpointRunning := false, rooted := true }).onClock fun c =>
      { c with saved := c.tod }).onFlash fun g => { g with pages := g.pages.map fun x =>
        if x.island == i && (x.kind == .journal || x.kind == .checkpoint) && x.wseq < f.checkpointSeq then { x with valid := false } else x }).settle := by
  change execCheckpoint num s = _
  simp only [execCheckpoint, flash_ok h, hf, hrun, hx, if_true]

theorem exec_checkpoint_begins {c u : State} {w : Nat} (hidle : f.checkpointRunning = false) (hupdates : s.rw 0x3003 2 0 ≤ f.updates)
    (hpay : s.chargeAll (mergeCosts [s.systemCost i 1]) = (c, none)) (hu : c.programSystem i (systemPage .checkpoint []) = some u)
    (hw : w = (((u.flash.pages.filter fun x => x.island == i && x.kind == .checkpoint).getLast?).map (·.wseq)).getD f.checkpointSeq) :
    exec (.checkpoint num) s = .next ((u.onFisland i fun x => { x with
      checkpointRunning := true, checkpointSeq := w, updates := 0, tempSaved := x.tempSeconds }).journal i
        [{ kind := 10, lpn := 0, sb := 0, slot := 0, wseq := w }]).settle := by
  change execCheckpoint num s = _
  subst hw
  simp only [execCheckpoint, flash_ok h, hf, hidle, hupdates, charged_granted hpay, hu, Option.elim_some, Bool.false_eq_true, if_false, if_true]

end

/-! ### Temperatures and patrol of flash (R227, R242) -/

section
variable (h : s.FlashUp num i)
include h

theorem exec_dieTemperatureSample (t : Int) (r : List Int) : exec (.dieTemperatureSample num (t :: r)) s =
    .next (s.onFisland i fun f => if f.sampledUs + 1000000 ≤ s.clock.us then
      { f with temps := t :: r, sampledUs := s.clock.us, tempSeconds := sadd f.tempSeconds (tempBin (r.foldl max t)) 1 } else f).settle := by
  change execDieTemperatureSample num (t :: r) s = _
  simp only [execDieTemperatureSample, flash_ok h, State.due, State.us, Bool.not_eq_true', decide_eq_false_iff_not, ite_not]

theorem exec_flashPatrolRead {n slot : Nat} {b : Superblock} {x : FlashPage} (v : FlashVerdict) {c : State} (hb : s.sb i n = some b)
    (hx : s.flash.pages.find? (fun x => x.island == i && x.sb == n && x.slot == slot && x.kind == .data && x.valid && x.confirmed) = some x)
    (hon : s.act 0x2013 7 3 ≠ 0) (hpay : s.chargeAll (mergeCosts [flashCost i 64 5 (s.readCycles i b.tlc)]) = (c, none)) :
    exec (.flashPatrolRead num n slot v) s = .next ((((c.noteRead b slot (s.readVerdict b slot v)).oweAll
      (c.ladderCosts b slot 64 5 (s.readVerdict b slot v))).patrolled (i, n, slot)).patrolVerdict b x (s.readVerdict b slot v)).settle := by
  change execFlashPatrolRead num n slot v s = _
  simp only [execFlashPatrolRead, flash_ok h, hb, hx, if_neg hon, charged_granted hpay]

end

/-! ### Patrol of HBM (R378) -/

/-- The page that holds a byte of HBM. -/
def State.pageAt (s : State) (a : Nat) : Option (PageKey × Page) := s.seqs.findSome? fun q => (q.pages.find? (·.holdsAddr a)).map fun p => (keyOf q p, p)

/-- The sequence whose ledger has a frame, and the frame's number in it. -/
def State.ledgerAt (s : State) (f : Nat) : Option (Seq × Nat) := s.seqs.findSome? fun q => (q.ledgerFrames.findIdx? (· == f)).map fun j => (q, j)

section
variable {c n : Nat} (hc : c < 384) (hdie : s.diePresent (c / 192) = true) (hn : n * 256 < channelBytes) (hsound : s.channelFenced c = false)
include hc hdie hn hsound

/-- Nothing keeps patrol from a unit inside a channel that is there and not fenced. -/
theorem hbmPatrol_reaches : (!s.diePresent (c / 192) || decide (384 ≤ c) || decide (channelBytes ≤ n * 256) || s.channelFenced c) = false := by
  simp [hc, hdie, hn, hsound]

variable (hs : s.serving = true) {v : State} (hpay : s.chargeAll (mergeCosts [channelCost c 64 5 4]) = (v, none))
include hs hpay

theorem exec_hbmPatrolRead_clean : exec (.hbmPatrolRead c n .clean) s = .next (v.patrolUnit c).settle := by
  change execHbmPatrolRead c n .clean s = _
  simp only [execHbmPatrolRead, event_ok hs, hbmPatrol_reaches hc hdie hn hsound, charged_granted hpay, Bool.false_eq_true, if_false]

theorem exec_hbmPatrolRead_correctable : exec (.hbmPatrolRead c n .correctable) s =
    .next (((v.patrolUnit c).bump 0x7060 3 0 1).reportUnit (srcChannel c) 0x03 0 (c * channelBytes + n * 256)).settle := by
  change execHbmPatrolRead c n .correctable s = _
  simp only [execHbmPatrolRead, event_ok hs, hbmPatrol_reaches hc hdie hn hsound, charged_granted hpay, Bool.false_eq_true, if_false]

theorem exec_hbmPatrolRead_page {k : PageKey} {p : Page} (hp : v.pageAt (c * channelBytes + n * 256) = some (k, p)) :
    exec (.hbmPatrolRead c n .uncorrectable) s =
      .next (((v.patrolUnit c).reportUnit (srcChannel c) 0x04 0 (c * channelBytes + n * 256)).hbmPageFails k p (srcChannel c)).settle := by
  change execHbmPatrolRead c n .uncorrectable s = _
  simp only [State.pageAt] at hp
  simp only [execHbmPatrolRead, event_ok hs, hbmPatrol_reaches hc hdie hn hsound, charged_granted hpay, hp, Bool.false_eq_true, if_false]

theorem exec_hbmPatrolRead_ledger {q : Seq} {j : Nat} (hp : v.pageAt (c * channelBytes + n * 256) = none)
    (hl : v.ledgerAt (c * channelFrames + n * 256 / 16384) = some (q, j)) : exec (.hbmPatrolRead c n .uncorrectable) s =
      .next (((v.patrolUnit c).reportUnit (srcChannel c) 0x04 0 (c * channelBytes + n * 256)).ledgerFails q j).settle := by
  change execHbmPatrolRead c n .uncorrectable s = _
  simp only [State.pageAt] at hp
  simp only [State.ledgerAt] at hl
  simp only [execHbmPatrolRead, event_ok hs, hbmPatrol_reaches hc hdie hn hsound, charged_granted hpay, hp, hl, Bool.false_eq_true, if_false]

end

/-- Settles O43: each event by the lemma for the way it goes. -/
theorem flashIsCollectedSavedAndPatrolled : Obligations.FlashIsCollectedSavedAndPatrolled := by
  refine ⟨fun s num i h => ⟨fun tlc u hu => ⟨fun b => exec_garbageCollection_marked h hu, fun hm => ⟨fun b => exec_garbageCollection_draining h hu hm,
      fun hd => ⟨exec_garbageCollection_rests h hu hm hd, fun b => exec_garbageCollection_victim h hu hm hd⟩⟩⟩,
    fun n b c => exec_victimErase h, fun f hf => ⟨exec_journalFlush h hf, fun x => exec_checkpoint_roots h hf, fun c u w => exec_checkpoint_begins h hf,
      exec_dieTemperatureSample h⟩,
    fun n slot b x v c => exec_flashPatrolRead h v⟩, fun s w r => exec_secureReleaseComplete, ?_⟩
  intro s c n v hs hc hdie hn hsound hpay
  exact ⟨exec_hbmPatrolRead_clean hc hdie hn hsound hs hpay, exec_hbmPatrolRead_correctable hc hdie hn hsound hs hpay,
    fun k p => exec_hbmPatrolRead_page hc hdie hn hsound hs hpay, fun q j => exec_hbmPatrolRead_ledger hc hdie hn hsound hs hpay⟩

end Sys2Proof.Machine
end

section
/-!
PROOFS. Nodes and their advice (R250 to R254, R265, R267): what each request of a node, each timer and each message of the device's own comes to.
-/
namespace Sys2Proof.Machine

/-! ### REGISTER (R250, R251) -/

section
variable {s u : State} {q p : Qp} {m : Rx} {b : RegisterBody}

theorem exec_register (ha : s.Accepts q m 0x01 .unchecked 0 u) : exec (.register m b) s = .next ((u.runRegister m b).ended q m) :=
  congrArg Host.Outcome.next (receive_ok ha _ _)

variable (hp : u.qp m.qp = some p) (hfits : registerFits m b = true) (hall : b.allTenants = true → u.act 0x4002 0x0B p.part = 1)

include hall in
/-- No partition that lets its nodes serve all tenants refuses one for it (R251). -/
theorem servesAll_allowed : (b.allTenants && decide (u.act 0x4002 0x0B p.part ≠ 1)) = false := by simpa using hall

include hp hfits hall

theorem runRegister_enrols {n : Nat} (hn : u.qpNode p = none) (hj : b.join = false) (hid : u.identTaken p b = false) (hfree : u.freeNumber p.part = some n) :
    u.runRegister m b = (u.enrol p m.hdr.tenant.toNat n b).welcome m n := by
  simp only [State.runRegister, hp, hfits, servesAll_allowed hall, hn, hj, hid, hfree, Bool.not_true, Bool.false_eq_true, if_false]

theorem runRegister_joins {nd : Node} (hn : u.qpNode p = none) (hj : b.join = true) (hnd : u.node b.joinNode.toNat = some nd) (hpart : nd.part = p.part)
    (hkey : nd.joinKey = b.joinKey.toNat) : u.runRegister m b = (u.bindQp p.num nd.num).welcome m nd.num := by
  simp only [State.runRegister, hp, hfits, servesAll_allowed hall, hn, hj, hnd, hpart, hkey, decide_true, Bool.and_self, Bool.not_true, Bool.false_eq_true,
    if_false, if_true]

theorem runRegister_replaces {nd : Node} (hn : u.qpNode p = some nd)
    (hid : (u.broker.nodes.any fun x => x.part == p.part && x.ident == b.ident.toNat && x.num != nd.num) = false)
    (hrole : b.role.toNat = nd.role ∨ u.leases nd.num = 0) :
    u.runRegister m b = (u.onNode nd.num fun x => x.set m.hdr.tenant.toNat b).welcome m nd.num := by
  have hkeeps : (decide (b.role.toNat ≠ nd.role) && decide (0 < u.leases nd.num)) = false := by
    rcases hrole with h | h <;> simp [h]
  simp only [State.runRegister, hp, hfits, servesAll_allowed hall, hn, hid, hkeeps, Bool.not_true, Bool.false_eq_true, if_false]

end

/-- A node number that a REGISTER of partition `p` may give: no node has it, none gave it up within the last second, and the partition may use it (R250, R316). -/
def State.numberFree (s : State) (p n : Nat) : Prop :=
  (∀ x ∈ s.broker.nodes, x.num ≠ n) ∧ (∀ x ∈ s.broker.freed, x.1 = n → x.2 + 1000000 ≤ s.us) ∧ s.numberOpen p n = true

theorem numberFree_iff {s : State} {p n : Nat} : (!s.broker.nodes.any (·.num == n) && !s.broker.freed.any (fun x => x.1 == n && s.us < x.2 + 1000000) &&
    s.numberOpen p n) = true ↔ s.numberFree p n := by
  simp [State.numberFree, and_assoc]

/-- What keeps a number from being given. -/
theorem not_numberFree {s : State} {p n : Nat} (h : ¬s.numberFree p n) :
    (∃ x ∈ s.broker.nodes, x.num = n) ∨ (∃ x ∈ s.broker.freed, x.1 = n ∧ s.us < x.2 + 1000000) ∨ s.numberOpen p n = false := by
  simpa only [State.numberFree, not_and_or, not_forall, exists_prop, not_not, not_le, Bool.not_eq_true] using h

/-- A REGISTER is given the lowest of the numbers free to its partition. -/
theorem freeNumber_eq_some_iff {s : State} {p n : Nat} :
    s.freeNumber p = some n ↔ n < 4096 ∧ s.numberFree p n ∧ ∀ k, k < n → ¬s.numberFree p k := by
  simp only [State.freeNumber, List.find?_range_eq_some, numberFree_iff, List.mem_range, Bool.not_eq_true', ← Bool.not_eq_true]
  exact and_left_comm

/-- Settles O1: each REGISTER by the run it comes to, and the number given by the search that found it. -/
theorem registerEnrolsUnderTheLowestNumber : Obligations.RegisterEnrolsUnderTheLowestNumber := by
  refine ⟨fun s u q p m b ha hp hfits hall => ⟨fun n hn hj hid hfree => ?_, fun nd hn hj hnd hpart hkey => ?_, fun nd hn hid hrole => ?_⟩, fun s p n h => ?_⟩
  · rw [exec_register ha, runRegister_enrols hp hfits hall hn hj hid hfree]
  · rw [exec_register ha, runRegister_joins hp hfits hall hn hj hnd hpart hkey]
  · rw [exec_register ha, runRegister_replaces hp hfits hall hn hid hrole]
  · obtain ⟨hlt, ⟨hnodes, hfreed, hopen⟩, hlower⟩ := freeNumber_eq_some_iff.1 h
    exact ⟨hlt, hnodes, hfreed, hopen, fun k hk => not_numberFree (hlower k hk)⟩

/-! ### HEARTBEAT and DEREGISTER (R252, R254) -/

/-- Settles O2: a HEARTBEAT of the right layout from a node is put on its record. -/
theorem heartbeatReplacesTheLoad : Obligations.HeartbeatReplacesTheLoad := by
  intro s u q m b nd ha hnd hlen hwarm
  refine congrArg Host.Outcome.next ((receive_ok ha _ _).trans (congrArg (State.ended · q m) ?_))
  have hfits : (m.hdr.bodyLen != 24 || decide (8 < b.warmCount.toNat)) = false := by simp [hlen, hwarm]
  simp only [State.runHeartbeat, hnd, hfits, Bool.false_eq_true, if_false]

/-- A DEREGISTER of the right layout from a node: it leaves, unless it holds leases and does not return them (R254). -/
theorem runDeregister_eq {u : State} {m : Rx} {nd : Node} (hnd : u.nodeOf m.qp = some nd) (hlen : m.hdr.bodyLen = 8) (returns : Bool) :
    u.runDeregister m returns = if !returns && 0 < u.leases nd.num then u.answer (reqOf m 0x03) .retryLater else u.leave m nd := by
  simp only [State.runDeregister, hnd, hlen, bne_self_eq_false, Bool.false_eq_true, if_false]

/-- Settles O3: both forms by the run of a DEREGISTER. -/
theorem deregisterLeavesOrWaits : Obligations.DeregisterLeavesOrWaits := by
  refine fun s u q m nd ha hnd hlen => ⟨?_, ?_⟩ <;>
    refine congrArg Host.Outcome.next ((receive_ok ha _ _).trans (congrArg (State.ended · q m) ?_)) <;> rw [runDeregister_eq hnd hlen]
  · rfl
  · by_cases h : u.leases nd.num = 0
    · simp [h]
    · simp [h, Nat.pos_of_ne_zero h]

/-! ### Departures (R250, R253, R267) -/

section
variable {s : State} {n : Nat} {nd : Node} (hs : s.serving = true) (hnd : s.node n = some nd)
include hs hnd

theorem exec_leaseTimeout : exec (.leaseTimeout n) s =
    .next (if s.fw.hold = none ∧ (nd.lastUs + 1000 * s.rw 0x4001 1 0 ≤ s.clock.us ∨ s.nodeQps n = []) then (s.nodeGone n).settle else s.settle) := by
  change execLeaseTimeout n s = _
  simp only [execLeaseTimeout, event_ok hs, hnd, apply_ite State.settle, Bool.and_eq_true, Bool.or_eq_true, due_iff, Option.isNone_iff_eq_none,
    List.isEmpty_iff]

theorem exec_peerTimeout : exec (.peerTimeout n) s =
    .next (if nd.role = 3 ∧ s.fw.hold = none ∧ nd.beatUs + 1000 * s.rw 0x4005 1 0 ≤ s.clock.us then (s.nodeGone n).settle else s.settle) := by
  change execPeerTimeout n s = _
  simp only [execPeerTimeout, event_ok hs, hnd, apply_ite State.settle, Bool.and_eq_true, due_iff, Option.isNone_iff_eq_none, decide_eq_true_eq, and_assoc]

end

/-- The register without one node still finds every other. -/
theorem node_forgetNode (s : State) (n k : Nat) : (s.forgetNode n).node k = if k = n then none else s.node k := by
  change (s.broker.nodes.filter (·.num != n)).find? (·.num == k) = _
  rw [List.find?_filter]
  split
  · next h => subst h; simp
  · next h =>
    refine congrArg (List.find? · s.broker.nodes) (funext fun x => ?_)
    by_cases hx : x.num = k <;> simp [hx, h]

theorem qps_forgetNode (s : State) (n : Nat) : ∀ q ∈ (s.forgetNode n).net.qps, q.node ≠ some n := by
  change ∀ q ∈ mapIf (fun q : Qp => q.node == some n) (fun q => { q with node := none }) s.net.qps, _
  intro q hq
  obtain ⟨x, -, rfl⟩ := List.mem_map.1 hq
  split
  · simp
  · next h => simpa using h

/-- Settles O4: both timers by their lemmas, and forgetting by what it leaves in the register. -/
theorem silentNodesAreGoneAndForgotten : Obligations.SilentNodesAreGoneAndForgotten := by
  refine ⟨fun s n nd hs hnd => ⟨exec_leaseTimeout hs hnd, exec_peerTimeout hs hnd⟩, fun s n => ⟨?_, qps_forgetNode s n, ?_, fun k hk => ?_⟩⟩
  · rw [node_forgetNode, if_pos rfl]
  · exact List.mem_append_right _ (List.mem_singleton_self _)
  · rw [node_forgetNode, if_neg hk]

/-! ### The device's own messages to nodes (R265, R267) -/

theorem exec_peerHeartbeatSend {s : State} (hs : s.serving = true) (hd : s.broker.peerBeat + 1000 * s.rw 0x4001 2 0 ≤ s.clock.us) : exec .peerHeartbeatSend s =
    .next ((s.each (s.broker.nodes.filter (·.role == 3)) fun s n => s.ask n.num 0x02 9 n.part n.tenant 0 [0, 0, 0] [] none).onBroker fun b =>
      { b with peerBeat := s.clock.us }).settle := by
  change execPeerHeartbeatSend s = _
  simp only [execPeerHeartbeatSend, event_ok hs, due_iff.2 hd, Bool.not_true, Bool.false_eq_true, if_false]

/-- The advice record of a partition is the partition's. -/
theorem advice_part (s : State) (p : Nat) : (s.advice p).part = p := by
  unfold State.advice
  cases h : s.broker.advices.find? (·.part == p) with
  | none => rfl
  | some a => simpa using List.find?_some h

theorem advice_setAdvice (s : State) (a : Advice) : (s.setAdvice a).advice a.part = a := by
  change ((s.broker.advices.filter (·.part != a.part) ++ [a]).find? (·.part == a.part)).getD _ = a
  have hnone : (s.broker.advices.filter (·.part != a.part)).find? (·.part == a.part) = none := by simp
  rw [List.find?_append, hnone]
  simp

theorem advice_at_setAdvice (s : State) {a : Advice} {p : Nat} (h : a.part = p) : ((s.setAdvice a).advice p).at_ = a.at_ := by
  rw [← h, advice_setAdvice]

theorem advice_bump (s : State) (ix sub item n p : Nat) : (s.bump ix sub item n).advice p = s.advice p := rfl

/-- Sending an advice keeps when the partition was evaluated. -/
theorem advice_at_sendAdvice (s : State) (p : Nat) (nd : Node) (role : Nat) (u : (Nat × Nat) × (Nat × Nat)) :
    ((s.sendAdvice p nd role u).advice p).at_ = (s.advice p).at_ := by
  rw [State.sendAdvice, advice_bump]
  exact advice_at_setAdvice _ (advice_part s p)

/-- An evaluation is due where the partition has advice enabled and the interval has passed (R265). -/
def State.evaluates (s : State) (p : Nat) : Prop := s.act 0x4003 9 p = 1 ∧ (s.advice p).at_ + 1000 * s.act 0x4003 2 p ≤ s.clock.us

theorem evaluates_iff {s : State} {p : Nat} :
    (decide (s.act 0x4003 9 p ≠ 1) || !s.due ((s.advice p).at_ + 1000 * s.act 0x4003 2 p)) = false ↔ s.evaluates p := by
  simp [State.evaluates, due_iff]

theorem evaluateAdvice_early {s : State} {p : Nat} (h : ¬s.evaluates p) : s.evaluateAdvice p = s := by
  rw [State.evaluateAdvice, if_pos (by rw [← Bool.not_eq_false, evaluates_iff]; exact h)]

/-- An evaluation leaves its time in the advice record, whether it sends an advice or not. -/
theorem advice_at_evaluateAdvice {s : State} {p : Nat} (h : s.evaluates p) : ((s.evaluateAdvice p).advice p).at_ = s.clock.us := by
  rw [State.evaluateAdvice, if_neg (by rw [Bool.not_eq_true, evaluates_iff]; exact h)]
  extract_lets u x edge a a1 s1 open_ count
  have hset : (s1.advice p).at_ = s.clock.us := advice_at_setAdvice s (advice_part s p)
  have hsent : ∀ nd role, ((s1.sendAdvice p nd role u).advice p).at_ = s.clock.us := fun nd role => (advice_at_sendAdvice s1 p nd role u).trans hset
  split
  · exact hset
  · split
    · split
      · exact hsent _ _
      · exact hset
    · split
      · split
        · exact hsent _ _
        · exact hset
      · exact hset

theorem exec_adviceEvaluation {s : State} (hs : s.serving = true) (p : Nat) : exec (.adviceEvaluation p) s = .next (s.evaluateAdvice p).settle := by
  change execAdviceEvaluation p s = _
  rw [execAdviceEvaluation, event_ok hs]

theorem exec_adviceHoldEnd {s : State} {p n role tag t : Nat} (hs : s.serving = true) (ho : (s.advice p).out = some (n, role, tag, t)) (ht : t ≤ s.clock.us) :
    exec (.adviceHoldEnd p n) s = .next (s.setAdvice { s.advice p with
      out := none, declined := (s.advice p).declined.filter fun d => !(d.1 == n && s.due d.2) }).settle := by
  change execAdviceHoldEnd p n s = _
  simp only [execAdviceHoldEnd, event_ok hs, ho, due_iff.2 ht, decide_true, Bool.and_self, if_true]

theorem exec_roleAdviceCompletion {s u : State} {q : Qp} {r : Reply} {a : Ask} {p : Nat} (ha : s.Answers q r AskKind.isAdvice a u) (hk : a.kind = .advice p) :
    exec (.roleAdviceCompletion r) s = .next (if r.status = 0 then u else u.declineAdvice p a.node).settle := by
  refine congrArg Host.Outcome.next ((reply_ok ha _).trans ?_)
  simp only [hk]

/-- Settles O5: each message, evaluation and end of an advice by its lemma. -/
theorem peerHeartbeatsAndRoleAdvice : Obligations.PeerHeartbeatsAndRoleAdvice := by
  refine fun s hs => ⟨exec_peerHeartbeatSend hs, fun p hon hd => ⟨exec_adviceEvaluation hs p, advice_at_evaluateAdvice ⟨hon, hd⟩⟩, fun p hrest => ?_,
    fun p n role tag t ho ht => exec_adviceHoldEnd hs ho ht, fun q r a u p ha hk => exec_roleAdviceCompletion ha hk⟩
  rw [exec_adviceEvaluation hs, evaluateAdvice_early]
  rintro ⟨hon, hd⟩
  rcases hrest with h | h
  · exact h hon
  · omega

end Sys2Proof.Machine
end

section
/-!
PROOFS. Admissions, placements and their waits (R76, R255 to R258, R261, R262, R437): what ADMIT comes to, which slot and generation it takes, and what an answer to
a PLACE or the lack of one does.
-/
namespace Sys2Proof.Machine

/-! ### ADMIT (R255 to R257) -/

theorem exec_admit {s u : State} {q : Qp} {m : Rx} {b : AdmitBody} (ha : s.Accepts q m 0x10 .checked (if b.byRef then b.tokenLen.toNat else 0) u) :
    exec (.admitTurn m b) s = .next ((if b.byRef && (u.checkAdmit m b).isNone then
      u.readTokens m 0x10 b.tokenAddr.toNat b.tokenKey.toNat b.tokenLen.toNat (.admitTurn m b) else u.runAdmit m b b.tokens).ended q m) :=
  congrArg Host.Outcome.next (receive_ok ha _ _)

theorem runAdmit_accepts {u : State} {m : Rx} {b : AdmitBody} (hc : u.checkAdmit m b = none) (tokens : List W32) :
    u.runAdmit m b tokens = u.acceptAdmit m b tokens := by
  rw [State.runAdmit, hc]

theorem runAdmit_refuses {u : State} {m : Rx} {b : AdmitBody} {st : Status} (hc : u.checkAdmit m b = some st) (tokens : List W32) :
    u.runAdmit m b tokens = (if st = .capacity then u.bump 0x4006 3 m.hdr.partition.toNat 1 else u).answer (reqOf m 0x10) st := by
  simp only [State.runAdmit, hc, beq_iff_eq]

/-! ### The lowest free slot (R437) -/

/-- A step of the search for the lowest number not in a rising list. -/
def passTaken (a i : Nat) : Nat := if a = i then a + 1 else a

theorem foldl_passTaken_of_lt {l : List Nat} {a : Nat} (h : ∀ x ∈ l, a < x) : l.foldl passTaken a = a := by
  induction l with
  | nil => rfl
  | cons x l ih =>
    have hx : passTaken a x = a := if_neg (h x List.mem_cons_self).ne
    rw [List.foldl_cons, hx, ih fun y hy => h y (List.mem_cons_of_mem x hy)]

/-- From a start that no member is below, the search ends at the lowest number from the start on that the rising list does not have. -/
theorem foldl_passTaken_spec {l : List Nat} {a : Nat} (hsorted : l.Pairwise (· < ·)) (hle : ∀ x ∈ l, a ≤ x) :
    a ≤ l.foldl passTaken a ∧ l.foldl passTaken a ∉ l ∧ ∀ k, a ≤ k → k < l.foldl passTaken a → k ∈ l := by
  induction l generalizing a with
  | nil => exact ⟨le_rfl, List.not_mem_nil, fun k h1 h2 => absurd h2 (Nat.not_lt.2 h1)⟩
  | cons x l ih =>
    obtain ⟨hx, hl⟩ := List.pairwise_cons.1 hsorted
    obtain hax | rfl := (hle x List.mem_cons_self).lt_or_eq
    · have hlt : ∀ y ∈ x :: l, a < y := List.forall_mem_cons.2 ⟨hax, fun y hy => hax.trans (hx y hy)⟩
      rw [foldl_passTaken_of_lt hlt]
      exact ⟨le_rfl, fun hmem => absurd (hlt a hmem) (lt_irrefl a), fun k h1 h2 => absurd h2 (Nat.not_lt.2 h1)⟩
    · have hstep : passTaken a a = a + 1 := if_pos rfl
      obtain ⟨hge, hnot, hbelow⟩ := ih hl hx
      rw [List.foldl_cons, hstep]
      refine ⟨Nat.le_of_succ_le hge, List.not_mem_cons_of_ne_of_not_mem (Nat.ne_of_gt hge) hnot, fun k h1 h2 => ?_⟩
      obtain hk | rfl := h1.lt_or_eq
      · exact List.mem_cons_of_mem a (hbelow k hk h2)
      · exact List.mem_cons_self

/-- The slot found is free and below the limit, and every lower one is taken. -/
theorem freeSlot_spec {s : State} {p n : Nat} (h : s.freeSlot p = some n) : n < s.act 0x2101 2 p ∧ (∀ q ∈ s.seqs, q.part = p → q.slot ≠ n) ∧
    ∀ k, k < n → ∃ q ∈ s.seqs, q.part = p ∧ q.slot = k := by
  have hmem : ∀ k, k ∈ sortNat ((s.seqs.filter (·.part == p)).map (·.slot)) ↔ ∃ q ∈ s.seqs, q.part = p ∧ q.slot = k := by
    simp [mem_sortNat, and_assoc]
  obtain ⟨-, hfree, hbelow⟩ := foldl_passTaken_spec (sortNat_sorted ((s.seqs.filter (·.part == p)).map (·.slot))) fun x _ => Nat.zero_le x
  obtain ⟨hlt, hn⟩ := Option.ite_none_right_eq_some.1 h
  obtain rfl := Option.some.inj hn
  exact ⟨hlt, fun q hq hp hslot => hfree ((hmem _).2 ⟨q, hq, hp, hslot⟩), fun k hk => (hmem k).1 (hbelow k (Nat.zero_le k) hk)⟩

/-! ### Generations (R437) -/

section
variable (s : State) (p n : Nat)

theorem takeGen_first (h : sget s.slotGens (p * 2 ^ 20 + n) 0 = 0) : (s.takeGen p n).1 = 1 + (s.free).1.toNat % (2 ^ 22 - 1) :=
  congrArg Prod.fst (if_pos h)

theorem takeGen_next (h : sget s.slotGens (p * 2 ^ 20 + n) 0 ≠ 0) : (s.takeGen p n).1 =
    if sget s.slotGens (p * 2 ^ 20 + n) 0 = 4194303 then 1 else sget s.slotGens (p * 2 ^ 20 + n) 0 + 1 :=
  congrArg Prod.fst (if_neg h)

theorem takeGen_kept : sget (s.takeGen p n).2.slotGens (p * 2 ^ 20 + n) 0 = (s.takeGen p n).1 := by
  unfold State.takeGen
  dsimp only
  split <;> exact sget_sset_self _ _ _ _

end

/-- Settles O6: ADMIT by its checks, the slot by the search over the taken ones, the generation by whether the slot was used before. -/
theorem admitBeginsATurnInTheLowestSlot : Obligations.AdmitBeginsATurnInTheLowestSlot := by
  refine ⟨fun s u q m b ha => ⟨fun hc hr => ?_, fun hc hr => ?_, fun st hc => ?_⟩, fun s p n => freeSlot_spec, fun s p n h => ?_, takeGen_next, takeGen_kept⟩
  · rw [exec_admit ha, hr, runAdmit_accepts hc]; rfl
  · rw [exec_admit ha, hr, hc]; rfl
  · rw [exec_admit ha, runAdmit_refuses hc, hc, Option.isNone_some, Bool.and_false, if_neg Bool.false_ne_true]
  · rw [takeGen_first s p n h]
    omega

/-! ### PLACE and its answer (R76, R258, R262) -/

section
variable {s : State} {h n tag : Nat} {ph : TurnPhase} {x : Seq} (hl : x.lease = .offered ph n tag)
include hl

theorem exec_placeCompletion {u : State} {q : Qp} {r : Reply} {a : Ask} (ha : s.Answers q r AskKind.isPlace a u) (hk : a.kind = .place h) (ht : a.tag = tag)
    (hx : u.seq h = some x) : exec (.placeCompletion r) s = .next (if r.status = 0 then u.acceptPlace h n tag ph else u.refusePlace h n tag ph).settle := by
  refine congrArg Host.Outcome.next ((reply_ok ha _).trans ?_)
  simp only [hk, hx, Option.map_some, hl, ht, if_true]

theorem exec_acceptTimeout {w : W64} (hs : s.serving = true) (hx : s.seq w.toNat = some x) (hd : x.turn.acceptUntil ≤ s.clock.us) :
    exec (.acceptTimeout w) s = .next (s.refusePlace w.toNat n tag ph).settle := by
  change execAcceptTimeout w s = _
  simp only [execAcceptTimeout, event_ok hs, hx, hl, due_iff.2 hd, if_true]

end

/-- An offer that ends takes its token region back, and leaves the rest of the sequence. -/
theorem seq_endOffer (s : State) (h tag : Nat) : (s.endOffer h tag).seq h = (s.seq h).map fun x => { x with turn := { x.turn with region := none } } := by
  unfold State.endOffer
  dsimp only
  split
  · exact seq_onSeq _ _ _ fun _ => rfl
  · next hr =>
    change s.seq h = _
    change (s.seq h).bind (·.turn.region) = none at hr
    cases hx : s.seq h with
    | none => rfl
    | some x =>
      rw [hx] at hr
      change x.turn.region = none at hr
      rw [Option.map_some, ← hr]

theorem seq_answerAdmit (s : State) (h node : Nat) (st : Status) :
    (s.answerAdmit h node st).seq h = (s.seq h).map fun x => { x with turn := { x.turn with admitReq := none } } := by
  unfold State.answerAdmit
  cases hx : s.seq h with
  | none => simpa using hx
  | some x =>
    dsimp only
    split
    · next hr => rw [hx, Option.map_some, ← hr]
    · rw [seq_onSeq _ _ _ (fun _ => by rfl), seq_of_seqs (complete_sent _ _ _ _ _).seqs, ← hx]
      split
      · rw [seq_of_seqs (meter_seqs _ _ _ _ _), seq_of_seqs (bump_seqs _ _ _ _ _)]
      · rfl

theorem seq_answerHandoff (s : State) (h : Nat) (node : Option Nat) (st : Status) :
    (s.answerHandoff h node st).seq h = (s.seq h).map fun x => { x with turn := { x.turn with handoffReq := none } } := by
  unfold State.answerHandoff
  cases hx : s.seq h with
  | none => simpa using hx
  | some x =>
    dsimp only
    split
    · next hr => rw [hx, Option.map_some, ← hr]
    · rw [seq_onSeq _ _ _ (fun _ => by rfl), seq_of_seqs (complete_sent _ _ _ _ _).seqs, hx]

/-- What acceptance makes of a sequence, before the request that waited for it is answered (R76, R258). -/
def Seq.acceptedBy (x : Seq) (n : Nat) (ph : TurnPhase) : Seq :=
  { x with lease := .held ph, holder := some n, leaseGen := (x.leaseGen + 1) % 65536
           turn := { x.turn with region := none, target := none, pending := if ph == .decode then [] else x.turn.pending, replaced := false } }

/-- Acceptance makes that of the sequence, but for the request it answers and forgets. -/
theorem seq_acceptPlace {s : State} {h n tag : Nat} {ph : TurnPhase} {x : Seq} (hx : s.seq h = some x) : ∃ r r', (s.acceptPlace h n tag ph).seq h =
    some { x.acceptedBy n ph with turn := { (x.acceptedBy n ph).turn with admitReq := r, handoffReq := r' } } := by
  have hoffer : ∀ f p t, (((s.endOffer h tag).onNode n f).meter p t 0x16 1).seq h = some { x with turn := { x.turn with region := none } } := fun f p t => by
    rw [seq_of_seqs (meter_seqs _ _ _ _ _)]
    change (s.endOffer h tag).seq h = _
    rw [seq_endOffer, hx, Option.map_some]
  simp only [State.acceptPlace, hx]
  cases ph with
  | prefill =>
    rw [if_pos (by decide), seq_answerAdmit, seq_onSeq _ _ _ (fun _ => by rfl), hoffer]
    exact ⟨none, x.turn.handoffReq, rfl⟩
  | decode =>
    rw [if_neg (by decide), seq_answerHandoff, seq_onSeq _ _ _ (fun _ => by rfl), hoffer]
    exact ⟨x.turn.admitReq, none, rfl⟩

/-- Settles O7: the answers by their lemmas, and acceptance by what it makes of the sequence. -/
theorem acceptedPlaceHoldsTheLease : Obligations.AcceptedPlaceHoldsTheLease := by
  refine ⟨fun s u h n tag x ph hl => ⟨fun q r a ha hk ht hx => exec_placeCompletion hl ha hk ht hx, ?_⟩, fun s h n tag ph x hx => ?_⟩
  · rintro w rfl hs hx hd
    exact exec_acceptTimeout hl hs hx hd
  · obtain ⟨r, r', hy⟩ := seq_acceptPlace (n := n) (tag := tag) (ph := ph) hx
    exact ⟨_, hy, rfl, rfl, rfl, rfl, rfl, rfl, rfl⟩

/-! ### The placement wait (R256, R261, R262) -/

theorem exec_placementWaitExpiry {s : State} {w : W64} {x : Seq} {ph : TurnPhase} (hs : s.serving = true) (hx : s.seq w.toNat = some x)
    (hl : x.lease = .choosing ph) (hd : x.turn.waitUntil ≤ s.clock.us) : exec (.placementWaitExpiry w) s = .next (s.waitEnds w.toNat x ph).settle := by
  change execPlacementWaitExpiry w s = _
  simp only [execPlacementWaitExpiry, event_ok hs, hx, hl, due_iff.2 hd, if_true]

/-- Settles O8: the end of the wait, by the phase and whether an admission still waits. -/
theorem placementWaitEndsTheTurn : Obligations.PlacementWaitEndsTheTurn := by
  intro s w x ph hs hx hl hd
  rw [exec_placementWaitExpiry hs hx hl hd]
  cases ph with
  | decode => rfl
  | prefill => cases hr : x.turn.admitReq <;> simp only [State.waitEnds, hr, Option.isSome, Bool.false_eq_true, if_false, if_true]

end Sys2Proof.Machine
end

section
/-!
PROOFS. Peers' ledgers and pages here (R268 to R270, R274): what each kind of LEDGER_SYNC and RELAY comes to, and what a peer declared gone is answered.
-/
namespace Sys2Proof.Machine

/-! ### LEDGER_SYNC (R268, R269) -/

section
variable {s u : State} {q : Qp} {nd : Node} {m : Rx} {b : LedgerBody} {anew : Bool}

theorem syncIn_malformed (ha : s.Accepts q m 0x60 .unchecked 0 u) {f : Bool} (hf : ledgerFits m b (f && b.handle != 0) = false) (run : Node → State → State) :
    s.syncIn m b f run = (u.answer (reqOf m 0x60) .malformed).ended q m := by
  rw [State.syncIn, receive_ok ha, hf, Bool.not_false, if_pos rfl]

/-- The state without the mirror record of a peer's sequence. -/
def State.unmirror (u : State) (nd : Node) (h : Nat) : State :=
  u.onBroker fun x => { x with mirrors := x.mirrors.filter fun y => !(y.part == nd.part && y.peer == nd.num && y.handle == h) }

/-- The mirror record that a LEDGER_SYNC with a geometry describes. -/
def mirrorOf (nd : Node) (b : LedgerBody) : Mirror :=
  { part := nd.part, peer := nd.num, peerIdent := nd.ident, handle := b.handle.toNat, body := b, tokens := b.tokens, pages := [] }

section
variable (h : s.FromPeer q m 0x60 nd b.handle.toNat anew u)
include h

/-- Kind 0, by the room for the ledger once an older record is gone (R268, log 46). -/
theorem exec_ledgerSyncCreate (hf : ledgerFits m b (b.handle != 0) = true) : exec (.ledgerSyncCreate m b) s =
    .next ((if (u.unmirror nd b.handle.toNat).openFrames nd.part < (u.unmirror nd b.handle.toNat).mirrorFrames nd.part + cdiv b.tokens.length 4096
      then u.answerSync m .capacity 0
      else ((u.unmirror nd b.handle.toNat).onBroker fun x => { x with mirrors := x.mirrors ++ [mirrorOf nd b] }).answerSync m .ok b.tokens.length).ended q m) :=
  congrArg Host.Outcome.next (fromPeer_sync h true (fun _ => rfl) hf _)

/-- Kind 4: every mirror of the peer where it names no sequence, else the one it describes (R269, log 167). -/
theorem exec_ledgerSyncReadmit (hf : ledgerFits m b (b.handle != 0) = true) : exec (.ledgerSyncReadmit m b) s =
    .next ((if b.handle = 0 then
      (u.each (u.broker.mirrors.filter fun x => x.part == nd.part && x.peer == nd.num) fun s x => s.readmit x).answerSync m .ok 0
      else if (u.readmitHere (mirrorOf nd b)).1 then (u.readmitHere (mirrorOf nd b)).2.answerSync m .ok b.tokens.length
      else u.answerSync m .capacity 0).ended q m) :=
  congrArg Host.Outcome.next (fromPeer_sync h true (fun _ => rfl) hf _)

variable (hf : ledgerFits m b false = true) (hold : anew = false)
include hf hold

theorem exec_ledgerSyncTokens_unknown (hx : u.mirror nd b.handle.toNat = none) :
    exec (.ledgerSyncTokens m b) s = .next ((u.answerSync m .ok 0).ended q m) := by
  refine congrArg Host.Outcome.next ((fromPeer_sync h false (by simp [hold]) hf _).trans ?_)
  rw [hx]

/-- Kind 1, by the room for what the ledger grows (R268, log 46). -/
theorem exec_ledgerSyncTokens {x : Mirror} {ts : List W32} (hx : u.mirror nd b.handle.toNat = some x)
    (hts : ts = if b.firstPos.toNat ≤ x.tokens.length then x.tokens.take b.firstPos.toNat ++ b.tokens else x.tokens) : exec (.ledgerSyncTokens m b) s =
      .next ((if u.openFrames nd.part < u.mirrorFrames nd.part + cdiv ts.length 4096 - cdiv x.tokens.length 4096 then u.answerSync m .capacity x.tokens.length
        else (u.onMirror nd b.handle.toNat fun y => { y with
          tokens := ts, body := { y.body with admitter := b.admitter, holder := b.holder } }).answerSync m .ok ts.length).ended q m) := by
  subst hts
  refine congrArg Host.Outcome.next ((fromPeer_sync h false (by simp [hold]) hf _).trans ?_)
  rw [hx]

theorem exec_ledgerSyncCut {v : State} (hv : v = u.onMirror nd b.handle.toNat fun y => { y with
      tokens := y.tokens.take b.firstPos.toNat
      pages := y.pages.filter fun p => y.body.geometry.posBase.toNat + 64 * (p.page.index.toNat + 1) ≤ b.firstPos.toNat
      body := { y.body with admitter := b.admitter, holder := b.holder } }) :
    exec (.ledgerSyncCut m b) s = .next ((v.answerSync m .ok (((v.mirror nd b.handle.toNat).map (·.tokens.length)).getD 0)).ended q m) := by
  subst hv
  exact congrArg Host.Outcome.next (fromPeer_sync h false (by simp [hold]) hf _)

theorem exec_ledgerSyncFree : exec (.ledgerSyncFree m b) s = .next (((u.unmirror nd b.handle.toNat).answerSync m .ok 0).ended q m) :=
  congrArg Host.Outcome.next (fromPeer_sync h false (by simp [hold]) hf _)

end
end

/-- Settles O25: a bad layout is refused by every kind, and each kind of a good one does what its lemma says. -/
theorem peersMirrorTheirLedgersHere : Obligations.PeersMirrorTheirLedgersHere := by
  intro s u q nd m b anew h handle others
  refine ⟨fun c fresh hc hf => ?_, fun hf => ⟨fun hroom => ?_, fun hroom => ?_, ?_⟩, fun hf h0 => ?_, fun hf hold =>
    ⟨fun hx => exec_ledgerSyncTokens_unknown h hf hold hx, fun x ts hx hts => ⟨fun hroom => ?_, fun hroom => ?_⟩,
      fun v hv => exec_ledgerSyncCut h hf hold hv, exec_ledgerSyncFree h hf hold⟩⟩
  · simp only [List.mem_cons, Prod.mk.injEq, List.not_mem_nil, or_false] at hc
    obtain ⟨rfl, rfl⟩ | ⟨rfl, rfl⟩ | ⟨rfl, rfl⟩ | ⟨rfl, rfl⟩ | ⟨rfl, rfl⟩ := hc <;>
      exact congrArg Host.Outcome.next (syncIn_malformed h.accepts hf _)
  · rw [exec_ledgerSyncCreate h hf]
    exact congrArg (fun t : State => Host.Outcome.next (t.ended q m)) (if_pos hroom)
  · rw [exec_ledgerSyncCreate h hf]
    exact congrArg (fun t : State => Host.Outcome.next (t.ended q m)) (if_neg (Nat.not_lt.2 hroom))
  · rintro _ h0 rfl
    rw [exec_ledgerSyncReadmit h hf, if_neg h0]
    rfl
  · rw [exec_ledgerSyncReadmit h (by simpa [h0] using hf), if_pos h0]
  · rw [exec_ledgerSyncTokens h hf hold hx hts, if_pos hroom]
  · rw [exec_ledgerSyncTokens h hf hold hx hts, if_neg (Nat.not_lt.2 hroom)]

/-! ### A peer declared gone (R270) -/

section
variable {s u : State} {q : Qp} {nd : Node} {g : GonePeer} {m : Rx} (hnd : u.nodeOf m.qp = some nd)
  (hg : u.broker.gone.find? (fun x => x.part == nd.part && x.ident == nd.ident) = some g)
include hnd hg

/-- The first message of a peer declared gone is answered `FENCED`, and the record of the peer says so. -/
theorem fencedPeer_first (hfirst : g.fenced = false) (op h : Nat) (fresh : Bool) (run : State → State) : u.fencedPeer m op h fresh run =
    (u.onBroker fun b => { b with gone := mapIf (fun x => x.part == nd.part && x.ident == nd.ident) (fun x => { x with fenced := true }) b.gone }).answer
      (reqOf m op) .fenced := by
  simp only [State.fencedPeer, hnd, hg, hfirst, Bool.not_false, if_true]

/-- After that, a message about a mirror that is not here is answered `FENCED` too (log 45). -/
theorem fencedPeer_unknown (hlater : g.fenced = true) {h : Nat} (hnone : ∀ x ∈ u.broker.mirrors, ¬(x.part = nd.part ∧ x.peer = nd.num ∧ x.handle = h)) (op : Nat)
    (run : State → State) : u.fencedPeer m op h false run = u.answer (reqOf m op) .fenced := by
  have hany : u.broker.mirrors.any (fun x => x.part == nd.part && x.peer == nd.num && x.handle == h) = false := by
    simpa [and_assoc] using hnone
  simp only [State.fencedPeer, hnd, hg, hlater, hany, Bool.not_true, Bool.not_false, Bool.and_self, Bool.false_eq_true, if_false, if_true]

end

/-- A LEDGER_SYNC of the right layout that the fence answers does nothing of its own. -/
theorem syncIn_fenced {s u w : State} {q : Qp} {m : Rx} {b : LedgerBody} {f : Bool} (ha : s.Accepts q m 0x60 .unchecked 0 u)
    (hf : ledgerFits m b (f && b.handle != 0) = true) (hw : ∀ run, u.fencedPeer m 0x60 b.handle.toNat f run = w) (run : Node → State → State) :
    s.syncIn m b f run = w.ended q m := by
  rw [State.syncIn, receive_ok ha, hf, Bool.not_true, if_neg Bool.false_ne_true, hw]

/-- The layout of a RELAY of a kind (Table 8-15). -/
def relayFits (m : Rx) (b : RelayBody) (k : Nat) : Prop :=
  if k = 2 then m.hdr.bodyLen = 32 else m.hdr.bodyLen.toNat = 32 + 8 * b.pages.length ∧ b.pages.length = b.pageCount.toNat + 1

theorem relayFits_of_ne {m : Rx} {b : RelayBody} {k : Nat} (hk : k ≠ 2) :
    relayFits m b k ↔ m.hdr.bodyLen.toNat = 32 + 8 * b.pages.length ∧ b.pages.length = b.pageCount.toNat + 1 := by
  rw [relayFits, if_neg hk]

/-- The check of a RELAY passes where its layout is right. -/
theorem relayFits_iff {m : Rx} {b : RelayBody} {k : Nat} : (if k = 2 then m.hdr.bodyLen != 32 else
    m.hdr.bodyLen.toNat != 32 + 8 * b.pages.length || b.pages.length != b.pageCount.toNat + 1) = false ↔ relayFits m b k := by
  unfold relayFits
  split <;> simp

section
variable {s u : State} {q : Qp} {m : Rx} {b : RelayBody} {k : Nat} (ha : s.Accepts q m 0x61 .unchecked 0 u)
include ha

theorem relayIn_malformed (hf : ¬relayFits m b k) (run : Node → State → State) : s.relayIn m b k run = (u.answer (reqOf m 0x61) .malformed).ended q m := by
  rw [State.relayIn, receive_ok ha, if_pos (by rw [← Bool.not_eq_false, relayFits_iff]; exact hf)]

/-- A RELAY of the right layout that the fence answers does nothing of its own. -/
theorem relayIn_fenced {w : State} (hf : relayFits m b k) (hw : ∀ run, u.fencedPeer m 0x61 b.handle.toNat (k != 3) run = w) (run : Node → State → State) :
    s.relayIn m b k run = w.ended q m := by
  rw [State.relayIn, receive_ok ha, if_neg (by rw [Bool.not_eq_true, relayFits_iff]; exact hf), hw]

end

/-- Settles O26: the fence answers before any kind's own run. -/
theorem gonePeersAreFencedOnce : Obligations.GonePeersAreFencedOnce := by
  refine fun s u q nd g m hnd hg => ⟨fun hfirst => ?_, fun hlater h hnone => ?_⟩
  · have hfence := fencedPeer_first hnd hg hfirst
    refine ⟨fun b c fresh ha hf hc => ?_, fun b ha => ⟨fun hlen hcount c hc => ?_, fun hlen => ?_⟩⟩
    · simp only [List.mem_cons, Prod.mk.injEq, List.not_mem_nil, or_false] at hc
      obtain ⟨rfl, rfl⟩ | ⟨rfl, rfl⟩ | ⟨rfl, rfl⟩ | ⟨rfl, rfl⟩ | ⟨rfl, rfl⟩ := hc <;>
        exact congrArg Host.Outcome.next (syncIn_fenced ha hf (hfence 0x60 _ _) _)
    · simp only [List.mem_cons, List.not_mem_nil, or_false] at hc
      obtain rfl | rfl | rfl := hc <;>
        exact congrArg Host.Outcome.next (relayIn_fenced ha ((relayFits_of_ne (by decide)).2 ⟨hlen, hcount⟩) (hfence 0x61 _ _) _)
    · exact congrArg Host.Outcome.next (relayIn_fenced (k := 2) ha hlen (hfence 0x61 _ _) _)
  · have hfence := fencedPeer_unknown hnd hg hlater hnone
    refine ⟨fun b hb ha hf c hc => ?_, fun b hb ha hlen hcount => ?_⟩
    · subst hb
      simp only [List.mem_cons, List.not_mem_nil, or_false] at hc
      obtain rfl | rfl | rfl := hc <;> exact congrArg Host.Outcome.next (syncIn_fenced (f := false) ha hf (hfence 0x60) _)
    · subst hb
      exact congrArg Host.Outcome.next (relayIn_fenced (k := 3) ha ⟨hlen, hcount⟩ (hfence 0x61) _)

/-! ### RELAY (R274) -/

section
variable {s u : State} {q : Qp} {nd : Node} {m : Rx} {b : RelayBody} {k : Nat} {anew : Bool}

/-- The state in which a RELAY of a kind runs: metered by its window (R273, R385). -/
def State.relayMetered (u : State) (nd : Node) (m : Rx) (b : RelayBody) (k : Nat) : State :=
  (u.meter nd.part m.hdr.tenant.toNat (0x1C + k) b.winLen.toNat).meterMoved nd.part m.hdr.tenant.toNat 3 b.winLen.toNat

variable (h : s.FromPeer q m 0x61 nd b.handle.toNat anew u)
include h

theorem exec_relayStore {v : State} (hv : v = u.relayMetered nd m b 0) (hf : relayFits m b 0) : exec (.relayStore m b) s =
    .next (((v.storeImages nd b).2.answerRelay m 0 .ok ((v.storeImages nd b).1.length - (v.storeImages nd b).1.countP (· == 0xFFFFFFFF))
      ((v.storeImages nd b).1.countP (· == 0xFFFFFFFF)) (v.storeImages nd b).1).ended q m) := by
  subst hv
  exact congrArg Host.Outcome.next (fromPeer_relay h (fun _ => by decide) hf _)

theorem exec_relayFetchAndMove {v : State} (hv : v = u.relayMetered nd m b 1) (hf : relayFits m b 1) : exec (.relayFetchAndMove m b) s =
    .next (((v.moveBack nd m b).2.answerRelay m 1 .ok (v.moveBack nd m b).1 (b.pages.length - (v.moveBack nd m b).1) []).ended q m) := by
  subst hv
  exact congrArg Host.Outcome.next (fromPeer_relay h (fun _ => by decide) hf _)

theorem exec_relayMirror (hold : anew = false) {v : State} (hv : v = u.relayMetered nd m b 3) (hf : relayFits m b 3) {n : Nat}
    (hn : n = if (v.mirror nd b.handle.toNat).isSome then (relayGood b).length else 0) : exec (.relayMirror m b) s =
      .next ((((v.each (List.range (relayBadTags b)) fun s _ => s.tagFailed nd.part).onMirror nd b.handle.toNat fun y =>
        { y with pages := joinPages y.pages (relayGood b) }).answerRelay m 3 .ok n (b.pages.length - n) []).ended q m) := by
  subst hn hv
  exact congrArg Host.Outcome.next (fromPeer_relay h (by simp [hold]) hf _)

/-- Kind 2 of a handle that names no sequence. -/
theorem exec_relayFetchCopy_unknown {v : State} (hv : v = u.relayMetered nd m b 2) (hf : relayFits m b 2) (hx : v.seq b.handle.toNat = none) :
    exec (.relayFetchCopy m b) s = .next ((v.answerRelay m 2 .notOwner 0 0 []).ended q m) := by
  refine congrArg Host.Outcome.next ((fromPeer_relay h (fun _ => by decide) hf _).trans ?_)
  rw [← State.relayMetered, ← hv, hx]

/-- Kind 2 of a sequence, by whether it is of the peer's partition. -/
theorem exec_relayFetchCopy {v : State} (hv : v = u.relayMetered nd m b 2) (hf : relayFits m b 2) {x : Seq} (hx : v.seq b.handle.toNat = some x) :
    exec (.relayFetchCopy m b) s = .next ((if x.part ≠ nd.part then v.answerRelay m 2 .accessDenied 0 0 []
      else (v.copyInto nd m b x).2.answerRelay m 2 .ok (v.copyInto nd m b x).1
        ((v.copied x b.firstPos.toNat b.endPos.toNat).length - (v.copyInto nd m b x).1) []).ended q m) := by
  refine congrArg Host.Outcome.next ((fromPeer_relay h (fun _ => by decide) hf _).trans ?_)
  rw [← State.relayMetered, ← hv, hx]

end

/-- Settles O27: a bad layout is refused by every kind, and each kind of a good one does what its lemma says. -/
theorem relaysStoreMoveCopyAndMirror : Obligations.RelaysStoreMoveCopyAndMirror := by
  refine fun s u v q nd m b k anew h hnew hv => ⟨fun hlen hcount => ⟨?_, ?_, ?_⟩, fun hbad c hc => ?_, fun hlen => ?_, fun hlen hk => ?_⟩
  · rintro rfl _ rfl
    exact exec_relayStore h hv ⟨hlen, hcount⟩
  · rintro rfl _ rfl
    exact exec_relayFetchAndMove h hv ⟨hlen, hcount⟩
  · rintro rfl n hn
    have hold : anew = false := Bool.eq_false_iff.2 fun ha => hnew ha rfl
    exact exec_relayMirror h hold hv ⟨hlen, hcount⟩ hn
  · have hunfit : ¬(m.hdr.bodyLen.toNat = 32 + 8 * b.pages.length ∧ b.pages.length = b.pageCount.toNat + 1) := not_and_or.2 hbad
    simp only [List.mem_cons, List.not_mem_nil, or_false] at hc
    obtain rfl | rfl | rfl := hc <;> exact congrArg Host.Outcome.next (relayIn_malformed h.accepts (mt (relayFits_of_ne (by decide)).1 hunfit) _)
  · exact congrArg Host.Outcome.next (relayIn_malformed (k := 2) h.accepts hlen _)
  · subst hk
    refine ⟨exec_relayFetchCopy_unknown h hv hlen, fun x hx => ⟨fun hpart => ?_, ?_⟩⟩
    · rw [exec_relayFetchCopy h hv hlen hx, if_pos hpart]
    · rintro hpart _ rfl
      rw [exec_relayFetchCopy h hv hlen hx, if_neg (not_not.2 hpart)]

end Sys2Proof.Machine
end

section
/-!
PROOFS. Connections and rings (R280, R282 to R286): what opens and ends a queue pair, what a ring write comes to by where it lies, and what a completion ring takes.
-/
namespace Sys2Proof.Machine

/-! ### Connections (R280, R286) -/

theorem exec_cmReq {s : State} (hs : s.serving = true) (r : CmReq) :
    exec (.cmReq r) s = .next ((s.openQp r).getD (s.control r.lp (.cmRej r.lp))).settle := by
  change execCmReq r s = _
  rw [execCmReq, event_ok hs]
  cases s.openQp r <;> rfl

/-- What R280 refuses opens no queue pair. -/
theorem openQp_eq_none {s : State} {r : CmReq} (h : reqLegal r = false ∨ s.reqGranted r = false ∨ s.freeQp r.partition.toNat = none) : s.openQp r = none := by
  rw [State.openQp]
  rcases h with h | h | h
  · simp only [h, Bool.not_false, Bool.true_or, if_true]
  · simp only [h, Bool.not_false, Bool.or_true, if_true]
  · simp only [h, ite_self]

theorem exec_cmRtu {s : State} (hs : s.serving = true) (n : Nat) : exec (.cmRtu n) s =
    .next (s.onQp n fun x => if x.st = .connecting then { x with st := .connected, lastUs := s.us } else x).settle := by
  change execCmRtu n s = _
  rw [execCmRtu, event_ok hs]

section
variable {s : State} {q : Qp} (hs : s.serving = true) (hq : s.qp q.num = some q)
include hs hq

theorem exec_cmDisconnect : exec (.cmDisconnect q.num) s =
    .next (if q.st = .error then (s.control q.lp (.cmDrep q.num)).onNet fun x => { x with qps := x.qps.filter (·.num != q.num) }
      else (s.control q.lp (.cmDrep q.num)).qpError q.num false).settle := by
  change execCmDisconnect q.num s = _
  simp only [execCmDisconnect, event_ok hs, hq]

theorem exec_sendReceived (hc : q.connected = true) (hmode : q.mode = 0) (n : Nat) : exec (.sendReceived q.num n) s =
    .next (if s.act 0x5003 2 q.part < sget s.net.pool q.part 0 + n then s.control q.lp (.rnrNak q.num (q.param 0x5030 4))
      else (s.rxPackets q (q.packets n)).onNet fun x => { x with pool := sadd x.pool q.part n }).settle := by
  change execSendReceived q.num n s = _
  simp only [execSendReceived, event_ok hs, hq, hc, hmode, Bool.not_true, ne_eq, not_true_eq_false, decide_false, Bool.or_self, Bool.false_eq_true, if_false]

end

/-! ### Writes of command rings (R11, R282) -/

/-- A write of `n` slots is not of whole free slots of its ring (R282). -/
def Ring.lacks (r : Ring) (slot n : Nat) : Prop := n = 0 ∨ r.slots < slot + n ∨ ∃ i < n, slot + i ∈ r.busy

/-- A write of `n` slots names its own slot, and that slot is the next one, or slot 0 where the write does not fit before the ring's end (R282). -/
def Ring.awaits (r : Ring) (w : RingWrite) (n : Nat) : Prop :=
  w.imm.toNat / 2 ^ 20 = w.slot ∧ (w.slot = r.producer ∨ w.slot = 0 ∧ r.slots < r.producer + n)

theorem lacks_iff {r : Ring} {slot n : Nat} :
    (n = 0 || r.slots < slot + n || ((List.range n).map (slot + ·)).any r.busy.contains) = true ↔ r.lacks slot n := by
  simp [Ring.lacks, or_assoc]

theorem awaits_iff {r : Ring} {w : RingWrite} {n : Nat} :
    (w.imm.toNat / 2 ^ 20 = w.slot && (w.slot = r.producer || (w.slot = 0 && !(r.producer + n ≤ r.slots)))) = true ↔ r.awaits w n := by
  simp [Ring.awaits]

section
variable {s : State} {q : Qp} {w : RingWrite} {r : Ring} (hs : s.serving = true) (hq : s.qp q.num = some q) (hw : w.qp = q.num) (hc : q.connected = true)
  (hr : q.cmdRing.bind s.ring = some r)
include hs hq hw hc hr

theorem exec_ringMessageWrite_lacks (hl : r.lacks w.slot (cdiv w.length r.slotSize)) : exec (.ringMessageWrite w) s = .next (s.refuseAccess q).settle := by
  change execRingMessageWrite w s = _
  simp only [execRingMessageWrite, event_ok hs, hw, hq, hc, hr, if_true, if_pos (lacks_iff.2 hl)]

theorem exec_ringMessageWrite_awaited (hl : ¬r.lacks w.slot (cdiv w.length r.slotSize)) (ha : r.awaits w (cdiv w.length r.slotSize)) :
    exec (.ringMessageWrite w) s = .next (((s.heard q).rxPackets q (q.packets w.length)).ringTake q r w (cdiv w.length r.slotSize)).settle := by
  change execRingMessageWrite w s = _
  simp only [execRingMessageWrite, event_ok hs, hw, hq, hc, hr, if_true, if_neg (mt lacks_iff.1 hl), if_pos (awaits_iff.2 ha)]

theorem exec_ringMessageWrite_misplaced (hl : ¬r.lacks w.slot (cdiv w.length r.slotSize)) (ha : ¬r.awaits w (cdiv w.length r.slotSize)) :
    exec (.ringMessageWrite w) s = .next ((((s.heard q).rxPackets q (q.packets w.length)).onRing r.num fun x => { x with
      producer := (w.slot + cdiv w.length r.slotSize) % x.slots
      consumed := (x.consumed + cdiv w.length r.slotSize) % 2 ^ 32 }).answer (reqOfBytes q.num w.bytes) .malformed).settle := by
  change execRingMessageWrite w s = _
  simp only [execRingMessageWrite, event_ok hs, hw, hq, hc, hr, if_true, if_neg (mt lacks_iff.1 hl), if_neg (mt awaits_iff.1 ha)]

end

/-- A message that a command runs waits in its slots (R282). -/
theorem ringTake_waits {v : State} {q : Qp} {r : Ring} {w : RingWrite} (n : Nat) (hb : codeless w.bytes = false) :
    v.ringTake q r w n = v.onRing r.num fun x => { x with
      producer := (w.slot + n) % x.slots, busy := ((List.range n).map (w.slot + ·)).foldl insNat x.busy, waiting := x.waiting ++ [(w.slot, n, w.bytes)]
      consumed := (x.consumed + if w.slot = r.producer then 0 else r.slots - r.producer) % 2 ^ 32 } := by
  simp only [State.ringTake, hb, Bool.false_eq_true, if_false, ne_eq, ite_not]

/-- A message that no command runs is consumed at once and refused (R11). -/
theorem ringTake_codeless {v : State} {q : Qp} {r : Ring} {w : RingWrite} (n : Nat) (hb : codeless w.bytes = true) :
    v.ringTake q r w n = (v.onRing r.num fun x => { x with
      producer := (w.slot + n) % x.slots
      consumed := (x.consumed + (if w.slot = r.producer then 0 else r.slots - r.producer) + n) % 2 ^ 32 }).refuseCode q w.length w.bytes := by
  simp only [State.ringTake, hb, if_true, ne_eq, ite_not]

/-! ### Completion rings (R283, R284) -/

/-- Bytes of the entry that carries a message: its descriptor and the message in whole 64-byte units (R284). -/
def Msg.entryBytes (m : Msg) : Nat := cdiv (16 + m.bytes) 64 * 64

/-- Bytes from where a completion ring stands to its end (R284). -/
def Ring.tail (r : Ring) : Nat := r.length - r.written % r.length

/-- The state after the pad that a ring's first held message may need, in the message's service (R284). -/
def State.padded (s : State) (r : Ring) (q : Qp) (svc : Nat) (m : Msg) : State :=
  if m.entryBytes ≤ r.tail then s else if r.tail ≤ r.room then s.writeEntry r q svc (classOf svc m.opcode) m.tenant r.tail none else s

section
variable {s : State} {r : Ring} {q : Qp} {svc : Nat} {m : Msg}

theorem padded_of_fits (hb : m.entryBytes ≤ r.tail) : s.padded r q svc m = s := if_pos hb

theorem padded_of_full (hroom : r.room < r.tail) : s.padded r q svc m = s := by
  rw [State.padded, if_neg (Nat.not_le.2 hroom), ite_self]

theorem padded_of_wraps (hb : r.tail < m.entryBytes) (hroom : r.tail ≤ r.room) :
    s.padded r q svc m = s.writeEntry r q svc (classOf svc m.opcode) m.tenant r.tail none := by
  rw [State.padded, if_neg (Nat.not_le.2 hb), if_pos hroom]

/-- The ring's first held message is written where the ring, its pad written, has its bytes in one piece, and else waits (R284). -/
theorem exec_completionRingWrite {relay : Nat} {l : List (Nat × Nat × Msg)} (hs : s.serving = true) (hr : s.ring r.num = some r)
    (hheld : r.held = (q.num, relay, m) :: l) (hq : s.qp q.num = some q) (hsvc : svc = serviceOf (s.qpRole q) m.opcode relay m.device) {v : State} {y : Ring}
    (hv : v = s.padded r q svc m) (hy : v.ring r.num = some y) : exec (.completionRingWrite r.num) s =
      .next (if m.entryBytes ≤ y.room ∧ m.entryBytes ≤ y.tail
        then (v.writeEntry y q svc (classOf svc m.opcode) m.tenant m.entryBytes (some m)).onRing r.num fun x => { x with held := x.held.drop 1 }
        else v).settle := by
  subst hv hsvc
  change execCompletionRingWrite r.num s = _
  simp only [execCompletionRingWrite, event_ok hs, hr, hheld, hq, Bool.and_eq_true, decide_eq_true_eq]
  change Host.Outcome.next (State.settle (match (s.padded r q _ m).ring r.num with
    | none => _
    | some r1 => _)) = _
  rw [hy]
  rfl

end

/-- Settles O30: each command by its lemma, a ring write by whether its slots are free and awaited, a completion by the pad before it. -/
theorem connectionsAndTheirRings : Obligations.ConnectionsAndTheirRings := by
  refine fun s hs => ⟨fun r => ⟨fun t ht => ?_, fun hnone => ?_, openQp_eq_none⟩, fun q hq => ⟨exec_cmRtu hs q.num, fun herr => ?_, fun hst => ?_, ?_, ?_⟩, ?_⟩
  · rw [exec_cmReq hs, ht, Option.getD_some]
  · rw [exec_cmReq hs, hnone, Option.getD_none]
  · rw [exec_cmDisconnect hs hq, if_pos herr]
  · rw [exec_cmDisconnect hs hq, if_neg hst]
  · rintro w r _ hw hc hr rfl
    refine ⟨exec_ringMessageWrite_lacks hs hq hw hc hr, fun hn hend hfree => ?_⟩
    have hl : ¬r.lacks w.slot (cdiv w.length r.slotSize) := by
      rintro (h | h | ⟨i, hi, h⟩)
      · exact hn h
      · omega
      · exact hfree i hi h
    refine ⟨fun hright hcode => ?_, fun hright hcode => ?_, exec_ringMessageWrite_misplaced hs hq hw hc hr hl⟩
    · rw [exec_ringMessageWrite_awaited hs hq hw hc hr hl hright, ringTake_waits _ hcode]
    · rw [exec_ringMessageWrite_awaited hs hq hw hc hr hl hright, ringTake_codeless _ hcode]
  · exact fun n hc hmode => exec_sendReceived hs hq hc hmode n
  · rintro r relay m l q _ svc _ hr hheld hq rfl hsvc rfl
    refine ⟨fun hb hroom => ?_, fun hb hroom => ?_, fun hb hroom => ?_, fun v y hb hroom hv hy hfit hone => ?_⟩
    · rw [exec_completionRingWrite hs hr hheld hq hsvc (padded_of_fits hb).symm hr, if_pos ⟨hroom, hb⟩]; rfl
    · rw [exec_completionRingWrite hs hr hheld hq hsvc (padded_of_fits hb).symm hr, if_neg fun h => Nat.not_le.2 hroom h.1]
    · rw [exec_completionRingWrite hs hr hheld hq hsvc (padded_of_full hroom).symm hr, if_neg fun h => Nat.not_le.2 hb h.2]
    · rw [exec_completionRingWrite hs hr hheld hq hsvc (hv.trans (padded_of_wraps hb hroom).symm) hy, if_pos ⟨hfit, hone⟩]; rfl

section
variable {s : State} {q : Qp} (hs : s.serving = true) (hq : s.qp q.num = some q) (hc : q.connected = true)
include hs hq hc

theorem exec_ringConsumerUpdate {n : Nat} (hn : q.compRing = some n) (v : W64) : exec (.ringConsumerUpdate q.num v) s =
    .next ((s.rxPackets q 1).onRing n fun x => { x with consumer := max x.consumer v.toNat }).settle := by
  change execRingConsumerUpdate q.num v s = _
  simp only [execRingConsumerUpdate, event_ok hs, hq, hc, hn, if_true]

end

/-- Settles O31: the greater of two counts is the new one where that is greater. -/
theorem ringSpaceIsTheGreatestReported : Obligations.RingSpaceIsTheGreatestReported := by
  intro s q n v hs hq hc hn
  have hmax : ∀ a b : Nat, max a b = if a < b then b else a := fun a b => by split <;> omega
  simp only [exec_ringConsumerUpdate hs hq hc hn, hmax]

end Sys2Proof.Machine
end

section
/-!
PROOFS. Acknowledgements, retries and the device's reads (R285 to R288, R302), and congestion (R299, R300): one equation for each command on a connected queue pair.
-/
namespace Sys2Proof.Machine

/-- The stage of an increase event, counted from the last stage down or from the first up (R300). -/
theorem rateGain_eq (i f additive hyper : Nat) : (if 2 * f < i then hyper else if f < i then additive else 0) =
    if i ≤ f then 0 else if i ≤ 2 * f then additive else hyper := by
  grind

section
variable {s : State} {q : Qp} (hs : s.serving = true) (hq : s.qp q.num = some q) (hc : q.connected = true)
include hs hq hc

/-! ### Acknowledgements and retries (R285 to R287, R302) -/

theorem exec_ackReceived (k : AckKind) : exec (.ackReceived q.num k) s = .next (State.settle (match k with
    | .ack n => s.ackPackets q n
    | .nakSequence => s.retry q
    | .nakAccess => s.qpError q.num true)) := by
  change execAckReceived q.num k s = _
  cases k <;> simp only [execAckReceived, event_ok hs, hq, hc, Bool.not_true, Bool.false_eq_true, if_false]

theorem exec_ackTimeout (hwait : q.unacked ≠ []) (ht : 4096 * 2 ^ q.param 0x5030 1 ≤ 1000 * (s.us - q.ackUs)) :
    exec (.ackTimeout q.num) s = .next (s.retry q).settle := by
  change execAckTimeout q.num s = _
  have hend : (q.connected && !q.unacked.isEmpty && decide (4096 * 2 ^ q.param 0x5030 1 ≤ 1000 * (s.us - q.ackUs))) = true := by simp [hc, hwait, ht]
  simp only [execAckTimeout, event_ok hs, hq, if_pos hend]

theorem exec_rnrNakReceived : exec (.rnrNakReceived q.num) s =
    .next (if q.param 0x5030 3 ≠ 7 ∧ q.param 0x5030 3 ≤ q.rnrRetries then s.qpError q.num false
      else (s.onQp q.num fun x => { x with rnrRetries := x.rnrRetries + 1, rnrHold := true }).resend q).settle := by
  change execRnrNakReceived q.num s = _
  simp only [execRnrNakReceived, event_ok hs, hq, hc, Bool.not_true, Bool.false_eq_true, if_false, Bool.and_eq_true, decide_eq_true_eq]

theorem exec_nodeReadOrWriteRefused (isRead : Bool) : exec (.nodeReadOrWriteRefused q.num isRead) s =
    .next (if isRead then s.control q.lp (.nakInvalid q.num) else s.refuseAccess q).settle := by
  change execNodeReadOrWriteRefused q.num isRead s = _
  simp only [execNodeReadOrWriteRefused, event_ok hs, hq, hc, Bool.not_true, Bool.false_eq_true, if_false]

theorem exec_ackCoalescingTimeout (hrx : 0 < q.rxUnacked) (hd : s.due (q.rxLastUs + 2) = true) :
    exec (.ackCoalescingTimeout q.num) s = .next (s.sendAck q).settle := by
  change execAckCoalescingTimeout q.num s = _
  have hend : (q.connected && decide (0 < q.rxUnacked) && s.due (q.rxLastUs + 2)) = true := by simp [hc, hrx, hd]
  simp only [execAckCoalescingTimeout, event_ok hs, hq, if_pos hend]

/-! ### Congestion (R299, R300) -/

theorem exec_cePacketReceived : exec (.cePacketReceived q.num) s = .next (if ∃ t, q.cnpUs = some t ∧ s.us < t + q.param 0x5030 6 then s
    else ((s.onQp q.num fun x => { x with cnpUs := some s.us }).control q.lp (.cnp q.num)).bump 0x5002 0x12 q.lp 1).settle := by
  change execCePacketReceived q.num s = _
  cases h : q.cnpUs <;> simp [execCePacketReceived, event_ok hs, hq, hc, h]

theorem exec_cnpReceived : exec (.cnpReceived q.num) s = .next (((s.onQp q.num fun x => { x with
    rt := x.rc, rc := max (q.param 0x5031 8 * 1000000) (x.rc * (131072 - x.alpha) / 131072)
    alpha := (65536 - q.param 0x5031 1) * x.alpha / 65536 + q.param 0x5031 1
    incr := 0, alphaUs := s.us, incrUs := s.us, bytesSince := 0 }).bump 0x5002 0x13 q.lp 1).bump 0x5040 0x0A q.num 1).settle := by
  change execCnpReceived q.num s = _
  simp only [execCnpReceived, event_ok hs, hq, hc, Bool.not_true, Bool.false_eq_true, if_false]

theorem exec_alphaTimerExpiry (hd : s.due (q.alphaUs + q.param 0x5031 2) = true) : exec (.alphaTimerExpiry q.num) s =
    .next (s.onQp q.num fun x => { x with alpha := (65536 - q.param 0x5031 1) * x.alpha / 65536, alphaUs := s.us }).settle := by
  change execAlphaTimerExpiry q.num s = _
  simp only [execAlphaTimerExpiry, event_ok hs, hq, hc, hd, Bool.and_self, if_true]

theorem exec_rateIncreaseEvent (hev : s.due (q.incrUs + q.param 0x5031 3) = true ∨ q.param 0x5031 4 ≤ q.bytesSince) {up rt : Nat}
    (hup : up = if q.incr + 1 ≤ q.param 0x5031 5 then 0 else if q.incr + 1 ≤ 2 * q.param 0x5031 5 then q.param 0x5031 6 else q.param 0x5031 7)
    (hrt : rt = min (q.rt + up * 1000000) (s.lineRate q.lp * 1000000)) : exec (.rateIncreaseEvent q.num) s = .next (s.onQp q.num fun x => { x with
      incr := q.incr + 1, rt := rt, rc := (rt + x.rc) / 2, incrUs := s.us, bytesSince := 0 }).settle := by
  subst hrt hup
  change execRateIncreaseEvent q.num s = _
  have hno : ¬(!q.connected || !(s.due (q.incrUs + q.param 0x5031 3) || decide (q.param 0x5031 4 ≤ q.bytesSince))) = true := by
    rcases hev with h | h <;> simp [hc, h]
  simp only [execRateIncreaseEvent, event_ok hs, hq, if_neg hno, rateGain_eq]

end

/-! ### Reads of the device (R286, R288) -/

theorem exec_rdmaReadComplete {s : State} {r : DevRead} (hs : s.serving = true) (hr : s.net.reads.find? (fun x => x.id == r.id && x.issued) = some r)
    (result : ReadResult) : exec (.rdmaReadComplete r.id result) s = .next (State.settle (match result with
      | .accessError => s.qpError r.qp true
      | .data bs => (s.endRead r).readDone r (bs.take r.len))) := by
  change execRdmaReadComplete r.id result s = _
  cases result <;> simp only [execRdmaReadComplete, event_ok hs, hr]

/-- Settles O32: each command by its equation, a sequence NAK and the ACK timeout by the same retry. -/
theorem acknowledgementsRetriesAndReads : Obligations.AcknowledgementsRetriesAndReads := by
  refine fun s hs => ⟨fun q hq hc => ⟨fun n => exec_ackReceived hs hq hc (.ack n), exec_ackReceived hs hq hc .nakAccess, ?_, exec_rnrNakReceived hs hq hc,
    exec_nodeReadOrWriteRefused hs hq hc true, exec_nodeReadOrWriteRefused hs hq hc false, exec_ackCoalescingTimeout hs hq hc⟩,
    fun r hr => ⟨exec_rdmaReadComplete hs hr .accessError, fun bs => exec_rdmaReadComplete hs hr (.data bs)⟩⟩
  rintro c (rfl | ⟨rfl, hwait, ht⟩)
  · exact exec_ackReceived hs hq hc .nakSequence
  · exact exec_ackTimeout hs hq hc hwait ht

/-- Settles O33: by whether a CNP was sent within the interval. -/
theorem congestionMarksDrawNotifications : Obligations.CongestionMarksDrawNotifications := by
  refine fun s q hs hq hc => ⟨fun hall => ?_, fun t ht hlt => ?_⟩
  · rw [exec_cePacketReceived hs hq hc, if_neg]
    rintro ⟨t, ht, hlt⟩
    exact Nat.not_lt.2 (hall t ht) hlt
  · rw [exec_cePacketReceived hs hq hc, if_pos ⟨t, ht, hlt⟩]

/-- Settles O34: each of the three events by its equation. -/
theorem congestionLimiterRates : Obligations.CongestionLimiterRates :=
  fun _ _ hs hq hc => ⟨exec_cnpReceived hs hq hc, exec_alphaTimerExpiry hs hq hc, fun _ _ hev hup hrt => exec_rateIncreaseEvent hs hq hc hev hup hrt⟩

end Sys2Proof.Machine
end

section
/-!
PROOFS. Logical ports (R277, R279, R301, R303, R403) and their egress (R289, R293, R294): one equation for each event of a port in use.
-/
namespace Sys2Proof.Machine

/-- A loop that acts at one of its elements alone, which it meets once. -/
theorem each_only {α : Type} {l : List α} {a : α} (ha : a ∈ l) (hl : l.Nodup) (s : State) {f : State → α → State} (hid : ∀ b ≠ a, ∀ s, f s b = s) :
    s.each l f = f s a := by
  obtain ⟨l₁, l₂, rfl⟩ := List.append_of_mem ha
  obtain ⟨-, ⟨ha₂, -⟩, hne⟩ : l₁.Nodup ∧ (a ∉ l₂ ∧ l₂.Nodup) ∧ ∀ b ∈ l₁, ∀ c ∈ a :: l₂, b ≠ c := by
    simpa only [List.nodup_append, List.nodup_cons] using hl
  have h₁ : s.each l₁ f = s := each_id l₁ s f fun b hb => hid b (hne b hb a List.mem_cons_self)
  have h₂ : (f s a).each l₂ f = f s a := each_id l₂ (f s a) f fun b hb => hid b fun h => ha₂ (h ▸ hb)
  unfold State.each at *
  rw [List.foldl_append, h₁, List.foldl_cons, h₂]

/-- The bits of an octet that enables one priority. -/
theorem testBit_onePriority {i : Nat} (hi : i < 8) (j : Nat) : (BitVec.ofNat 8 (2 ^ i)).toNat.testBit j = decide (i = j) := by
  rw [BitVec.toNat_ofNat, Nat.mod_eq_of_lt (Nat.pow_lt_pow_right (by omega) hi), Nat.testBit_two_pow]

section
variable {s : State} {p : LogicalPort} (hs : s.serving = true) (hu : s.lpInUse p.num = true) (hp : s.lp p.num = some p)
include hs hu hp

theorem portEvent_ok (run : State → LogicalPort → State) : s.portEvent p.num run = .next (run s p).settle := by
  simp only [State.portEvent, event_ok hs, hu, hp, if_true]

/-! ### Flow control and dropped frames (R279, R301, R303) -/

theorem exec_pfcFrameReceived (pause : BitVec 8) {i : Nat} (hi : i < 8) : exec (.pfcFrameReceived p.num pause (BitVec.ofNat 8 (2 ^ i))) s =
    .next ((s.onLp p.num fun x =>
      if pause.toNat.testBit i then (if x.paused.any (·.1 == i) || x.ignored.contains i then x else { x with paused := sset x.paused i s.us })
      else { x with paused := sdel x.paused i, ignored := x.ignored.filter (· != i) }).bump 0x5002 0x0F p.num 1).settle := by
  change execPfcFrameReceived p.num pause _ s = _
  rw [execPfcFrameReceived, portEvent_ok hs hu hp]
  refine congrArg (fun t : State => Host.Outcome.next (t.bump 0x5002 0x0F p.num 1).settle) ?_
  simp only [testBit_onePriority hi]
  refine (each_only (List.mem_range.2 hi) List.nodup_range s fun j hj t => ?_).trans ?_
  · simp [hj.symm]
  · simp

theorem exec_ingressBufferThreshold (n : Nat) : exec (.ingressBufferThreshold p.num n) s = .next (State.settle (
    if s.rw 0x5002 6 p.num < n ∧ p.xoff = false then (((s.onLp p.num fun x => { x with share := min n 8388608 }).onLp p.num fun x =>
      { x with xoff := true }).control p.num (.pfc p.num (s.rw 0x5010 4 0) true)).bump 0x5002 0x10 p.num 1
    else if n < s.rw 0x5002 7 p.num ∧ p.xoff = true then (((s.onLp p.num fun x => { x with share := min n 8388608 }).onLp p.num fun x =>
      { x with xoff := false }).control p.num (.pfc p.num (s.rw 0x5010 4 0) false)).bump 0x5002 0x10 p.num 1
    else s.onLp p.num fun x => { x with share := min n 8388608 })) := by
  change execIngressBufferThreshold p.num n s = _
  rw [execIngressBufferThreshold, portEvent_ok hs hu hp]
  simp only [Bool.and_eq_true, decide_eq_true_eq, Bool.not_eq_true']

theorem exec_pauseWatchdog {i t : Nat} (ht : p.paused.find? (·.1 == i) = some (i, t)) (hlong : 1000 * s.rw 0x5010 5 0 < s.us - t) :
    exec (.pauseWatchdog p.num i) s = .next (((s.onLp p.num fun x => { x with paused := sdel x.paused i, ignored := x.ignored ++ [i] }).bump
      0x5002 0x11 p.num 1).reportUnit (srcLp p.num) 0x25 0 0).settle := by
  change execPauseWatchdog p.num i s = _
  rw [execPauseWatchdog, portEvent_ok hs hu hp]
  simp only [ht, if_pos hlong]

theorem exec_frameCheckDrop (k : FrameCheck) : exec (.frameCheckDrop p.num k) s = .next (State.settle (match k with
    | .fcs => (s.bump 0x5002 0x0A p.num 1).reportUnit (srcLp p.num) 0x21 0 0
    | .icrc => (s.bump 0x5002 0x0B p.num 1).reportUnit (srcLp p.num) 0x22 0 0)) := by
  change execFrameCheckDrop p.num k s = _
  cases k <;> simp only [execFrameCheckDrop, portEvent_ok hs hu hp]

theorem exec_unsupportedFrameDrop (f : UnsupportedFrame) : exec (.unsupportedFrameDrop p.num f) s = .next (s.bump 0x5002 0x0D p.num 1).settle := by
  change execUnsupportedFrameDrop p.num f s = _
  rw [execUnsupportedFrameDrop, portEvent_ok hs hu hp]
  cases f <;> rfl

/-! ### Egress (R289, R293, R294) -/

theorem exec_egressFrameSend_down (hdown : p.link ≠ 2) : exec (.egressFrameSend p.num) s = .next s.settle := by
  change execEgressFrameSend p.num s = _
  rw [execEgressFrameSend, portEvent_ok hs hu hp, if_pos hdown]

section
variable (hup : p.link = 2)
include hup

theorem exec_egressFrameSend_control {i : Nat} {w : Wire} (hw : s.controlHead p = some (i, w)) : exec (.egressFrameSend p.num) s =
    .next ((s.onLp p.num fun x => { x with control := x.control.eraseIdx i }).emit p.num w).settle := by
  change execEgressFrameSend p.num s = _
  rw [execEgressFrameSend, portEvent_ok hs hu hp]
  simp only [hup, ne_eq, not_true_eq_false, if_false, hw]

section
variable (hnone : s.controlHead p = none) {u : State} (hsub : u = s.each (s.net.egress.filter (·.lp == p.num)) fun s e => s.ensureSub e)
include hnone hsub

theorem exec_egressFrameSend_service {v : Nat} {l : List (Nat × Int)} (hpick : u.pickLevel p = some (v, l)) :
    exec (.egressFrameSend p.num) s = .next (u.sendFrame p v l).settle := by
  subst hsub
  change execEgressFrameSend p.num s = _
  rw [execEgressFrameSend, portEvent_ok hs hu hp]
  simp only [hup, ne_eq, not_true_eq_false, if_false, hnone, hpick]

theorem exec_egressFrameSend_waits (hpick : u.pickLevel p = none) : exec (.egressFrameSend p.num) s = .next (u.markEgress p).settle := by
  subst hsub
  change execEgressFrameSend p.num s = _
  rw [execEgressFrameSend, portEvent_ok hs hu hp]
  simp only [hup, ne_eq, not_true_eq_false, if_false, hnone, hpick]

end

end

end

/-- The control frame chosen stands in the port's control queue at its place, and its priority is not paused (R289). -/
theorem controlHead_spec {s : State} {p : LogicalPort} {i : Nat} {w : Wire} (h : s.controlHead p = some (i, w)) :
    p.control[i]? = some w ∧ ∀ c, s.controlPriority w = some c → ∀ t, (c, t) ∉ p.paused := by
  obtain ⟨x, hx, heq⟩ := Option.map_eq_some_iff.1 h
  obtain ⟨rfl, rfl⟩ := Prod.mk.inj heq
  refine ⟨List.mem_zipIdx_iff_getElem?.1 (List.mem_of_find?_eq_some hx), fun c hc t hpaused => ?_⟩
  have hpass := List.find?_some hx
  simp only [hc, Bool.not_eq_true', List.any_eq_false] at hpass
  exact hpass (c, t) hpaused (beq_self_eq_true c)

/-! ### Training (R277, R403) -/

/-- A port that is not fenced and not being reset trains its logical ports' links up and does no more. -/
theorem exec_linkTrained {s : State} {port : Nat} (hm : s.managed = true) (hfatal : s.dev.phase ≠ .fatal) (hport : s.fenced (srcPort port) = false)
    (hisland : s.fenced (srcIsland (netIsland (port / 2))) = false) (hbridge : port < 2 ∨ s.fenced srcBridge = false)
    (hreset : s.dev.resetInProgress ≠ 5 * 2 ^ 28 + port) : exec (.linkTrained port) s =
      .next (s.each (portLps port) fun s n => s.onLp n fun x => if x.link = 0 || x.link = 1 then { x with link := 2 } else x).settle := by
  change execLinkTrained port s = _
  have hno : ¬(!s.managed || s.dev.phase == .fatal || s.fenced (srcPort port) || s.fenced (srcIsland (netIsland (port / 2)))
      || (decide (2 ≤ port) && s.fenced srcBridge)) = true := by
    have hoff : 2 ≤ port → s.fenced srcBridge = false := fun h => hbridge.resolve_left (by omega)
    simpa [hm, hfatal, hport, hisland] using hoff
  simp only [execLinkTrained, if_neg hno, each_onLp_dev, if_neg hreset]

/-- Settles O35: each event of a port by its equation. -/
theorem portsPauseDropAndTrain : Obligations.PortsPauseDropAndTrain := by
  refine ⟨fun s p hs hu hp => ⟨fun pause _ hi => exec_pfcFrameReceived hs hu hp pause hi, fun n hover hoff => ?_, fun n hunder hon => ?_,
    fun _ _ ht hlong => exec_pauseWatchdog hs hu hp ht hlong, exec_frameCheckDrop hs hu hp .fcs, exec_frameCheckDrop hs hu hp .icrc, exec_unsupportedFrameDrop hs hu hp⟩,
    fun s port hm hfatal hport hisland hbridge hreset => exec_linkTrained hm hfatal hport hisland hbridge hreset⟩
  · rw [exec_ingressBufferThreshold hs hu hp, if_pos ⟨hover, hoff⟩]
  · rw [exec_ingressBufferThreshold hs hu hp, if_neg (by simp [hon]), if_pos ⟨hunder, hon⟩]

/-- Settles O36: by whether the link is up, a control frame may go, and a service has a frame that passes. -/
theorem egressSendsControlFirst : Obligations.EgressSendsControlFirst :=
  fun _ _ hs hu hp => ⟨exec_egressFrameSend_down hs hu hp, fun hup => ⟨
    fun _ _ hw => ⟨exec_egressFrameSend_control hs hu hp hup hw, controlHead_spec hw⟩,
    fun _ hnone hsub => ⟨fun _ _ => exec_egressFrameSend_service hs hu hp hup hnone hsub, exec_egressFrameSend_waits hs hu hp hup hnone hsub⟩⟩⟩

end Sys2Proof.Machine
end

section
/-!
PROOFS. Legal states, accepted commits, and what the data path leaves to management (R308, R309, R340, R345, R357, R407): from what every command keeps
(Laws/Exec.lean).
-/
namespace Sys2Proof.Machine

/-- What every command holds to leads from a legal state to a legal state. -/
theorem Held.legal {s t : State} (h : Held s t) (hs : s.Legal) : t.Legal := ⟨h.wf hs.memory, h.epoch hs.epoch, h.saved hs.saved, h.half hs.half⟩

/-- Settles O57: a step is a command, or a tick, on units as legal as before. -/
theorem everyStepKeepsLegality : Obligations.EveryStepKeepsLegality := by
  intro s t hs h
  obtain ⟨u, hheld, hhbm, hepochs, hclock, hfw, _⟩ := step_held s t h
  exact hheld.legal ⟨hhbm ▸ hs.memory, hepochs ▸ hs.epoch, hclock ▸ hs.saved, hfw ▸ hs.half⟩

/-- Settles O56: nothing is written to HBM yet, epoch 1 and half 0 are active, and no time is saved. -/
theorem resetIsLegal : Obligations.ResetIsLegal :=
  ⟨⟨⟨List.Pairwise.nil, nofun⟩, ⟨le_refl 1, by decide⟩, le_refl 0, by decide⟩, rfl, rfl, rfl⟩

/-- Settles O59: every command that does not configure keeps all of `Kept`. -/
theorem dataPathLeavesManagement : Obligations.DataPathLeavesManagement := by
  intro c s t hc h
  obtain ⟨u, hu, hkept⟩ := exec_kept c s hc
  cases hu.symm.trans h
  exact ⟨hkept.us, hkept.tod, hkept.half, hkept.creds, hkept.sessions, hkept.active, hkept.epoch, hkept.pending⟩

/-- The state in which an accepted commit has taken the shadow set and advanced the epoch, and nothing has followed from it yet (R309, R340). -/
def State.turnedOver (s : State) : State :=
  (s.onObjs fun o => { o with active := o.shadow, prev := o.active, saltsNext := [] }).onEpochs fun e => { e with
    prevOwners := e.slices.map (·.owner), returned := []
    prev := some e.active, active := if 65535 ≤ e.active then 1 else e.active + 1, commitUs := s.us, lastCommitMs := s.ms, accepted := e.accepted + 1 }

/-- What follows from the new set - keys, slices, salts, partitions, epochs of sequences, drains and tables - changes neither set nor epoch again. -/
theorem acceptCommit_kept (s : State) : Kept s.turnedOver s.acceptCommit := by
  unfold State.acceptCommit
  exact (State.writeTables_kept _).after <| (State.drainPages_kept _).after <| (State.drainPeerPages_kept _ _).after <|
    (each_kept fun _ _ => State.drainFixed_kept _ _ _).after <| onSeqs_kept.after <| (each_kept fun _ _ => State.partitionChange_kept _ _ _).after <|
    (each_kept fun _ _ => State.newSalt_kept _ _).after <| (onEpochs_kept rfl).after <| each_kept fun _ _ => State.newKeys_kept _ _

/-- Settles O53: by whether the epoch is the last one, which a legal state does not exceed. -/
theorem commitsAdvanceTheEpoch : Obligations.CommitsAdvanceTheEpoch := by
  intro s hs
  have hkept := acceptCommit_kept s
  have hepoch : s.acceptCommit.epochs.active = if 65535 ≤ s.epochs.active then 1 else s.epochs.active + 1 := hkept.epoch
  have hmost := hs.epoch.2
  refine ⟨hkept.active, hkept.part, fun hlast => ?_, fun hmore => ?_⟩
  · rw [hepoch, if_pos hlast.ge]
  · rw [hepoch, if_neg (by omega)]

end Sys2Proof.Machine
end

section
/-!
PROOFS. Old epochs, draining slices and reservations (R310, R311, R313, R314, R342, R403): one lemma for each way a command can go.
-/
namespace Sys2Proof.Machine

section
variable {s : State} (hs : s.serving = true)
include hs

theorem exec_drainLimitExpiry (hprev : s.epochs.prev.isSome = true) (hdue : s.due (s.epochs.commitUs + 1000 * s.rw 0x6000 5 0) = true) :
    exec .drainLimitExpiry s = .next ((((s.endUnder (fun e => e != s.epochs.active) .staleEpoch).endEpoch).onEpochs fun e =>
      { e with aborted := e.aborted + s.requestsUnder fun e => e != s.epochs.active })).settle := by
  have hgoes : ¬(s.epochs.prev.isNone || !s.due (s.epochs.commitUs + 1000 * s.rw 0x6000 5 0)) = true := by
    simp [hdue, Option.isSome_iff_ne_none.1 hprev]
  change execDrainLimitExpiry s = _
  rw [execDrainLimitExpiry, event_ok hs, if_neg hgoes]

/-- The old epoch ends by itself once nothing of it runs: no request, no table to swap, no slice that drains, no work of a sequence still in it. -/
theorem exec_epochDrainEnd (hprev : s.epochs.prev.isSome = true) (hreqs : s.requestsUnder (fun e => e != s.epochs.active) = 0)
    (htables : ∀ i ∈ s.islands, i.shadowTable = none) (hslices : ∀ x ∈ s.epochs.slices, x.st ≠ .draining)
    (hseqs : ∀ q ∈ s.seqs, q.epoch = s.epochs.active ∨ s.inFlight q.handle true = false) : exec .epochDrainEnd s = .next s.endEpoch.settle := by
  have hno_table : s.islands.any (·.shadowTable.isSome) = false := by simpa using htables
  have hno_drain : s.epochs.slices.any (·.st == .draining) = false := by simpa using hslices
  have hno_work : s.seqs.any (fun q => q.epoch != s.epochs.active && s.inFlight q.handle true) = false := by
    simpa [or_iff_not_imp_left] using hseqs
  change execEpochDrainEnd s = _
  rw [execEpochDrainEnd, event_ok hs, hreqs, hno_table, hno_drain, hno_work, if_neg (by simp [Option.isSome_iff_ne_none.1 hprev])]

theorem exec_sliceDrainDone {n : Nat} {x : Slice} (hx : s.sliceOf n = some x) (hst : x.st = .draining) :
    exec (.sliceDrainDone n) s = .next (if s.sliceBusy n then s.drainPages
      else ((s.endSliceQps n).clearLines n).onEpochs fun e =>
        { e with slices := mapIf (·.num == n) (fun y => { y with st := .zeroing, owner := none }) e.slices }).settle := by
  change execSliceDrainDone n s = _
  simp [execSliceDrainDone, event_ok hs, hx, hst]

/-- A slice zeroed for its move, not for a reset of its partition, is the one's that it joins. -/
theorem exec_zeroingDone {n : Nat} {x : Slice} (hx : s.sliceOf n = some x) (hst : x.st = .zeroing) (hmove : x.forReset = false) :
    exec (.zeroingDone n) s = .next ((((s.zeroSlice n).assignSlice n x.joins).dropUnowned n).writeTables).settle := by
  change execZeroingDone n s = _
  rw [execZeroingDone, event_ok hs]
  cases howner : x.owner <;> simp [hx, hst, hmove, howner]

end

theorem exec_reservationLimitExpiry {s : State} {n t : Nat} (hm : s.managed = true) (hres : s.objs.reservation = some (n, t)) (hdue : s.due t = true) :
    exec .reservationLimitExpiry s = .next (s.onObjs fun o => { o with reservation := none }) := by
  change execReservationLimitExpiry s = _
  simp [execReservationLimitExpiry, hm, hres, hdue]

/-- Settles O44: each command by its lemma. -/
theorem epochsAndSlicesDrain : Obligations.EpochsAndSlicesDrain :=
  ⟨fun _ hs hprev => ⟨exec_drainLimitExpiry hs hprev, exec_epochDrainEnd hs hprev⟩,
    fun _ _ _ hs hx => ⟨exec_sliceDrainDone hs hx, exec_zeroingDone hs hx⟩, fun _ _ _ => exec_reservationLimitExpiry⟩

end Sys2Proof.Machine
end

section
/-!
PROOFS. Rails, temperatures, telemetry and meters, and the end of a firmware hold and of a shutdown (R333, R382, R385, R406, R409, R410, R420 to R422, R431): one
lemma for each way a command can go.
-/
namespace Sys2Proof.Machine

/-- A die's rail is set to `mv`, or stays above it while a clock of the die still waits for it, and is read back for the fastest clocks in use or asked for (R420,
R421, log 163). -/
def State.railTo (s : State) (d mv : Nat) : State :=
  (s.onPower fun p => { p with
    railMv := p.railMv.set d (if s.railHeld d then max (p.railMv.getD d 0) mv else mv), railSetUs := p.railSetUs.set d s.us }).onIslands fun l =>
      mapIf (fun x => islandDie x.num == d) (fun x => { x with railFor := max x.clk (max (x.relock.getD 0) (x.wish.getD 0)) }) l

/-- The congestion level of the interval: 3 with a throttle in it, else by the share of its periods in which work waited (R333). -/
def State.congestionLevel (s : State) : Nat :=
  if s.power.throttledSince ∨ s.throttled then 3 else if s.power.totalPeriods = 0 then 0
  else if s.power.totalPeriods ≤ 10 * s.power.waitedPeriods then 2 else if s.power.totalPeriods ≤ 100 * s.power.waitedPeriods then 1 else 0

section
variable {s : State} (hm : s.managed = true)
include hm

theorem exec_avsRefresh {d n : Nat} (hd : d < 2) (hdie : s.diePresent d = true) (hanswers : s.power.avsFault.contains d = false) :
    exec (.avsRefresh d n) s = .next (s.railTo d (max 650 (min 850 (n + 15)))) := by
  change execAvsRefresh d n s = _
  rw [execAvsRefresh, if_neg (by simp only [hm, hd.not_ge, hdie, hanswers, decide_false, Bool.not_true, Bool.or_self, Bool.false_eq_true, not_false_eq_true])]
  rfl

theorem exec_avsTimeout {d : Nat} (hd : d < 2) (hdie : s.diePresent d = true) : exec (.avsTimeout d) s =
    .next ((s.onPower fun p => { p with avsFault := insNat p.avsFault d, avsOkSince := s.us }).noteThrottle).settle := by
  change execAvsTimeout d s = _
  rw [execAvsTimeout, if_neg (by simp [hm, hd.not_ge, hdie])]

theorem exec_thermalSample {r : ThermalReading} (hsensor : s.sensorPresent r.sensor = true) :
    exec (.thermalSample r) s = .next (s.takeReading r.sensor r.deciC).settle := by
  change execThermalSample r s = _
  rw [execThermalSample, if_pos (by rw [hm, hsensor]; rfl)]

/-- While both regulators answer, what they report is taken over (R382). -/
theorem exec_telemetryRefresh_answering {t : Telemetry} (hfault : s.power.avsFault = []) :
    exec (.telemetryRefresh t) s = .next (s.onPower fun p => { p with telemetry := t, energyJ := p.energyJ + t.energyJ }) := by
  change execTelemetryRefresh t s = _
  simp [execTelemetryRefresh, hm, State.onPower, hfault]

/-- While one does not, only the temperatures, which need no regulator, are (R422). -/
theorem exec_telemetryRefresh_silent {t : Telemetry} (hfault : s.power.avsFault ≠ []) : exec (.telemetryRefresh t) s = .next (s.onPower fun p =>
    { p with telemetry := { p.telemetry with dieTemps := t.dieTemps, stackTemp := t.stackTemp } }) := by
  change execTelemetryRefresh t s = _
  simp [execTelemetryRefresh, hm, State.onPower, hfault]

theorem exec_congestionLevelUpdate (hdue : s.due (s.power.congestionUs + 10000) = true) : exec .congestionLevelUpdate s = .next (s.onPower fun p =>
    { p with congestion := s.congestionLevel, congestionUs := s.us, throttledSince := false, waitedPeriods := 0, totalPeriods := 0 }) := by
  change execCongestionLevelUpdate s = _
  simp [execCongestionLevelUpdate, hm, hdue, State.onPower, State.congestionLevel]

theorem exec_meterSave (hdue : s.meters.lastSave + 60000 ≤ s.ms) :
    exec .meterSave s = .next (s.onMeters fun m => { m with saved := m.live, lastSave := s.ms }) := by
  change execMeterSave s = _
  rw [execMeterSave, if_pos (by simp [hm, hdue])]

end

/-- Between two saves nothing is saved (R385). -/
theorem exec_meterSave_early {s : State} (hearly : s.ms < s.meters.lastSave + 60000) : exec .meterSave s = .next s := by
  change execMeterSave s = _
  rw [execMeterSave, if_neg (by simp [hearly.not_ge])]

/-- A firmware hold ends at its limit, or once no request is left: what still runs ends, the timers go on, and the new image is in use or has failed (R409, R410). -/
theorem exec_firmwareHoldLimitExpiry {s u : State} {t : Nat} {r : SwitchReport} (hm : s.managed = true ∨ s.dev.phase = .awaitingImage)
    (hhold : s.fw.hold = some (t, r)) (hend : s.due (t + 5010 + 1000 * s.rw 0x7840 7 0) = true ∨ s.requestsLeft = false)
    (hu : u = (s.endRequests.resumeTimers (s.us - t)).onFw fun f => { f with hold := none }) : exec .firmwareHoldLimitExpiry s =
      .next (if r.loaded ∧ r.measured then u.onFw fun f =>
        { f with active := 1 - f.active, pending := 0, pendingVersion := 0, image := [], lastMs := r.durationMs } else u.imageFails).settle := by
  have hruns : ¬(!s.managed && s.dev.phase != .awaitingImage) = true := by simpa [or_iff_not_imp_left] using hm
  have hends : ¬(!s.due (t + 5010 + 1000 * s.rw 0x7840 7 0) && s.requestsLeft) = true := by simpa [or_iff_not_imp_left] using hend
  rw [hu]
  change execFirmwareHoldLimitExpiry s = _
  simp only [execFirmwareHoldLimitExpiry, if_neg hruns, hhold, if_neg hends]
  simp only [Bool.and_eq_true]

/-- A shutdown ends a second after its request, or once no request is left: the flash islands are saved, then the records, and the data path idles (R406). -/
theorem exec_shutdownRequestTimeout {s u : State} {t : Nat} (hs : s.serving = true) (hat : s.dev.shutdownAt = some t)
    (hend : s.due (t + 1000000) = true ∨ s.requestsLeft = false)
    (hu : u = s.endRequests.each ((List.range (flashIslandCount s.endRequests.dev.part)).filter s.endRequests.takesPrograms) fun s i => s.fullCheckpoint i) :
    exec .shutdownRequestTimeout s = .next (u.saveAll.onDev fun d => { d with phase := .shutDown }).settle := by
  have hends : ¬(!s.due (t + 1000000) && s.requestsLeft) = true := by simpa [or_iff_not_imp_left] using hend
  change execShutdownRequestTimeout s = _
  rw [execShutdownRequestTimeout, event_ok hs, hu]
  simp only [hat, if_neg hends]

/-- Settles O40: each command by its lemma. -/
theorem samplesHoldsAndShutdown : Obligations.SamplesHoldsAndShutdown := by
  refine fun s => ⟨fun hm => ⟨?_, fun _ => exec_avsTimeout hm, fun _ => exec_thermalSample hm, fun _ => exec_telemetryRefresh_answering hm,
    fun _ => exec_telemetryRefresh_silent hm, ?_, exec_meterSave hm, exec_meterSave_early⟩,
    fun _ _ hm hhold hend _ hu => exec_firmwareHoldLimitExpiry hm hhold hend hu, fun _ _ hs hat hend hu => exec_shutdownRequestTimeout hs hat hend hu⟩
  · rintro d n _ hd hdie hanswers rfl
    exact exec_avsRefresh hm hd hdie hanswers
  · rintro _ hdue rfl
    exact exec_congestionLevelUpdate hm hdue

end Sys2Proof.Machine
end

section
/-!
PROOFS. Attestation sessions, tenant key records and peer links (R325 to R330): one lemma for each way a message can go, and one for each command.
-/
namespace Sys2Proof.Machine

/-- The state in which a session's next message has been taken in: counted, and the session's idle time begun anew (R327). -/
def State.attHeard (s : State) (a : AttSession) : State := s.onAtt a.num fun x => { x with inCount := x.inCount + 1, lastUs := s.us }

section
variable {s : State} {a : AttSession}

/-- A well-formed HELLO opens a slot on which no session is under way (Table 10-10). -/
theorem attHello_opens (ha : s.att a.num = some a) {kind p : Nat} {nonce ek : List Byte} (hhold : s.fw.hold = none) (hfinish : a.st ≠ .awaitFinish)
    (hopen : a.st ≠ .open_) (hnonce : nonce.length = 32) (hek : ek.length = if kind = 2 then 0 else 1184) (hp : p ≤ 63) :
    s.attHello a.num kind p nonce ek = (.ok, s.openAtt a.num kind p nonce ek) := by
  simp [State.attHello, ha, hhold, hfinish, hopen, hnonce, hek, hp]

/-- A tenant key session opens with a signature that holds, where a key authority is set. -/
theorem attFinish_tenantKeys {ok : Bool} {hash : List Byte} (hst : a.st = .awaitFinish) (hkind : a.kind = 0) : s.attFinish a true ok hash =
    if ok = true ∧ s.keyAuthority a.part ≠ 0 then ((s.attHeard a).attDone a .ok).onAtt a.num fun x => { x with st := .open_ }
    else ((s.attHeard a).attDone a .accessDenied).failAtt a.num := by
  simp [State.attFinish, hst, hkind, State.attHeard]

/-- A pairing with an allowed peer keys the peer link (R329). -/
theorem attFinish_pairs {hash : List Byte} {n : Nat} (hst : a.st = .awaitFinish) (hkind : a.kind = 1) (hpeer : s.allowedPeer hash = some n) :
    s.attFinish a true true hash = (((s.attHeard a).attDone a .ok).onAtt a.num fun x => { x with st := .open_ }).keyPeer n a := by
  simp [State.attFinish, hst, hkind, hpeer, State.attHeard]

theorem attFinish_refused {ok : Bool} {hash : List Byte} (hst : a.st = .awaitFinish) (hkind : a.kind = 1) (hno : ok = false ∨ s.allowedPeer hash = none) :
    s.attFinish a true ok hash = ((s.attHeard a).attDone a .accessDenied).failAtt a.num := by
  have hpeer : (if ok then s.allowedPeer hash else none) = none := by rcases hno with h | h <;> simp [h]
  simp [State.attFinish, hst, hkind, hpeer, State.attHeard]

/-- A record in an open tenant key session runs, and its reply says what came of it (R328). -/
theorem keyRecord_runs (ha : s.att a.num = some a) {k : KeyRecord} (hslot : k.slot = a.num) (hst : a.st = .open_) (hopens : k.opens = true)
    (hkey : k.key.length = 32) (hkind : a.kind = 0) {run : State → AttSession → Status × State} {r : Status × State} (hr : run (s.attHeard a) a = r) :
    s.keyRecord k run = r.2.keyReply a k.tenant.toNat r.1 := by
  subst hr
  simp [State.keyRecord, hslot, ha, hst, hopens, hkey, hkind, State.attHeard]

end

section
variable {s : State} {a : AttSession} (hm : s.managed = true) (ha : s.att a.num = some a)
include hm ha

section
variable {p : Byte} {nonce ek : List Byte} (hhold : s.fw.hold = none) (hfinish : a.st ≠ .awaitFinish) (hopen : a.st ≠ .open_) (hnonce : nonce.length = 32)
  (hp : p.toNat ≤ 63)
include hhold hfinish hopen hnonce hp

theorem exec_attestHelloTenantKeys (hek : ek.length = 1184) :
    exec (.attestHelloTenantKeys a.num p nonce ek) s = .next (s.openAtt a.num 0 p.toNat nonce ek) := by
  change execAttestHelloTenantKeys a.num p nonce ek s = _
  rw [execAttestHelloTenantKeys, if_pos hm, attHello_opens ha hhold hfinish hopen hnonce hek hp]

theorem exec_attestHelloPeerPairing (hek : ek.length = 1184) :
    exec (.attestHelloPeerPairing a.num p nonce ek) s = .next (s.openAtt a.num 1 p.toNat nonce ek) := by
  change execAttestHelloPeerPairing a.num p nonce ek s = _
  rw [execAttestHelloPeerPairing, if_pos hm, attHello_opens ha hhold hfinish hopen hnonce hek hp]

theorem exec_attestHelloReportOnly : exec (.attestHelloReportOnly a.num p nonce) s = .next (s.openAtt a.num 2 p.toNat nonce []) := by
  change execAttestHelloReportOnly a.num p nonce s = _
  rw [execAttestHelloReportOnly, if_pos hm, attHello_opens ha hhold hfinish hopen hnonce rfl hp]

end

theorem exec_attestFinish {ok : Bool} {hash : List Byte} : exec (.attestFinish a.num true ok hash) s = .next (s.attFinish a true ok hash).settle := by
  change execAttestFinish a.num true ok hash s = _
  simp only [execAttestFinish, hm, ha, Bool.not_true, Bool.false_eq_true, if_false]

section
variable {k : KeyRecord} (hslot : k.slot = a.num) (hst : a.st = .open_) (hopens : k.opens = true) (hkey : k.key.length = 32) (hkind : a.kind = 0)
include hslot hst hopens hkey hkind

theorem exec_tenantKeyRelease {r : Status × State} (hr : (s.attHeard a).releaseKey a.part k.tenant.toNat k.keyId.toNat k.key = r) :
    exec (.tenantKeyRelease k) s = .next (r.2.keyReply a k.tenant.toNat r.1).settle := by
  change execTenantKeyRelease k s = _
  rw [execTenantKeyRelease, if_pos hm, keyRecord_runs ha hslot hst hopens hkey hkind hr]

theorem exec_tenantKeyErase {r : Status × State} (hr : (s.attHeard a).beginErase a.part k.tenant.toNat k.keyId.toNat = r) :
    exec (.tenantKeyErase k) s = .next (r.2.keyReply a k.tenant.toNat r.1).settle := by
  change execTenantKeyErase k s = _
  rw [execTenantKeyErase, if_pos hm, keyRecord_runs ha hslot hst hopens hkey hkind hr]

theorem exec_tenantKeyQuery : exec (.tenantKeyQuery k) s = .next ((s.attHeard a).keyReply a k.tenant.toNat .ok).settle := by
  change execTenantKeyQuery k s = _
  rw [execTenantKeyQuery, if_pos hm, keyRecord_runs ha hslot hst hopens hkey hkind rfl]

end

theorem exec_pairingDeviceReceived {ok : Bool} {hash : List Byte} (hhold : s.fw.hold = none) :
    exec (.pairingDeviceReceived a.num ok hash) s = .next (s.pairingAnswered a ok hash).settle := by
  change execPairingDeviceReceived a.num ok hash s = _
  simp [execPairingDeviceReceived, hm, ha, hhold]

end

theorem exec_attestClose {s : State} {n : Nat} (hm : s.managed = true) : exec (.attestClose n) s = .next (s.closeAtt (·.num == n)) := by
  change execAttestClose n s = _
  rw [execAttestClose, if_pos hm]

theorem exec_attestSessionIdleTimeout {s : State} {n : Nat} (hm : s.managed = true) : exec (.attestSessionIdleTimeout n) s =
    .next (s.closeAtt fun y => y.num == n && s.due (y.lastUs + 1000000 * s.rw 0x6040 7 0)) := by
  change execAttestSessionIdleTimeout n s = _
  rw [execAttestSessionIdleTimeout, if_pos hm]

/-- A peer link whose key has served its images or its day is paired anew, in the lowest slot without a session (R330). -/
theorem exec_peerLinkRekey {s : State} {a : AttSession} {l : PeerLink} {p : Nat} (hs : s.serving = true)
    (hl : s.sec.links.find? (fun l => l.peer == p && l.st == 2) = some l)
    (ha : s.sec.sessions.find? (fun y => y.st == .closed || y.st == .failed) = some a)
    (hold : 2 ^ 32 ≤ l.counter ∨ s.due (l.sinceUs + 86400000000) = true) : exec (.peerLinkRekey p) s =
      .next ((s.placeHello a.num).onSec fun x => { x with links := mapIf (·.peer == p) (fun y => { y with st := 1 }) x.links }).settle := by
  have hserved : ¬(decide (l.counter < 2 ^ 32) && !s.due (l.sinceUs + 86400000000)) = true := by
    rcases hold with h | h
    · rw [decide_eq_false h.not_gt]
      exact Bool.false_ne_true
    · simp [h]
  change execPeerLinkRekey p s = _
  simp only [execPeerLinkRekey, event_ok hs, hl, ha, if_neg hserved]

/-- Settles O49: each command by its lemma, a FINISH by the kind of its session. -/
theorem attestationAndTenantKeys : Obligations.AttestationAndTenantKeys := by
  refine fun s a hm ha => ⟨fun p nonce ek hhold hfinish hopen hnonce hp => ⟨fun hek => ?_, ?_⟩, ?_, ?_,
    fun ok hash => exec_pairingDeviceReceived hm ha, exec_attestClose hm, exec_attestSessionIdleTimeout hm, fun l p => exec_peerLinkRekey⟩
  · exact ⟨exec_attestHelloTenantKeys hm ha hhold hfinish hopen hnonce hp hek, exec_attestHelloPeerPairing hm ha hhold hfinish hopen hnonce hp hek⟩
  · exact exec_attestHelloReportOnly hm ha hhold hfinish hopen hnonce hp
  · rintro ok hash _ hst rfl
    rw [exec_attestFinish hm ha]
    refine ⟨fun hkind => ?_, ?_, fun hkind hno => ?_⟩
    · rw [attFinish_tenantKeys hst hkind]; rfl
    · rintro n hkind rfl hpeer
      rw [attFinish_pairs hst hkind hpeer]; rfl
    · rw [attFinish_refused hst hkind hno]; rfl
  · rintro k _ hslot hst hopens hkey hkind rfl
    exact ⟨fun r hr => exec_tenantKeyRelease hm ha hslot hst hopens hkey hkind hr, fun r hr => exec_tenantKeyErase hm ha hslot hst hopens hkey hkind hr,
      exec_tenantKeyQuery hm ha hslot hst hopens hkey hkind⟩

end Sys2Proof.Machine
end

section
/-!
PROOFS. Credentials and the last administrator (R346, log 72): what a write of a credential slot comes to, by who writes and by whether an administrator can get
in.
-/
namespace Sys2Proof.Machine

variable {s : State} {k n : Nat} {f : Cred → Cred} {closes : Bool} {c : Cred}

theorem writeCred_session_lastAdministrator (hg : s.guarded = true) (hnone : (mapIf (·.num == n) f s.mgmt.creds).any Cred.admin = false) :
    s.writeCred (.session k) n f closes = (.lastAdministrator, s) := by
  have hhad : s.mgmt.creds.any Cred.admin = true := hg
  simp [State.writeCred, hhad, hnone]

/-- A write that leaves an administrator is taken, and closes the sessions of its slot where the field says so. -/
theorem writeCred_session_ok (hg : s.guarded = true) (hleft : (mapIf (·.num == n) f s.mgmt.creds).any Cred.admin = true) :
    s.writeCred (.session k) n f true =
      (.ok, (s.onMgmt fun m => { m with creds := mapIf (·.num == n) f m.creds }).closeSessions (·.cred == n) true) := by
  have hhad : s.mgmt.creds.any Cred.admin = true := hg
  simp [State.writeCred, hhad, hleft]

theorem writeCred_session_unguarded (hg : s.guarded = false) : s.writeCred (.session k) n f closes = (.accessDenied, s) := by
  have hhad : s.mgmt.creds.any Cred.admin = false := hg
  simp [State.writeCred, hhad]

theorem writeCred_i3c_guarded (hg : s.guarded = true) : s.writeCred .i3c n f closes = (.accessDenied, s) := by
  have hhad : s.mgmt.creds.any Cred.admin = true := hg
  simp only [State.writeCred, hhad, Bool.true_or, if_true]

/-- Without an administrator, I3C writes a slot if it holds no key. -/
theorem writeCred_i3c_unguarded (hg : s.guarded = false) (hc : s.credOf n = some c) : s.writeCred .i3c n f closes =
    if c.key.any (· != 0) then (.accessDenied, s) else (.ok, s.onMgmt fun m => { m with creds := mapIf (·.num == n) f m.creds }) := by
  have hhad : s.mgmt.creds.any Cred.admin = false := hg
  have hempty : (!c.key.all (· == 0)) = c.key.any (· != 0) := List.not_all_eq_any_not
  simp only [State.writeCred, hhad, hc, Option.map_some, Option.getD_some, Bool.false_or, hempty, if_true]

/-- No step takes the last administrator away: every command holds to what `Held.admin` says. -/
theorem step_keeps_guarded {t : State} (hg : s.guarded = true) (h : step s = .next t) : t.guarded = true := by
  obtain ⟨u, hheld, _, _, _, _, hmgmt⟩ := step_held s t h
  exact hheld.admin (hmgmt ▸ hg)

/-- Settles O58: a write of a slot by its lemma, and a step by what every command holds to. -/
theorem administratorKept : Obligations.AdministratorKept := by
  refine ⟨fun s k n f closes => ⟨writeCred_session_lastAdministrator, writeCred_session_unguarded, writeCred_i3c_guarded, fun c hg hc => ?_⟩,
    fun _ _ => step_keeps_guarded⟩
  rw [writeCred_i3c_unguarded hg hc]
  exact ⟨fun hkey => if_pos hkey, fun hempty => if_neg (by rw [hempty]; exact Bool.false_ne_true)⟩

end Sys2Proof.Machine
end

section
/-!
PROOFS. Management handshakes and sessions (R345, R348, R350 to R352, logs 132 and 133): one lemma for each way a command can go.
-/
namespace Sys2Proof.Machine

variable {s u : State}

theorem portServes_of_portOpen (ho : s.portOpen = true) : s.portServes = true := (Bool.and_eq_true_iff.1 ho).1

section
variable {id : W64} {n : Byte} {nonce ek : List Byte} {a : Nat} (ho : s.portOpen = true) (hu : u = s.bump 0x1200 0x0C 0 1)
  (hnonce : nonce.length = 32) (hek : ek.length = 1184) (hn : n.toNat ≤ 7)
include ho hu hnonce hek hn

/-- A HELLO repeated draws the DEVICE it drew before (R350). -/
theorem exec_mgmtHello_repeated {h : Handshake} (hh : u.mgmt.handshakes.find? (·.id == id.toNat) = some h)
    (hsame : h.hello = mgmtHelloBytes n.toNat nonce ek) :
    exec (.mgmtHello id n nonce ek a) s = .next (u.onMgmt fun m => { m with out := m.out ++ [.device id.toNat h.device] }) := by
  subst hu
  change execMgmtHello id n nonce ek a s = _
  simp [execMgmtHello, ho, hnonce, hek, hn.not_gt, hh, hsame]

/-- A new HELLO draws DEVICE where there is room for a handshake and a session (R350, R351). -/
theorem exec_mgmtHello_new (hnone : u.mgmt.handshakes.find? (·.id == id.toNat) = none) : exec (.mgmtHello id n nonce ek a) s =
    .next (if 4 ≤ u.mgmt.handshakes.length ∨ 8 ≤ u.mgmt.sessions.length then u.onMgmt fun m => { m with out := m.out ++ [.error id.toNat .retryLater 1 0] }
      else u.sendDevice id.toNat n.toNat (mgmtHelloBytes n.toNat nonce ek) ek a) := by
  subst hu
  change execMgmtHello id n nonce ek a s = _
  simp [execMgmtHello, ho, hnonce, hek, hn.not_gt, hnone]

end

section
variable {id : W64} {ok : Bool} {h : Handshake} {c : Cred} (ho : s.portOpen = true)
  (hh : (s.bump 0x1200 0x0C 0 3).mgmt.handshakes.find? (·.id == id.toNat) = some h)
  (hu : u = (s.bump 0x1200 0x0C 0 3).onMgmt fun m => { m with handshakes := m.handshakes.filter (·.id != h.id) }) (hc : u.credOf h.slot = some c)
include ho hh hu hc

/-- A FINISH ends its handshake, and by its slot opens a session or is refused (R345, R348, R350). -/
theorem exec_mgmtFinish : exec (.mgmtFinish id ok) s = .next (if u.fw.hold.isSome then u.refuseSession h .attestPending
    else if !u.slotUsable c || c.lockUs.isSome || !ok then (u.failAuth c).refuseSession h .accessDenied
    else u.freeSession.elim (u.refuseSession h .retryLater) (u.openSession h c)) := by
  change execMgmtFinish id ok s = _
  simp only [execMgmtFinish, ho, hh, ← hu, hc, Bool.not_true, Bool.false_eq_true, if_false]
  cases u.freeSession <;> rfl

end

theorem exec_mgmtHandshakeTimeout {id : W64} (hserves : s.portServes = true) : exec (.mgmtHandshakeTimeout id) s = .next (s.onMgmt fun m => { m with
    handshakes := m.handshakes.filter fun h => !(h.id == id.toNat && s.due (h.startUs + 1000 * s.rw 0x1201 2 0)) }) := by
  change execMgmtHandshakeTimeout id s = _
  rw [execMgmtHandshakeTimeout, if_pos hserves]

theorem exec_mgmtSessionIdleTimeout {n : Nat} (hserves : s.portServes = true) : exec (.mgmtSessionIdleTimeout n) s = .next (s.closeSessions (fun x =>
    x.slot == n && (s.due (x.lastUs + 1000000 * s.rw 0x1201 1 0) || s.due (x.openedUs + 86400000000))) true) := by
  change execMgmtSessionIdleTimeout n s = _
  rw [execMgmtSessionIdleTimeout, if_pos hserves]

theorem credOf_onCred {f : Cred → Cred} (hf : ∀ c, (f c).num = c.num) (n : Nat) : (s.onCred n f).credOf n = (s.credOf n).map f :=
  find_mapIf_self Cred.num f hf n _

/-- A lockout that has ended leaves its slot unlocked, its failures forgotten (R348). -/
theorem exec_slotLockoutEnd {c : Cred} {t : Nat} (hc : s.credOf c.num = some c) (ht : c.lockUs = some t) (hdue : s.due t = true) :
    ∃ v, exec (.slotLockoutEnd c.num) s = .next v ∧ v.credOf c.num = some { c with lockUs := none, recent := [] } := by
  refine ⟨_, rfl, ?_⟩
  rw [credOf_onCred, hc]
  · simp [ht, hdue]
  · intro d
    split
    · split <;> rfl
    · rfl

/-- A CLOSE ends the client's own session, which the device then need not tell it of (R352). -/
theorem exec_mgmtClose {g : Mgmt} {x : Session} (hserves : s.portServes = true) (hx : s.mgmt.sessions.find? (·.id == g.session.toNat) = some x)
    (hopens : g.opens = true) (hcounter : x.inCounter ≤ g.counter) :
    exec (.mgmtClose g) s = .next ((s.framed x g).closeSessions (·.id == x.id) false) := by
  change s.sessionFrame g (fun s x => s.closeSessions (·.id == x.id) false) = _
  exact frame_ok hserves hx hopens hcounter _

/-- Settles O45: each command by its lemma, a FINISH by what it finds of its slot. -/
theorem sessionsOpenAndClose : Obligations.SessionsOpenAndClose := by
  refine fun s u ho => ⟨fun id n nonce ek a hu hnonce hek hn => ⟨fun h => exec_mgmtHello_repeated ho hu hnonce hek hn,
    exec_mgmtHello_new ho hu hnonce hek hn⟩, fun id ok h c n hh hu hc => ?_, fun id => exec_mgmtHandshakeTimeout (portServes_of_portOpen ho),
    fun n => exec_mgmtSessionIdleTimeout (portServes_of_portOpen ho), fun c t => exec_slotLockoutEnd, fun g x => exec_mgmtClose (portServes_of_portOpen ho)⟩
  rw [exec_mgmtFinish ho hh hu hc]
  refine ⟨fun hhold => by rw [if_pos hhold], fun hhold hno => ?_, fun hhold husable hlock hok hfree => ?_⟩
  · have hrefused : (!u.slotUsable c || c.lockUs.isSome || !ok) = true := by simpa [or_assoc] using hno
    rw [if_neg (by simp [hhold]), if_pos hrefused]
  · rw [if_neg (by simp [hhold]), if_neg (by simp [husable, hlock, hok]), hfree, Option.elim_some]

end Sys2Proof.Machine
end

section
/-!
PROOFS. A management request that is new, repeated, or too old (R354).
-/
namespace Sys2Proof.Machine

section
variable {s : State} {g : Mgmt} {x : Session} (hserves : s.portServes = true) (hx : s.mgmt.sessions.find? (·.id == g.session.toNat) = some x)
  (hopens : g.opens = true) (hcounter : x.inCounter ≤ g.counter)
include hserves hx hopens hcounter

/-- A request whose number has been answered draws the kept reply, and nothing runs. -/
theorem mgmtRequest_repeated {b : ReplyBody} (hkept : x.replies.find? (fun r => r.1 == g.request) = some (g.request, b)) (run : State → Via → Executed) :
    s.mgmtRequest g run = .next ((s.framed x g).sendReply x b) := by
  rw [State.mgmtRequest, frame_ok hserves hx hopens hcounter]
  simp only [hkept]

/-- A request with a number lower than all 16 kept is dropped. -/
theorem mgmtRequest_tooOld (hnone : x.replies.find? (fun r => r.1 == g.request) = none) (hfull : 16 ≤ x.replies.length)
    (hlower : x.replies.all (fun r => g.request < r.1) = true) (run : State → Via → Executed) : s.mgmtRequest g run = .next (s.framed x g) := by
  rw [State.mgmtRequest, frame_ok hserves hx hopens hcounter]
  simp only [hnone, hfull, hlower, decide_true, Bool.and_self, if_true]

end

/-- Settles O46: reads, writes and block reads are all requests, and a request is repeated, too old, or new. -/
theorem repliesAreKeptAndNotExecutedAgain : Obligations.RepliesAreKeptAndNotExecutedAgain := by
  intro s g x l i n hserves hx hopens hcounter c hc
  obtain ⟨run, hexec, hrun⟩ : ∃ run, exec c.1 s = s.mgmtRequest g run ∧ ∀ u, c.2 u = run u (.session x.slot) := by
    simp only [List.mem_cons, List.not_mem_nil, or_false] at hc
    rcases hc with rfl | rfl | rfl <;> exact ⟨_, rfl, fun _ => rfl⟩
  rw [hexec]
  refine ⟨fun b hkept => mgmtRequest_repeated hserves hx hopens hcounter hkept run,
    fun hnone hfull hlower => mgmtRequest_tooOld hserves hx hopens hcounter hnone hfull hlower run, ?_⟩
  rintro ht r rfl
  rw [takes_ok ht, hrun]

end Sys2Proof.Machine
end

section
/-!
PROOFS. Administrators' commands on the dictionary itself: commits, the shadow set, time, credentials, sessions, windows and clusters (R79, R340 to R345, R352,
R357, R385, R398).
-/
namespace Sys2Proof.Machine

variable {s b : State} {x : Session} {g : Mgmt} {n : Nat}

/-! ### Commits and the shadow set (R340, R342, R343) -/

/-- TRUE written to one of the map's two commands, commit and discard, is answered with what the command comes to. -/
theorem writeTrue_mapCommand {sub : Nat} {name : String} {o : Outside} {t : DStatus} {u : State} (h : s.Manages x g b 0x1100 sub 0)
    (hr : objRow 0x1100 sub = some ⟨0x1100, 1, sub, 1, 7, 1, .wo, 0, 0, 1, [], name⟩) (hsub : sub < 4)
    (hp : b.pull (.session x.slot) o 0x1100 sub 0 = (t, u)) : s.writeOne g o 0x1100 sub [1] = .next (u.answered x g (t, [Record.only t sub 7])) := by
  have hput : b.putNumber (.session x.slot) o ⟨0x1100, 1, sub, 1, 7, 1, .wo, 0, 0, 1, [], name⟩ 0x1100 sub 0 1 = (t, u) := by
    simp [State.putNumber, selectorsOf, h.present, hsub.ne, hp]
  exact manage_ok h o [1] _ hr ⟨nofun, nofun⟩ (by simp [mayWriteField, selectorsOf]) ⟨nofun, nofun⟩ rfl (by decide) (by omega) (show 1 ≤ 8 by decide) 1 rfl
    (inRange_row ⟨Nat.zero_le _, le_rfl⟩ (by simp)) t u hput

theorem commitVia_accepted (hrole : b.roleOf (.session n) = 0) (hfree : b.reserved (.session n) = false) (hhold : b.fw.hold = none)
    (hcheck : b.checkCommit = none) : b.commitVia (.session n) = (.ok, b.acceptCommit.settle.onSession n fun y => { y with lastCommit := .ok }) := by
  simp [State.commitVia, hrole, hfree, State.commit, hhold, hcheck]

theorem commitVia_refused {k d : Nat} {st : DStatus} (hrole : b.roleOf (.session n) = 0) (hfree : b.reserved (.session n) = false) (hhold : b.fw.hold = none)
    (hcheck : b.checkCommit = some (k, d)) (hst : st = if k = 1 then DStatus.commitBusy else .commitRefused) : b.commitVia (.session n) =
      (st, (b.onEpochs fun e => { e with refuseReason := k, refuseDetail := d }).onSession n fun y => { y with lastCommit := st }) := by
  subst hst
  simp [State.commitVia, hrole, hfree, State.commit, hhold, hcheck]

/-- A commit by operation 4 answers no record, one by a write its record. -/
theorem exec_commit {t : DStatus} {u : State} (h : s.Manages x g b 0x1100 1 0) (hu : b.commitVia (.session x.slot) = (t, u)) (byOp : Bool) :
    exec (.commit g byOp 1) s = .next (u.answered x g (t, if byOp then [] else [Record.only t 1 7])) := by
  cases byOp with
  | true =>
    change s.mgmtRequest g (fun s v => s.opCommit v) = _
    have hreach : b.reaches (.session x.slot) 0x1100 1 = true := by simp [State.reaches, h.managed]
    rw [takes_ok h.takes, h.begun, State.opCommit, if_pos hreach, hu]
    rfl
  | false => exact writeTrue_mapCommand h row_1100_1 (by decide) hu

theorem exec_discardShadow (h : s.Manages x g b 0x1100 2 0) (hfree : b.reserved (.session x.slot) = false) :
    exec (.discardShadow g 1) s = .next ((b.onObjs fun o => { o with shadow := o.active, saltsNext := [] }).wroteOk x g 0x1100 2) :=
  writeTrue_pulls h row_1100_2 rfl (by simp [State.pull, hfree, State.discard])

theorem exec_discardShadow_reserved (h : s.Manages x g b 0x1100 2 0) (hheld : b.reserved (.session x.slot) = true) :
    exec (.discardShadow g 1) s = .next (b.answered x g (.shadowReserved, [Record.only .shadowReserved 2 7])) :=
  writeTrue_mapCommand h row_1100_2 (by decide) (by simp [State.pull, hheld])

theorem exec_shadowReservation_release (h : s.Manages x g b 0x1100 4 0) (hfree : b.reserved (.session x.slot) = false) :
    exec (.shadowReservation g 0xFF) s = .next ((b.onObjs fun o => { o with reservation := none }).wroteOk x g 0x1100 4) :=
  manage_wrote h _ [0xFF] _ row_1100_4 255 rfl (by decide) rfl (by simp [State.inRange]) _
    (by simp [State.putNumber, selectorsOf, h.present, State.reserve, hfree])

theorem exec_shadowReservation_take (h : s.Manages x g b 0x1100 4 0) (hfree : b.reserved (.session x.slot) = false) (hslot : x.slot < 8) :
    exec (.shadowReservation g (BitVec.ofNat 8 x.slot)) s =
      .next ((b.onObjs fun o => { o with reservation := some (x.slot, b.us + 1000000 * b.rw 0x1201 6 0) }).wroteOk x g 0x1100 4) :=
  manage_wrote h _ [BitVec.ofNat 8 x.slot] _ row_1100_4 x.slot (by simp [beNat]; omega) (by decide) rfl
    (inRange_row ⟨Nat.zero_le _, Nat.le_of_lt_succ hslot⟩ (by decide)) _
    (by simp [State.putNumber, selectorsOf, h.present, State.reserve, hfree, Via.slot, show x.slot ≠ 255 by omega])

/-! ### The time of day (R357) -/

/-- Every number is in the row's range, so that a write of the time is answered with what setting it comes to. -/
theorem exec_timeOfDayWrite {v : W64} {t : DStatus} {u : State} (h : s.Manages x g b 0x1010 1 0) (hu : b.setTime v.toNat = (t, u)) :
    exec (.timeOfDayWrite g v) s = .next (u.answered x g (t, [Record.only t 1 4])) :=
  manage_ok h _ (beBytes 8 v.toNat) _ row_1010_1 (by decide) (by decide) (by decide) (length_beBytes 8 _) (by decide) (by decide) (by decide) v.toNat
    ((beNat_beBytes 8 _).trans (Nat.mod_eq_of_lt v.isLt)) (inRange_row ⟨Nat.zero_le _, Nat.le_of_lt_succ v.isLt⟩ (by decide)) t u
    (by simpa [State.putNumber, selectorsOf, h.present] using hu)

/-! ### The port, credentials and sessions (R344, R345, R352) -/

theorem exec_applyMgmtConfiguration (h : s.Manages x g b 0x1200 0x0D 0) :
    exec (.applyMgmtConfiguration g 1) s = .next ((b.loadPort.closeSessions (fun _ => true) true).wroteOk x g 0x1200 0x0D) :=
  writeTrue_pulls h row_1200_d rfl rfl

/-- Only bytes come in segments: a number is written the same, last segment or not (R339). -/
theorem writeItem_number {via : Via} {o : Outside} {ix sub off : Nat} {last : Bool} {bs : List Byte} {r : ObjRow} (hr : objRow ix sub = some r)
    (hty : r.ty ≠ 9 ∧ r.ty ≠ 10) : b.writeItem via o ix sub off last bs = b.writeItem via o ix sub off true bs := by
  simp [State.writeItem, hr, hty]

/-- A slot is enabled, and its sessions close (R345). -/
theorem exec_credentialWrite_enable {i : Item} (h : s.Manages x g b 0x1210 4 n) (hix : i.index = 0x1210) (hsub : i.sub = 4) (hlen : i.length = 1)
    (hoff : i.offset = 0) (hvalue : i.value = [1]) (hguarded : b.guarded = true)
    (hleft : (mapIf (·.num == n) (fun c => { c with enabled := true }) b.mgmt.creds).any Cred.admin = true) : exec (.credentialWrite g i) s =
      .next (((b.onMgmt fun m => { m with creds := mapIf (·.num == n) (fun c => { c with enabled := true }) m.creds }).closeSessions
        (·.cred == n) true).wroteOk x g 0x1210 4) := by
  have hw : b.writeItem (.session x.slot) Outside.unsaid i.index.toNat i.sub.toNat i.offset.toNat i.last i.value =
      (.ok, (b.onMgmt fun m => { m with creds := mapIf (·.num == n) (fun c => { c with enabled := true }) m.creds }).closeSessions (·.cred == n) true) := by
    rw [hix, hsub, hoff, hvalue]
    refine ((writeItem_number row_1210_4 (by decide)).trans (Manages_write h _ [1] _ row_1210_4 (by decide) rfl (by decide) rfl)).trans ?_
    rw [if_pos (inRange_row (by decide) (by decide)), ← writeCred_session_ok (k := x.slot) hguarded hleft]
    simp [State.putNumber, selectorsOf, h.present, beNat]
  change execCredentialWrite g i s = _
  rw [execCredentialWrite, takes_ok h.takes, h.begun, opWrite_one (by rw [hlen, hvalue]; rfl) (by simp [hvalue]) hw, hix, hsub]
  rfl

theorem exec_serviceRoleDisable (h : s.Manages x g b 0x1202 1 0) :
    exec (.serviceRoleDisable g) s = .next (((b.setRw 0x1202 1 0 0).closeSessions (·.role == 2) true).wroteOk x g 0x1202 1) :=
  manage_wrote h _ [0] _ row_1202_1 0 rfl (by decide) rfl (inRange_row (by decide) (by decide)) _ (by simp [State.putNumber, selectorsOf, h.present])

theorem exec_sessionCloseCommand (h : s.Manages x g b 0x1211 8 n) :
    exec (.sessionCloseCommand g 1) s = .next ((b.closeSessions (·.slot == n) true).wroteOk x g 0x1211 8) :=
  writeTrue_pulls h row_1211_8 rfl rfl

/-! ### Selectors of the windows (R79, R385), and clusters held off (R398) -/

theorem exec_sequenceWindowSelect {v : W64} (h : s.Manages x g b 0x2102 1 n) :
    exec (.sequenceWindowSelect g v) s = .next ((b.select (.session x.slot) 0x2102 1 v.toNat).wroteOk x g 0x2102 1) :=
  manage_wrote h _ (beBytes 8 v.toNat) _ row_2102_1 v.toNat ((beNat_beBytes 8 _).trans (Nat.mod_eq_of_lt v.isLt)) (by decide) (length_beBytes 8 _)
    (inRange_row ⟨Nat.zero_le _, Nat.le_of_lt_succ v.isLt⟩ (by decide)) _ (by simp [State.putNumber, selectorsOf])

theorem exec_meterTenantSelect {v : W16} (h : s.Manages x g b 0x8010 2 n) :
    exec (.meterTenantSelect g v) s = .next ((b.select (.session x.slot) 0x8010 2 v.toNat).wroteOk x g 0x8010 2) :=
  manage_wrote h _ (beBytes 2 v.toNat) _ row_8010_2 v.toNat ((beNat_beBytes 2 _).trans (Nat.mod_eq_of_lt v.isLt)) (by decide) (length_beBytes 2 _)
    (inRange_row ⟨Nat.zero_le _, Nat.le_of_lt_succ v.isLt⟩ (by decide)) _ (by simp [State.putNumber, selectorsOf])

theorem exec_clusterHoldOff {v : Byte} (h : s.Manages x g b 0x7812 3 n) (hv : v.toNat ≤ 1) :
    exec (.clusterHoldOff g v) s = .next ((b.holdOff n (v.toNat == 1)).wroteOk x g 0x7812 3) :=
  manage_wrote h _ [v] _ row_7812_3 v.toNat (by simp [beNat]) (by decide) rfl (inRange_row ⟨Nat.zero_le _, hv⟩ (by decide)) _
    (by simp [State.putNumber, selectorsOf, h.present])

/-- Settles O47: each command by its lemma, a commit and a time by what they come to. -/
theorem managementObjectsAreWritten : Obligations.ManagementObjectsAreWritten := by
  refine fun s b x g => ⟨fun h hfree hhold => ⟨?_, ?_⟩, fun h => ⟨exec_discardShadow h, exec_discardShadow_reserved h⟩,
    fun h hfree => ⟨exec_shadowReservation_release h hfree, exec_shadowReservation_take h hfree⟩, fun h t => ⟨fun hle => ?_, fun hlt => ?_⟩,
    exec_applyMgmtConfiguration, fun n i h hix hsub hlen hoff hvalue => exec_credentialWrite_enable h hix hsub hlen hoff hvalue, exec_serviceRoleDisable,
    fun n h v => exec_sequenceWindowSelect h, ?_, fun n => exec_sessionCloseCommand, fun n h v => exec_clusterHoldOff h⟩
  · rintro _ hcheck rfl
    have hu := commitVia_accepted h.administrator hfree hhold hcheck
    rw [State.wroteOk, row_1100_1]
    exact ⟨exec_commit h hu true, exec_commit h hu false⟩
  · rintro n d byOp hcheck st _ hst rfl
    exact exec_commit h (commitVia_refused h.administrator hfree hhold hcheck hst) byOp
  · rw [State.wroteOk, row_1010_1]
    exact exec_timeOfDayWrite h (if_neg hle.not_gt)
  · exact exec_timeOfDayWrite h (if_pos hlt)
  · rintro n h v _ rfl
    exact exec_meterTenantSelect h

end Sys2Proof.Machine
end

section
/-!
PROOFS. The I3C link and address requests (R344, R355, R356, log 134): one lemma for each way an access can go.
-/
namespace Sys2Proof.Machine

variable {s u : State}

section
variable (hp : s.dev.phase ≠ .heldInReset)
include hp

theorem exec_i3cWrite {ix : W16} {sub : Byte} {off : Option W16} {last : Bool} {v : List Byte} {boot : BootReport} (hu : u = s.bump 0x1220 3 0 1) :
    exec (.i3cWrite ix sub off last v boot) s = .next (if i3cBad ix.toNat sub.toNat off v.length then u.bump 0x1220 5 0 1
      else (u.writeItem .i3c { Outside.unsaid with boot := some boot } ix.toNat sub.toNat ((off.map (·.toNat)).getD 0) (last || off.isNone) v).2.settle) := by
  subst hu
  change execI3cWrite ix sub off last v boot s = _
  rw [execI3cWrite, if_neg (by simpa using hp)]

/-- A read in a form the link has draws its object's bytes, at most 64 at once (R355). -/
theorem exec_i3cRead {ix : W16} {sub : Byte} {off : Option W16} {r : Record × State} (hu : u = s.bump 0x1220 3 0 1)
    (hgood : i3cBad ix.toNat sub.toNat off 0 = false) (hr : u.readItem .i3c ix.toNat sub.toNat (if off.isNone then 0
      else min 64 ((((objRow ix.toNat sub.toNat).map (·.len)).getD 0) - (off.map (·.toNat)).getD 0)) ((off.map (·.toNat)).getD 0) = r) :
    exec (.i3cRead ix sub off) s = .next (r.2.onMgmt fun m => { m with out := m.out ++ [.i3cData r.1.status r.1.data] }) := by
  subst hu hr
  change execI3cRead ix sub off s = _
  rw [execI3cRead, if_neg (by simpa using hp)]
  simp only [hgood, Bool.false_eq_true, if_false]

theorem exec_i3cRead_bad {ix : W16} {sub : Byte} {off : Option W16} (hu : u = s.bump 0x1220 3 0 1) (hbad : i3cBad ix.toNat sub.toNat off 0 = true) :
    exec (.i3cRead ix sub off) s = .next ((u.bump 0x1220 5 0 1).onMgmt fun m => { m with out := m.out ++ [.i3cData .length []] }) := by
  subst hu
  change execI3cRead ix sub off s = _
  rw [execI3cRead, if_neg (by simpa using hp)]
  simp only [hbad, if_true]

theorem exec_i3cAddressAssignment (a : BitVec 7) : exec (.i3cAddressAssignment a) s = .next (s.onMgmt fun m => { m with i3cAddr := a.toNat }) := by
  change execI3cAddressAssignment a s = _
  rw [execI3cAddressAssignment, if_neg (by simpa using hp)]

end

/-- A port that serves and has an address of either kind is open (R344). -/
theorem portOpen_of_address {isArp : Bool} (hserves : s.portServes = true)
    (hown : sget s.mgmt.applied (okey 0x1200 (if isArp then 5 else 8) 0) 0 ≠ 0) : s.portOpen = true := by
  rw [State.portOpen, hserves, Bool.true_and, Bool.or_eq_true, bne_iff_ne, bne_iff_ne]
  cases isArp with
  | true => exact .inl hown
  | false => exact .inr hown

/-- A request for the port's own address is answered, and one for another is dropped and counted (R344). -/
theorem exec_arpOrNeighbourSolicitation {isArp : Bool} {target own : Nat} (hserves : s.portServes = true)
    (hown : own = sget s.mgmt.applied (okey 0x1200 (if isArp then 5 else 8) 0) 0) (hset : own ≠ 0) : exec (.arpOrNeighbourSolicitation isArp target) s =
      .next (if own = target then (s.bump 0x1200 0x0C 0 1).onMgmt fun m => { m with out := m.out ++ [.arp isArp target] }
        else (s.bump 0x1200 0x0C 0 1).bump 0x1200 0x0E 0 1) := by
  have hopen : s.portOpen = true := portOpen_of_address hserves (hown ▸ hset)
  change execArpOrNeighbourSolicitation isArp target s = _
  simp only [execArpOrNeighbourSolicitation, hserves, hopen, ← hown, hset, Bool.not_true, Bool.false_eq_true, if_false, Bool.true_and, ne_eq,
    not_false_eq_true, decide_true, decide_eq_true_eq]

/-- Settles O50: each access by its lemma. -/
theorem i3cAndAddressRequests : Obligations.I3cAndAddressRequests := fun _ _ =>
  ⟨fun hp hu => ⟨fun _ _ _ _ _ _ => exec_i3cWrite hp hu, fun _ _ _ => ⟨exec_i3cRead_bad hp hu, fun _ => exec_i3cRead hp hu⟩,
    exec_i3cAddressAssignment hp⟩, fun _ _ _ => exec_arpOrNeighbourSolicitation⟩

end Sys2Proof.Machine
end

section
/-!
PROOFS. The fault collector (R27, R361 to R369): records, dropped records and severe signals, while management runs.
-/
namespace Sys2Proof.Machine

section
variable {s : State} (hm : s.managed = true)
include hm

/-! ### Records and dropped records (R361, R363, R365) -/

/-- The oldest record of a queue leaves it for the collector. -/
theorem exec_faultRecord_queued {i : Nat} {r : SourceRecord} {l : List SourceRecord} (hq : (s.faultQueue i).recs = r :: l) :
    exec (.faultRecord (.queued i)) s = .next ((s.setQueue { s.faultQueue i with recs := l }).collect r).settle := by
  change execFaultRecord (.queued i) s = _
  unfold execFaultRecord
  simp only [hm, Bool.not_true, Bool.false_eq_true, if_false, hq]

/-- An event detected now first goes on its way; then the oldest record of the queue it may have entered is taken. -/
theorem exec_faultRecord_detected {i : Nat} {x r : SourceRecord} {l : List SourceRecord} (hsource : isSource x.source.toNat = true)
    (hkind : isKind x.kind.toNat = true) (hunit : s.unitPresent x.source.toNat = true) (hq : ((s.detect i x).faultQueue i).recs = r :: l) :
    exec (.faultRecord (.detected i x)) s =
      .next (((s.detect i x).setQueue { (s.detect i x).faultQueue i with recs := l }).collect r).settle := by
  change execFaultRecord (.detected i x) s = _
  have hreal : (isSource x.source.toNat && isKind x.kind.toNat && s.unitPresent x.source.toNat) = true := by rw [hsource, hkind, hunit]; rfl
  unfold execFaultRecord
  simp only [hm, Bool.not_true, Bool.false_eq_true, if_false, if_pos hreal, hq]

theorem exec_faultQueueDropReport {i : Nat} (hdropped : (s.faultQueue i).dropped ≠ 0) (hroom : (s.faultQueue i).recs.length < 16) :
    exec (.faultQueueDropReport i) s = .next (((s.setQueue { s.faultQueue i with dropped := 0 }).reportUnit (srcIsland i) 0x42
      (s.faultQueue i).dropped 0).bump 0x7010 6 0 (s.faultQueue i).dropped) := by
  change execFaultQueueDropReport i s = _
  rw [execFaultQueueDropReport, if_neg (by simpa [hm, hdropped] using hroom)]

/-! ### Severe signals (R27, R367) -/

theorem exec_severeSignal {p : SeverePair} (hp : s.pairExists p = true) (b : Bool) : exec (.severeSignal p b) s = .next (s.severe p b).settle := by
  change execSevereSignal p b s = _
  rw [execSevereSignal, if_pos (Bool.and_eq_true_iff.2 ⟨hm, hp⟩)]

theorem exec_trussHandshakeTimeout {w : Nat} {x : Option Nat} (hp : s.pairExists (.handshake w x) = true) :
    exec (.trussHandshakeTimeout w x) s = .next ((s.bump 0x2021 5 w 1).severe (.handshake w x) false).settle := by
  change execTrussHandshakeTimeout w x s = _
  rw [execTrussHandshakeTimeout, if_pos (Bool.and_eq_true_iff.2 ⟨hm, hp⟩)]

end

/-- Settles O38: each command by its lemma. -/
theorem faultsReachTheCollector : Obligations.FaultsReachTheCollector := by
  refine fun s hm => ⟨fun _ _ _ => exec_faultRecord_queued hm, ?_, fun _ => exec_faultQueueDropReport hm, fun _ b hp => exec_severeSignal hm hp b,
    fun _ _ => exec_trussHandshakeTimeout hm⟩
  rintro i x _ r l hsource hkind hunit rfl hq
  exact exec_faultRecord_detected hm hsource hkind hunit hq

end Sys2Proof.Machine
end

section
/-!
PROOFS. The pins (R371, R380, R381, R399, R404, R424): the alive signal, the external inputs, the reset they hold and the safe power level.
-/
namespace Sys2Proof.Machine

variable {s : State}

theorem exec_faultAliveToggle (ha : s.faults.alive = 1) :
    exec .faultAliveToggle s = .next (s.onFaults fun f => { f with aliveLevel := !f.aliveLevel }) := by
  change execFaultAliveToggle s = _
  rw [execFaultAliveToggle, if_pos ha]

/-! ### A changed level (R380, R381, R404) -/

section
variable {l : Bool}

theorem exec_throttleNChange {u : State} (hchange : (s.input 0).active ≠ l) (hu : u = s.safeInput 0 0x5B l) :
    exec (.throttleNChange l) s = .next ((u.onPower fun p => { p with
      throttleN := p.throttleN || (u.input 0).active || (u.input 0).chatter, throttleOff := s.us }).noteThrottle).settle := by
  subst hu
  change execThrottleNChange l s = _
  rw [execThrottleNChange, if_neg (by simpa using hchange)]

theorem exec_vrFaultNChange {u : State} (hchange : (s.input 1).active ≠ l) (hu : u = s.safeInput 1 0x5A l) :
    exec (.vrFaultNChange l) s = .next ((u.onPower fun p => { p with
      vrFault := p.vrFault || (u.input 1).active || (u.input 1).chatter, vrOff := s.us }).noteThrottle).settle := by
  subst hu
  change execVrFaultNChange l s = _
  rw [execVrFaultNChange, if_neg (by simpa using hchange)]

/-- The device stays in reset while the input is active or chatters, and else boots. -/
theorem exec_resetNChange (b : BootReport) {j : Input} (hchange : (s.input 2).active ≠ l) (hj : j = (s.input 2).change l s.us) :
    exec (.resetNChange l b) s =
      .next (if l || j.chatter then (s.onInput 2 fun _ => { j with owed := if j.chatter then some 0x59 else j.owed }).holdInReset
        else ((s.onInput 2 fun _ => { j with owed := if j.chatter then some 0x59 else j.owed }).reboot b true).settle) := by
  subst hj
  change execResetNChange l b s = _
  rw [execResetNChange, if_neg (by simpa using hchange)]

end

/-! ### Stuck inputs and the end of chatter (R380, R381) -/

theorem exec_inputStuck {n : Nat} (hn : n < 3) (hactive : (s.input n).active = true) (hnew : (s.input n).stuck = false)
    (hdue : s.due ((s.input n).since + 1000 * s.rw 0x7050 3 n) = true) :
    exec (.inputStuck n) s = .next (if n = 2 then s.onInput 2 fun i => { i with stuck := true, owed := some 0x58 }
      else ((s.onInput n fun i => { i with stuck := true }).inputRecord n 0x58).settle) := by
  change execInputStuck n s = _
  rw [execInputStuck, if_neg (by simp [hactive, hnew, hdue, Nat.le_of_lt_succ hn])]

section
variable {n : Nat} (hchatter : (s.input n).chatter = true) (hdue : s.due ((s.input n).since + 10000) = true)
include hchatter hdue

/-- An input that exists, whose chatter is at its end: what follows turns on which input it is. -/
theorem exec_inputChatterEnd {u : State} (hn : n < 3) (hu : u = s.onInput n fun i => { i with chatter := false }) : exec (.inputChatterEnd n) s =
    .next (if n = 2 then (if (s.input n).active then u else (u.freeBoot.2.reboot u.freeBoot.1 true).settle)
      else (u.onPower fun p => if n = 0 then { p with throttleOff := s.us } else { p with vrOff := s.us }).settle) := by
  subst hu
  change execInputChatterEnd n s = _
  rw [execInputChatterEnd, if_neg (by simp [hchatter, hdue, Nat.le_of_lt_succ hn])]

theorem exec_inputChatterEnd_safe (hn : n < 2) : exec (.inputChatterEnd n) s = .next ((s.onInput n fun i => { i with chatter := false }).onPower fun p =>
    if n = 0 then { p with throttleOff := s.us } else { p with vrOff := s.us }).settle := by
  rw [exec_inputChatterEnd hchatter hdue (hn.trans (by decide)) rfl, if_neg hn.ne]

end

theorem exec_inputChatterEnd_reset {u : State} (hchatter : (s.input 2).chatter = true) (hdue : s.due ((s.input 2).since + 10000) = true)
    (hu : u = s.onInput 2 fun i => { i with chatter := false }) :
    exec (.inputChatterEnd 2) s = .next (if (s.input 2).active then u else (u.freeBoot.2.reboot u.freeBoot.1 true).settle) := by
  rw [exec_inputChatterEnd hchatter hdue (by decide) hu, if_pos rfl]

/-! ### The end of the safe power level (R381, R399, R422) -/

/-- Input `n`, last active or chattering at `off`, has asked for no safe level for 100 ms. -/
def State.askCeased (s : State) (n off : Nat) : Bool := !(s.input n).active && !(s.input n).chatter && s.due (off + 100000)

theorem askCeased_iff {n off : Nat} :
    s.askCeased n off = true ↔ (s.input n).active = false ∧ (s.input n).chatter = false ∧ off + 100000 ≤ s.clock.us := by
  simp only [State.askCeased, Bool.and_eq_true, Bool.not_eq_true', due_iff, and_assoc]

theorem exec_safeLevelExit_throttle :
    exec (.safeLevelExit 0) s = .next (s.onPower fun p => { p with throttleN := p.throttleN && !s.askCeased 0 p.throttleOff }).settle := rfl

theorem exec_safeLevelExit_vrFault :
    exec (.safeLevelExit 1) s = .next (s.onPower fun p => { p with vrFault := p.vrFault && !s.askCeased 1 p.vrOff }).settle := rfl

/-- The two causes that are inputs, each with the time at which its input last asked for the safe level. -/
theorem exec_safeLevelExit_input {n off : Nat} (hcause : (n = 0 ∧ off = s.power.throttleOff) ∨ (n = 1 ∧ off = s.power.vrOff)) :
    exec (.safeLevelExit n) s = .next (if s.askCeased n off
      then s.onPower fun p => if n = 0 then { p with throttleN := false } else { p with vrFault := false } else s).settle := by
  obtain ⟨rfl, rfl⟩ | ⟨rfl, rfl⟩ := hcause
  · rw [exec_safeLevelExit_throttle]
    cases h : s.askCeased 0 s.power.throttleOff <;> simp [State.onPower, h]
  · rw [exec_safeLevelExit_vrFault]
    cases h : s.askCeased 1 s.power.vrOff <;> simp [State.onPower, h]

theorem exec_safeLevelExit_rail : exec (.safeLevelExit 2) s = .next (s.onPower fun p => { p with
    railTrip := p.railTrip && s.clock.us < p.railUntil + 100000
    avsFault := if p.avsOkSince + 100000 ≤ s.clock.us then [] else p.avsFault }).settle := by
  change execSafeLevelExit 2 s = _
  simp [execSafeLevelExit, State.due, ← decide_not]

/-- Settles O39: each command by its lemma, and the end of an input's cause by whether the input has ceased to ask. -/
theorem pinsHoldTheSafeLevelAndReset : Obligations.PinsHoldTheSafeLevelAndReset := by
  refine fun s => ⟨exec_faultAliveToggle, fun _ _ => exec_throttleNChange, fun _ _ => exec_vrFaultNChange, fun _ b _ => exec_resetNChange b, rfl,
    fun _ => exec_inputStuck, fun _ hn hchatter hdue => exec_inputChatterEnd_safe hchatter hdue hn,
    fun hchatter hdue _ => exec_inputChatterEnd_reset hchatter hdue, fun n off hcause => ⟨fun hceased => ?_, fun hasks => ?_⟩, exec_safeLevelExit_rail⟩
  · rw [exec_safeLevelExit_input hcause, if_pos (askCeased_iff.2 hceased)]
  · rw [exec_safeLevelExit_input hcause, if_neg (askCeased_iff.not.2 hasks)]

end Sys2Proof.Machine
end

section
/-!
PROOFS. Mailboxes (R389 to R392): what a write comes to by where it lies and by its mailbox's domain, what a message comes to by R390's checks in their order, and
what ends a message that is held.
-/
namespace Sys2Proof.Machine

theorem exec_mailboxWrite {s : State} (hs : s.serving = true) (w : MailboxWrite) :
    exec (.mailboxWrite w) s = .next (s.boxEntry w true fun s q p n => s.boxMessage w q p n).settle := by
  change execMailboxWrite w s = _
  exact event_ok hs _

theorem exec_mailboxDoorbell {s : State} (hs : s.serving = true) (w : MailboxWrite) :
    exec (.mailboxDoorbell w) s = .next (s.boxEntry w false fun s _ p _ => s.wakeEvent p).settle := by
  change execMailboxDoorbell w s = _
  exact event_ok hs _

/-! ### Where a write lies, and whether its domain is on (R389, R390, R392) -/

section
variable {s u : State} {w : MailboxWrite} {q : Qp} (hq : s.qp w.qp = some q) (hc : q.connected = true) (answers : Bool) (run : State → Qp → Nat → Nat → State)
include hq hc

theorem boxEntry_outside (hb : boxAt q.part w.addr.toNat w.key.toNat = none) : s.boxEntry w answers run = s.refuseAccess q := by
  simp only [State.boxEntry, hq, hc, hb, Bool.not_true, Bool.false_eq_true, if_false]

variable {p n off : Nat} (hb : boxAt q.part w.addr.toNat w.key.toNat = some (p, n, off)) (hu : u = (s.heard q).rxPackets q (max 1 w.packets))
include hb hu

/-- A write that lies in a mailbox is judged by its form, and then by the mailbox's domain. -/
theorem boxEntry_inside : s.boxEntry w answers run =
    if w.packets ≠ 1 ∨ 256 < off + w.length then u.control q.lp (.nakInvalid q.num)
    else if u.domainOff p then
      let e := ((u.bump 0x7802 6 (boxItem p n) 1).control q.lp (.nakAccess q.num 7)).qpError q.num true
      if answers then e.answer (reqOf { qp := q.num, length := w.length, hdr := w.hdr } 0x40) .domainOff else e
    else run u q p n := by
  subst hu
  simp only [State.boxEntry, hq, hc, hb, Bool.not_true, Bool.false_eq_true, if_false, Bool.or_eq_true, decide_eq_true_eq]

theorem boxEntry_misfit (hbad : w.packets ≠ 1 ∨ 256 < off + w.length) : s.boxEntry w answers run = u.control q.lp (.nakInvalid q.num) := by
  rw [boxEntry_inside hq hc answers run hb hu, if_pos hbad]

variable (hone : w.packets = 1) (hin : off + w.length ≤ 256)
include hone hin

theorem boxEntry_domainOff (hoff : u.domainOff p = true) {e : State}
    (he : e = ((u.bump 0x7802 6 (boxItem p n) 1).control q.lp (.nakAccess q.num 7)).qpError q.num true) :
    s.boxEntry w answers run = if answers then e.answer (reqOf { qp := q.num, length := w.length, hdr := w.hdr } 0x40) .domainOff else e := by
  rw [boxEntry_inside hq hc answers run hb hu, if_neg (by omega), if_pos hoff, he]

theorem boxEntry_runs (hon : u.domainOff p = false) : s.boxEntry w answers run = run u q p n := by
  rw [boxEntry_inside hq hc answers run hb hu, if_neg (by omega), if_neg (by simp [hon])]

end

/-! ### What a message comes to (R390, R391) -/

section
variable {u v : State} {w : MailboxWrite} {q : Qp} {p n : Nat}

theorem boxMessage_full (hkind : u.boxKind p n ≠ 2) (hfull : (u.mailbox p n).isSome = true) :
    u.boxMessage w q p n = (u.control q.lp (.rnrNak q.num (q.param 0x5030 4))).bump 0x7802 7 (boxItem p n) 1 := by
  rw [State.boxMessage, if_pos (by simp [hkind, hfull])]

theorem not_boxFull (hroom : u.boxKind p n = 2 ∨ u.mailbox p n = none) : ¬(u.boxKind p n ≠ 2 && (u.mailbox p n).isSome) = true := by
  rcases hroom with h | h <;> simp [h]

variable (hroom : u.boxKind p n = 2 ∨ u.mailbox p n = none)
  (hv : v = (u.bump 0x5100 9 (q.part * 65536 + w.hdr.tenant.toNat) w.length).bump 0x5002 9 q.lp w.length)
include hroom hv

/-- A message that the mailbox has room for is checked first. -/
theorem boxMessage_refused {st : Status} (hfault : v.boxFault q w p n = some st) : u.boxMessage w q p n =
    (v.noteRefusal q w.hdr st).boxAnswer (some (reqOf { qp := q.num, length := w.length, hdr := w.hdr } 0x40)) st [] := by
  subst hv
  rw [State.boxMessage, if_neg (not_boxFull hroom)]
  simp only [hfault]

/-- A message that no check fails is charged to its policer. -/
theorem boxMessage_checked (hfault : v.boxFault q w p n = none) {r : Bool × Nat × State}
    (hr : v.police (lpDie q.lp) q.part w.hdr.tenant.toNat w.length false = r) : u.boxMessage w q p n =
    let req := reqOf { qp := q.num, length := w.length, hdr := w.hdr } 0x40
    if r.1 = true then
      if u.boxKind p n = 2
      then ((r.2.2.meterBytes q.part w.hdr.tenant.toNat w.length).wakeEvent p).boxAnswer (some req) .ok [packWord [(8, n), (56, 0)]]
      else (r.2.2.meterBytes q.part w.hdr.tenant.toNat w.length).fillBox p n w.hdr w.body false (q.node.getD 0) (some req)
    else if r.2.1 = 1 then r.2.2.bump 0x5100 0x0B (q.part * 65536 + w.hdr.tenant.toNat) 1
      else (r.2.2.noteRefusal q w.hdr .policed).boxAnswer (some req) .policed [] := by
  subst hv hr
  rw [State.boxMessage, if_neg (not_boxFull hroom)]
  simp only [hfault, Bool.not_eq_true', ← Bool.not_eq_true, ite_not]

end

/-! ### The end of a message that is held (R391) -/

/-- The receiver's status says whether it took the message. -/
theorem exec_mailboxReceiverCompletion {s u : State} {q : Qp} {r : Reply} {a : Ask} {p n : Nat} {b : Mailbox} (ha : s.Answers q r AskKind.isMailbox a u)
    (hk : a.kind = .mailbox p n) (hb : u.mailbox p n = some b) :
    exec (.mailboxReceiverCompletion r) s = .next (if r.status = 0 then u.takeBox b else u.discardBox b .retryLater).settle := by
  refine congrArg Host.Outcome.next ((reply_ok ha _).trans ?_)
  simp only [hk, hb]

theorem exec_mailboxDeliveryTimeout {s : State} {p n : Nat} {b : Mailbox} (hs : s.serving = true) (hb : s.mailbox p n = some b) (hdel : b.delivering = true)
    (hdue : s.due b.untilUs = true) : exec (.mailboxDeliveryTimeout p n) s =
      .next ((s.onBroker fun k => { k with asks := k.asks.filter fun a => a.kind != .mailbox p n }).discardBox b .retryLater).settle := by
  change execMailboxDeliveryTimeout p n s = _
  simp only [execMailboxDeliveryTimeout, event_ok hs, hb, hdel, hdue, Bool.and_self, if_true]

/-- Settles O29: a write by where it lies and its domain, a message by room, checks and policer, and the end of a held one by its lemma. -/
theorem mailboxesTakeHoldAndDiscard : Obligations.MailboxesTakeHoldAndDiscard := by
  refine ⟨fun s w q hs hq hc hb c hmem => ?_, fun s u w q p n off hs hq hc hb hu => ⟨fun hbad c hmem => ?_, fun hone hin => ⟨fun hoff e he => ?_, fun hon => ?_⟩⟩,
    fun s u q r a p n b => exec_mailboxReceiverCompletion, fun s p n b => exec_mailboxDeliveryTimeout⟩
  · obtain rfl | rfl := List.mem_pair.1 hmem
    · rw [exec_mailboxWrite hs, boxEntry_outside hq hc _ _ hb]
    · rw [exec_mailboxDoorbell hs, boxEntry_outside hq hc _ _ hb]
  · obtain rfl | rfl := List.mem_pair.1 hmem
    · rw [exec_mailboxWrite hs, boxEntry_misfit hq hc _ _ hb hu hbad]
    · rw [exec_mailboxDoorbell hs, boxEntry_misfit hq hc _ _ hb hu hbad]
  · have hentry := fun answers run => boxEntry_domainOff hq hc answers run hb hu hone hin hoff he
    exact ⟨by rw [exec_mailboxWrite hs, hentry, if_pos rfl], by rw [exec_mailboxDoorbell hs, hentry, if_neg Bool.false_ne_true]⟩
  · have hentry := fun answers run => boxEntry_runs hq hc answers run hb hu hone hin hon
    rw [exec_mailboxWrite hs, exec_mailboxDoorbell hs, hentry, hentry]
    refine ⟨rfl, fun hkind hfull => ?_, fun v hroom hv => ⟨fun st hfault => ?_, fun r hfault hr hheld => ?_, fun r hfault hr hpass => ?_⟩⟩
    · rw [boxMessage_full hkind hfull]
    · rw [boxMessage_refused hroom hv hfault]
    · rw [boxMessage_checked hroom hv hfault hr, if_neg (Bool.eq_false_iff.1 hheld)]
    · rw [boxMessage_checked hroom hv hfault hr, if_pos hpass]

end Sys2Proof.Machine
end

section
/-!
PROOFS. The block as a whole: what a step runs (log 12), and that every command answers (Laws/Exec.lean).
-/
namespace Sys2Proof.Machine

/-- Settles O55: a command leads to a next state that holds to the queue and to the configuration. -/
theorem everyCommandAnswers : Obligations.EveryCommandAnswers := by
  intro c s
  obtain ⟨t, ht, hheld⟩ := exec_held c s
  exact ⟨t, ht, hheld.pending, hheld.part⟩

theorem step_cons (c : Instr) (s : State) : step { s with pending := c :: s.pending } = exec c s := rfl

theorem step_nil {s : State} (h : s.pending = []) : step s = .next s.tick := by
  rw [step, h]

/-- Settles O54: by whether the queue holds a command. -/
theorem stepRunsTheFrontCommand : Obligations.StepRunsTheFrontCommand :=
  fun s => ⟨fun c => step_cons c s, step_nil, rfl, rfl⟩

end Sys2Proof.Machine
end
